-- ==== Sys2Proof/Word.lean ====
section
/-! DEFINITION. The byte type, and the list and table helpers with no rule of the spec behind them. -/

namespace Sys2Proof

/-- One byte of a packet, a blob or a memory. -/
abbrev Byte := BitVec 8

/-- A byte string. -/
abbrev Bytes := List Byte

/-- A sparse table: pairs of a key and a value, keys strictly rising. -/
abbrev Table (α : Type) := List (Nat × α)

/-- The value stored at `k`, if any. -/
def Table.find {α : Type} : Table α → Nat → Option α
  | [], _ => none
  | (j, v) :: t, k => if j = k then some v else Table.find t k

/-- The value stored at `k`, or `d` where none is. -/
def Table.get {α : Type} (t : Table α) (d : α) (k : Nat) : α := (Table.find t k).getD d

/-- The table with `k` holding `v`; the keys stay in rising order. -/
def Table.put {α : Type} : Table α → Nat → α → Table α
  | [], k, v => [(k, v)]
  | (j, w) :: t, k, v =>
    if k < j then (k, v) :: (j, w) :: t
    else if k = j then (k, v) :: t
    else (j, w) :: Table.put t k v

/-- The table without `k`. -/
def Table.del {α : Type} (t : Table α) (k : Nat) : Table α := t.filter (fun x => x.1 != k)

/-- The values of a table, in key order. -/
def Table.vals {α : Type} (t : Table α) : List α := t.map Prod.snd

/-- The keys strictly rise. -/
def Table.rising {α : Type} : Table α → Bool
  | [] => true
  | [_] => true
  | a :: b :: t => decide (a.1 < b.1) && Table.rising (b :: t)

end Sys2Proof
end

