-- ==== Sys2Proof/Syntax.lean ====
section
/-! DEFINITION. The commands the device takes: one constructor of `Instr` per row of the table of operations and events,
with the operands the outside gives it. Durations are ns, voltages mV, temperatures whole °C, fabric time ns. -/

namespace Sys2Proof

/-- A quorum-completing source of a disruptive write (R369, R419), or the claim session's unsigned write (R368). -/
inductive QSrc where
  /-- The signature that completes the quorum of `nonce`: the signer's MANAGER_CERT slot and 96 signature bytes. -/
  | signed (nonce slot : Nat) (sig : Bytes)
  /-- The value the claim session writes without signatures. -/
  | claim (value : Bytes)
deriving DecidableEq, Repr

/-- A Zorord packet with the header fields of R73. -/
structure Packet where
  ptype : Nat
  tc : Nat
  flag : Bool := false
  poison : Bool := false
  srcDev : Nat
  dstDev : Nat
  tenant : Nat
  tag : Nat
  addr : Nat
  data : Bytes := []
  /-- LEN of a MEM_RD: the bytes it asks for. -/
  want : Nat := 0
deriving DecidableEq, Repr

/-- A Zorord flit: header words 0 and 1 of R72, its packets, its tag, whether its codewords and its CRC-32C pass, and the pre-FEC symbol errors of
each lane (R71, R91). -/
structure Flit where
  w0 : Nat
  w1 : Nat
  pkts : List Packet := []
  tag : Bytes := []
  fecOk : Bool := true
  crcOk : Bool := true
  symErrs : List Nat := []
deriving DecidableEq, Repr

/-- What a command to a switch ingress names: a flex port, a peer port, or one tenant on a flex port (R109). -/
inductive Ingress where
  | flex (p : Nat)
  | peer (q : Nat)
  | tenantOn (p t : Nat)
deriving DecidableEq, Repr

/-- Where a host access goes: a device physical address, BAR0, BAR2, or the HDM-DB view (R62, R126, R159, R190). -/
inductive HostSpace where
  | dpa
  | bar0
  | bar2
deriving DecidableEq, Repr

/-- The source of data-class accesses (R149). -/
inductive Source where
  | host (p l : Nat)
  | peer (dev tenant : Nat)
  | engine (e ctx : Nat)
  | root
deriving DecidableEq, Repr

/-- The atomics of R154. -/
inductive AtomicOp where
  | fetchAdd | swap | cas | fetchMin | fetchMax
deriving DecidableEq, Repr

/-- What the arbiter measures and is told at an epoch boundary (R36, R39, R40, R43, R54). -/
structure ArbInput where
  /-- V24_IN in mV. -/
  mv : Nat
  /-- Input power averaged over the epoch that ends, in mW. -/
  inputMw : Nat
  /-- Measured conversion efficiency, in 1/10,000; 0 where none has been measured. -/
  eta : Nat
  /-- Measured draw of the AON domain, in 0.1 W. -/
  pAon : Nat
  /-- Measured retention supply of parked stacks, in 0.1 W (R448). -/
  retention : Nat
  /-- Hottest die junction in °C. -/
  temp : Nat
  /-- The demands the domains reported, subindex 1 to 20, in 0.1 W. -/
  demands : List Nat
  /-- Flex ports whose lanes were idle for the whole epoch. -/
  idleFlex : List Nat
  /-- Peer ports whose lanes were idle for the whole epoch. -/
  idlePeer : List Nat
deriving DecidableEq, Repr

/-- One end of a flex link as its training finds it: the rates (GT/s) and the widest width the partner supports. -/
structure FlexPartner where
  rates : List Nat
  width : Nat
  /-- Transmitter presets found, one byte per lane (R68). -/
  presets : Bytes
  /-- Memory tray: capacity in GiB the expander reports, and whether it supports IDE (R65). -/
  trayGiB : Nat
  trayIde : Bool
  /-- Flash tray: whether it reports a volatile write cache (R67). -/
  volatileCache : Bool
  /-- Memory tray: the expander's CXL version in tenths, and its logical devices (R65). -/
  cxlVersion : Nat := 31
  logicalDevices : Nat := 1
  /-- Flash tray: of each namespace, whether it offers a 4 KiB LBA format without metadata (R66). -/
  namespaces : List Bool := [true]
deriving DecidableEq, Repr

/-- A fabric map (R301), with the fabric time of its last expulsion (R400). -/
structure FMember where
  dev : Nat
  group : Nat
  dies : Nat
deriving DecidableEq, Repr

/-- See `FMember`. -/
structure FMap where
  epoch : Nat
  proposer : Nat
  members : List FMember
  overrides : List (Nat × Nat × Nat)
  lastExpel : Option Nat := none
deriving DecidableEq, Repr

/-- One stored position of a page: codes and scales of its K and V rows, and its GLOBAL bit (R212, R274). -/
structure Pos where
  kc : List Nat
  ks : List Nat
  vc : List Nat
  vs : List Nat
  global : Bool
deriving DecidableEq, Repr

/-- A MIRROR packet (R276): the owner's claim epoch, the sequence, the page, its first slot and the new positions. -/
structure Mirror where
  owner : Nat
  epoch : Nat
  fabTag : Nat
  seqId : Nat
  layer : Nat
  head : Nat
  block : Nat
  group : Nat
  slot : Nat
  pos : List Pos
  /-- The page's new summary: scales, minima and maxima as in a PAGE_REF (R276, R281). -/
  sum : Bytes
deriving DecidableEq, Repr

/-- A sequence's shape (R263). -/
structure Shape where
  fmt : Nat
  dim : Nat
  layers : Nat
  heads : Nat
  domain : Option Nat
deriving DecidableEq, Repr

/-- One page as it is stored: its place in the block table and its positions in slot order (R209, R210). -/
structure PageImage where
  layer : Nat
  head : Nat
  block : Nat
  group : Nat
  pos : List Pos
  /-- The device where the page lies (R281, R306). -/
  dev : Nat
deriving DecidableEq, Repr

/-- A sequence's metadata as a handoff or catch-up carries it (R306, R309). -/
structure SeqImage where
  fabTag : Nat
  seqId : Nat
  shape : Shape
  prefixBlocks : Nat
  /-- The key of the last linked block (R293, R296). -/
  lastKey : Bytes
  /-- Page group of each linked or allocated block: block, GROUP_ID, SHARED (R272). -/
  blocks : List (Nat × Nat × Bool)
  pages : List PageImage
  /-- Pages whose content was not readable at the sender. -/
  missing : Nat
deriving DecidableEq, Repr

/-- A prefix entry as a handoff carries it: key, GROUP_ID, sharing domain (R294, R306). -/
structure PrefixImage where
  key : Bytes
  gid : Nat
  domain : Nat
  digest : Bytes
deriving DecidableEq, Repr

/-- The parameters a collective chunk's record fixes (R241, R242, R246). -/
structure CollParams where
  recipe : Nat
  nranks : Nat
  op : Nat
  fmt : Nat
  elems : Nat
  k : Nat
  base : Nat
  header : Bytes
deriving DecidableEq, Repr

/-- A collective chunk's identity (R240). -/
structure CollKey where
  fabTag : Nat
  group : Nat
  opSeq : Nat
  chunk : Nat
deriving DecidableEq, Repr

/-- A contribution as it arrives at a block home (R245): who sent it, and whether its data is poisoned (R254). -/
structure Contribution where
  key : CollKey
  par : CollParams
  rank : Nat
  dev : Nat
  timeoutMs : Nat
  data : Bytes
  poison : Bool
  /-- CMD_REF of its tiles: the rank's command at its device (R177). -/
  ref : Nat := 0
deriving DecidableEq, Repr

/-- Which record of a chunk at a home: the top home's, or a block's (R242). -/
inductive RecordAt where
  | top
  | block (b : Nat)
deriving DecidableEq, Repr

/-- What a home answers (R245, R246, R252): the chunk's result; or a status and reason for one rank's contribution, by its CMD_REF, or one block's
partial. -/
inductive CollAnswer where
  | result (data : Bytes) (poison : Bool)
  | refused (ofBlock : Bool) (n ref st reason : Nat)
deriving DecidableEq, Repr

/-- A tile from a peer port: the 32 header bytes of R177 and its data. -/
structure Tile where
  hdr : Bytes
  data : Bytes
deriving DecidableEq, Repr

/-- A GET entry (R406). -/
structure GetEntry where
  idx : Nat
  sub : Nat
  off : Nat := 0
deriving DecidableEq, Repr

/-- A SET entry (R406): the value bytes given, the FINAL flag, the reserved FLAGS bits. -/
structure SetEntry where
  idx : Nat
  sub : Nat
  final : Bool := true
  off : Nat := 0
  val : Bytes
deriving DecidableEq, Repr

/-- A relayed read (R414): a session's message of a type for another device, a relayed GET that reaches this device with the digest of
the manager's certificate, or the words of a value that come back with their code and the value's length in bytes. -/
inductive RelayMsg where
  | ask (sid reqId ty target : Nat) (e : GetEntry)
  | serve (dev origin : Nat) (certDigest : Bytes) (e : GetEntry) (word : Nat)
  | answer (sid reqId rc len : Nat) (words : List Nat)
deriving DecidableEq, Repr

/-- Where an SPDM message arrives: a host port's DOE mailbox, a peer port, or another requester session (R81, R360). -/
inductive SpdmCh where
  | host (p sess : Nat)
  | peer (q : Nat)
deriving DecidableEq, Repr

/-- What fails when memory backing fails (R143). -/
inductive Backing where
  | tray (p : Nat)
  | hbm (extent : Nat)
  | lent (extent : Nat)
deriving DecidableEq, Repr

/-- An SRAM kind of R383. -/
inductive SramKind where
  | tileBuffer | packetBuffer | controlCache | paletteStore
deriving DecidableEq, Repr

/-- Where an ECC error is found (R383, R387); `addr` is the fabric address of the data it hits. -/
inductive MemUnit where
  | sram (die : Nat) (kind : SramKind) (bank row : Nat)
  | hbm (die channel bank row addr : Nat)
  | channelUnreadable (die channel : Nat)
  | tray (p : Nat) (addr : Nat)
deriving DecidableEq, Repr

/-- An agent that caches control lines: engine e of die d, or the root-die agents (R153, R165). -/
inductive Agent where
  | engine (die e : Nat)
  | root
deriving DecidableEq, Repr

/-- Fence scopes (R164). -/
inductive Scope where
  | engine | device | system
deriving DecidableEq, Repr

/-- What the thread context that asks for a control line stores in it once it may: a byte of the line and data, or nothing (R163). -/
abbrev LineStore := Option (Nat × Bytes)

/-- A line that a thread context asks to read (R163, R167). -/
structure LineRead where
  line : Nat
  ctx : Nat
deriving DecidableEq, Repr

/-- A line that a thread context asks to own, with its store (R163, R167). -/
structure LineOwn where
  line : Nat
  ctx : Nat
  store : LineStore
deriving DecidableEq, Repr

/-- A line that an agent gives back, with the last store of a context (R163, R166). -/
structure LineBack where
  line : Nat
  store : LineStore
deriving DecidableEq, Repr

/-- A grant of a die that is spent: the share of a STRICT tenant's partition, or the rest (R43, R44, R345). -/
structure SpentGrant where
  die : Nat
  tenant : Option Nat
deriving DecidableEq, Repr

/-- A contribution with the headers of the tiles it came in (R177, R245). -/
structure TiledContribution where
  body : Contribution
  hdrs : List Bytes
deriving DecidableEq, Repr

/-- The partial of a block, with the devices of the block's ranks (R245). -/
structure BlockSum where
  devs : List Nat
  data : Bytes
  poison : Bool
deriving DecidableEq, Repr

/-- What another device says of a group: a LINK, or that a link or a sequence's hold of it ends (R266, R296, R398); or, of a key homed here, that the
sender publishes the group under it, or evicts it (R297, R299). -/
inductive LinkOp where
  | link
  | unlink
  | publish (key : Bytes) (domain : Nat) (digest : Bytes)
  | evict (key : Bytes)
deriving DecidableEq, Repr

/-- A message about a group (R296 to R299, R398). -/
structure GroupLink where
  group : Nat
  op : LinkOp
deriving DecidableEq, Repr

/-- An abort of a chunk, with what a home keeps of it (R253). -/
structure ChunkAbort where
  key : CollKey
  par : CollParams
  timeoutMs : Nat
deriving DecidableEq, Repr

/-- A snoop response (R166). -/
inductive SnpRsp where
  | rspI | rspS | rspFwd
deriving DecidableEq, Repr

/-- What moves an interface to ERROR (R362): a cause of its own, or the loss of one of its port's IDE streams. -/
inductive TdiCause where
  | iface (l : Nat)
  | stream (k : Nat)
deriving DecidableEq, Repr

/-- An IDE key as its requester programs it, and whether the stream it is for covers function 1 (R360, R361). -/
structure IdeKey where
  bytes : Bytes
  function1 : Bool := true
deriving DecidableEq, Repr

/-- What a management session's manager presents when it connects (R367, R368). -/
structure ClientCert where
  der : Bytes
  /-- The cipher suites, groups and signature schemes that the handshake offers, as TLS numbers them. -/
  suites : List Nat := [0x1302]
  groups : List Nat := [0x0018]
  schemes : List Nat := [0x0503]
deriving DecidableEq, Repr

/-- The commands. -/
inductive Instr where
  -- module, power, clocks
  | por (mv straps : Nat) (dbgEn : Bool)
  | startupPhase (selfTestOk : Bool)
  | modrstNPulse (ns : Nat)
  | overVoltageShutdown (mv : Nat)
  | underVoltageLockout (mv : Nat)
  | underVoltageWarning (mv : Nat)
  | arbiterEpoch (inp : ArbInput)
  | enGrantSpent (g : SpentGrant)
  | swGrantSpent (d : Nat)
  | linkWiden (isPeer : Bool) (port : Nat)
  | thermalDerate (temp : Nat)
  | refclkLoss (clk : Nat)
  -- flex ports and trays
  | flexPortEnable (sid p : Nat)
  | flexPortDisable (sid p : Nat)
  | flexLinkTrained (p : Nat) (partner : FlexPartner)
  | flexLaneFailure (p width : Nat)
  | nvmeCommandComplete (p cid : Nat) (ok : Bool)
  | nvmeCommandTimeout (p cid : Nat)
  | nvmeAbortTimeout (p cid : Nat)
  -- peer ports
  | flitTransmit (q : Nat)
  | flitReceive (q : Nat) (f : Flit)
  | replayTimeout (q : Nat)
  | peerLaneFailure (q lane : Nat)
  | peerLinkLoss (q : Nat)
  | handover (via q lastFseq : Nat)
  | linkHoldExpiry (q : Nat)
  | peerPortEnable (sid q : Nat)
  | presetTimeout (q lane : Nat)
  | peerTrainingDone (q lanes : Nat) (presets : Bytes)
  | peerAuthenticated (q : Nat) (chain : Bytes) (peerIdObj peerSerial : Nat)
  | getVersion (ch : SpdmCh)
  | getCapabilities (ch : SpdmCh)
  | negotiateAlgorithms (ch : SpdmCh) (offersSuite : Bool)
  | getCertificate (ch : SpdmCh) (off len : Nat)
  | keyExchange (ch : SpdmCh) (chain : Bytes) (valid : Bool)
  | finish (ch : SpdmCh) (valid : Bool)
  | getMeasurements (ch : SpdmCh) (idx : Nat)
  | keyUpdate (q : Nat)
  | keyLifeExpiry (q : Nat)
  | syncReq (q t1 : Nat)
  | syncResp (q t1 t2 t3 t4 root hops sender : Nat) (replayed : Bool)
  -- switch core
  | cellAdmit (die inPort : Nat) (pkt : Packet) (outPort : Nat)
  | cellCross (die outPort : Nat)
  | cutThroughCheckResult (die inPort : Nat) (ok : Bool)
  | routeMemberMove (die inPort tc tenant dev : Nat)
  | quiesce (at_ : Ingress)
  | quiesced (at_ : Ingress)
  | revoke (eid : Nat)
  | halt (at_ : Ingress)
  -- extents and leases
  | alloc (sid : Nat) (blob : Bytes)
  | extentAccept (p l slot : Nat)
  | offerTimeout (eid : Nat)
  | releaseDynamicCapacity (p l slot : Nat)
  | revokeExtent (sid eid : Nat)
  | drainComplete (eid : Nat)
  | drainTimeout (eid : Nat)
  | quarantineRelease (eid : Nat)
  | scrubComplete (eid : Nat)
  | leaseDoorbell (p l value size : Nat)
  | leaseGrace (p l : Nat)
  | leaseExpired (p l : Nat)
  | lentPathLoss (eid : Nat)
  | hostRead (p l : Nat) (space : HostSpace) (addr len : Nat)
  | hostWrite (p l : Nat) (space : HostSpace) (addr : Nat) (data : Bytes)
  | hdmDbWrite (p l addr : Nat)
  | memWriteApply (wid : Nat)
  | atomic (src : Source) (op : AtomicOp) (addr size operand compare : Nat)
  | donorOffer (p l i : Nat)
  | donorRevoke (p l i : Nat)
  | donorReleased (p l i : Nat)
  | donorPortDown (p : Nat)
  | publishExtent (p l r : Nat)
  | backingFailure (b : Backing)
  | ctlCopyLoss (p l : Nat) (second : Bool)
  | repairBacking (sid value : Nat)
  | repairTestComplete (eid : Nat) (ok : Bool)
  -- ordering and coherence
  | flagData (p l data : Nat)
  | flaggedStoreApply (src : Source)
  | flushCtrl (p l seq : Nat)
  | flushComplete (p l : Nat)
  | rdShared (a : Agent) (r : LineRead)
  | rdOwn (a : Agent) (r : LineOwn)
  | upgrade (a : Agent) (r : LineOwn)
  | wb (a : Agent) (r : LineBack)
  | snpInv (a : Agent) (line : Nat)
  | snpData (a : Agent) (line : Nat)
  | snoopResponse (a : Agent) (line : Nat) (rsp : SnpRsp)
  | wbPending (a : Agent) (line : Nat)
  | dataCmp (a : Agent) (line : Nat)
  | wbAck (a : Agent) (line : Nat)
  | birsp (p l line : Nat)
  | biTimeout (p l line : Nat)
  | viewRead (p l line : Nat)
  | viewRestore (sid value : Nat)
  | fence (src : Source) (scope : Scope)
  -- rings
  | sqTail (p l r value : Nat)
  | sqEnable (p l r : Nat)
  | sqDisable (p l r : Nat)
  | sqDrained (p l r : Nat)
  | cqCfg (p l r value : Nat)
  | cqHead (p l r value : Nat)
  | eqHead (p l value : Nat)
  | cqWriteFail (p l r : Nat)
  | pad (p l r : Nat)
  -- attention and the KV store
  | attend (p l r : Nat)
  | attendBwd (p l r : Nat)
  | append (p l r : Nat)
  | mirror (m : Mirror)
  | mirrorAck (cmd item page : Nat)
  | mirrorTimeout (cmd item : Nat)
  | lookupPrefix (p l r : Nat)
  | publishPrefix (p l r : Nat)
  | pin (p l r : Nat)
  | unpin (p l r : Nat)
  | migrate (p l r : Nat)
  | openSeq (p l r : Nat)
  | closeSeq (p l r : Nat)
  | seqCloseFinal (fabTag seqId : Nat)
  -- collectives, tensors
  | allreduce (p l r : Nat)
  | reduceScatter (p l r : Nat)
  | allgather (p l r : Nat)
  | filterTopk (p l r : Nat)
  | collContribution (c : TiledContribution)
  | collBlockPartial (key : CollKey) (par : CollParams) (block timeoutMs : Nat) (b : BlockSum) (hdrs : List Bytes)
  | collResult (key : CollKey) (a : CollAnswer) (hdrs : List Bytes)
  | collRecordTimeout (key : CollKey) (at_ : RecordAt)
  | collRankTimeout (cmd : Nat)
  | gatherRows (p l r : Nat)
  | loadTensor (p l r : Nat)
  | freeTensor (p l r : Nat)
  | tensorScrub (tenant id : Nat)
  -- palettes, recipes
  | installPalette (p l r : Nat)
  | freePalette (p l r : Nat)
  | describe (p l r : Nat)
  | installRecipe (p l r : Nat)
  | removeRecipe (p l r : Nat)
  | recipeIdFree (tenant id : Nat)
  | composedRecipe (p l r : Nat)
  | tileReceive (q : Nat) (t : Tile)
  | commandComplete (cmd : Nat) (resultWriteOk recordWriteOk : Bool)
  | tierDemotion (tier : Nat)
  | pageMoveComplete (page : Nat)
  | pageReadFail (page tier : Nat) (revoked codeError : Bool)
  | sealCoding (page : Nat)
  | paletteTraining (tenant set : Nat)
  | sweepRecode (die : Nat)
  | slotFree (slot : Nat)
  -- the fabric map
  | mapGossip (q : Nat) (m : FMap) (resetting : Option Nat)
  | mapLossTimeout (dev : Nat)
  | handoffReceive (src : Nat) (seqs : List SeqImage) (entries : List PrefixImage)
  | handoffAck (src : Nat)
  | catchUpComplete (fabTag seqId : Nat)
  | linkMessage (k : GroupLink)
  -- tenants
  | tenantEnable (sid : Nat)
  | tenantDisable (sid : Nat)
  | tenantRemove (sid : Nat) (q : QSrc)
  | shapeWrite (sid sub value : Nat)
  | ldEnable (sid p l : Nat)
  | ldDisable (sid p l : Nat)
  -- security
  | getTdispVersion (p l : Nat)
  | getTdispCapabilities (p l : Nat)
  | lockInterfaceRequest (p l : Nat)
  | getDeviceInterfaceReport (p l : Nat)
  | getDeviceInterfaceState (p l : Nat)
  | startInterfaceRequest (p l : Nat)
  | stopInterfaceRequest (p l : Nat)
  | tdiError (p : Nat) (what : TdiCause)
  | ideKmKeyProg (p stream keySet : Nat) (key : IdeKey)
  | kSetGo (p stream : Nat)
  | enroll (sid : Nat) (q : QSrc)
  | unenroll (sid : Nat) (q : QSrc)
  | quorumK (sid : Nat) (q : QSrc)
  | claimDone (sid value : Nat)
  | certSlot1 (sid : Nat) (q : QSrc)
  | fabricAnchor (sid : Nat) (q : QSrc)
  | sdKey (sid : Nat) (blob : Bytes)
  | sdKeyClear (sid : Nat) (q : QSrc)
  | lockWrite (sid sub value : Nat)
  | debugOpen (sid : Nat) (q : QSrc)
  | nonceExpiry (nonce : Nat)
  -- reliability
  | shadowCompare (engine shadow third cmd item : Nat) (thirdAvailable equal : Bool)
  | shadowVote (cmd item : Nat) (minority : Option Nat)
  | engineHardEvent (e : Nat)
  | engineWatchdog (e : Nat)
  | engineSelftestDone (e : Nat) (ok : Bool)
  | engineDrained (e : Nat)
  | memoryError (u : MemUnit) (corrected : Bool)
  | hbmChannelMoveDone (die channel : Nat)
  | d2dWireFault (dieA dieB member : Nat)
  | dieLoss (die : Nat)
  | dieReturn (die : Nat)
  | selftest (sid value : Nat)
  | selftestComplete (failDie : Option Nat)
  | admitDevice (sid : Nat) (q : QSrc)
  | admitLoaded (spillGroups : List (Nat × Bool))
  | expel (sid : Nat) (q : QSrc)
  -- management
  | dtlsHandshake (port : Nat) (configured : Bool) (cert : ClientCert)
  | sessionIdleTimeout (sid : Nat)
  | get (sid reqId : Nat) (entries : List GetEntry)
  | set (sid reqId : Nat) (entries : List SetEntry)
  | propose (sid reqId idx sub flags off : Nat) (val : Bytes)
  | sign (sid reqId nonce slot : Nat) (sig : Bytes)
  | subscribe (sid reqId mask : Nat)
  | keepalive (sid reqId : Nat)
  | dropped (sid : Nat)
  | relayGet (r : RelayMsg)
  | relayTimeout (sid reqId : Nat)
  | readWord (ctrl cmd idx sub word : Nat)
  | addrDup (port : Nat) (configured : Bool)
  | mgmtAddrWrite (sid port : Nat) (blob : Bytes)
  | wsqAck (sid idx sub value : Nat)
  | blockSelect (sid value : Nat)
  | fwStage (sid off : Nat) (piece : Bytes)
  | fwCommit (sid : Nat) (q : QSrc)
  | snapshotTake (sid reqId t : Nat) (clear : Bool)
  | snapshotRead (sid reqId id : Nat) (entries : List GetEntry)
  | snapshotCancel (sid reqId id : Nat)
  | snapshotEdge (id : Nat)
  | monCtrlClear (sid m : Nat)
  | monScopeWrite (sid m value : Nat)
  -- resets and power states
  | resetModule (sid : Nat) (q : QSrc)
  | resetWarm (sid : Nat) (q : QSrc)
  | resetDie (sid : Nat) (q : QSrc)
  | resetPort (sid : Option Nat) (isPeer : Bool) (port : Nat)
  | resetEngine (sid : Option Nat) (e : Nat)
  | resetDone (kind unit : Nat)
  | powerD0 (sid : Nat)
  | powerD1 (sid : Nat)
  | powerD2 (sid : Nat) (q : QSrc)
  | powerD3 (sid : Nat) (q : QSrc)
  | refclkRestored (clk : Nat)
  | peerSignalDetect (q : Nat)
  | fastRetrainDone (q : Nat)
  | peerPortDisable (sid q : Nat)
  | flexLinkDown (p : Nat)
  | collChunkAbort (k : ChunkAbort)
  | unknownRecipe (p l r : Nat)
  -- events without an operand
  | modEnFall
  | modEnRise
  | thermalTrip
  | syncTimer
  | mapGossipTimer
  | handoffTimeout
  | shaperRefill
  | reportWindowEnd
  | claimWindowExpiry
  | healthWindowEnd
  | stepBoundary
  | warmHoldExpiry
  | powerTransitionDone
deriving DecidableEq, Repr

end Sys2Proof
end

