-- ==== Sys2Proof/Decode.lean ====
section
/-! DEFINITION. The decoder of the table's words: no row of the table gives bits. -/

namespace Sys2Proof

/-- The command a word spells by the table's bits: none, since no row of the table gives any. -/
def decodeTableWord (_nbits _w : Nat) : Option Instr := none

end Sys2Proof
end

