-- ==== Sys2Proof/Machine/Bits.lean ====
section
/-! DEFINITION. Bit fields and little-endian byte strings (R5), CRC-32C, and the hash functions the spec names. -/

namespace Sys2Proof.Machine

/-- Bits [hi:lo] of `w`, both ends included (R4). -/
def bits (w hi lo : Nat) : Nat := (w >>> lo) % 2 ^ (hi + 1 - lo)

/-- Bit `i` of `w`. -/
def bit (w i : Nat) : Bool := w.testBit i

/-- `w` with bit `i` set to 1. -/
def setBit (w i : Nat) : Nat := w ||| 2 ^ i

/-- `w` with bit `i` set to 0. -/
def clearBit (w i : Nat) : Nat := if w.testBit i then w - 2 ^ i else w

/-- 1 for true, 0 for false. -/
def bool01 (b : Bool) : Nat := if b then 1 else 0

/-- The number of 1 bits among the lowest `n` bits of `w`. -/
def popCount : Nat → Nat → Nat
  | 0, _ => 0
  | n + 1, w => w % 2 + popCount n (w / 2)

/-- The positions of the 1 bits among the lowest `n` bits of `w`, ascending. -/
def setBits (n w : Nat) : List Nat := (List.range n).filter (fun i => w.testBit i)

/-- Little-endian value of a byte string (R5). -/
def leNat : Bytes → Nat
  | [] => 0
  | b :: t => b.toNat + 256 * leNat t

/-- The `n`-byte little-endian form of a number (R5). -/
def leBytes : Nat → Nat → Bytes
  | 0, _ => []
  | n + 1, v => BitVec.ofNat 8 v :: leBytes n (v / 256)

/-- The `n` bytes at offset `off`; bytes past the end read as zero. -/
def slice (b : Bytes) (off n : Nat) : Bytes :=
  let x := (b.drop off).take n
  x ++ List.replicate (n - x.length) 0

/-- The `n`-byte little-endian field at offset `off` of a structure (R5). -/
def field (b : Bytes) (off n : Nat) : Nat := leNat ((b.drop off).take n)

/-- `n` zero bytes. -/
def zeros (n : Nat) : Bytes := List.replicate n 0

/-- `b` padded with zeros up to `n` bytes. -/
def padTo (n : Nat) (b : Bytes) : Bytes := b ++ zeros (n - b.length)

/-- Every byte in `[off, off+n)` is zero. -/
def zeroAt (b : Bytes) (off n : Nat) : Bool := field b off n == 0

/-- Cut a list into pieces of `n`, the last one shorter where needed; `fuel` bounds the number of pieces. -/
def chunks {α : Type} (n : Nat) : Nat → List α → List (List α)
  | 0, _ => []
  | _, [] => []
  | fuel + 1, l => l.take n :: chunks n fuel (l.drop n)

/-- Number rounded up to a multiple of `m`. -/
def roundUp (x m : Nat) : Nat := (x + m - 1) / m * m

/-- Sum of a list. -/
def sumNat (l : List Nat) : Nat := l.foldl (· + ·) 0

/-- `⌈x / m⌉`. -/
def ceilDiv (x m : Nat) : Nat := (x + m - 1) / m

/-- Two's complement reading of the low `w` bits. -/
def toSigned (w x : Nat) : Int := if x % 2 ^ w < 2 ^ (w - 1) then (x % 2 ^ w : Nat) else (x % 2 ^ w : Nat) - (2 ^ w : Nat)

/-- Two's complement form of an integer in `w` bits. -/
def ofSigned (w : Nat) (x : Int) : Nat := (x % (2 ^ w : Nat)).toNat

/-- ASCII bytes of a string. -/
def ascii (s : String) : Bytes := s.toList.map (fun c => BitVec.ofNat 8 c.toNat)

/-! ### CRC-32C (R71, R100, R177, R320) -/

/-- One bit step of the reflected CRC-32C. -/
def crcBit (c : Nat) : Nat := if c % 2 = 1 then (c / 2) ^^^ 0x82F63B78 else c / 2

/-- One byte of CRC-32C. -/
def crcByte (c : Nat) (b : Byte) : Nat :=
  crcBit (crcBit (crcBit (crcBit (crcBit (crcBit (crcBit (crcBit (c ^^^ b.toNat))))))))

/-- CRC-32C of a byte string. -/
def crc32c (b : Bytes) : Nat := (b.foldl crcByte 0xFFFFFFFF) ^^^ 0xFFFFFFFF

/-! ### SHA-256 and SHA-384 (FIPS 180-4), HMAC-SHA-256 (FIPS 198-1) -/

/-- Floor of the `r`-th root of `n`, by binary search downward from bit `b`. -/
def rootAux (r n : Nat) : Nat → Nat → Nat
  | 0, acc => acc
  | b + 1, acc => if (acc + 2 ^ b) ^ r ≤ n then rootAux r n b (acc + 2 ^ b) else rootAux r n b acc

/-- The first `w` bits of the fractional part of the `r`-th root of `p`. -/
def fracRoot (r w p : Nat) : Nat := rootAux r (p * 2 ^ (r * w)) (w + 10) 0 % 2 ^ w

/-- The first eighty primes. -/
def primes80 : List Nat :=
  [2, 3, 5, 7, 11, 13, 17, 19, 23, 29, 31, 37, 41, 43, 47, 53, 59, 61, 67, 71, 73, 79, 83, 89, 97, 101, 103, 107, 109, 113] ++
  [127, 131, 137, 139, 149, 151, 157, 163, 167, 173, 179, 181, 191, 193, 197, 199, 211, 223, 227, 229, 233, 239, 241, 251] ++
  [257, 263, 269, 271, 277, 281, 283, 293, 307, 311, 313, 317, 331, 337, 347, 349, 353, 359, 367, 373, 379, 383, 389, 397, 401, 409]

/-- The parameters in which SHA-256 and the SHA-512 family differ. -/
structure ShaP where
  w : Nat
  rounds : Nat
  big0 : Nat × Nat × Nat
  big1 : Nat × Nat × Nat
  sml0 : Nat × Nat × Nat
  sml1 : Nat × Nat × Nat

/-- SHA-256 parameters. -/
def sha256P : ShaP := ⟨32, 64, (2, 13, 22), (6, 11, 25), (7, 18, 3), (17, 19, 10)⟩
/-- SHA-512 family parameters. -/
def sha512P : ShaP := ⟨64, 80, (28, 34, 39), (14, 18, 41), (1, 8, 7), (19, 61, 6)⟩

/-- Rotate right by `n` in `w` bits. -/
def rotr (w n x : Nat) : Nat := (x >>> n) ||| ((x <<< (w - n)) % 2 ^ w)

/-- The Σ functions. -/
def shaBig (w : Nat) (r : Nat × Nat × Nat) (x : Nat) : Nat := rotr w r.1 x ^^^ rotr w r.2.1 x ^^^ rotr w r.2.2 x
/-- The σ functions. -/
def shaSml (w : Nat) (r : Nat × Nat × Nat) (x : Nat) : Nat := rotr w r.1 x ^^^ rotr w r.2.1 x ^^^ (x >>> r.2.2)

/-- The message schedule, newest word first. -/
def shaSched (P : ShaP) : Nat → List Nat → List Nat
  | 0, ws => ws
  | n + 1, ws =>
    shaSched P n (((shaSml P.w P.sml1 (ws.getD 1 0) + ws.getD 6 0 + shaSml P.w P.sml0 (ws.getD 14 0) + ws.getD 15 0) % 2 ^ P.w) :: ws)

/-- One round over the eight working words. -/
def shaRound (P : ShaP) (h : List Nat) (kw : Nat × Nat) : List Nat :=
  match h with
  | [a, b, c, d, e, f, g, hh] =>
    let ch := (e &&& f) ^^^ ((2 ^ P.w - 1 - e) &&& g)
    let maj := (a &&& b) ^^^ (a &&& c) ^^^ (b &&& c)
    let t1 := hh + shaBig P.w P.big1 e + ch + kw.1 + kw.2
    let t2 := shaBig P.w P.big0 a + maj
    [(t1 + t2) % 2 ^ P.w, a, b, c, (d + t1) % 2 ^ P.w, e, f, g]
  | _ => h

/-- Big-endian value of a byte string, as the hash standard reads words. -/
def beNat (b : Bytes) : Nat := b.foldl (fun a x => a * 256 + x.toNat) 0
/-- Big-endian bytes. -/
def beBytes (n v : Nat) : Bytes := (leBytes n v).reverse

/-- One block of the compression function. -/
def shaBlock (P : ShaP) (ks : List Nat) (h : List Nat) (blk : Bytes) : List Nat :=
  let ws := (chunks (P.w / 8) 16 blk).map beNat
  let sched := (shaSched P (P.rounds - 16) ws.reverse).reverse
  let h' := (ks.zip sched).foldl (shaRound P) h
  (h.zip h').map (fun x => (x.1 + x.2) % 2 ^ P.w)

/-- Padding to whole blocks with the bit length. -/
def shaPad (P : ShaP) (m : Bytes) : Bytes :=
  let blk := P.w * 2
  let len := P.w / 4
  let n := m.length + 1 + len
  m ++ 0x80#8 :: zeros (roundUp n blk - n) ++ beBytes len (m.length * 8)

/-- The hash of `m` from the initial words `iv`. -/
def shaRun (P : ShaP) (iv : List Nat) (m : Bytes) : Bytes :=
  let p := shaPad P m
  let ks := (primes80.take P.rounds).map (fracRoot 3 P.w)
  ((chunks (P.w * 2) (p.length / (P.w * 2)) p).foldl (shaBlock P ks) iv).flatMap (beBytes (P.w / 8))

/-- SHA-256. -/
def sha256 (m : Bytes) : Bytes := shaRun sha256P ((primes80.take 8).map (fracRoot 2 32)) m

/-- SHA-384: the SHA-512 family from the ninth to sixteenth primes, first 48 bytes. -/
def sha384 (m : Bytes) : Bytes := (shaRun sha512P (((primes80.drop 8).take 8).map (fracRoot 2 64)) m).take 48

/-- HMAC-SHA-256 (R293, R366). -/
def hmac256 (key m : Bytes) : Bytes :=
  let k := padTo 64 (if key.length > 64 then sha256 key else key)
  sha256 (k.map (· ^^^ 0x5C#8) ++ sha256 (k.map (· ^^^ 0x36#8) ++ m))

/-! ### AES-256 and XTS with ciphertext stealing (IEEE 1619), for stored granules (R320) -/

/-- Multiply by x in the AES field. -/
def xtime (a : Nat) : Nat := if a < 128 then 2 * a else (2 * a) ^^^ 0x11B

/-- Product in the AES field, over the low `n` bits of `b`. -/
def gmul : Nat → Nat → Nat → Nat
  | 0, _, _ => 0
  | n + 1, a, b => (if b % 2 = 1 then a else 0) ^^^ gmul n (xtime a) (b / 2)

/-- The field inverse as the 254th power. -/
def ginv (a : Nat) : Nat :=
  let m := gmul 8
  let a2 := m a a
  let a3 := m a2 a
  let a12 := m (m a3 a3) (m a3 a3)
  let a15 := m a12 a3
  let a240 := (fun x => m x x) ((fun x => m x x) ((fun x => m x x) ((fun x => m x x) a15)))
  m (m a240 a12) a2

/-- The AES S-box value of a byte. -/
def sboxOf (a : Nat) : Nat :=
  let b := ginv a
  let r (k : Nat) := ((b <<< k) ||| (b >>> (8 - k))) % 256
  b ^^^ r 1 ^^^ r 2 ^^^ r 3 ^^^ r 4 ^^^ 0x63

/-- The S-box as a list. -/
def sbox : List Nat := (List.range 256).map sboxOf

/-- AES-256 key expansion: the 60 round-key words (four bytes each), newest first. -/
def aesExpand : Nat → Nat → Nat → List (List Nat) → List (List Nat)
  | 0, _, _, ws => ws
  | n + 1, i, rc, ws =>
    let prev := ws.headD []
    let t := if i % 8 = 0 then
        match prev with
        | [a, b, c, d] => [sbox.getD b 0 ^^^ rc, sbox.getD c 0, sbox.getD d 0, sbox.getD a 0]
        | _ => prev
      else if i % 8 = 4 then prev.map (fun x => sbox.getD x 0) else prev
    aesExpand n (i + 1) (if i % 8 = 0 then xtime rc else rc) (((ws.getD 7 []).zip t).map (fun x => x.1 ^^^ x.2) :: ws)

/-- The fifteen round keys of a 32-byte key, sixteen bytes each. -/
def aesKeys (key : List Nat) : List (List Nat) :=
  (chunks 4 15 (aesExpand 52 8 1 (chunks 4 8 key).reverse).reverse).map List.flatten

/-- ShiftRows as an index permutation of the column-major state. -/
def shiftRows (s : List Nat) : List Nat := (List.range 16).map (fun i => s.getD ((i + 4 * (i % 4)) % 16) 0)

/-- MixColumns on one column. -/
def mixCol (c : List Nat) : List Nat :=
  match c with
  | [a, b, d, e] =>
    [xtime a ^^^ xtime b ^^^ b ^^^ d ^^^ e, a ^^^ xtime b ^^^ xtime d ^^^ d ^^^ e,
     a ^^^ b ^^^ xtime d ^^^ xtime e ^^^ e, xtime a ^^^ a ^^^ b ^^^ d ^^^ xtime e]
  | _ => c

/-- Byte-wise exclusive or. -/
def xorList (a b : List Nat) : List Nat := (a.zip b).map (fun x => x.1 ^^^ x.2)

/-- One AES-256 block encryption. -/
def aesBlock (rks : List (List Nat)) (blk : List Nat) : List Nat :=
  let mid := (rks.drop 1).take 13
  let s0 := xorList blk (rks.headD [])
  let s1 := mid.foldl (fun s rk => xorList ((chunks 4 4 (shiftRows (s.map (fun x => sbox.getD x 0)))).flatMap mixCol) rk) s0
  xorList (shiftRows (s1.map (fun x => sbox.getD x 0))) (rks.getD 14 [])

/-- Multiply the XTS tweak (little-endian bytes) by α. -/
def xtsAlpha (t : List Nat) : List Nat :=
  let v := (leNat (t.map (BitVec.ofNat 8)) * 2)
  let v' := if v ≥ 2 ^ 128 then (v - 2 ^ 128) ^^^ 0x87 else v
  (leBytes 16 v').map BitVec.toNat

/-- XTS over the whole blocks and the stolen tail; `t` is the running tweak. -/
def xtsGo (k1 : List (List Nat)) : Nat → List Nat → List Nat → List Nat
  | 0, _, _ => []
  | n + 1, t, d =>
    if d.length < 16 then []
    else
      let enc (tw p : List Nat) := xorList (aesBlock k1 (xorList p tw)) tw
      let rest := d.drop 16
      let c := enc t (d.take 16)
      if rest.length = 0 then c
      else if rest.length < 16 then
        let t2 := xtsAlpha t
        enc t2 (rest ++ c.drop rest.length) ++ c.take rest.length
      else c ++ xtsGo k1 n (xtsAlpha t) rest

/-- AES-256-XTS encryption of one data unit under a 64-byte key and a 16-byte tweak value (R320). -/
def aesXts (key : Bytes) (tweak : Nat) (d : Bytes) : Bytes :=
  let k := key.map BitVec.toNat
  let t0 := aesBlock (aesKeys (k.drop 32)) ((leBytes 16 tweak).map BitVec.toNat)
  (xtsGo (aesKeys (k.take 32)) (d.length / 16 + 1) t0 (d.map BitVec.toNat)).map (BitVec.ofNat 8)

end Sys2Proof.Machine
end

