-- ==== Sys2Proof/Machine/Fp.lean ====
section
/-! DEFINITION. The numeric formats of R9, exact dyadic arithmetic, and its roundings (R10). -/

namespace Sys2Proof.Machine

/-- A binary floating-point encoding as its bit pattern. -/
abbrev Fbits := Nat

/-- An exact dyadic value `m · 2^e`. -/
structure Dy where
  m : Int
  e : Int
deriving DecidableEq, Repr

/-- Exact zero. -/
def Dy.zero : Dy := ⟨0, 0⟩
/-- An integer as a dyadic value. -/
def Dy.ofInt (i : Int) : Dy := ⟨i, 0⟩
/-- Mantissa of `a` at the exponent `e ≤ a.e`. -/
def Dy.at (a : Dy) (e : Int) : Int := a.m * (2 ^ (a.e - e).toNat : Nat)
/-- Exact sum. -/
def Dy.add (a b : Dy) : Dy := let e := min a.e b.e; ⟨a.at e + b.at e, e⟩
/-- Exact product. -/
def Dy.mul (a b : Dy) : Dy := ⟨a.m * b.m, a.e + b.e⟩
/-- Exact negation. -/
def Dy.neg (a : Dy) : Dy := ⟨-a.m, a.e⟩
/-- Exact magnitude. -/
def Dy.abs (a : Dy) : Dy := ⟨a.m.natAbs, a.e⟩
/-- `a ≤ b`. -/
def Dy.le (a b : Dy) : Bool := let e := min a.e b.e; decide (a.at e ≤ b.at e)
/-- `a < b`. -/
def Dy.lt (a b : Dy) : Bool := !(b.le a)
/-- Scale by a power of two. -/
def Dy.shift (a : Dy) (k : Int) : Dy := ⟨a.m, a.e + k⟩
/-- Exact sum of a list. -/
def Dy.sum (l : List Dy) : Dy := l.foldl Dy.add Dy.zero
/-- The larger of two. -/
def Dy.max (a b : Dy) : Dy := if a.le b then b else a
/-- The smaller of two. -/
def Dy.min (a b : Dy) : Dy := if a.le b then a else b
/-- Greatest integer not above the value. -/
def Dy.floor (a : Dy) : Int := if a.e ≥ 0 then a.m * (2 ^ a.e.toNat : Nat) else a.m / (2 ^ (-a.e).toNat : Nat)
/-- Least integer not below the value. -/
def Dy.ceil (a : Dy) : Int := -(Dy.floor a.neg)
/-- Nearest integer, ties to even. -/
def Dy.rint (a : Dy) : Int :=
  let f := a.floor
  let d := a.add (Dy.ofInt (-f))
  let two := d.shift 1
  if two.lt (Dy.ofInt 1) then f else if (Dy.ofInt 1).lt two then f + 1 else if f % 2 = 0 then f else f + 1

/-- A binary format: exponent bits and stored mantissa bits. -/
structure Fmt where
  eb : Nat
  mb : Nat
deriving DecidableEq, Repr

/-- IEEE 754 binary32 (R9). -/
def fp32 : Fmt := ⟨8, 23⟩
/-- IEEE 754 binary16 (R9). -/
def fp16 : Fmt := ⟨5, 10⟩
/-- The upper half of binary32 (R9). -/
def bf16 : Fmt := ⟨8, 7⟩

/-- Exponent bias. -/
def Fmt.bias (f : Fmt) : Int := 2 ^ (f.eb - 1) - 1
/-- Exponent of the least normal value. -/
def Fmt.emin (f : Fmt) : Int := 1 - f.bias
/-- Encoding of +∞. -/
def Fmt.inf (f : Fmt) : Fbits := (2 ^ f.eb - 1) * 2 ^ f.mb
/-- The sign bit's weight. -/
def Fmt.sign (f : Fmt) : Nat := 2 ^ (f.eb + f.mb)

/-- What an encoding stands for. -/
inductive Fv where
  | nan (neg : Bool)
  | inf (neg : Bool)
  | fin (neg : Bool) (d : Dy)
deriving DecidableEq, Repr

/-- Decode an encoding of the format. -/
def Fmt.dec (f : Fmt) (x : Fbits) : Fv :=
  let neg := decide (x / f.sign % 2 = 1)
  let mag := x % f.sign
  let ex := mag / 2 ^ f.mb
  let fr := mag % 2 ^ f.mb
  let sg : Int := if neg then -1 else 1
  if ex = 2 ^ f.eb - 1 then (if fr = 0 then .inf neg else .nan neg)
  else if ex = 0 then .fin neg ⟨sg * fr, f.emin - f.mb⟩
  else .fin neg ⟨sg * (fr + 2 ^ f.mb : Nat), f.emin - f.mb + (ex - 1 : Nat)⟩

/-- The three roundings the spec uses. -/
inductive Rnd where
  | near
  | up
  | down
deriving DecidableEq, Repr

/-- Round a magnitude `a · 2^e` to a code of the format, without overflow handling. -/
def roundMag (f : Fmt) (away : Bool) (near : Bool) (a : Nat) (e : Int) : Nat :=
  let lsb := max (Nat.log2 a + e) f.emin - f.mb
  let sh := lsb - e
  let sig :=
    if sh ≤ 0 then a * 2 ^ (-sh).toNat
    else
      let k := sh.toNat
      let q := a >>> k
      let r := a % 2 ^ k
      if near then (if 2 * r > 2 ^ k ∨ (2 * r = 2 ^ k ∧ q % 2 = 1) then q + 1 else q)
      else if away ∧ r ≠ 0 then q + 1 else q
  (lsb - (f.emin - f.mb)).toNat * 2 ^ f.mb + sig

/-- Round an exact value into the format; an exact zero takes the sign `nz`. -/
def Fmt.rnd (f : Fmt) (md : Rnd) (nz : Bool) (d : Dy) : Fbits :=
  if d.m = 0 then (if nz then f.sign else 0)
  else
    let neg := decide (d.m < 0)
    let away := (md = .up && !neg) || (md = .down && neg)
    let c := roundMag f away (md = .near) d.m.natAbs d.e
    let c' := if c < f.inf then c else if md = .near || away then f.inf else f.inf - 1
    if neg then f.sign + c' else c'

/-- One rounding to nearest even into fp32 (R10). -/
def rne (d : Dy) : Fbits := fp32.rnd .near false d

/-- The quiet NaN of R247. -/
def canonNan : Fbits := 0x7FC00000

end Sys2Proof.Machine

namespace Sys2Proof.Config

/-- A NaN result of a sum whose encoding the spec does not state: which sign and payload it carries is free. -/
opaque freeNanPayload : Machine.Fbits → Machine.Fbits → Nat

end Sys2Proof.Config

namespace Sys2Proof.Machine

/-- A quiet NaN with a free sign and payload. -/
def freeNan (a b : Fbits) : Fbits := canonNan ||| (Config.freeNanPayload a b % 2 ^ 32)

/-- A NaN with the quiet bit and all exponent bits set. -/
def isNan32 (x : Fbits) : Bool := match fp32.dec x with | .nan _ => true | _ => false
/-- Neither NaN nor infinity. -/
def isFin32 (x : Fbits) : Bool := match fp32.dec x with | .fin _ _ => true | _ => false

/-- fp32 sum under a rounding. -/
def fadd (md : Rnd) (x y : Fbits) : Fbits :=
  match fp32.dec x, fp32.dec y with
  | .nan _, _ => freeNan x y
  | _, .nan _ => freeNan x y
  | .inf a, .inf b => if a = b then x else freeNan x y
  | .inf _, _ => x
  | _, .inf _ => y
  | .fin a d, .fin b e => fp32.rnd md ((a && b) || (md = .down && (a || b))) (d.add e)

/-- fp32 product under a rounding. -/
def fmul (md : Rnd) (x y : Fbits) : Fbits :=
  match fp32.dec x, fp32.dec y with
  | .nan _, _ => freeNan x y
  | _, .nan _ => freeNan x y
  | .inf a, .inf b => fp32.inf + (if a != b then fp32.sign else 0)
  | .inf a, .fin b d => if d.m = 0 then freeNan x y else fp32.inf + (if a != b then fp32.sign else 0)
  | .fin a d, .inf b => if d.m = 0 then freeNan x y else fp32.inf + (if a != b then fp32.sign else 0)
  | .fin a d, .fin b e => fp32.rnd md (a != b) (d.mul e)

/-- Negation of an fp32. -/
def fneg (x : Fbits) : Fbits := if x < fp32.sign then x + fp32.sign else x - fp32.sign

/-- fp32 sum rounded to nearest even. -/
def add32 (x y : Fbits) : Fbits := fadd .near x y
/-- fp32 difference rounded to nearest even. -/
def sub32 (x y : Fbits) : Fbits := fadd .near x (fneg y)
/-- fp32 product rounded to nearest even. -/
def mul32 (x y : Fbits) : Fbits := fmul .near x y

/-- A quotient of two exact values as a dyadic value that rounds as the exact quotient does (a sticky low bit). -/
def Dy.div (a b : Dy) : Dy :=
  let k := 80 + Nat.log2 b.m.natAbs
  let n := a.m.natAbs * 2 ^ k
  let q := n / b.m.natAbs
  let st := if n % b.m.natAbs = 0 then 0 else 1
  let sg : Int := if decide (a.m < 0) = decide (b.m < 0) then 1 else -1
  ⟨sg * (2 * q + st : Nat), a.e - b.e - k - 1⟩

/-- fp32 quotient, correctly rounded to nearest even, of finite operands with a nonzero divisor. -/
def div32 (x y : Fbits) : Fbits :=
  match fp32.dec x, fp32.dec y with
  | .fin a d, .fin b e => if e.m = 0 then freeNan x y else fp32.rnd .near (a != b) (d.div e)
  | .inf a, .fin b _ => fp32.inf + (if a != b then fp32.sign else 0)
  | .fin a _, .inf b => if a != b then fp32.sign else 0
  | _, _ => freeNan x y

/-- The correctly rounded reciprocal. -/
def recip32 (x : Fbits) : Fbits := div32 0x3F800000 x

/-- The exact value of a finite fp32 (zero for the rest, which callers exclude). -/
def val32 (x : Fbits) : Dy := match fp32.dec x with | .fin _ d => d | _ => Dy.zero
/-- The exact value of a finite bf16. -/
def valBf (x : Fbits) : Dy := match bf16.dec x with | .fin _ d => d | _ => Dy.zero
/-- The exact value of a finite fp16. -/
def valHf (x : Fbits) : Dy := match fp16.dec x with | .fin _ d => d | _ => Dy.zero
/-- bf16 to fp32 is exact: the upper half. -/
def bfTo32 (x : Fbits) : Fbits := x * 65536
/-- fp32 to bf16, ties to even; a NaN stays a NaN of its sign. -/
def toBf (x : Fbits) : Fbits :=
  match fp32.dec x with
  | .nan n => (if n then 0x8000 else 0) + 0x7FC0
  | .inf n => (if n then 0x8000 else 0) + 0x7F80
  | .fin n d => bf16.rnd .near n d

/-- fp16 to fp32 (exact). -/
def hfTo32 (x : Fbits) : Fbits :=
  match fp16.dec x with
  | .nan n => (if n then fp32.sign else 0) + canonNan
  | .inf n => (if n then fp32.sign else 0) + fp32.inf
  | .fin n d => fp32.rnd .near n d

/-! ### fp8 E4M3 (R9): bias 7, no infinities, largest finite magnitude 448 -/

/-- Decode an fp8 E4M3. -/
def decE4 (x : Fbits) : Fv :=
  let neg := decide (x / 128 % 2 = 1)
  if x % 128 = 127 then .nan neg
  else
    let ex := x % 128 / 8
    let fr := x % 8
    let sg : Int := if neg then -1 else 1
    if ex = 0 then .fin neg ⟨sg * fr, -9⟩ else .fin neg ⟨sg * (fr + 8 : Nat), -9 + (ex - 1 : Nat)⟩

/-- Nearest E4M3 of an exact value, ties to even, subnormals kept, with whether it passed ±448 (R248). -/
def rndE4 (nz : Bool) (d : Dy) : Fbits × Bool :=
  if d.m = 0 then ((if nz then 128 else 0), false)
  else
    let neg := decide (d.m < 0)
    let c := roundMag ⟨4, 3⟩ false true d.m.natAbs d.e
    let past := (Dy.ofInt 448).lt d.abs
    ((if neg then 128 else 0) + (if past then 126 else c), past)

/-- fp8 to fp32 (exact). -/
def e4To32 (x : Fbits) : Fbits :=
  match decE4 x with
  | .nan n => (if n then fp32.sign else 0) + canonNan
  | .inf n => (if n then fp32.sign else 0) + fp32.inf
  | .fin n d => fp32.rnd .near n d

/-- fp32 to fp8 E4M3 by R248, with whether it saturated. -/
def toE4 (x : Fbits) : Fbits × Bool :=
  match fp32.dec x with
  | .nan n => ((if n then 128 else 0) + 127, false)
  | .inf n => ((if n then 128 else 0) + 126, true)
  | .fin n d => rndE4 n d

/-- Compare two non-NaN fp32 values with -0.0 below +0.0 as an integer key. -/
def ordKey (x : Fbits) : Int := if x < fp32.sign then (x : Int) else -(x - fp32.sign : Nat) - 1

/-- The smallest value of a format that is at least the quotient `a / k` of an exact non-negative value (R213, R274). -/
def leastAtLeast (f : Fmt) (a : Dy) (k : Nat) : Fbits := f.rnd .up false (a.div (Dy.ofInt k))

/-! ### The fixed elementary functions of R223 and R228 -/

/-- fp32 encoding nearest to the rational `n / d`. -/
def f32q (n : Int) (d : Nat) : Fbits := rne ((Dy.ofInt n).div (Dy.ofInt d))

/-- The coefficients C6 to C0 of R223, highest first. -/
def expCoeffs : List Fbits :=
  [f32q 15403530 100000000000, f32q 133335581 100000000000, f32q 961812911 100000000000, f32q 5550410866 100000000000,
   f32q 24022650696 100000000000, f32q 69314718056 100000000000, 0x3F800000]

end Sys2Proof.Machine

namespace Sys2Proof.Config

/-- E of a NaN or of +∞, which R223 does not state. -/
opaque freeExp : Machine.Fbits → Nat

end Sys2Proof.Config

namespace Sys2Proof.Machine

/-- E(x), the exponential of R223. -/
def expE (x : Fbits) : Fbits :=
  if x = fp32.sign + fp32.inf then 0
  else if !isFin32 x then Config.freeExp x % 2 ^ 32
  else
    let t := mul32 x 0x3FB8AA3B
    if !isFin32 t then (if t = fp32.sign + fp32.inf then 0 else Config.freeExp x % 2 ^ 32)
    else if (val32 t).lt (Dy.ofInt (-126)) then 0
    else
      let n := (val32 t).rint
      let f := rne ((val32 t).add (Dy.ofInt (-n)))
      let p := (expCoeffs.drop 1).foldl (fun p c => add32 (mul32 p f) c) (expCoeffs.headD 0)
      let r := (val32 p).shift n
      if r.lt ⟨1, -126⟩ then 0 else rne r

/-- The coefficients D4 to D0 of R228, highest first: 2 / (2k + 1). -/
def lnCoeffs : List Fbits := [f32q 2 9, f32q 2 7, f32q 2 5, f32q 2 3, f32q 2 1]

/-- λ(l), the natural logarithm of R228, for l ≥ 1. -/
def lnL (l : Fbits) : Fbits :=
  let e0 : Int := (l / 2 ^ 23 : Nat) - 127
  let f0 : Fbits := 0x3F800000 + l % 2 ^ 23
  let big := (val32 0x3FB504F3).lt (val32 f0)
  let f := if big then f0 - 2 ^ 23 else f0
  let e := if big then e0 + 1 else e0
  let s := mul32 (sub32 f 0x3F800000) (recip32 (add32 f 0x3F800000))
  let z := mul32 s s
  let p := (lnCoeffs.drop 1).foldl (fun p c => add32 (mul32 p z) c) (lnCoeffs.headD 0)
  add32 (mul32 (rne (Dy.ofInt e)) 0x3F317218) (mul32 s p)

end Sys2Proof.Machine
end

