-- ==== Sys2Proof/Config.lean ====
section
/-! DEFINITION. What the part fixes, and the free values: constants with no body for what the spec leaves open. -/

namespace Sys2Proof.Config

open Sys2Proof

/-- Fabric dies FD0 to FD7 (R13). -/
abbrev dies : Nat := 8
/-- Flex ports (R24). -/
abbrev flexPorts : Nat := 128
/-- Peer ports (R24). -/
abbrev peerPorts : Nat := 64
/-- Tile engines of a fabric die, spares included (R13). -/
abbrev enginesPerDie : Nat := 52
/-- Crossbar ports of a switch core (R97). -/
abbrev xbarPorts : Nat := 63
/-- Switched power domains (R38). -/
abbrev domains : Nat := 20
/-- Bytes of one HBM stack (R13). -/
abbrev hbmBytes : Nat := 64 * 2 ^ 30
/-- Bytes of an extent (R12). -/
abbrev extentBytes : Nat := 256 * 2 ^ 20
/-- Bytes of a granule (R12). -/
abbrev granule : Nat := 2048
/-- Tenants, sharing domains (R335, R337). -/
abbrev tenants : Nat := 4096
/-- Sharing domains (R337). -/
abbrev sharingDomains : Nat := 1024

/-! ### Values the spec leaves to fusing or manufacture (R26, R356, R358) -/

/-- 0x1000.01, fused. -/
opaque vendorId : Nat
/-- 0x1000.04, fused. -/
opaque serial : Nat
/-- 0x6000.05, fused: version text of the station program set in force. -/
opaque stationSet : Bytes
/-- The unique device secret, fused (R356). -/
opaque uds : Bytes
/-- The certificates of the slot-0 chain above the Alias certificate: root CA, intermediate CA, DeviceID (R358). -/
opaque deviceChain : Bytes
/-- The certificate that the holder of one key issues for another, by its private key, the other key, the n-th such issue, and whether it carries the
debug extension (R358, R374). -/
opaque issuedCert : Bytes → Bytes → Nat → Bool → Bytes
/-- The certificate request for a key (R358). -/
opaque certRequest : Bytes → Bytes
/-- Digest of the root die ROM (R363). -/
opaque romDigest : Bytes
/-- Digests of the measured firmware, by measurement index 2 to 4 and the number of committed images loaded (R363). -/
opaque measurement : Nat → Nat → Bytes
/-- HBM repair rows a stack reports at start-up (R383). -/
opaque hbmRepairRows : Nat → Nat

/-! ### Free values: the spec says a value results and does not say which -/

/-- The n-th fresh 64-bit word of the device DRBG (R357): nonces, memory keys, sampling. -/
opaque drbg : Nat → Nat
/-- Whether a MODRST_N pulse of 50 ns to 1 µs is taken: the n-th such pulse (R34). -/
opaque shortPulseTaken : Nat → Bool
/-- Whether a command on another ring resolves a recipe whose install or removal is in progress (R188). -/
opaque midInstall : Nat → Bool
/-- The result of mode 2 for a row none of whose kept pages it may attend: the reciprocal of a zero sum (R228, R233). -/
opaque emptyRowOutput : Nat → Nat
/-- The logarithm of R228 outside its stated range l ≥ 1. -/
opaque emptyRowLse : Nat → Nat

/-- The n-th time in ns that a unit takes to serve a read, where the spec bounds no latency (R431, monitors 4, 5 and 7). -/
opaque serviceNs : Nat → Nat
/-- The n-th value the spec leaves unstated where something is read all the same: a register read with a width its page does
not serve, or a write-only register. -/
opaque freeWord : Nat → Nat
/-- What the home of a prefix key on another device answers, by key and lookup: GROUP_ID and digest of the standing entry, or
none (R296, R297). Its entries are that device's, and no command of this one carries them. -/
opaque remoteEntry : Bytes → Nat → Option (Nat × Bytes)
/-- Whether a stage instance of an item is placed on an engine, by command, item and engine: the spec leaves the placement within the
set of R340 to the device. -/
opaque stageOn : Nat → Nat → Nat → Bool
/-- The backing ranges that a peer device lends when it is asked for FREE extents, by the device and the request: their fabric addresses (R121, R123).
What stands free on a peer is that device's own. -/
opaque lentRanges : Nat → Nat → List Nat
/-- Bytes of an engine's tile buffer (R14, R16). -/
abbrev tileBuffer : Nat := 3 * 2 ^ 19
/-- The data a peer device returns for bytes of its memory that a station reads there, by request, address and length; none: poison. -/
opaque peerData : Nat → Nat → Nat → Option Bytes
/-- Whether the n-th station read of a range takes the copy that a station still holds of it: either is allowed until a flush (R157, R160). -/
opaque fromCopy : Nat → Bool
/-- A position of a page of a prefix group that another device holds, by page ID and slot: K codes and scales, V codes and scales, GLOBAL. Such
groups are read-only (R272, R294), and no command carries their pages. -/
opaque remotePos : Nat → Nat → (List Nat × List Nat) × (List Nat × List Nat) × Bool
/-- Whether the device that holds such a page answers a read of it with data, by page ID and read. -/
opaque remotePageGood : Nat → Nat → Bool
/-- The reference of such a page there: tier, location, granules, Palette slot and generation (R281). -/
opaque remoteRef : Nat → Nat × Nat × Nat × Nat × Nat
/-- Whether a spill copy of a group whose device is out of the map can be read there, by group and read (R300). -/
opaque remoteSpill : Nat → Nat → Bool
/-- Identity of the host port's PCIe functions: function and class code (R62). -/
def hostFunctions : List (Nat × Nat) := [(0, 0x050210), (1, 0x120000)]
/-- MSI-X vectors of the command function (R62). -/
abbrev msixVectors : Nat := 65
/-- Largest PCIe payload and read request in bytes (R61). -/
abbrev maxPayload : Nat := 512
abbrev maxReadRequest : Nat := 4096
/-- Requests of a port that may await completion in each direction (R61). -/
abbrev maxOutstanding : Nat := 1024
/-- The control-space offset of a node of a sequence's block table, by fabric tag, sequence, level and number (R270). -/
opaque tableNode : Nat → Nat → Nat → Nat → Nat
/-- The control line of a prefix entry by its key, and its 64 bytes by key, group and domain, in a layout that the spec does not state (R150, R294). -/
opaque prefixLine : Bytes → Nat
opaque prefixImage : Bytes → Nat → Nat → Bytes
/-- The 64 bytes of a logical device's lease record by its number, expiry, state and renewal, in a layout that the spec does not state (R150). -/
opaque leaseImage : Nat → Option Nat → Nat → Nat → Bytes
/-- Line i of the ownership table of a map's epoch, in a layout that the spec does not state (R150). -/
opaque ownerImage : Nat → Nat → Bytes
/-- The command that a CONTROL packet carries, by its ADDR field and data, in subtypes and layouts the spec does not state (R74, R110, R129, R132): its
kind and two operands. Kinds: 0 QUIESCE and 2 HALT of an ingress (flex port, or 128 and more for a peer port; a tenant, or 4,096 for the whole port),
1 REVOKE of an extent lent to this device (its fabric address), 6 a request to lend extents (backing kind and argument in one, count), 7 the end of a
loan (extent ID), 8 the confirmation of a REVOKE (extent ID). -/
opaque controlCmd : Nat → Bytes → Option (Nat × Nat × Nat)
/-- The control-space offset of a sequence's block table root: the spec states its layout and not its place (R270). -/
opaque tableRoot : Nat → Nat → Nat

/-! ### Signatures, key exchange and sealed transport: standards the spec names and does not restate -/

/-- The bytes of one signature by the holder of a certificate's key over a digest. -/
opaque sigByte : Bytes → Bytes → Nat → Byte
/-- The further signatures that verify. -/
opaque otherSig : Bytes → Bytes → Bytes → Bool
/-- The session key that the n-th SPDM key exchange agrees (R81, R356). -/
opaque spdmKey : Nat → Bytes
/-- The export master secret of an SPDM session, by its key (R83). -/
opaque exportSecret : Bytes → Bytes
/-- The key of the n-th DTLS session (R356, R367). -/
opaque dtlsKey : Nat → Bytes
/-- The key and salt that follow a link key at an SPDM KEY_UPDATE (R85). -/
opaque updatedKey : Bytes → Bytes
/-- The subtypes of CONTROL packets, which the spec names and does not number (R74, R80, R81): 0 QUIESCE, 1 REVOKE, 2 HALT, 3 HANDOVER, 4 SPDM,
5 map gossip. They are bytes. -/
opaque controlCode : Nat → Nat
/-- See `controlCode`. -/
def controlSubtype (k : Nat) : Nat := controlCode k % 256
/-- The argument of a HANDOVER packet, which names the failed port and the last FSEQ delivered (R80). -/
opaque handoverArg : Nat → Nat → Nat
/-- The subtypes of SYNC packets, which the spec does not number (R73, R87): any two bytes that differ. -/
opaque syncCode : Nat → Nat
/-- 0 SYNC_REQ, 1 SYNC_RESP. -/
def syncSubtype (k : Nat) : Nat := if k = 0 then syncCode 0 % 256 else (syncCode 0 + 1 + syncCode 1 % 255) % 256
/-- A signature the holder of a certificate's key makes over a digest. -/
def goodSig (cert digest : Bytes) : Bytes := (List.range 96).map (sigByte cert digest)
/-- Whether an ECDSA P-384 signature over a 48-byte digest verifies under the public key of a certificate (R369, R419): free, but for
one signature that does. -/
def sigOk (cert digest sig : Bytes) : Bool := sig == goodSig cert digest || otherSig cert digest sig
/-- The bytes of one certificate with an ECDSA P-384 key. -/
opaque certByte : Nat → Byte
/-- The further ones. -/
opaque otherCert : Bytes → Bool
/-- One certificate with an ECDSA P-384 key. -/
def sampleCert : Bytes := (List.range 512).map certByte
/-- Whether bytes are one DER X.509 certificate with an ECDSA P-384 key (R371): free, but for one certificate that is. -/
def isP384Cert (b : Bytes) : Bool := b == sampleCert || otherCert b
/-- The bytes of one chain for the device's slot-1 key. -/
opaque chainByte : Nat → Byte
/-- The further ones. -/
opaque otherChain : Bytes → Bool
/-- One chain whose leaf carries the device's slot-1 key. -/
def sampleChain : Bytes := (List.range 512).map chainByte
/-- Whether a chain's leaf carries the device's slot-1 key (R358): free, but for one chain that does. -/
def leafIsSlot1 (b : Bytes) : Bool := b == sampleChain || otherChain b
/-- The root certificate of a chain, in DER. -/
opaque chainRoot : Bytes → Bytes
/-- The SHA-384 of the root certificate of a chain (R359). -/
def chainRootDigest (chain : Bytes) : Bytes := Machine.sha384 (chainRoot chain)
/-- Whether a firmware image carries a valid Nuaris signature (R420). -/
opaque imageSigned : Bytes → Bool
/-- A signature by a private key of the device (R363, R374). -/
opaque keySign : Bytes → Bytes → Bytes

end Sys2Proof.Config
end

