-- ==== Sys2Proof/Machine/Objects.lean ====
section
/-! DEFINITION. The object dictionary's rows (R26, R57, R94–R96, R117, R147, R148, R171, R208, R239, R261, R312, R334, R355,
R376, R401, R427, R441, R456): for each its type, access, default, persistence class and the values a write may hold. -/

namespace Sys2Proof.Machine

/-- Object types, with the codes of R412. -/
inductive OTy where
  | u8 | u16 | u32 | u64 | i32 | bool | enum8 | blob | str
deriving DecidableEq, Repr

/-- The TYPE code of a response entry (R412). -/
def OTy.code : OTy → Nat
  | .u8 => 1 | .u16 => 2 | .u32 => 3 | .u64 => 4 | .i32 => 5 | .bool => 6 | .enum8 => 7 | .blob => 8 | .str => 9

/-- Value bytes of a fixed-size type; 0 for BLOB and STR. -/
def OTy.size : OTy → Nat
  | .u8 => 1 | .u16 => 2 | .u32 => 4 | .u64 => 8 | .i32 => 4 | .bool => 1 | .enum8 => 1 | .blob => 0 | .str => 0

/-- Access kinds (R412, R413). -/
inductive Acc where
  | ro | rw | rwd | wo | lck | wsq
deriving DecidableEq, Repr

/-- Persistence classes (R425). -/
inductive Cls where
  | p | m | w | v
deriving DecidableEq, Repr

/-- Which values a write may hold (R6, R411). -/
inductive ValRule where
  | any
  | range (lo hi : Nat)
  | rangeOr (lo hi x : Nat)
  | oneOf (l : List Nat)
  | mask (m : Nat)
deriving DecidableEq, Repr

/-- Whether a value is in range and no reserved encoding. -/
def ValRule.ok : ValRule → Nat → Bool
  | .any, _ => true
  | .range lo hi, v => decide (lo ≤ v ∧ v ≤ hi)
  | .rangeOr lo hi x, v => decide ((lo ≤ v ∧ v ≤ hi) ∨ v = x)
  | .oneOf l, v => l.contains v
  | .mask m, v => decide (v ||| m = m)

/-- How an object's instances are named beside index and subindex: by a selector object, or not at all. -/
inductive Sel where
  | none | tenant | kvTenant | domain | palTenant | sdKey | tkTenant | tdi | block
deriving DecidableEq, Repr

/-- One row of the dictionary: `n` instances by index in steps of `stride`, `m` by subindex in steps of `sstride`. -/
structure ORow where
  base : Nat
  stride : Nat := 1
  n : Nat := 1
  sub : Nat
  m : Nat := 1
  sstride : Nat := 1
  ty : OTy
  acc : Acc
  dflt : Nat := 0
  cls : Cls
  vals : ValRule := .any
  sel : Sel := .none
deriving DecidableEq, Repr

/-- Whether the row holds `index.sub`. -/
def ORow.has (r : ORow) (idx sub : Nat) : Bool :=
  decide (r.base ≤ idx) && decide ((idx - r.base) % r.stride = 0) && decide ((idx - r.base) / r.stride < r.n)
    && decide (r.sub ≤ sub) && decide ((sub - r.sub) % r.sstride = 0) && decide ((sub - r.sub) / r.sstride < r.m)

/-- Dictionary key of `index.sub`. -/
abbrev okey (idx sub : Nat) : Nat := idx * 256 + sub

/-- The key of the instance `i` of an object read through a selector. -/
abbrev ikey (k i : Nat) : Nat := (i + 1) * 2 ^ 24 + k

/-- 0x1000 to 0x2FFF, 0x3C00 (R26, R57, R427). -/
def rowsA : List ORow :=
  [{ base := 0x1000, sub := 1, ty := .u16, acc := .ro, cls := .p },
   { base := 0x1000, sub := 2, ty := .str, acc := .ro, cls := .p },
   { base := 0x1000, sub := 3, ty := .u8, acc := .ro, dflt := 0xB0, cls := .p },
   { base := 0x1000, sub := 4, ty := .u64, acc := .ro, cls := .p },
   { base := 0x1000, sub := 5, ty := .u16, acc := .rwd, cls := .p, vals := .mask 0x81FF },
   { base := 0x1000, sub := 6, ty := .u8, acc := .ro, cls := .p },
   { base := 0x1000, sub := 8, ty := .u8, acc := .ro, dflt := 0xFF, cls := .v },
   { base := 0x1000, sub := 9, ty := .u16, acc := .ro, dflt := 0x0100, cls := .p },
   { base := 0x1000, sub := 10, ty := .u16, acc := .ro, dflt := 384, cls := .v },
   { base := 0x1010, sub := 1, ty := .u32, acc := .rw, cls := .v, vals := .mask 0xFFFFFF },
   { base := 0x1010, sub := 2, ty := .u32, acc := .wsq, cls := .v, vals := .mask 0xFFFF0001, sel := .block },
   { base := 0x1010, sub := 3, ty := .u32, acc := .ro, cls := .v, sel := .block },
   { base := 0x1010, sub := 4, ty := .u32, acc := .wsq, cls := .v, vals := .mask 0xFFFF001F },
   { base := 0x1010, sub := 5, ty := .u32, acc := .wsq, dflt := 1, cls := .p, vals := .mask 0xFFFF0007 },
   { base := 0x1020, sub := 1, ty := .blob, acc := .wo, cls := .m },
   { base := 0x1020, sub := 2, ty := .enum8, acc := .ro, cls := .m },
   { base := 0x1020, sub := 3, ty := .bool, acc := .wo, cls := .m, vals := .oneOf [1] },
   { base := 0x2000, sub := 1, ty := .u16, acc := .rw, dflt := 1150, cls := .p, vals := .range 300 1150 },
   { base := 0x2000, sub := 2, ty := .u16, acc := .rw, dflt := 64, cls := .p, vals := .range 16 256 },
   { base := 0x2000, sub := 3, ty := .bool, acc := .rw, dflt := 1, cls := .p, vals := .range 0 1 },
   { base := 0x2000, sub := 4, ty := .u32, acc := .ro, cls := .v },
   { base := 0x2000, sub := 5, ty := .u16, acc := .ro, cls := .v },
   { base := 0x2000, sub := 6, ty := .u32, acc := .wsq, cls := .v, vals := .mask 0xFFFF001F },
   { base := 0x2000, sub := 7, ty := .u16, acc := .rw, cls := .p },
   { base := 0x2000, sub := 8, ty := .u8, acc := .rw, dflt := 100, cls := .p, vals := .range 85 103 },
   { base := 0x2000, sub := 9, ty := .u8, acc := .ro, cls := .v },
   { base := 0x2000, sub := 10, ty := .u32, acc := .wsq, cls := .v, vals := .mask 0xFFFF0003 },
   { base := 0x2010, sub := 1, m := 20, ty := .u16, acc := .ro, cls := .p },
   { base := 0x2011, sub := 1, m := 20, ty := .u16, acc := .ro, cls := .v },
   { base := 0x2012, sub := 1, m := 20, ty := .u16, acc := .ro, cls := .v },
   { base := 0x2020, sub := 1, ty := .enum8, acc := .rw, cls := .p, vals := .range 0 2 },
   { base := 0x2020, sub := 2, ty := .enum8, acc := .ro, cls := .v },
   { base := 0x2020, sub := 3, ty := .u8, acc := .ro, cls := .v },
   { base := 0x2020, sub := 4, ty := .u8, acc := .ro, cls := .v },
   { base := 0x3C00, sub := 1, m := 2, ty := .blob, acc := .rw, cls := .p },
   { base := 0x3C00, sub := 3, ty := .blob, acc := .ro, cls := .p },
   { base := 0x3C00, sub := 4, ty := .u8, acc := .ro, cls := .v },
   { base := 0x3C00, sub := 5, ty := .u8, acc := .ro, cls := .v },
   { base := 0x3C00, sub := 6, ty := .blob, acc := .ro, cls := .v },
   { base := 0x3C00, sub := 7, ty := .u16, acc := .rw, dflt := 60, cls := .p, vals := .range 10 3600 },
   { base := 0x3C00, sub := 8, ty := .u16, acc := .rw, dflt := 1000, cls := .p, vals := .range 10 10000 }]

/-- 0x3000 to 0x3BFF, 0x4000 to 0x4207 (R94, R95, R96, R117). -/
def rowsB : List ORow :=
  [{ base := 0x3000, stride := 8, n := 128, sub := 1, ty := .bool, acc := .rw, cls := .p, vals := .range 0 1 },
   { base := 0x3000, stride := 8, n := 128, sub := 2, ty := .enum8, acc := .rwd, cls := .p, vals := .range 0 3 },
   { base := 0x3000, stride := 8, n := 128, sub := 3, ty := .enum8, acc := .rwd, dflt := 4, cls := .p, vals := .oneOf [2, 4, 8, 16] },
   { base := 0x3000, stride := 8, n := 128, sub := 4, ty := .u32, acc := .ro, cls := .v },
   { base := 0x3000, stride := 8, n := 128, sub := 5, ty := .u32, acc := .wsq, cls := .v, vals := .mask 0xFFFF007F },
   { base := 0x3000, stride := 8, n := 128, sub := 6, ty := .bool, acc := .rw, cls := .p, vals := .range 0 1 },
   { base := 0x3000, stride := 8, n := 128, sub := 7, ty := .blob, acc := .ro, cls := .p },
   { base := 0x3800, stride := 8, n := 64, sub := 1, ty := .bool, acc := .rw, cls := .p, vals := .range 0 1 },
   { base := 0x3800, stride := 8, n := 64, sub := 2, ty := .enum8, acc := .rwd, dflt := 4, cls := .p, vals := .oneOf [1, 2, 4] },
   { base := 0x3800, stride := 8, n := 64, sub := 3, ty := .u32, acc := .ro, cls := .v },
   { base := 0x3800, stride := 8, n := 64, sub := 4, ty := .u32, acc := .wsq, cls := .v, vals := .mask 0xFFFF00FF },
   { base := 0x3800, stride := 8, n := 64, sub := 5, ty := .i32, acc := .rw, cls := .p },
   { base := 0x3800, stride := 8, n := 64, sub := 6, ty := .blob, acc := .ro, cls := .p },
   { base := 0x3800, stride := 8, n := 64, sub := 7, m := 2, ty := .u64, acc := .ro, cls := .v },
   { base := 0x3A00, sub := 1, ty := .u32, acc := .ro, cls := .v },
   { base := 0x3A00, sub := 2, ty := .i32, acc := .ro, cls := .v },
   { base := 0x3A00, sub := 3, ty := .u8, acc := .rw, dflt := 24, cls := .p, vals := .range 1 168 },
   { base := 0x3A10, sub := 1, m := 8, ty := .u8, acc := .ro, cls := .v },
   { base := 0x4000, sub := 1, ty := .u8, acc := .rw, dflt := 16, cls := .p, vals := .range 4 64 },
   { base := 0x4000, sub := 2, ty := .enum8, acc := .rw, dflt := 3, cls := .p, vals := .range 0 6 },
   { base := 0x4000, sub := 3, ty := .u16, acc := .rw, dflt := 64, cls := .p, vals := .range 16 1024 },
   { base := 0x4000, sub := 4, ty := .u32, acc := .rw, dflt := 0x06745321, cls := .p, vals := .mask 0x0FFFFFFF },
   { base := 0x4000, sub := 5, ty := .u32, acc := .wsq, cls := .v, vals := .mask 0xFFFF0007 },
   { base := 0x4010, sub := 1, m := 8, ty := .u32, acc := .ro, cls := .v },
   { base := 0x4100, n := 128, sub := 1, ty := .u16, acc := .ro, dflt := 16, cls := .p },
   { base := 0x4100, n := 128, sub := 2, m := 2, ty := .u16, acc := .rwd, dflt := 64, cls := .p, vals := .range 0 128 },
   { base := 0x4100, n := 128, sub := 4, ty := .u16, acc := .rwd, dflt := 128, cls := .p, vals := .range 0 128 },
   { base := 0x4100, n := 128, sub := 5, m := 2, ty := .u16, acc := .rwd, dflt := 0, cls := .p, vals := .range 0 128 },
   { base := 0x4100, n := 128, sub := 7, ty := .u16, acc := .rwd, dflt := 64, cls := .p, vals := .range 0 128 },
   { base := 0x4100, n := 128, sub := 8, ty := .u16, acc := .rwd, dflt := 0, cls := .p, vals := .range 0 128 },
   { base := 0x4100, n := 192, sub := 9, ty := .u8, acc := .rwd, dflt := 0x0E, cls := .p },
   { base := 0x4100, n := 192, sub := 10, ty := .u64, acc := .ro, cls := .v },
   { base := 0x4100, n := 192, sub := 11, ty := .enum8, acc := .ro, cls := .v },
   { base := 0x4180, n := 64, sub := 1, ty := .u16, acc := .ro, dflt := 16, cls := .p },
   { base := 0x4180, n := 64, sub := 2, m := 2, ty := .u16, acc := .rwd, dflt := 64, cls := .p, vals := .range 1 128 },
   { base := 0x4180, n := 64, sub := 4, m := 3, ty := .u16, acc := .rwd, dflt := 128, cls := .p, vals := .range 1 128 },
   { base := 0x4180, n := 64, sub := 7, ty := .u16, acc := .rwd, dflt := 64, cls := .p, vals := .range 1 128 },
   { base := 0x4180, n := 64, sub := 8, ty := .u16, acc := .rwd, dflt := 16, cls := .p, vals := .range 1 128 },
   { base := 0x4200, n := 8, sub := 1, m := 64, ty := .u64, acc := .rw, cls := .p }]

/-- 0x4400 to 0x5FFF (R147, R148, R171, R355). -/
def rowsC : List ORow :=
  [{ base := 0x4400, sub := 1, ty := .u16, acc := .rw, cls := .v, vals := .mask 0xFFF },
   { base := 0x4400, sub := 2, ty := .bool, acc := .rw, cls := .p, vals := .range 0 1, sel := .tenant },
   { base := 0x4400, sub := 3, ty := .enum8, acc := .rwd, cls := .p, vals := .range 0 1, sel := .tenant },
   { base := 0x4400, sub := 4, ty := .u32, acc := .rwd, cls := .p, sel := .tenant },
   { base := 0x4400, sub := 5, ty := .u16, acc := .rwd, dflt := 0x8000, cls := .p, vals := .mask 0x83FF, sel := .tenant },
   { base := 0x4400, sub := 6, ty := .u16, acc := .rw, dflt := 0x017F, cls := .p, vals := .mask 0x1FF, sel := .tenant },
   { base := 0x4400, sub := 7, ty := .u8, acc := .rwd, cls := .p, vals := .rangeOr 2 40 0, sel := .tenant },
   { base := 0x4400, sub := 8, ty := .u16, acc := .rwd, cls := .p, vals := .range 0 8192, sel := .tenant },
   { base := 0x4400, sub := 9, ty := .u32, acc := .rwd, cls := .p, vals := .range 0 262144, sel := .tenant },
   { base := 0x4400, sub := 10, ty := .u32, acc := .rwd, cls := .p, vals := .range 0 1048576, sel := .tenant },
   { base := 0x4400, sub := 11, ty := .u16, acc := .ro, cls := .v, sel := .tenant },
   { base := 0x4400, sub := 12, ty := .u16, acc := .wo, cls := .v, vals := .mask 0xFFF },
   { base := 0x4410, sub := 1, m := 5, ty := .u32, acc := .rw, dflt := 0xFFFFFFFF, cls := .p, vals := .rangeOr 1 4000000 0xFFFFFFFF, sel := .tenant },
   { base := 0x4410, sub := 6, m := 5, ty := .u16, acc := .rw, dflt := 64, cls := .p, vals := .range 17 65535, sel := .tenant },
   { base := 0x4410, sub := 11, m := 5, ty := .i32, acc := .ro, cls := .v, sel := .tenant },
   { base := 0x4410, sub := 16, ty := .u64, acc := .ro, cls := .v, sel := .tenant },
   { base := 0x4420, sub := 1, ty := .u32, acc := .wsq, cls := .v, vals := .mask 0xFFFF000F },
   { base := 0x4420, sub := 2, ty := .u16, acc := .ro, cls := .v },
   { base := 0x4420, sub := 3, ty := .u8, acc := .ro, cls := .v },
   { base := 0x5000, sub := 1, ty := .u16, acc := .ro, dflt := 1000, cls := .p },
   { base := 0x5000, sub := 2, ty := .u16, acc := .ro, dflt := 100, cls := .p },
   { base := 0x5000, sub := 3, ty := .u16, acc := .rw, dflt := 1000, cls := .p, vals := .range 100 10000 },
   { base := 0x5000, sub := 4, ty := .u16, acc := .rw, dflt := 512, cls := .p, vals := .range 0 2048 },
   { base := 0x5000, sub := 5, m := 3, ty := .u32, acc := .ro, cls := .v },
   { base := 0x5000, sub := 8, ty := .u32, acc := .wsq, cls := .v, vals := .mask 0xFFFF001F },
   { base := 0x5010, sub := 1, ty := .blob, acc := .wo, cls := .v },
   { base := 0x5010, sub := 2, ty := .u32, acc := .wo, cls := .v, vals := .mask 0xFFFFF },
   { base := 0x5010, sub := 3, ty := .u32, acc := .rw, cls := .v, vals := .mask 0xFFFFF },
   { base := 0x5010, sub := 4, ty := .blob, acc := .ro, cls := .v },
   { base := 0x5010, sub := 5, ty := .u32, acc := .wo, cls := .v, vals := .mask 0x800FFFFF },
   { base := 0x5030, sub := 1, ty := .bool, acc := .rw, cls := .p, vals := .range 0 1 },
   { base := 0x5030, sub := 2, ty := .u64, acc := .ro, cls := .v },
   { base := 0x5100, sub := 1, ty := .u16, acc := .rw, dflt := 50, cls := .p, vals := .range 10 1000 },
   { base := 0x5100, sub := 2, ty := .u32, acc := .wsq, cls := .v, vals := .mask 0xFFFF0007 },
   { base := 0x5100, sub := 3, m := 2, ty := .u64, acc := .ro, cls := .v },
   { base := 0x5100, sub := 5, ty := .u16, acc := .wo, cls := .v, vals := .mask 0x7FF },
   { base := 0x5100, sub := 6, m := 2, ty := .u64, acc := .ro, cls := .v },
   { base := 0x5400, n := 128, sub := 1, m := 16, sstride := 8, ty := .bool, acc := .rw, cls := .p, vals := .range 0 1 },
   { base := 0x5400, n := 128, sub := 2, m := 16, sstride := 8, ty := .u16, acc := .rwd, cls := .p, vals := .mask 0x8FFF },
   { base := 0x5400, n := 128, sub := 3, m := 16, sstride := 8, ty := .u32, acc := .rw, dflt := 4000, cls := .p, vals := .range 100 60000 },
   { base := 0x5400, n := 128, sub := 4, m := 16, sstride := 8, ty := .u32, acc := .rwd, dflt := 4096, cls := .p, vals := .range 1 65536 },
   { base := 0x5400, n := 128, sub := 5, m := 16, sstride := 8, ty := .u32, acc := .ro, cls := .v },
   { base := 0x5400, n := 128, sub := 6, m := 16, sstride := 8, ty := .u32, acc := .ro, cls := .v },
   { base := 0x5400, n := 128, sub := 7, m := 16, sstride := 8, ty := .u32, acc := .wsq, cls := .v, vals := .mask 0xFFFF001F },
   { base := 0x5400, n := 128, sub := 8, m := 16, sstride := 8, ty := .u64, acc := .ro, cls := .v }]

/-- 0x6000 to 0x7FFF (R208, R239, R261, R312, R334). -/
def rowsD : List ORow :=
  [{ base := 0x6000, sub := 1, ty := .u16, acc := .ro, dflt := 16384, cls := .p },
   { base := 0x6000, sub := 2, ty := .u16, acc := .ro, dflt := 16384, cls := .m },
   { base := 0x6000, sub := 3, ty := .u16, acc := .rw, dflt := 256, cls := .p, vals := .range 0 3840 },
   { base := 0x6000, sub := 4, ty := .u16, acc := .rw, dflt := 4096, cls := .p, vals := .range 256 4096 },
   { base := 0x6000, sub := 5, ty := .str, acc := .ro, cls := .p },
   { base := 0x6000, sub := 6, ty := .u32, acc := .wsq, cls := .v, vals := .mask 0xFFFF0007 },
   { base := 0x6000, sub := 7, m := 2, ty := .u64, acc := .ro, cls := .v },
   { base := 0x6000, sub := 9, ty := .u32, acc := .ro, cls := .v },
   { base := 0x6010, sub := 1, m := 8, ty := .u8, acc := .ro, dflt := 48, cls := .v },
   { base := 0x6100, sub := 1, m := 6, ty := .u64, acc := .ro, cls := .v },
   { base := 0x6100, sub := 7, ty := .u32, acc := .wsq, cls := .v, vals := .mask 0xFFFF0003 },
   { base := 0x6200, sub := 1, ty := .u16, acc := .rw, dflt := 10, cls := .p, vals := .range 1 1000 },
   { base := 0x6200, sub := 2, ty := .u16, acc := .rw, dflt := 1024, cls := .p, vals := .range 256 8192 },
   { base := 0x6200, sub := 3, ty := .u16, acc := .rw, dflt := 64, cls := .p, vals := .range 1 8192 },
   { base := 0x6200, sub := 4, ty := .u16, acc := .rw, dflt := 4096, cls := .p, vals := .range 0 16384 },
   { base := 0x6200, sub := 5, ty := .u16, acc := .rw, dflt := 1024, cls := .p, vals := .range 0 16384 },
   { base := 0x6200, sub := 6, m := 2, ty := .u64, acc := .ro, cls := .v },
   { base := 0x6200, sub := 8, m := 2, ty := .u32, acc := .ro, cls := .v },
   { base := 0x6200, sub := 10, ty := .u32, acc := .wsq, cls := .v, vals := .mask 0xFFFF000F },
   { base := 0x7000, sub := 1, ty := .u32, acc := .ro, dflt := 33554432, cls := .p },
   { base := 0x7000, sub := 2, ty := .u32, acc := .ro, cls := .m },
   { base := 0x7000, sub := 3, ty := .u32, acc := .ro, cls := .v },
   { base := 0x7000, sub := 4, ty := .bool, acc := .rw, dflt := 1, cls := .p, vals := .range 0 1 },
   { base := 0x7000, sub := 5, ty := .u8, acc := .rw, dflt := 90, cls := .p, vals := .range 60 98 },
   { base := 0x7000, sub := 6, ty := .u8, acc := .rw, dflt := 80, cls := .p, vals := .range 50 97 },
   { base := 0x7000, sub := 7, ty := .u32, acc := .wsq, cls := .v, vals := .mask 0xFFFF001F },
   { base := 0x7010, n := 3, sub := 1, m := 5, ty := .u64, acc := .ro, cls := .v },
   { base := 0x7100, n := 2, sub := 1, m := 12, ty := .u64, acc := .ro, cls := .v },
   { base := 0x7200, sub := 1, ty := .u32, acc := .ro, cls := .m },
   { base := 0x7200, sub := 2, ty := .u16, acc := .rwd, cls := .p },
   { base := 0x7200, sub := 3, ty := .u16, acc := .ro, cls := .v },
   { base := 0x7200, sub := 4, ty := .u16, acc := .rw, dflt := 10, cls := .p, vals := .range 1 100 },
   { base := 0x7200, sub := 5, ty := .u16, acc := .rw, dflt := 20, cls := .p, vals := .range 5 1000 },
   { base := 0x7200, sub := 6, ty := .u32, acc := .ro, cls := .v },
   { base := 0x7200, sub := 7, ty := .u32, acc := .wsq, cls := .v, vals := .mask 0xFFFF000F },
   { base := 0x7200, sub := 8, ty := .u16, acc := .ro, dflt := 50, cls := .p },
   { base := 0x7300, sub := 1, ty := .u16, acc := .rw, cls := .v, vals := .mask 0xFFF },
   { base := 0x7300, sub := 2, ty := .u32, acc := .rw, dflt := 0xFFFFFFFF, cls := .p, sel := .kvTenant },
   { base := 0x7300, sub := 3, ty := .u64, acc := .ro, cls := .m, sel := .kvTenant },
   { base := 0x7300, sub := 4, ty := .u32, acc := .rw, dflt := 1024, cls := .p, sel := .kvTenant },
   { base := 0x7300, sub := 5, ty := .u64, acc := .ro, cls := .m, sel := .kvTenant },
   { base := 0x7300, sub := 6, ty := .u16, acc := .rw, cls := .v, vals := .mask 0x3FF },
   { base := 0x7300, sub := 7, ty := .u32, acc := .rw, dflt := 0xFFFFFFFF, cls := .p, sel := .domain },
   { base := 0x7300, sub := 8, ty := .u64, acc := .ro, cls := .m, sel := .domain },
   { base := 0x7400, sub := 1, ty := .u16, acc := .rw, cls := .v, vals := .mask 0xFFF },
   { base := 0x7400, sub := 2, ty := .enum8, acc := .rw, dflt := 2, cls := .p, vals := .range 0 2, sel := .palTenant },
   { base := 0x7400, sub := 3, ty := .u8, acc := .rw, dflt := 16, cls := .p, vals := .range 0 135, sel := .palTenant },
   { base := 0x7400, sub := 4, ty := .u16, acc := .ro, cls := .m, sel := .palTenant },
   { base := 0x7400, sub := 5, ty := .blob, acc := .ro, cls := .m, sel := .palTenant },
   { base := 0x7500, sub := 1, ty := .u16, acc := .ro, dflt := 4096, cls := .m },
   { base := 0x7500, sub := 2, ty := .u32, acc := .rw, dflt := 256, cls := .p, vals := .range 16 65536 },
   { base := 0x7500, sub := 3, ty := .u8, acc := .rw, dflt := 2, cls := .p, vals := .range 0 50 },
   { base := 0x7500, sub := 4, ty := .u32, acc := .rw, dflt := 65536, cls := .p, vals := .range 0 1048576 },
   { base := 0x7500, sub := 5, ty := .u32, acc := .wsq, cls := .v, vals := .mask 0xFFFF000F },
   { base := 0x7500, sub := 6, m := 4, ty := .u64, acc := .ro, cls := .v },
   { base := 0x7500, sub := 10, ty := .u16, acc := .rw, cls := .v, vals := .mask 0xFFF },
   { base := 0x7500, sub := 11, ty := .blob, acc := .ro, cls := .m }]

/-- 0x8000 to 0xBFFF (R376, R401, R441, R456). -/
def rowsE : List ORow :=
  [{ base := 0x8000, sub := 1, ty := .blob, acc := .ro, cls := .p },
   { base := 0x8000, sub := 2, ty := .blob, acc := .rw, cls := .p },
   { base := 0x8000, sub := 3, ty := .blob, acc := .ro, cls := .p },
   { base := 0x8000, sub := 4, ty := .blob, acc := .rw, cls := .p },
   { base := 0x8000, sub := 5, ty := .u32, acc := .ro, cls := .v },
   { base := 0x8000, sub := 6, m := 3, ty := .bool, acc := .lck, cls := .m, vals := .oneOf [1] },
   { base := 0x8000, sub := 9, ty := .bool, acc := .rw, dflt := 1, cls := .p, vals := .range 0 1 },
   { base := 0x8000, sub := 10, ty := .u32, acc := .wsq, cls := .v, vals := .mask 0xFFFF0007 },
   { base := 0x8100, sub := 1, m := 16, ty := .blob, acc := .ro, cls := .p },
   { base := 0x8100, sub := 17, ty := .u8, acc := .ro, cls := .p },
   { base := 0x8100, sub := 18, ty := .u8, acc := .rw, dflt := 2, cls := .p },
   { base := 0x8100, sub := 19, ty := .blob, acc := .wo, cls := .p },
   { base := 0x8100, sub := 20, ty := .u8, acc := .wo, cls := .p, vals := .range 1 16 },
   { base := 0x8100, sub := 21, ty := .u16, acc := .ro, cls := .v },
   { base := 0x8100, sub := 22, ty := .bool, acc := .wo, cls := .v, vals := .oneOf [1] },
   { base := 0x8200, sub := 1, ty := .u16, acc := .rw, cls := .v, vals := .mask 0x3FF },
   { base := 0x8200, sub := 2, ty := .blob, acc := .wo, cls := .m, sel := .sdKey },
   { base := 0x8200, sub := 3, ty := .u32, acc := .ro, cls := .m, sel := .sdKey },
   { base := 0x8200, sub := 4, ty := .u16, acc := .wo, cls := .v, vals := .mask 0x3FF },
   { base := 0x8300, sub := 1, ty := .u16, acc := .rw, cls := .v, vals := .mask 0xFFF },
   { base := 0x8300, sub := 2, ty := .enum8, acc := .ro, cls := .m, sel := .tkTenant },
   { base := 0x8400, sub := 1, ty := .u16, acc := .rw, cls := .v, vals := .mask 0x7FF },
   { base := 0x8400, sub := 2, ty := .enum8, acc := .ro, cls := .v, sel := .tdi },
   { base := 0x9000, sub := 1, ty := .u16, acc := .ro, dflt := 1000, cls := .p },
   { base := 0x9000, sub := 2, ty := .u16, acc := .rw, dflt := 1024, cls := .p, vals := .range 16 65535 },
   { base := 0x9000, sub := 3, ty := .u8, acc := .rw, dflt := 1, cls := .p, vals := .range 0 4 },
   { base := 0x9000, sub := 4, ty := .u8, acc := .rw, dflt := 1, cls := .p, vals := .range 1 4 },
   { base := 0x9000, sub := 5, ty := .u16, acc := .rw, dflt := 16, cls := .p, vals := .range 2 1024 },
   { base := 0x9000, sub := 6, ty := .u16, acc := .rw, dflt := 600, cls := .p, vals := .range 10 65535 },
   { base := 0x9000, sub := 7, ty := .u16, acc := .rw, dflt := 10, cls := .p, vals := .range 1 1000 },
   { base := 0x9000, sub := 8, ty := .u32, acc := .wsq, cls := .v, vals := .mask 0xFFFF00FF },
   { base := 0x9000, sub := 9, m := 2, ty := .u64, acc := .ro, cls := .v },
   { base := 0x9000, sub := 11, ty := .u32, acc := .ro, cls := .v },
   { base := 0x9000, sub := 12, ty := .enum8, acc := .wo, cls := .v, vals := .range 1 2 },
   { base := 0x9000, sub := 13, ty := .u32, acc := .ro, cls := .v },
   { base := 0x9010, sub := 1, m := 8, ty := .blob, acc := .ro, cls := .v },
   { base := 0x9100, n := 8, sub := 1, m := 52, ty := .u16, acc := .ro, cls := .v },
   { base := 0x9200, sub := 1, ty := .u16, acc := .rw, dflt := 10, cls := .p, vals := .range 1 1000 },
   { base := 0x9200, sub := 2, ty := .u16, acc := .rw, dflt := 2, cls := .p, vals := .range 1 512 },
   { base := 0x9200, sub := 3, ty := .u16, acc := .rw, dflt := 60, cls := .p, vals := .range 1 3600 },
   { base := 0x9200, sub := 4, ty := .u16, acc := .wo, cls := .v, vals := .mask 0x1FF },
   { base := 0x9200, sub := 5, ty := .bool, acc := .wo, cls := .v, vals := .range 0 1 },
   { base := 0x9200, sub := 6, m := 4, ty := .u32, acc := .ro, cls := .v },
   { base := 0x9200, sub := 10, ty := .enum8, acc := .ro, cls := .v },
   { base := 0xA000, sub := 1, ty := .u8, acc := .ro, dflt := 18, cls := .p },
   { base := 0xA000, sub := 2, ty := .u8, acc := .ro, cls := .v },
   { base := 0xA000, sub := 3, ty := .u64, acc := .ro, cls := .v },
   { base := 0xA000, sub := 4, ty := .u32, acc := .wsq, cls := .v, vals := .mask 0xFFFF0003 },
   { base := 0xA100, n := 18, sub := 1, ty := .u32, acc := .rw, cls := .p, vals := .mask 0x0FFF000F },
   { base := 0xA100, n := 18, sub := 2, ty := .u8, acc := .wo, cls := .v, vals := .mask 1 },
   { base := 0xA100, n := 18, sub := 3, ty := .u64, acc := .rw, cls := .p },
   { base := 0xA100, n := 18, sub := 4, ty := .u64, acc := .ro, dflt := 0xFFFFFFFFFFFFFFFF, cls := .v },
   { base := 0xA100, n := 18, sub := 5, m := 3, ty := .u64, acc := .ro, cls := .v },
   { base := 0xA100, n := 18, sub := 8, ty := .blob, acc := .ro, cls := .v },
   { base := 0xB000, sub := 1, ty := .u32, acc := .wo, cls := .v, vals := .mask 0x00FF070F },
   { base := 0xB000, sub := 2, ty := .u32, acc := .ro, cls := .v },
   { base := 0xB000, sub := 3, ty := .u16, acc := .rw, dflt := 100, cls := .p, vals := .range 20 1000 },
   { base := 0xB000, sub := 4, ty := .u32, acc := .wsq, cls := .v, vals := .mask 0xFFFF0007 },
   { base := 0xB010, sub := 1, ty := .enum8, acc := .ro, cls := .v },
   { base := 0xB010, sub := 2, ty := .u16, acc := .wo, cls := .v, vals := .mask 0xFF03 },
   { base := 0xB010, sub := 3, ty := .u8, acc := .ro, cls := .v },
   { base := 0xB020, sub := 1, ty := .enum8, acc := .ro, cls := .v }]

/-- The rows of one 4 KiB-index range. -/
def rowsFor (idx : Nat) : List ORow :=
  if idx < 0x3000 then rowsA
  else if idx < 0x3C00 then rowsB
  else if idx < 0x4000 then rowsA
  else if idx < 0x4400 then rowsB
  else if idx < 0x6000 then rowsC
  else if idx < 0x8000 then rowsD
  else rowsE

/-- The row of `index.sub`; none where the manual names no such object (R426). -/
def objRow (idx sub : Nat) : Option ORow := (rowsFor idx).find? (fun r => r.has idx sub)

/-- Row of a key, instance number stripped. -/
def keyRow (k : Nat) : Option ORow := objRow (k % 2 ^ 24 / 256) (k % 256)

/-- The default of the object at a key (R425); STRAP-dependent FAILURE_GROUP is handled where it is read. -/
def objDefault (k : Nat) : Nat := match keyRow k with | some r => r.dflt | none => 0

/-- Persistence class of the object at a key; keys without a row (the model's own) are class V. -/
def objClass (k : Nat) : Cls := match keyRow k with | some r => r.cls | none => .v

/-- What part of the device a class V or W object belongs to (R424 SCOPE, R425). -/
inductive OScope where
  | device
  | die (n : Nat)
  | flex (p : Nat)
  | peer (q : Nat)
  | engine (e : Nat)
  | tenant (t : Nat)
  | ld (p l : Nat)
deriving DecidableEq, Repr

/-- The scope of the object at a key. -/
def objScope (k : Nat) : OScope :=
  let idx := k % 2 ^ 24 / 256
  let sub := k % 256
  if 0x3000 ≤ idx ∧ idx < 0x3400 then .flex ((idx - 0x3000) / 8)
  else if 0x3800 ≤ idx ∧ idx < 0x3A00 then .peer ((idx - 0x3800) / 8)
  else if idx = 0x3A10 then .die (sub - 1)
  else if idx = 0x4010 then .die (sub - 1)
  else if 0x4100 ≤ idx ∧ idx < 0x4180 then .flex (idx - 0x4100)
  else if 0x4180 ≤ idx ∧ idx < 0x41C0 then .peer (idx - 0x4180)
  else if idx = 0x4410 then .tenant (k / 2 ^ 24 - 1)
  else if 0x5400 ≤ idx ∧ idx < 0x5480 then .ld (idx - 0x5400) ((sub - 1) / 8)
  else if idx = 0x6010 then .die (sub - 1)
  else if idx = 0x9010 then .die (sub - 1)
  else if 0x9100 ≤ idx ∧ idx < 0x9108 then .engine ((idx - 0x9100) * 52 + (sub - 1))
  else .device

/-- The scopes in which a monitor may be set (R431): device 0, die 1, flex port 2, peer port 3, tenant 4. -/
def monScopes (m : Nat) : List Nat :=
  match m with
  | 0 => [0, 2, 4] | 1 => [0, 2, 4] | 2 => [0, 1, 4] | 3 => [0, 1, 4] | 4 => [0, 1] | 5 => [0, 2] | 6 => [0, 2] | 7 => [0, 2]
  | 8 => [0, 1, 4] | 9 => [0, 1, 2, 3] | 10 => [0, 1, 2, 3] | 11 => [0, 2, 4] | 12 => [0, 2] | 13 => [0] | 14 => [0, 4]
  | 15 => [0, 1] | 16 => [0, 1] | _ => [0]

end Sys2Proof.Machine
end

