-- ==== Sys2Proof/Machine/Wire.lean ====
section
/-! DEFINITION. What a peer link carries as bytes: packet headers, flit images, link keys and the seal of a DATA flit (R71 to R74, R83). -/

namespace Sys2Proof.Machine

open Sys2Proof

/-! ### HMAC-SHA-384, HKDF and AES-GCM-256 -/

/-- HMAC-SHA-384. -/
def hmac384 (key m : Bytes) : Bytes :=
  let k := padTo 128 (if key.length > 128 then sha384 key else key)
  sha384 (k.map (· ^^^ 0x5C#8) ++ sha384 (k.map (· ^^^ 0x36#8) ++ m))
/-- The first block of HKDF-SHA-384's expansion of a secret under a label. -/
def hkdf384 (secret label : Bytes) : Bytes := hmac384 secret (label ++ [1#8])

/-! ### Keys of the device (R356) -/

/-- The DeviceID key. -/
def deviceIdKey : Bytes := hkdf384 Config.uds (ascii "nsx deviceid")
/-- The key of slot 1. -/
def slot1KeyOf : Bytes := hkdf384 Config.uds (ascii "nsx slot1")
/-- Measurement `i`, 1 to 4, of the firmware loaded (R363). -/
def measured (i fw : Nat) : Bytes := if i = 1 then Config.romDigest else Config.measurement i fw
/-- The Alias key: from the DeviceID private key and measurement blocks 1 to 4; the debug one has a label of its own (R356, R374). -/
def aliasKeyOf (device : Bytes) (fw : Nat) (debug : Bool) : Bytes :=
  hkdf384 (device ++ (List.range 4).flatMap (fun i => measured (i + 1) fw)) (ascii (if debug then "nsx alias debug" else "nsx alias"))

/-- The product of GCM's field, where the bits of a block count from its most significant one: over `n` bits of x, from bit n - 1 on. -/
def ghashMul (x : Nat) : Nat → Nat → Nat
  | 0, _ => 0
  | n + 1, v => (if x.testBit n then v else 0) ^^^ ghashMul x n (if v.testBit 0 then (v / 2) ^^^ (0xE1 * 2 ^ 120) else v / 2)
/-- GHASH of whole blocks under h. -/
def ghash (h : Nat) (blocks : List Bytes) : Nat := blocks.foldl (fun y b => ghashMul (y ^^^ beNat (padTo 16 b)) 128 h) 0
/-- One AES block of the counter's stream. -/
def ctrBlock (rks : List (List Nat)) (iv : Bytes) (n : Nat) : List Nat := aesBlock rks ((iv ++ beBytes 4 n).map BitVec.toNat)
/-- AES-GCM-256 under a 96-bit IV: ciphertext and the 16 bytes of the tag. -/
def gcmSeal (key iv aad p : Bytes) : Bytes × Bytes :=
  let rks := aesKeys (key.map BitVec.toNat)
  let n := ceilDiv p.length 16
  let stream := (List.range n).flatMap (fun i => ctrBlock rks iv (i + 2))
  let c := (xorList (p.map BitVec.toNat) stream).map (BitVec.ofNat 8)
  let h := beNat ((aesBlock rks (List.replicate 16 0)).map (BitVec.ofNat 8))
  let s := ghash h (chunks 16 (ceilDiv aad.length 16) aad ++ chunks 16 n c ++ [beBytes 8 (8 * aad.length) ++ beBytes 8 (8 * c.length)])
  (c, (xorList (ctrBlock rks iv 1) ((beBytes 16 s).map BitVec.toNat)).map (BitVec.ofNat 8))

/-! ### Packets (R73, R74) -/

/-- Header words 0 and 1 of a packet. -/
def packetWord0 (k : Packet) : Nat :=
  k.ptype * 2 ^ 60 + k.tc * 2 ^ 57 + bool01 k.flag * 2 ^ 56 + bool01 k.poison * 2 ^ 55 + (if k.ptype = 1 then k.want else k.data.length) * 2 ^ 46
    + k.srcDev * 2 ^ 37 + k.dstDev * 2 ^ 28
    + k.tenant * 2 ^ 16 + k.tag
/-- A packet's bytes: 16 of header, its data, zeros to a multiple of 8 (R73). -/
def packetWire (k : Packet) : Bytes := leBytes 8 (packetWord0 k) ++ leBytes 8 k.addr ++ padTo (roundUp k.data.length 8) k.data
/-- Bytes a packet takes in a payload (R73). -/
def packetSize (k : Packet) : Nat := 16 + roundUp k.data.length 8
/-- The packet that fills the rest of a payload: its header, and zeros, are all zero (R74). -/
def padPacket : Packet := { ptype := 0, tc := 0, srcDev := 0, dstDev := 0, tenant := 0, tag := 0, addr := 0 }

/-- Bytes of a flit's payload (R71). -/
abbrev payloadBytes : Nat := 2528

/-! ### Flits (R71, R72) -/

/-- FTYPE, FSEQ, ACK_SEQ, NAK, KEY_ID, FIRST_PKT and TC0_CREDIT as word 0 (R72). -/
def flitWord0 (ftype fseq ack : Nat) (nak : Bool) (key first tc0 : Nat) : Nat :=
  ftype * 2 ^ 60 + fseq * 2 ^ 48 + ack * 2 ^ 36 + bool01 nak * 2 ^ 35 + key * 2 ^ 33 + first * 2 ^ 24 + tc0 * 2 ^ 12
/-- CR_A and CR_B as word 1 (R72). -/
def flitWord1 (ca la cb lb : Nat) : Nat := ca * 2 ^ 61 + la * 2 ^ 49 + cb * 2 ^ 46 + lb * 2 ^ 34
/-- The 2,560 bytes of a flit: header, payload, tag and the CRC-32C over what stands before it (R71). -/
def flitImage (w0 w1 : Nat) (payload tag : Bytes) : Bytes :=
  let b := leBytes 8 w0 ++ leBytes 8 w1 ++ payload ++ tag
  b ++ leBytes 4 (crc32c b)

/-- Key and salt of a direction, 36 bytes, from the session's export master secret (R83): the lower device's direction has the first label. -/
def linkKey (secret : Bytes) (fromLower : Bool) : Bytes := (hkdf384 secret (ascii (if fromLower then "zorord lo-hi" else "zorord hi-lo"))).take 36
/-- The payload and tag of a DATA flit under key and salt `ks`: the `n`-th under that key (R83). Its associated data is word 0 with only the
fields that R83 names. -/
def sealFlit (ks : Bytes) (n fseq key first : Nat) (payload : Bytes) : Bytes × Bytes :=
  let r := gcmSeal (ks.take 32) (ks.drop 32 ++ leBytes 8 n) (leBytes 8 (flitWord0 1 fseq 0 false key first 0)) payload
  (r.1, r.2.take 12)

end Sys2Proof.Machine
end

