-- ==== Sys2Proof/Machine/State.lean ====
section
/-! DEFINITION. The block's state: everything the spec gives the device, as plain data, and the state right after POR. -/

namespace Sys2Proof.Machine

open Sys2Proof

/-- No command of this block faults: errors of the device are states, statuses, response codes or poison. -/
inductive Fault where
deriving DecidableEq, Repr

/-- Why a command is not run. -/
inductive Refusal where
  /-- Raised by an arm of `exec` whose command has no meaning in the model; safe, since nothing is then claimed of it. -/
  | notModelled (mnemonic : String)
deriving DecidableEq, Repr

/-- What the device sends outside, in the order sent (R22). -/
inductive Output where
  /-- A response to a management request: session, REQ_ID, message type with bit 7 set, body (R404 to R406). -/
  | resp (sid reqId ty : Nat) (body : Bytes)
  /-- The response code of a row that is one write of one object (R411). -/
  | code (sid idx sub rc : Nat)
  /-- A NOTIFY: session, session sequence, time, CODE, fields (R421). -/
  | notify (sid seq time code : Nat) (fields : Bytes)
  /-- A memory write by DMA through function 1 of port p, logical device l (R21, R64). -/
  | dma (p l addr : Nat) (data : Bytes)
  | msix (p l vec : Nat)
  /-- A read or atomic completion (R130, R157). -/
  | readCpl (p l addr : Nat) (data : Bytes) (poison : Bool)
  /-- The completion of an atomic at a peer, engine or root-die source (R155). -/
  | atomicCpl (src : Source) (addr : Nat) (data : Bytes) (poison : Bool)
  /-- A write completion; err is an error completion (R64, R130). -/
  | writeCpl (p l addr : Nat) (err : Bool)
  /-- An unsupported-request completion (R100). -/
  | unsupported (port : Nat)
  /-- A CXL event record: 0 Add Capacity, 1 Forced Capacity Release, 2 General Media (R123, R133, R143). -/
  | cxlEvent (p l kind slot : Nat)
  | aerFatal (p l : Nat)
  /-- A flit, with its 2,560 bytes (R71). -/
  | flit (q : Nat) (f : Flit) (img : Bytes)
  /-- Packets of the flits held for a lost link, resent over `via` (R80). -/
  | resent (via : Nat) (pkts : List Packet)
  /-- The end at its source of the request of a lost packet (R391). -/
  | lostPacket (pkt : Packet)
  /-- A cell handed to what a crossbar port is attached to (R97, R113). -/
  | cell (die port : Nat) (pkt : Packet)
  | accepted (q : Nat) (pkt : Packet)
  | handoverMsg (via failed lastFseq : Nat)
  | syncMsg (q : Nat) (isReq : Bool) (t1 t2 t3 root hops sender : Nat)
  /-- An SPDM response: port, is a peer port, message code, data (R81, R360). -/
  | spdm (ch : SpdmCh) (msg : Nat) (data : Bytes)
  /-- A TDISP response: message code, or the error 0x7F, and data (R360). -/
  | tdisp (p l msg : Nat) (data : Bytes)
  | kSet (p stream keySet : Nat)
  | biSnp (p l line : Nat)
  | coh (toHome : Bool) (agent line kind : Nat)
  /-- A command to a flash tray: namespace and LBA in one, as LOCATION has them, and the granules a Write carries (R66, R67, R281). -/
  | nvme (p cid op lba : Nat) (data : Bytes)
  | nvmeAbort (p cid : Nat)
  | nvmeReset (p : Nat)
  | mirror (dev : Nat) (m : Mirror)
  | mirrorAck (m : Mirror)
  | mirrorRefuse (m : Mirror) (epoch : Nat)
  | gossip (q epoch proposer : Nat) (resetting : Option Nat)
  | mapFetch (q : Nat)
  | mapSend (q : Nat) (m : FMap)
  | handoff (dev : Nat) (seqs : List SeqImage) (entries : List PrefixImage)
  | handoffAck (dev : Nat)
  | handoffDrop (dev : Nat)
  | catchUp (dev : Nat) (img : SeqImage)
  | copyDrop (dev fabTag seqId : Nat)
  | linkMsg (dev group : Nat)
  | unlinkMsg (dev group : Nat)
  /-- To the home of a key: the publish of a group under it, and the removal of its entry (R297, R299). -/
  | publishMsg (dev gid : Nat) (key : Bytes) (domain : Nat) (digest : Bytes)
  | evictMsg (dev gid : Nat) (key : Bytes)
  /-- The home's answer to a publish: the group that stands, and whether its digest is the same (R297). -/
  | publishReply (dev gid standing : Nat) (same : Bool)
  /-- Contributions, block partials and results, each with its tiles (R177, R245); the packets that carry the tiles follow as `toCore`. -/
  | contrib (dev : Nat) (c : Contribution) (tiles : List Tile)
  | blockPartial (dev : Nat) (key : CollKey) (par : CollParams) (block timeoutMs : Nat) (devs : List Nat) (data : Bytes) (poison : Bool)
      (tiles : List Tile)
  | collResult (dev : Nat) (key : CollKey) (data : Bytes) (poison : Bool) (tiles : List Tile)
  | collAbort (dev : Nat) (key : CollKey) (par : CollParams) (timeoutMs : Nat)
  /-- A rank's contribution, with its CMD_REF, or a block's partial, of another device ends at its home with a status and reason (R246, R252). -/
  | collStatus (dev : Nat) (key : CollKey) (ofBlock : Bool) (n ref st reason : Nat)
  | tile (dev : Nat) (t : Tile)
  | i3c (ctrl rc value : Nat)
  | relayReq (target sid reqId idx sub off word : Nat)
  | relayResp (dev origin rc value : Nat)
  | dtlsAlert (port : Nat)
  /-- A management session opens, and the device shows a chain as the server's identity (R359, R403). -/
  | dtlsOpen (port sid : Nat) (chain : Bytes)
  | dtlsClose (sid : Nat)
  | fenceDone (src : Source)
  /-- A SYSTEM fence completed with a remote access lost: the station reports it in its status (R164). -/
  | fenceLost (src : Source)
  /-- A thread context's read of a control line returns its bytes (R163). -/
  | lineRead (agent ctx line : Nat) (data : Bytes)
  /-- A page's granules go to a place in a donor region (R136). -/
  | donorDma (p l region off page : Nat) (data : Bytes)
  | revokeSent (dev eid : Nat)
  /-- A packet that an ingress or an internal agent brings to a crossbar port, to be admitted there (R97, R98). -/
  | toCore (die port : Nat) (pkt : Packet)
  /-- The answer to a host's acceptance or release of a slot (R123, R135). -/
  | dcReply (p l slot : Nat) (ok : Bool)
  /-- The extents lent to a peer device that asked for them, by ID; none where it is refused (R123, R129). -/
  | lendReply (dev : Nat) (eids : List Nat)
  /-- A loan of a peer device's range ends: released here, or its REVOKE confirmed (R129, R132). -/
  | loanEnd (dev addr : Nat)
deriving DecidableEq, Repr

/-! ### Module, power, clocks -/

/-- Power and clock state (R31 to R56, R447, R453). -/
structure Power where
  /-- V24_IN, mV (R35). Reset 24,000, DESIGN CHOICE. -/
  mv : Nat := 24000
  /-- Input power present: no over-voltage shutdown or lockout in force (R37). Reset true. -/
  input : Bool := true
  /-- MOD_EN pad (R31). Reset true, DESIGN CHOICE. -/
  modEn : Bool := true
  /-- PWR_OK released (R31). Reset false: not every rail is in regulation at time 0 (R453). -/
  pwrOk : Bool := false
  /-- THERMTRIP_N low (R55). Reset false. -/
  tripped : Bool := false
  /-- The UV_WARN condition of R35 holds. Reset false. -/
  uvWarn : Bool := false
  /-- DBG_EN latched (R33). Reset false. -/
  dbgEn : Bool := false
  /-- Mask of the powered domains, bit d - 1 for subindex d (R38). Reset 0. -/
  domOn : Nat := 0
  /-- Powered domains whose first arbiter epoch is to come (R42). Reset 0. -/
  fresh : Nat := 0
  /-- Grants by subindex, 0.1 W (R39, 0x2011). Reset 0. -/
  grants : List Nat := List.replicate 20 0
  /-- Demands by subindex, 0.1 W (R39, 0x2012). Reset 0. -/
  demands : List Nat := List.replicate 20 0
  /-- STRICT shares of PD-EN0 to PD-EN7, 0.1 W (R44). Reset 0. -/
  strictShare : List Nat := List.replicate 8 0
  /-- Efficiency in force, 1/10,000 (R40). Reset 9,200. -/
  eta : Nat := 9200
  /-- Overage store, in mW · 0.01 arbiter epoch (R45). Reset full at the default budget. -/
  store : Nat := 800 * 1150000
  /-- Effective budget of the last epoch, mW (R45). Reset 1,150,000. -/
  budget : Nat := 1150000
  /-- Total of all grants of the last epoch, 0.1 W (R46). Reset 0. -/
  total : Nat := 0
  /-- Flag conditions that held at the last epoch: ARB_STATUS bits 4:0, then CURRENT_LIMITED at 8 (R412). Reset 0. -/
  held : Nat := 0
  /-- PD-EN domains that spent what SHARED engines may spend, bit n (R43, R44). Reset 0. -/
  enSpent : Nat := 0
  /-- Dies and STRICT tenants whose engines there spent the tenant's share of the reserve, as die * 4,096 + tenant (R44, R345). Reset empty. -/
  strictSpent : List Nat := []
  /-- PD-SW domains that spent their grant, bit n (R43). Reset 0. -/
  swSpent : Nat := 0
  /-- Time of the last arbiter epoch boundary taken. Reset 0. -/
  epochAt : Nat := 0
  /-- Hottest junction, °C (0x2000.09). Reset 0. -/
  temp : Nat := 0
  /-- ROOTCLK in tolerance, root PLL locked (0x2020.03). Reset 0 (R57). -/
  rootOk : Bool := false
  /-- LREFCLK in tolerance by lane chiplet (0x2020.04). Reset 0 (R57). -/
  lref : Nat := 0
  /-- Input power averaged over the last epoch, mW (0x2000.04). Reset 0. -/
  inputMw : Nat := 0
  /-- References absent or out of tolerance at their pads: bit n LREFCLKn, bit 8 ROOTCLK (R51, R56). Reset 0, DESIGN CHOICE. -/
  lostClk : Nat := 0
  /-- Spread in force (0x2020.02). Reset 0. -/
  spread : Nat := 0
  /-- Points of the start-up timeline passed (R453): 0 to 6; 6 is READY, 7 FAILED. Reset 0. -/
  stage : Nat := 0
  /-- The start-up that runs follows POR, not MODULE (R453). Reset true. -/
  porStart : Bool := true
  /-- Power state D0 to D3 (0xB010.01 without the parked rule). Reset 0. -/
  pstate : Nat := 0
  /-- Parked dies (0xB010.03). Reset 0. -/
  parked : Nat := 0
  /-- Transition in progress: target state and mask (R447). Reset none. -/
  trans : Option (Nat × Nat) := none
  /-- Time a D3 stay began, to suspend the lease timers (R447). Reset none. -/
  d3At : Option Nat := none
  /-- Fabric time at which POWERING began (R453). Reset 0. -/
  powAt : Nat := 0
  /-- Fabric time at which the last low pulse of MODRST_N taken rises: a MODULE reset does not complete before it (R34). Reset 0. -/
  modrstHigh : Nat := 0
  /-- The model's own: short MODRST_N pulses so far, the argument of `Config.shortPulseTaken`. Reset 0, DESIGN CHOICE. -/
  shortPulses : Nat := 0
deriving DecidableEq, Repr

/-- The fabric time base (R50, R86 to R88). -/
structure TimeBase where
  /-- Fabric time, ns, 64 bits (R50). Reset 0. -/
  now : Nat := 0
  /-- Sub-nanosecond remainder of slewing and of the spread's correction, fs. Reset 0. -/
  fs : Int := 0
  /-- Correction still to be slewed, ps (R88). Reset 0. -/
  corr : Int := 0
  /-- When the exchange with the upstream last began (R87). Reset 0. -/
  syncAt : Nat := 0
  /-- The one step has been taken (R88). Reset false. -/
  stepped : Bool := false
  /-- Last measured offset, ns (0x3A00.02). Reset 0. -/
  offset : Int := 0
  /-- Upstream peer port (R86). Reset none. -/
  upstream : Option Nat := none
  /-- State of 0x3A00.01: 0 unlocked, 1 locked, 2 root, 3 HOLDOVER, 4 SYNC_DEGRADED. Reset 0. -/
  state : Nat := 0
  /-- Root learned and hops to it (R86). Reset 0. -/
  root : Nat := 0
  hops : Nat := 0
  /-- Outstanding SYNC_REQ by port: t1 (R87). Reset empty. -/
  reqs : Table Nat := []
  /-- Advertisements heard by port: root, hops, sender (R86). Reset empty. -/
  adverts : Table (Nat × Nat × Nat) := []
deriving DecidableEq, Repr

/-! ### Ports -/

/-- An NVMe command of a flash tray (R66). op: 0 Read, 1 Write, 2 Flush, 3 Dataset Management; 4 Identify, 5 Get Log Page, 6 Set Features, 7 Create
I/O queues, 8 Delete I/O queues. -/
structure NvmeCmd where
  op : Nat
  page : Nat
  aborting : Bool := false
  issued : Nat := 0
  /-- Its queue: 0 the admin queue, 1 to 64 the I/O queues. -/
  queue : Nat := 0
  /-- LOCATION it acts on (R281). -/
  loc : Nat := 0
  /-- A Flush: the pages whose Writes had completed when it was issued (R67). -/
  covers : List Nat := []
deriving DecidableEq, Repr

/-- A flex port (R58 to R68, R94). -/
structure FlexPort where
  /-- State of LINK_STATUS: 0 disabled, 1 down, 2 training, 3 up. Reset 0. -/
  st : Nat := 0
  rate : Nat := 0
  width : Nat := 0
  /-- Width in use after power narrowing (R43). Reset 0. -/
  cur : Nat := 0
  /-- Stays down until disabled and enabled (R68). Reset false. -/
  stuck : Bool := false
  /-- Tray capacity in use, GiB (R65). Reset 0. -/
  gib : Nat := 0
  ide : Bool := false
  vcache : Bool := false
  /-- Controller resets in this health window (R66). Reset 0. -/
  resets : Nat := 0
  nvme : Table NvmeCmd := []
  /-- Commands that wait for a place in their queues, oldest first (R66). Reset empty. -/
  nvmeWait : List NvmeCmd := []
  /-- Namespaces in use (R66). Reset 0. -/
  spaces : Nat := 0
  /-- The tray is out of the pool (R66). Reset false. -/
  failed : Bool := false
  /-- The tray may not be used: no single logical device of CXL 2.0 or later, no IDE where it is required, or no usable namespace (R65, R66).
  Reset false. -/
  unused : Bool := false
  /-- Presets its training starts from (R68). Reset empty. -/
  start : Bytes := []
  /-- Link credits returned since the port was enabled, by class (R106). Reset empty. -/
  credits : Table Nat := []
  /-- Next NVMe command identifier, the model's own. Reset 0. -/
  nextCid : Nat := 0
  /-- Pages written to flash that wait for a covering Flush (R67). Reset empty. -/
  unflushed : List Nat := []
deriving DecidableEq, Repr

/-- A stored DATA flit of the replay buffer (R79). -/
structure Stored where
  fseq : Nat
  key : Nat
  first : Nat
  pkts : List Packet
  /-- The packet of the flit before that goes on in this one. -/
  head : Option Packet := none
  /-- Payload as sent, and tag. -/
  payload : Bytes := []
  tag : Bytes := []
deriving DecidableEq, Repr

/-- A peer port (R69 to R93, R95). -/
structure PeerPort where
  /-- Link state of R93. Reset 0. -/
  st : Nat := 0
  lanes : Nat := 0
  /-- Lanes parked for power (R43). Reset 0. -/
  cur : Nat := 0
  /-- Lanes trained from the default preset (R90). Reset empty. -/
  dfltLanes : List Nat := []
  /-- Presets its training starts from (R90). Reset empty. -/
  start : Bytes := []
  /-- The state a fast retrain goes back to (R79, R91). Reset 4. -/
  back : Nat := 4
  /-- Pre-FEC symbol errors of this health window by lane, and the symbols seen on each lane (R91). Reset empty, 0. -/
  symErr : Table Nat := []
  symSeen : Nat := 0
  /-- Narrowed by a fault, and the most lanes it trains until ENABLE is written to 1 (R92). Reset false, 4. -/
  faulty : Bool := false
  cap : Nat := 4
  /-- The far end's chain and identity have passed; the far end's own check is still to come (R81). Reset false. -/
  authOk : Bool := false
  /-- FABRIC_ANCHOR as this authentication began (R359). Reset empty. -/
  anchor : Bytes := []
  peerDev : Option Nat := none
  /-- FSEQ of the next DATA flit, 12 bits (R72). Reset 0. -/
  txSeq : Nat := 0
  /-- Unacknowledged flits, oldest first, at most 64 (R79). Reset empty. -/
  replay : List Stored := []
  /-- Flits of `replay` still to be resent (R79). Reset 0. -/
  resend : Nat := 0
  /-- Replays in a row without an advance (R79). Reset 0. -/
  streak : Nat := 0
  /-- Time ACK_SEQ last advanced or flits became unacknowledged (R79). Reset 0. -/
  ackAt : Nat := 0
  /-- Last DATA flit received good and in order (R72). Reset 4,095: none. -/
  rxSeq : Nat := 4095
  /-- A NAK is owed; an error event is open (R78). Reset false. -/
  nakOwed : Bool := false
  nakOpen : Bool := false
  /-- Key identifiers in use; the old receive key is still held (R85). Reset 0. -/
  keyTx : Nat := 0
  keyRx : Nat := 0
  rxNext : Bool := false
  /-- Keys with their salts, 36 bytes (R83). Reset empty. -/
  txKey : Bytes := []
  rxKey : Bytes := []
  /-- DATA flits sent under the transmit key, and the time it came in use (R85). Reset 0. -/
  keyFlits : Nat := 0
  keyAt : Nat := 0
  /-- DATA flits accepted under the receive key (R83). Reset 0. -/
  rxFlits : Nat := 0
  /-- Received limits and consumed units by class (R76). Reset empty. -/
  txLimit : Table Nat := []
  txUsed : Table Nat := []
  /-- Limits granted to the far transmitter by class (R76). Reset empty. -/
  rxLimit : Table Nat := []
  /-- Next class of the CR_A and CR_B round robin (R76). Reset 1. -/
  crNext : Nat := 1
  /-- Packets queued for transmission in arbitration order (R75). Reset empty. -/
  txq : List Packet := []
  /-- Packets of a HANDOVER that still wait, which go ahead of `txq` (R80). Reset empty. -/
  ahead : List Packet := []
  /-- Bytes of the last packet that go on in the next flit, and the packet (R73). Reset none. -/
  carry : Bytes := []
  cont : Option Packet := none
  /-- A packet that began in the last accepted flit and ends in the next, and its bytes still to come (R73). Reset none. -/
  rxPart : Option Packet := none
  rxCarry : Bytes := []
  /-- For each drop of the link, oldest first, when it was and the flits held since (R80). Reset empty. -/
  hold : List (Nat × List Stored) := []
  /-- The device the held flits were for (R80). Reset none. -/
  holdDev : Option Nat := none
  /-- Last FSEQ delivered, owed in a HANDOVER (R80). Reset none. -/
  handoverOwed : Option Nat := none
  /-- Spare lanes this port uses (R91). Reset 0. -/
  spares : Nat := 0
deriving DecidableEq, Repr

/-- An SPDM session of a channel (R81, R360): how far the exchange has come, 0 to 6; the slot and the chain that the device shows in it, fixed as it
begins (R359); and the session's key (R356). -/
structure Spdm where
  stage : Nat := 0
  slot1 : Bool := false
  chain : Bytes := []
  key : Bytes := []
  /-- The device's last request of its own, as its code, and the bytes of the far end's chain it has fetched (R81). -/
  asked : Nat := 0
  got : Nat := 0
deriving DecidableEq, Repr

/-! ### Switch -/

/-- A cell (R98). -/
structure Cell where
  inp : Nat
  tc : Nat
  /-- The output: its crossbar port; the first member of a die-to-die link (R99). -/
  out : Nat
  /-- Arrival at the virtual output queue, in cycles of its output (R98). -/
  arr : Nat
  pkt : Packet
  /-- Drawn from the shared pool, or from the STRICT partition of a tenant (R105, R343). -/
  shared : Bool := false
  part : Option Nat := none
  /-- Check state: true once the flit passed (R112). -/
  checked : Bool := true
  /-- Sequence number per (link, class) (R99). -/
  stamp : Nat := 0
  /-- The crossbar port of the far die that its address or its route names; none where its station names it there (R97, R100, R119). -/
  fin : Option Nat := none
  /-- Where it came in: die * 63 + crossbar port (R100). -/
  org : Nat := 0
deriving DecidableEq, Repr

/-- An output arbiter (R114, R115). -/
structure OutArb where
  /-- XBCLK cycles this output has run. Reset 0. -/
  cyc : Nat := 0
  /-- The queue granted in the last cycle, as inp * 8 + tc: its head crosses in the next. Reset none. -/
  last : Option Nat := none
  /-- Counts posted in the last cycle, by queue. Reset empty. -/
  posted : Table Nat := []
  /-- Last ingress granted, by class. Reset empty. -/
  rr : Table Nat := []
  /-- Grants of TC1 to TC7 since the last one by age (R115). Reset 0. -/
  grants : Nat := 0
  /-- Cycles in which this member granted a cell, of the last 32 (R99). Reset empty. -/
  recent : List Nat := []
deriving DecidableEq, Repr

/-- A switch core (R97 to R116). -/
structure Core where
  cells : List Cell := []
  outs : Table OutArb := []
  /-- Stamps sent and expected next, by other die * 8 + class (R99). Reset empty. -/
  sent : Table Nat := []
  expect : Table Nat := []
  /-- Cells on the wires toward this die, oldest first, with their source die. Reset empty. -/
  wires : List (Nat × Cell) := []
  /-- Cells at an egress that wait for their check result (R113). Reset empty. -/
  egress : List Cell := []
  /-- XBCLK cycle of the last host TC0 cell admitted, by ingress; and the cells in the dedicated TC0 buffers that came sooner, oldest first (R102).
  Reset empty. -/
  tc0At : Table Nat := []
  tc0Wait : List Cell := []
  /-- Classes and tenants whose credit each ingress withholds, and the XBCLK cycle up to which its BP_CYCLES is counted (R117). Reset empty. -/
  bp : Table (List (Nat × Nat)) := []
  bpAt : Table Nat := []
  /-- Member port of each flow, by hash input * 512 + device (R100). Reset empty. -/
  flows : Table Nat := []
deriving DecidableEq, Repr

/-- State of one ingress port: INGRESS_STATE, and the tenants quiesced alone (R109). -/
structure IngressSt where
  st : Nat := 0
  tenants : List (Nat × Nat) := []
deriving DecidableEq, Repr

/-! ### Extents, logical devices, rings -/

/-- A logical device that a shared version is offered to or mapped in (R142). st: 1 offered, 2 granted. -/
structure ShMap where
  p : Nat
  l : Nat
  slot : Nat
  st : Nat
  at_ : Nat
deriving DecidableEq, Repr

/-- An extent (R121 to R148). -/
structure Extent where
  /-- State of R122. -/
  st : Nat := 0
  /-- Backing fabric address (R118). -/
  base : Nat
  /-- Holder: flex port and logical device. -/
  holder : Option (Nat × Nat) := none
  slot : Nat := 0
  /-- Read-only slot (R140, R142). -/
  ro : Bool := false
  set : Option (Nat × Nat) := none
  /-- Logical devices beside the publisher that map a shared version (R142). -/
  maps : List ShMap := []
  /-- Holder device when lent, and the LEASE_TERM of its lease in ms (R129). -/
  lent : Option Nat := none
  term : Nat := 4000
  /-- The peer device that backs it; none for this one (R121). -/
  away : Option Nat := none
  /-- The peer holder whose confirmation of a REVOKE is awaited (R132). -/
  confirm : Option Nat := none
  /-- Where it was mapped when a REVOKE acted, and the commands admitted before that still read it (R132, R133). -/
  past : List (Nat × Nat × Nat) := []
  users : List Nat := []
  offeredAt : Nat := 0
  /-- When REVOKE acted (R132). -/
  drainAt : Nat := 0
  /-- The drain ends in LEASE_EXPIRED or EXTENT_REVOKED to this holder and slot; none after a release (R133). -/
  notice : Option (Nat × Nat × Nat × Bool) := none
  /-- Scrub runs; false while its home die is out (R145). -/
  scrubbing : Bool := false
  /-- The scrub is the test of R146. -/
  testing : Bool := false
deriving DecidableEq, Repr

/-- A version of a shared set: its number, extent and digest (R139). -/
structure SVersion where
  num : Nat
  eid : Nat
  digest : Bytes
deriving DecidableEq, Repr

/-- A shared set (R139): its sharing domain and resident versions, oldest first; the last is current. -/
structure SharedSet where
  domain : Nat
  versions : List SVersion := []
  /-- The greatest version ever current (R139). -/
  top : Nat := 0
deriving DecidableEq, Repr

/-- A donor slot (R126, R137). -/
structure Donor where
  base : Nat := 0
  len : Nat := 0
  /-- DONOR_STATE. -/
  st : Nat := 0
  region : Nat := 0
  /-- DMA already issued when REVOKE was written. -/
  since : Nat := 0
deriving DecidableEq, Repr

/-- A completion ring or the event ring (R191, R194, R195). -/
structure CRing where
  base : Nat := 0
  /-- CQ_CFG: ENABLE [16], MSIX_EN [8], SIZE_LOG2 [4:0]. -/
  cfg : Nat := 0
  idx : Nat := 0
  phase : Nat := 1
  /-- Index of the next entry the host reads. -/
  head : Nat := 0
  reserved : Nat := 0
  /-- Event ring: records held, and OVERFLOW. -/
  queued : List Bytes := []
  overflow : Bool := false
deriving DecidableEq, Repr

/-- A submission ring (R191 to R193). -/
structure SRing where
  /-- SQ_CFG. Reset: 64 KiB, WEIGHT 1. -/
  cfg : Nat := 0x110
  /-- 0 DISABLED, 1 RUNNING, 2 DRAINING, 3 BROKEN. -/
  st : Nat := 0
  reason : Nat := 0
  tail : Nat := 0
  head : Nat := 0
  /-- Ring storage; unlisted bytes are zero. -/
  store : Table Byte := []
  /-- Sequences, by layer and KV head, whose last APPEND from the ring ended in another status than OK (R20). -/
  lostApps : List (Nat × Nat × Nat) := []
  /-- Deficit in bytes, and whether it has been topped up this turn (R205). -/
  deficit : Nat := 0
  topped : Bool := false
deriving DecidableEq, Repr

/-- A logical device (R62, R63, R120, R125 to R127, R159, R169, R190). -/
structure Ld where
  /-- Expiry E (R125). Reset none. -/
  expiry : Option Nat := none
  /-- 0 NONE, 1 live (ACTIVE or GRACE by E), 3 EXPIRED. Reset 0. -/
  lease : Nat := 0
  renewSeq : Nat := 0
  /-- LEASE_GRACE reported for this E (R127). Reset false. -/
  graced : Bool := false
  /-- Offline after both control copies were lost (R144). Reset false. -/
  offline : Bool := false
  viewCut : Bool := false
  donors : List Donor := List.replicate 4 {}
  flagAddr : Nat := 0
  flushBase : Nat := 0
  flushLen : Nat := 0
  /-- FLUSH_SEQ of the last flush completed, and LOSS (R159). Reset 0. -/
  flushDone : Nat := 0
  flushLoss : Bool := false
  /-- Flushes waiting or running: sequence, base, length, writes to wait for (R160). Reset empty. -/
  flushes : List (Nat × Nat × Nat × List Nat) := []
  /-- Writes discarded or lost and not yet covered by a completed flush: number, DPA, length (R161). Reset empty. -/
  lostW : List (Nat × Nat × Nat) := []
  rings : Table SRing := []
  cqs : Table CRing := []
  eq : CRing := {}
  /-- Ring served last (R205). Reset 0. -/
  rrRing : Nat := 0
  /-- TDISP state of 0x8400.02. Reset 0. -/
  tdi : Nat := 0
deriving DecidableEq, Repr

/-- An atomic on its way to its home (R154). -/
structure AtomReq where
  src : Source
  op : AtomicOp
  addr : Nat
  size : Nat
  operand : Nat
  compare : Nat
deriving DecidableEq, Repr

/-- A write or atomic admitted and not yet applied (R151, R157, R158). -/
structure WrOut where
  id : Nat
  src : Source
  addr : Nat
  data : Bytes
  /-- A flagged store. -/
  flag : Bool := false
  eid : Option Nat := none
  /-- DPA the host named (R160). -/
  dpa : Nat := 0
  at_ : Nat := 0
  /-- The peer device that is its home; none for this one. It is sent there, or still waits for an earlier flagged store (R157, R158). -/
  away : Option Nat := none
  sent : Bool := false
  /-- It is an atomic, whose operand `data` is (R154). -/
  atom : Option AtomReq := none
deriving DecidableEq, Repr

/-- A read (1) or an atomic (4) of another device's space whose completion is awaited (R73, R121, R154): its tag, its source, and the address the source
named. -/
structure RemoteReq where
  tag : Nat
  src : Source
  kind : Nat
  back : Nat
  dev : Nat
  /-- It reaches control space (R164). -/
  ctl : Bool := false
deriving DecidableEq, Repr

/-- A host access held by an empty bucket (R348): of the DPA space, or of a register page (R346). -/
structure HeldAcc where
  space : HostSpace := .dpa
  tenant : Nat
  tc : Nat
  cost : Nat
  p : Nat
  l : Nat
  addr : Nat
  /-- Length read, or data written. -/
  len : Nat
  data : Bytes
  isWrite : Bool
  /-- A flagged store (R158). -/
  flag : Bool := false
  /-- An atomic (R154). -/
  atom : Option AtomReq := none
deriving DecidableEq, Repr

/-! ### Coherence -/

/-- A cached control line at an agent (R165). st: 0 I, 1 S, 2 E, 3 M. -/
structure CLine where
  agent : Nat
  line : Nat
  st : Nat := 0
  val : Bytes := []
  /-- Outstanding request: 1 RdShared, 2 RdOwn, 3 Upgrade; 0 none. -/
  req : Nat := 0
  /-- Data kept for an unacknowledged WB (R168). -/
  wb : Option Bytes := none
  /-- Snoops set aside until the fill completes: invalidate?, requester (R167). -/
  aside : List (Bool × Option Nat) := []
  /-- The thread context that asks, and what it stores once it may (R163, R164). -/
  ctx : Nat := 0
  due : LineStore := none
deriving DecidableEq, Repr

/-- A transaction of a home line, running or waiting (R167). kind: 1 RdShared, 2 RdOwn, 3 Upgrade, 4 atomic, 5 eviction, 6 a view read whose owner is
downgraded, 7 an uncached read, 8 an uncached write. -/
structure Txn where
  kind : Nat
  agent : Nat := 0
  atom : Option AtomReq := none
  view : Option (Nat × Nat) := none
  waitAgents : List Nat := []
  /-- Host sharers snooped, with the time of the snoop and BI_TIMEOUT in force then (R169, R170). -/
  waitHosts : List (Nat × Nat × Nat × Nat) := []
  /-- Agents whose WB_PENDING arrived: the home waits for their WB (R168). -/
  wbWait : List Nat := []
  /-- A forwarding owner has sent the requester its data (R167). -/
  forwarded : Bool := false
  /-- An uncached access of a peer device, which kinds 7 and 8 stand for; or the line's new bytes where the device itself writes one of its objects
  there (R153, R162). -/
  pkt : Option Packet := none
  bytes : Option Bytes := none
deriving DecidableEq, Repr

/-- A control line at its home (R152, R165, R167). -/
structure HLine where
  val : Bytes := zeros 64
  owner : Option Nat := none
  sharers : List Nat := []
  hosts : List (Nat × Nat) := []
  hostOver : Bool := false
  txn : Option Txn := none
  queue : List Txn := []
  /-- Write-backs accepted and not yet used, by agent (R167). -/
  wbs : List (Nat × Bytes) := []
  /-- The bytes of the device's own object there, as last written, and its tenant (R150, R162, R169). Reset none. -/
  obj : Option Bytes := none
  tenant : Option Nat := none
deriving DecidableEq, Repr

/-- Coherence messages on their way: the receiver, the line, the kind and a requester or data (R166, R167). -/
structure CohMsg where
  /-- 1 SnpInv, 2 SnpData (to an agent); 3 Data, 4 Cmp, 5 WB_ACK (to an agent); 6 RspI, 7 RspS, 8 RspFwd, 9 WB_PENDING (home). -/
  kind : Nat
  agent : Nat
  line : Nat
  fwd : Option Nat := none
  st : Nat := 0
  val : Bytes := []
  /-- Traffic class it travels in (R166). -/
  tc : Nat := 1
deriving DecidableEq, Repr

/-- A fence that waits (R164): the lines whose requests, and the tags whose remote accesses, come before it. -/
structure Fence where
  src : Source
  scope : Scope
  lines : List Nat := []
  tags : List Nat := []
  /-- A remote access before it was lost. -/
  lost : Bool := false
deriving DecidableEq, Repr

/-- A copy of data-class bytes that a station holds in a tile buffer or a read buffer (R160). -/
structure DataCopy where
  addr : Nat
  data : Bytes
deriving DecidableEq, Repr

/-! ### Streams -/

/-- An installed recipe (R185 to R189). -/
structure Recipe where
  tenant : Nat
  id : Nat
  hdr : Bytes
  stages : List Bytes
  /-- The command that installed it, and the one that removed it (R188). -/
  byCmd : Nat := 0
  removedBy : Option Nat := none
deriving DecidableEq, Repr

/-- A resident tensor (R255). -/
structure Tensor where
  tenant : Nat
  id : Nat
  fmt : Nat
  rows : Nat
  rowBytes : Nat
  data : Table Byte := []
  resident : Bool := false
  freed : Bool := false
  /-- Commands admitted before the FREE_TENSOR (R256). -/
  keep : List Nat := []
deriving DecidableEq, Repr

/-- What an admitted command still waits for. -/
inductive CmdWork where
  | none
  /-- An APPEND with items in the WITNESS phase. -/
  | append
  /-- An ATTEND that waits for appends (R20): commands it depends on. -/
  | attend (deps : List Nat)
  /-- A collective, with its key and rank (R240). -/
  | coll (key : CollKey) (rank : Nat)
  /-- A command whose stages run after every earlier command of its ring is done (R204). -/
  | ordered (before : List Nat)
  /-- Waits for page moves (PIN, MIGRATE): item and page ID. -/
  | moves (pages : List (Nat × Nat))
  /-- A PUBLISH_EXTENT that waits for the writer's earlier writes (R140). -/
  | publish (eid : Nat)
deriving DecidableEq, Repr

/-- An admitted command (R196 to R204). -/
structure Cmd where
  p : Nat
  l : Nat
  r : Nat
  tenant : Nat
  /-- Built-in recipe run: the named one or a variant's base; 0 for a composed chain. -/
  recipe : Nat
  rid : Nat
  hdr : Bytes
  pay : Bytes
  sqHead : Nat
  cq : Nat
  at_ : Nat
  /-- Failed admission check: status and reason (R199). -/
  refused : Option (Nat × Nat × Nat) := none
  /-- Item outcomes; none while an item runs. -/
  items : List (Option Nat) := []
  reason : Nat := 0
  stage : Nat := 0xFF
  hint : Nat := 0
  /-- A failure of the whole command (R202). -/
  whole : Option Nat := none
  result : Bytes := []
  work : CmdWork := .none
  /-- Tiles received for the command (R180, R333): header and data. -/
  tiles : List Tile := []
  /-- Palette tiles held: slot, palette. -/
  pals : Table Bytes := []
  /-- Tile-buffer bytes reserved for it (R176). -/
  buf : Nat := 0
  /-- Earlier APPENDs of its ring that an ATTEND waits for; of them the last of each sequence, whose status decides; and whether one of those ended in
  another status than OK (R20). -/
  deps : List Nat := []
  binds : List Nat := []
  doomed : Bool := false
  /-- Ranges of the logical device's memory that its stations read or write: DPA and length (R132, R133). -/
  reads : List (Nat × Nat) := []
  /-- Shadow comparisons that hold outputs back: items (R380). -/
  heldItems : List Nat := []
deriving DecidableEq, Repr

/-- An APPEND item between STAGE and COMMIT (R276). -/
structure PendItem where
  cmd : Nat
  item : Nat
  seq : Nat
  member : Nat
  pos0 : Nat
  pos : List Pos
  /-- Blocks whose MIRROR_ACK is outstanding. -/
  blocks : List Nat
  /-- Time of STAGE and of the first MIRROR (R277). -/
  at_ : Nat
deriving DecidableEq, Repr

/-- A contribution held in a record (R246). -/
structure CollHeld where
  /-- Rank, or block at the top home. -/
  rank : Nat
  dev : Nat
  /-- BASE of the rank (R251). -/
  base : Nat := 0
  /-- At the top home: the devices whose ranks the block holds (R245). -/
  devs : List Nat := []
  data : Bytes
  poison : Bool
  /-- The rank's command at its device (R177). -/
  ref : Nat := 0
deriving DecidableEq, Repr

/-- A chunk's record at a home (R246, R252, R253). -/
structure CollRec where
  key : CollKey
  par : CollParams
  tenant : Nat
  isTop : Bool
  block : Nat
  opened : Nat
  timeoutMs : Nat
  held : List CollHeld := []
  staged : Nat := 0
  /-- The block partial has left for the top home, with the devices of the ranks then held. -/
  sent : Bool := false
  told : List Nat := []
  /-- Aborted at this time (R253). -/
  abortedAt : Option Nat := none
deriving DecidableEq, Repr

/-! ### KV store -/

/-- A copy of a page beside its home: where it lies, and in which stored form (R281, R283, R324). -/
structure PCopy where
  /-- The die for T0, the donor region for T3, LOCATION for T4. -/
  place : Nat
  /-- Where in the region, for T3. -/
  off : Nat := 0
  granules : Nat
  gen : Nat := 0
  slot : Nat := 0
  /-- When it was placed (R289). -/
  since : Nat := 0
deriving DecidableEq, Repr

/-- A page of a group (R209, R279, R281). -/
structure Page where
  pos : List Pos
  /-- Tier of the page's home, and its copies if any. -/
  tier : Nat := 1
  t0 : Option PCopy := none
  t3 : Option PCopy := none
  /-- Its copy in T4, home or spill, or the one a Write is making; and whether a spill copy stands there (R67, R300). -/
  t4 : Option PCopy := none
  spill : Bool := false
  /-- The device where it still lies, after a handoff (R306). -/
  away : Option Nat := none
  /-- The donor region its T3 copy went with, while a read of it may be under way (R138). -/
  gone3 : Option Nat := none
  /-- Palette generation and slot; 0 is raw. -/
  gen : Nat := 0
  slot : Nat := 0
  granules : Nat := 0
  sealed : Bool := false
  readAt : Nat := 0
  /-- LOCATION of R281. -/
  loc : Nat := 0
  /-- Move in progress: target tier (R284, R332); the generation it codes the page with, where it is the sweep's (R331); and the target of a move that
  waits for its end (R332). -/
  moving : Option Nat := none
  recode : Option Nat := none
  after : Option Nat := none
  /-- Prefetch issued and not complete (R291). -/
  prefetching : Bool := false
  /-- Tiers whose copy cannot be read (R292). -/
  bad : List Nat := []
  /-- Queued for coding (R314). -/
  queued : Bool := false
  /-- Generation the sweep last tried that fell back to raw (R319, R331); the model's own. -/
  tried : Nat := 0
deriving DecidableEq, Repr

/-- A page group (R271, R272, R294). -/
structure Group where
  /-- GROUP_ID: bits [63:16] of its page IDs. -/
  gid : Nat
  tenant : Nat
  domain : Option Nat
  shape : Shape
  block : Nat
  shared : Bool := false
  key : Bytes := []
  digest : Bytes := []
  links : Nat := 0
  linkedAt : Nat := 0
  /-- A spill copy stands in T4, and pages whose part of it is still to be written (R67, R300). -/
  spill : Bool := false
  spillLeft : List Nat := []
  pages : Table Page := []
  /-- This is a partner's copy of another device's group (R310). -/
  partner : Bool := false
deriving DecidableEq, Repr

/-- A sequence (R262 to R269). -/
structure Seq where
  fabTag : Nat
  id : Nat
  tenant : Nat
  shape : Shape
  /-- STATE of R267. -/
  st : Nat := 1
  /-- This device holds it as the partner (R276). -/
  partnerOf : Option Nat := none
  prefixBlocks : Nat := 0
  lastKey : Bytes := zeros 32
  /-- Block table: block to (GROUP_ID, SHARED) (R272). -/
  blocks : Table (Nat × Bool) := []
  ownerEpoch : Nat := 0
  partner : Option Nat := none
  copy : Nat := 2
  lastUse : Nat := 0
  active : Bool := false
  /-- 0, or one more than the CLOSE_SEQ command that closed it: keeps a closing sequence apart from a new one of its name. -/
  gen : Nat := 0
  /-- CLOSE_SEQ admitted; the commands still to finish (R266). -/
  closing : Option (List Nat) := none
  /-- INCOMING from this device (R306). -/
  incoming : Option Nat := none
  /-- Committed length by member; unlisted members hold the linked prefix only (R268). -/
  lens : Table Nat := []
  /-- Pages pinned through the sequence, one entry per pin: GROUP_ID and member (R288). -/
  pins : List (Nat × Nat) := []
  /-- Control-space line of the descriptor (R267); the model numbers them in order of opening. -/
  line : Nat := 0
deriving DecidableEq, Repr

/-- A prefix entry (R294). -/
structure PEntry where
  key : Bytes
  gid : Nat
  domain : Nat
  digest : Bytes
deriving DecidableEq, Repr

/-- A handoff in progress at the old owner (R306, R307). -/
structure Handoff where
  dev : Nat
  seqs : List Nat
  /-- Ranges of ring positions handed over, for a reclaim (R307). -/
  ranges : List (Nat × Nat) := []
  epoch : Nat
  at_ : Nat
deriving DecidableEq, Repr

/-- Fabric map state (R301 to R311, R393 to R400). -/
structure MapSt where
  map : Option FMap := none
  /-- This device's points are on a map it has adopted (R454). -/
  member : Bool := false
  /-- Removed from the map after being a member (R400). Reset false. -/
  expelled : Bool := false
  /-- MIRRORs held until their map or their sequence's descriptor is here (R308, R309). Reset empty. -/
  heldMirrors : List Mirror := []
  /-- Admitted or proposed by EXPEL at this epoch: device (R400). -/
  expelling : Option (Nat × Nat) := none
  handoffs : List Handoff := []
  /-- Devices with no path, since when (R304). -/
  lostAt : Table Nat := []
  /-- RESETTING deadlines heard (R446). -/
  holds : Table Nat := []
  /-- This device's own RESETTING deadline (R446). -/
  resetting : Option Nat := none
  /-- Next group number (R271). -/
  nextGroup : Nat := 0
  /-- Next block of descriptor lines, the model's own. -/
  nextLine : Nat := 0
deriving DecidableEq, Repr

/-! ### Palettes -/

/-- A Palette slot (R322, R324). -/
structure PSlot where
  tenant : Nat
  set : Nat
  gen : Nat
  bytes : Bytes
  retiring : Bool := false
  trained : Bool := false
deriving DecidableEq, Repr

/-- A Palette set (R323, R330). -/
structure PSet where
  cur : Nat := 0
  last : Nat := 0
  /-- Pages sealed since the current generation was made current, newest first: GROUP_ID and member (R330). -/
  recent : List (Nat × Nat) := []
  count : Nat := 0
  /-- Order of installation of the resident generations, newest first (R328). -/
  order : List Nat := []
deriving DecidableEq, Repr

/-! ### Tenants -/

/-- A token bucket (R346 to R351). -/
structure Bucket where
  tokens : Int := 0
  /-- What is left of the advances that other dies drew (R351). Reset empty. -/
  advances : Table Nat := []
  /-- First boundary at which a write of RATE or BURST takes effect, and the next one where a later write does (R350). -/
  zeroAt : Option Nat := none
  later : Option Nat := none
deriving DecidableEq, Repr

/-- Report registers and window counts of a tenant (R352, R353). -/
structure Report where
  time : Nat := 0
  /-- THROTTLE registers of TC2 to TC6. -/
  thr : List Nat := [0, 0, 0, 0, 0]
  iso : Nat := 0
  charge : Nat := 0
  /-- This window: bytes passed and whether a unit was held or refused, by class. -/
  bytes : List Nat := [0, 0, 0, 0, 0]
  hit : List Bool := [false, false, false, false, false]
deriving DecidableEq, Repr

/-! ### Security, management -/

/-- An open nonce (R369, R370). -/
structure Nonce where
  id : Nat
  val : Bytes
  idx : Nat
  sub : Nat
  value : Bytes
  all : Bool
  need : Nat
  /-- Managers who must sign when every enrolled manager is needed. -/
  must : List Nat
  signers : List Nat
  issued : Nat
deriving DecidableEq, Repr

/-- A stage of pieces (R409). -/
structure Piece where
  sid : Nat
  key : Nat
  isProp : Bool
  data : Bytes
deriving DecidableEq, Repr

/-- A selective or link IDE stream of a port (R360). -/
structure Ide where
  /-- It covers function 1 (R361). -/
  function1 : Bool := false
  keySet : Nat := 0
  keys : Table Bytes := []
  up : Bool := false
deriving DecidableEq, Repr

/-- Keys and security state (R356 to R376). -/
structure Sec where
  /-- The root die's keys (R356): DeviceID, Alias and slot 1, as POR derives them; and the Alias certificate (R358). -/
  deviceKey : Bytes := deviceIdKey
  aliasKey : Bytes := aliasKeyOf deviceIdKey 0 false
  slot1Key : Bytes := slot1KeyOf
  aliasCert : Bytes := Config.issuedCert deviceIdKey (aliasKeyOf deviceIdKey 0 false) 0 false
  /-- Fresh DRBG words drawn (R357): the argument of `Config.drbg`. Reset 0. -/
  drbg : Nat := 0
  /-- Memory keys: of tenant t at t, of sharing domain d at 4096 + d (R320, R365). Reset empty. -/
  tenantKeys : Table Bytes := []
  /-- HMAC keys of the sharing domains (R366). Reset empty. -/
  sdKeys : Table Bytes := []
  nonces : List Nonce := []
  nextNonce : Nat := 1
  /-- Claim window: open since this time (R368). Reset none. -/
  claim : Option Nat := none
  claimSid : Option Nat := none
  debugOpening : Bool := false
  debugOpen : Bool := false
  /-- IDE streams, key p * 8 + stream; stream 0 is link IDE (R360). Reset empty. -/
  ide : Table Ide := []
  spdm : List (SpdmCh × Spdm) := []
  /-- Firmware images committed and loaded: the argument of `Config.measurement` (R363). Reset 0. -/
  fwLoaded : Nat := 0
  fwImage : Bytes := []
  fwCommitted : Bool := false
deriving DecidableEq, Repr

/-- A management session (R403, R410, R421, R423). -/
structure Sess where
  port : Nat
  /-- It uses the port's configured address, not the link-local one (R402). -/
  conf : Bool := false
  slot : Nat
  digest : Bytes
  /-- The session's key (R356). -/
  key : Bytes := []
  mask : Nat := 0xFFFFFFFF
  seq : Nat := 0
  lastRx : Nat
  claim : Bool := false
  sentAt : List Nat := []
  dropped : Nat := 0
  /-- Responses kept: REQ_ID, time, type, body (R410). -/
  kept : List (Nat × Nat × Nat × Bytes) := []
deriving DecidableEq, Repr

/-- A relayed GET waiting for its words (R414). -/
structure Relay where
  sid : Nat
  reqId : Nat
  idx : Nat
  sub : Nat
  at_ : Nat
deriving DecidableEq, Repr

/-- A monitor (R428, R439). -/
structure Mon where
  min : Nat := 2 ^ 64 - 1
  max : Nat := 0
  count : Nat := 0
  sum : Nat := 0
  hist : List Nat := List.replicate 32 0
  notedAt : Option Nat := none
  cross : Nat := 0
  /-- A clear waits for this edge (R433). -/
  clearAt : Option Nat := none
deriving DecidableEq, Repr

/-- A reset in progress (R442, R445), or a MODULE reset that waits for the end of a DEBUG_OPEN. unit: die, port (+256 for peer), or
engine. -/
structure ResetRun where
  kind : Nat
  unit : Nat
  at_ : Nat
deriving DecidableEq, Repr

/-- A snapshot (R434 to R438). st: 0 PENDING, 1 TAKEN, 2 REPLACED, 3 CANCELLED. -/
structure Snap where
  id : Nat
  t : Nat
  clear : Bool
  sids : List Nat
  st : Nat := 0
  read : Bool := false
  mons : Table Mon := []
  counters : Table Nat := []
  /-- Resets that ran at T, and dies out of service then as resets of their dies (R437). -/
  out : List ResetRun := []
deriving DecidableEq, Repr

/-! ### Reliability -/

/-- An engine (R385 to R389, R401). st as ENGINE_STATE. -/
structure Engine where
  st : Nat := 1
  part : Option Nat := none
  /-- Mismatches in this health window. -/
  mism : Nat := 0
  clean : Nat := 0
  /-- Brought in test for, as a spare. -/
  spareFor : Option Nat := none
  /-- The state it takes when the test under way passes: IN_SERVICE, SUSPECT after a hard event (R386), or what it was before a
  requested reset. -/
  was : Nat := 1
  /-- It came to state SUSPECT within the current window, which is then no whole clean one (R388). -/
  newly : Bool := false
deriving DecidableEq, Repr

/-- A vote of three engines under way (R381). -/
structure Vote where
  cmd : Nat
  item : Nat
  e1 : Nat
  e2 : Nat
  e3 : Nat
deriving DecidableEq, Repr

/-- Spares and error counts (R382 to R387). -/
structure Rel where
  engines : Table Engine := []
  votes : List Vote := []
  /-- Soft retirements of a die in this window (R388). -/
  retired : Table Nat := []
  /-- Spares used, by keys of the model (`spareKey`): wires, SRAM rows, HBM rows, HBM channels, banks and members out of use. -/
  spare : Table Nat := []
  /-- Counts of this window: corrected and uncorrected errors by unit. -/
  errs : Table Nat := []
  /-- Health windows ended, by the fabric time of the last end (R382). Reset 0. -/
  windowAt : Nat := 0
  /-- Tiers above HIGH_WATER since the last health window's end (0x7000.07 TIER_PRESSURE). Reset empty. -/
  above : List Nat := []
  /-- Pages the sweep recoded in this window, and when it began the last (R331). Reset 0. -/
  swept : Nat := 0
  sweptAt : Nat := 0
  /-- Transactions that reached the homes in this window, and directory recalls (0x5100.02 DIR_RECALL_HIGH). Reset 0. -/
  txns : Nat := 0
  recalls : Nat := 0
  /-- HBM row repairs, die and row of this model's numbering, made soft at once and hard at the next POR: the list that the
  nonvolatile store keeps (R383, R452). -/
  hard : List (Nat × Nat) := []
  /-- HBM rows with an uncorrected error that no spare has replaced: die, channel, row of this model's numbering, fabric address (R146, R384).
  Reset empty. -/
  badRows : List (Nat × Nat × Nat × Nat) := []
  /-- HBM channels being moved (R387). -/
  moving : List (Nat × Nat) := []
  /-- Self-test in progress: 1 engines, 2 full, 3 admission (R390). Reset none. -/
  selftest : Option Nat := none
  /-- Dies in service (0x1000.08). Reset 0xFF. -/
  dies : Nat := 0xFF
  /-- Dies lost for good (R145). Reset 0. -/
  retiredDies : Nat := 0
  /-- ADMIT_STATE (0x9200.0A). Reset 0. -/
  admission : Nat := 0
  /-- The admission signed, and the spill areas read (R397). Reset false. -/
  loaded : Bool := false
deriving DecidableEq, Repr

/-! ### The whole -/

/-- The state of the device. -/
structure State where
  /-- Commands waiting, first in first out: the model's own queue. Reset empty. -/
  pending : List Instr := []
  /-- What has been sent outside, oldest first: the model's own record. Reset empty. -/
  out : List Output := []
  tb : TimeBase := {}
  pw : Power := {}
  /-- Values of writable objects and counters by dictionary key; unlisted: the row's default (R425). Reset empty. -/
  objs : Table Nat := []
  /-- Values of BLOB objects by key; unlisted: empty (R425, R426). Reset empty. -/
  blobs : Table Bytes := []
  flex : Table FlexPort := []
  peer : Table PeerPort := []
  cores : Table Core := []
  ingress : Table IngressSt := []
  extents : Table Extent := []
  /-- First extent ID of each tray, by flex port (R121). Reset empty. -/
  trays : Table Nat := []
  /-- ID of the next tray extent (R121). Reset 2,048. -/
  nextEid : Nat := 2048
  sets : Table SharedSet := []
  lds : Table Ld := []
  /-- Logical device served last on each port (R205). Reset empty. -/
  rrLd : Table Nat := []
  /-- Data-class memory, keyed by fabric address; unlisted bytes read 0 (R122, R124). Reset empty. -/
  mem : List Host.Cell := []
  /-- Poisoned data-class ranges: base and length (R377). Reset empty. -/
  poison : List (Nat × Nat) := []
  writes : List WrOut := []
  /-- Number of the next data-class write, the model's own. Reset 0. -/
  nextWid : Nat := 0
  heldAcc : List HeldAcc := []
  /-- Requests to other devices that await their completion, and the next TAG (R73). Reset empty, 0. -/
  remote : List RemoteReq := []
  nextTag : Nat := 0
  /-- Collective tiles held for TC5 tokens: tenant, cost, and what is sent (R346, R348). Reset empty. -/
  heldTiles : List (Nat × Nat × List Output) := []
  /-- Page moves that wait for TC6 tokens, in order: tenant and page (R346, R348). Reset empty. -/
  heldMoves : List (Nat × Nat) := []
  /-- Time up to which the waits of flagged stores are counted in FLAG_WAITS (0x5100.07, R171). Reset 0. -/
  flagMark : Nat := 0
  lines : Table HLine := []
  caches : List CLine := []
  msgs : List CohMsg := []
  /-- Fences that wait (R163, R164). Reset empty. -/
  fences : List Fence := []
  /-- Copies of data-class bytes in tile buffers and station read buffers (R160). Reset empty. -/
  copies : List DataCopy := []
  recipes : List Recipe := []
  tensors : List Tensor := []
  cmds : Table Cmd := []
  /-- Number of the next command, the model's own. Reset 0. -/
  nextCmd : Nat := 0
  pend : List PendItem := []
  colls : List CollRec := []
  seqs : Table Seq := []
  groups : Table Group := []
  prefixes : List PEntry := []
  fmap : MapSt := {}
  slots : Table PSlot := []
  psets : Table PSet := []
  buckets : Table Bucket := []
  /-- Last µs boundary at which the buckets were refilled (R347). Reset 0. -/
  refillAt : Nat := 0
  reports : Table Report := []
  /-- Last end of a report window (R353). Reset 0. -/
  reportAt : Nat := 0
  sec : Sec := {}
  sess : Table Sess := []
  /-- Number of the next session, the model's own. Reset 1. -/
  nextSid : Nat := 1
  /-- Management addresses that failed duplicate address detection: port, and whether the configured one (R402). Reset empty. -/
  dupAddr : List (Nat × Bool) := []
  pieces : List Piece := []
  relays : List Relay := []
  /-- Shadows of the word reads, by requester and object (R415). Reset empty. -/
  shadows : List (Nat × Nat × Nat) := []
  mons : Table Mon := []
  snaps : List Snap := []
  /-- SNAP_ID of the next snapshot (R435). Reset 1. -/
  nextSnap : Nat := 1
  rel : Rel := {}
  resets : List ResetRun := []
  /-- The model's own: values drawn from the free values of `Config` so far. Reset 0, DESIGN CHOICE. -/
  freeCtr : Nat := 0
deriving DecidableEq, Repr

/-- The 2,048 HBM extents, 256 to a stack, all FREE (R118, R121). -/
def hbmExtents : Table Extent :=
  (List.range 2048).map (fun i => (i, ({ base := (i / 256) * 2 ^ 36 + (i % 256) * Config.extentBytes } : Extent)))

/-- The 52 engines of each die: 0 to 47 active, 48 to 51 spare (R13). -/
def bootEngines : Table Engine :=
  (List.range 416).map (fun i => (i, ({ st := if i % 52 < 48 then 1 else 0 } : Engine)))

/-- The device right after POR (R453 time 0): RESTORE_STATUS has its POR bit by its default (R424). -/
def State.reset : State := { extents := hbmExtents, rel := { engines := bootEngines } }

end Sys2Proof.Machine
end

