-- ==== Sys2Proof/Machine/Ops.lean ====
section
/-! DEFINITION. The named operations over the state's parts that the meanings share. -/

namespace Sys2Proof.Machine

open Sys2Proof

/-- The outcome of a meaning. -/
abbrev Res := Host.Outcome State Fault Refusal

/-- Sends something outside. -/
def State.emit (s : State) (o : Output) : State := { s with out := s.out ++ [o] }

/-- Sends a list of things outside. -/
def State.emits (s : State) (l : List Output) : State := { s with out := s.out ++ l }

/-- Fabric time, ns (R7). -/
abbrev State.now (s : State) : Nat := s.tb.now

/-- Moves fabric time forward to a time that is due; it never runs backward (R88). -/
def State.atTime (s : State) (t : Nat) : State := { s with tb := { s.tb with now := max s.tb.now t } }

/-! ### Objects -/

/-- The value held at a dictionary key, its default where nothing was written (R425). -/
def State.objK (s : State) (k : Nat) : Nat := Table.get s.objs (objDefault k) k

/-- The value of `idx.sub`. -/
def State.obj (s : State) (idx sub : Nat) : Nat := s.objK (okey idx sub)

/-- The value of instance `i` of an object read through a selector. -/
def State.objI (s : State) (idx sub i : Nat) : Nat := s.objK (ikey (okey idx sub) i)

/-- Stores a value at a key; a default leaves nothing listed. -/
def State.setObjK (s : State) (k v : Nat) : State :=
  { s with objs := if v = objDefault k then Table.del s.objs k else Table.put s.objs k v }

/-- Stores the value of `idx.sub`. -/
def State.setObj (s : State) (idx sub v : Nat) : State := s.setObjK (okey idx sub) v

/-- Stores the value of instance `i`. -/
def State.setObjI (s : State) (idx sub i v : Nat) : State := s.setObjK (ikey (okey idx sub) i) v

/-- Adds `n` to a 64-bit counter object. -/
def State.bump (s : State) (idx sub n : Nat) : State := s.setObj idx sub ((s.obj idx sub + n) % 2 ^ 64)

/-- Adds `n` to a 64-bit counter instance. -/
def State.bumpI (s : State) (idx sub i n : Nat) : State := s.setObjI idx sub i ((s.objI idx sub i + n) % 2 ^ 64)

/-- The value of a BLOB object. -/
def State.blob (s : State) (idx sub : Nat) : Bytes := Table.get s.blobs [] (okey idx sub)

/-- The chain a slot holds (R358): of slot 0, the fused certificates and the Alias certificate. -/
def State.chainOf (s : State) (slot1 : Bool) : Bytes := if slot1 then s.blob 0x8000 2 else Config.deviceChain ++ s.sec.aliasCert

/-- Stores a BLOB object; empty leaves nothing listed. -/
def State.setBlob (s : State) (idx sub : Nat) (b : Bytes) : State :=
  { s with blobs := if b.isEmpty then Table.del s.blobs (okey idx sub) else Table.put s.blobs (okey idx sub) b }

/-! ### Notifications and status flags (R412, R421, R423) -/

/-- Notifications sent to a session in the last second. -/
def Sess.recent (x : Sess) (now : Nat) : Nat := (x.sentAt.filter (fun t => decide (now < t + 1000000000))).length

/-- One notification to one session under its mask and its rate: the session, what is sent, and whether a run of drops starts. -/
def Sess.note (x : Sess) (sid now rate code : Nat) (f : Bytes) : Sess × List Output × Bool :=
  if !bit x.mask (code / 256) then (x, [], false)
  else if x.dropped = 0 ∧ x.recent now < rate then
    ({ x with seq := (x.seq + 1) % 2 ^ 32, sentAt := now :: x.sentAt.filter (fun t => decide (now < t + 1000000000)) },
      [.notify sid ((x.seq + 1) % 2 ^ 32) now code f], false)
  else ({ x with dropped := x.dropped + 1 }, [], x.dropped == 0)

/-- One notification to every session. -/
def State.noteAll (s : State) (code : Nat) (f : Bytes) : State × Bool :=
  let rate := s.obj 0x3C00 8
  s.sess.foldl (fun (a : State × Bool) e =>
    let r := e.2.note e.1 s.now rate code f
    ({ a.1 with sess := Table.put a.1.sess e.1 r.1, out := a.1.out ++ r.2.1 }, a.2 || r.2.2)) (s, false)

/-- Sets a flag of a WSQ object: the flag, and the sequence one on (R412). -/
def State.flagOnly (s : State) (k b : Nat) : State :=
  let v := s.objK k
  s.setObjK k (setBit (v % 65536) b + (v / 65536 + 1) % 65536 * 65536)

/-- The fields of the STATUS_EVENT of the object at a key (R422). -/
def statusFields (k v : Nat) : Bytes := leBytes 3 (k % 2 ^ 24 / 256 + k % 256 * 65536) ++ zeros 1 ++ leBytes 4 v

/-- Sends a notification; a run of drops that starts sets NOTIFY_DROPPED, whose own event is also sent (R423). -/
def State.notify (s : State) (code : Nat) (f : Bytes) : State :=
  let r := s.noteAll code f
  if r.2 then
    let s1 := r.1.flagOnly (okey 0x1010 4) 4
    (s1.noteAll 0x0001 (statusFields (okey 0x1010 4) (s1.obj 0x1010 4))).1
  else r.1

/-- An event that sets flag `b` of the WSQ object at a key, with its STATUS_EVENT. -/
def State.flagK (s : State) (k b : Nat) : State :=
  let s1 := s.flagOnly k b
  s1.notify 0x0001 (statusFields k (s1.objK k))

/-- An event that sets flag `b` of `idx.sub`. -/
def State.flag (s : State) (idx sub b : Nat) : State := s.flagK (okey idx sub) b

/-- A flag that reports a condition held over time: an event at the onset only (R412). `bitNo` names it in `pw.held`. -/
def State.condition (s : State) (holds : Bool) (bitNo idx sub b : Nat) : State :=
  let was := bit s.pw.held bitNo
  let s1 := { s with pw := { s.pw with held := if holds then setBit s.pw.held bitNo else clearBit s.pw.held bitNo } }
  if holds && !was then s1.flag idx sub b else s1

/-- DEFAULTS_RESTORED with its KIND, CLASSES, SCOPE and SCOPE_ID (R424). -/
def State.restored (s : State) (kind classes scope scopeId : Nat) : State :=
  s.notify 0x0002 (leBytes 1 kind ++ leBytes 1 classes ++ leBytes 1 scope ++ zeros 1 ++ leBytes 4 scopeId)

/-- The response code of a row-level write, sent to the session that wrote. -/
def State.respond (s : State) (sid idx sub rc : Nat) : State :=
  match Table.find s.sess sid with
  | some x => { s with sess := Table.put s.sess sid { x with lastRx := s.now } }.emit (.code sid idx sub rc)
  | none => s

/-! ### Parts of the state -/

/-- A flex port. -/
def State.flexP (s : State) (p : Nat) : FlexPort := Table.get s.flex {} p
/-- Stores a flex port. -/
def State.setFlex (s : State) (p : Nat) (x : FlexPort) : State := { s with flex := Table.put s.flex p x }
/-- A peer port. -/
def State.peerP (s : State) (q : Nat) : PeerPort := Table.get s.peer {} q
/-- Stores a peer port. -/
def State.setPeer (s : State) (q : Nat) (x : PeerPort) : State := { s with peer := Table.put s.peer q x }
/-- A switch core. -/
def State.core (s : State) (d : Nat) : Core := Table.get s.cores {} d
/-- Stores a switch core. -/
def State.setCore (s : State) (d : Nat) (x : Core) : State := { s with cores := Table.put s.cores d x }
/-- Key of logical device l of flex port p. -/
abbrev ldKey (p l : Nat) : Nat := p * 16 + l
/-- A logical device. -/
def State.ld (s : State) (p l : Nat) : Ld := Table.get s.lds {} (ldKey p l)
/-- Stores a logical device. -/
def State.setLd (s : State) (p l : Nat) (x : Ld) : State := { s with lds := Table.put s.lds (ldKey p l) x }
/-- Stores an extent. -/
def State.setExt (s : State) (e : Nat) (x : Extent) : State := { s with extents := Table.put s.extents e x }
/-- Whether a fabric die is in service (0x1000.08). -/
def State.dieUp (s : State) (d : Nat) : Bool := bit s.rel.dies d
/-- Fabric dies in service. -/
def State.diesUp (s : State) : List Nat := (List.range 8).filter (fun d => s.dieUp d)

/-- Object k of logical device l of port p, k from 1 to 8 (R148). -/
def State.ldObj (s : State) (p l k : Nat) : Nat := s.obj (0x5400 + p) (8 * l + k)
/-- Whether the logical device is enabled. -/
def State.ldOn (s : State) (p l : Nat) : Bool := s.ldObj p l 1 == 1
/-- Tenant the logical device is bound to (R63). -/
def State.ldTenant (s : State) (p l : Nat) : Option Nat :=
  if bit (s.ldObj p l 2) 15 then some (s.ldObj p l 2 % 4096) else none
/-- An event in LD_STATUS. -/
def State.ldFlag (s : State) (p l b : Nat) : State := s.flag (0x5400 + p) (8 * l + 7) b
/-- Object k of tenant t (0x4400). -/
def State.tObj (s : State) (t k : Nat) : Nat := s.objI 0x4400 k t
/-- Whether a tenant is enabled. -/
def State.tOn (s : State) (t : Nat) : Bool := s.tObj t 2 == 1
/-- Whether a command admitted for a tenant has not completed (R335). -/
def State.tBusy (s : State) (t : Nat) : Bool := s.cmds.any (fun e => e.2.tenant == t && e.2.refused.isNone)
/-- Whether a tenant is STRICT and counts as enabled (R335, R341). -/
def State.tStrict (s : State) (t : Nat) : Bool := (s.tOn t || s.tBusy t) && (s.tObj t 3 == 1)
/-- Right bit b of a tenant (R338). -/
def State.right (s : State) (t b : Nat) : Bool := bit (s.tObj t 6) b
/-- The sharing domain of a tenant (R337). -/
def State.tDomain (s : State) (t : Nat) : Option Nat :=
  let v := s.tObj t 5
  if bit v 15 then none else some (v % 1024)
/-- Tenants whose object table names them enabled. -/
def State.tenantsOn (s : State) : List Nat :=
  (s.objs.filter (fun e => e.1 % 2 ^ 24 == okey 0x4400 2 && e.2 == 1 && decide (2 ^ 24 ≤ e.1))).map (fun e => e.1 / 2 ^ 24 - 1)
/-- STRICT tenants that hold their reservations (R341). -/
def State.strictTenants (s : State) : List Nat :=
  ((s.tenantsOn ++ s.cmds.map (fun e => e.2.tenant)).eraseDups).filter (fun t => s.tStrict t)
/-- The tenant of this device that holds a fabric tag (R336). -/
def State.tagTenant (s : State) (tag : Nat) : Option Nat :=
  ((s.objs.filter (fun e => e.1 % 2 ^ 24 == okey 0x4400 4 && e.2 == tag && decide (2 ^ 24 ≤ e.1))).map
    (fun e => e.1 / 2 ^ 24 - 1)).head?
/-- Role of a flex port that is enabled; 0 otherwise (R58). -/
def State.role (s : State) (p : Nat) : Nat := if s.obj (0x3000 + 8 * p) 1 = 1 then s.obj (0x3000 + 8 * p) 2 else 0
/-- Whether a host port is up. -/
def State.hostUp (s : State) (p : Nat) : Bool := s.role p == 1 && (s.flexP p).st == 3
/-- This device's ID and whether it is assigned (0x1000.05). -/
def State.devId (s : State) : Nat := s.obj 0x1000 5 % 512
/-- ASSIGNED of 0x1000.05. -/
def State.assigned (s : State) : Bool := bit (s.obj 0x1000 5) 15
/-- The epoch of the adopted map, 0 where none. -/
def State.epoch (s : State) : Nat := match s.fmap.map with | some m => m.epoch | none => 0
/-- FAILURE_GROUP, whose default is STRAP[3:0] (R301). -/
def State.failureGroup (s : State) : Nat :=
  match Table.find s.objs (okey 0x7200 2) with | some v => v | none => s.obj 0x1000 6 % 16
/-- Whether the device is READY (R453). -/
def State.ready (s : State) : Bool := s.pw.stage == 6

/-- A WARM reset runs: flex credit of TC1 to TC7 is withheld (R443). -/
def State.warm (s : State) : Bool := s.resets.any (fun r => r.kind == 2)
/-- Rings take nothing: a device-wide reset runs, or the device is in D3 or on its way (R374, R443, R447). -/
def State.stopped (s : State) : Bool :=
  s.resets.any (fun r => r.kind == 1 || r.kind == 2 || r.kind == 6) || s.pw.pstate == 3
    || (match s.pw.trans with | some (t, _) => t == 3 | none => false)

/-- n fresh 64-bit words of the DRBG (R357). -/
def State.draw (s : State) (n : Nat) : List Nat × State :=
  ((List.range n).map (fun i => Config.drbg (s.sec.drbg + i) % 2 ^ 64), { s with sec := { s.sec with drbg := s.sec.drbg + n } })

/-- A free value drawn for a service time (R431). -/
def State.drawNs (s : State) : Nat × State := (Config.serviceNs s.freeCtr, { s with freeCtr := s.freeCtr + 1 })
/-- A free value drawn for a word the spec does not state. -/
def State.drawWord (s : State) : Nat × State := (Config.freeWord s.freeCtr, { s with freeCtr := s.freeCtr + 1 })

/-! ### Data-class memory (R118, R122, R151) -/

/-- The byte at a fabric address; an address nothing lists reads zero (R122, R124). -/
def memByte : List Host.Cell → Nat → Byte
  | [], _ => 0
  | (b, v) :: t, a => if b = a then v else memByte t a

/-- The memory with `v` at `a`, in canonical form: addresses rising, no zero listed. -/
def memPut : List Host.Cell → Nat → Byte → List Host.Cell
  | [], a, v => if v = 0 then [] else [(a, v)]
  | (b, w) :: t, a, v =>
    if a < b then (if v = 0 then (b, w) :: t else (a, v) :: (b, w) :: t)
    else if a = b then (if v = 0 then t else (a, v) :: t)
    else (b, w) :: memPut t a v

/-- `n` bytes from `a` on. -/
def memRead (m : List Host.Cell) (a n : Nat) : Bytes := (List.range n).map (fun i => memByte m (a + i))

/-- Bytes stored from `a` on. -/
def memWrite (m : List Host.Cell) : Nat → Bytes → List Host.Cell
  | _, [] => m
  | a, b :: t => memWrite (memPut m a b) (a + 1) t

/-- A range cleared to zero. -/
def memClear (m : List Host.Cell) (a n : Nat) : List Host.Cell := m.filter (fun c => !(decide (a ≤ c.1) && decide (c.1 < a + n)))

/-- The canonical form: addresses strictly rise and no entry is zero. -/
def Memory.wf : List Host.Cell → Bool
  | [] => true
  | [c] => c.2 != 0
  | c :: d :: t => c.2 != 0 && decide (c.1 < d.1) && Memory.wf (d :: t)

/-- Whether a byte of the range is poisoned (R377). -/
def State.poisoned (s : State) (a n : Nat) : Bool := s.poison.any (fun r => decide (a < r.1 + r.2) && decide (r.1 < a + n))

/-- A data-class write is applied at its home (R151); it also replaces poison it covers whole. -/
def State.applyWrite (s : State) (a : Nat) (d : Bytes) : State :=
  { s with mem := memWrite s.mem a d,
           poison := s.poison.filter (fun r => !(decide (a ≤ r.1) && decide (r.1 + r.2 ≤ a + d.length))) }

/-! ### Monitors (R428 to R439) -/

/-- The bin of a sample (R429). -/
def monBin (v : Nat) : Nat :=
  if v < 16 then 0
  else if v ≥ 524288 then 31
  else ((List.range 31).filter (fun k => decide (1 ≤ k) && decide (256 * 2 ^ (k - 1) ≤ v * v))).getLastD 0

/-- A monitor after the sample v (R428). -/
def Mon.add (m : Mon) (v : Nat) : Mon :=
  { m with min := Nat.min m.min v, max := Nat.max m.max v,
           count := if m.count = 2 ^ 64 - 1 then m.count else m.count + 1,
           sum := (m.sum + v) % 2 ^ 64,
           hist := m.hist.set (monBin v) (let h := m.hist.getD (monBin v) 0; if h = 2 ^ 64 - 1 then h else h + 1) }

/-- A monitor's values after a clear (R428); notification bookkeeping stays. -/
def Mon.clear (m : Mon) : Mon := { notedAt := m.notedAt, cross := m.cross }

/-- Applies a clear whose edge has come (R433). -/
def Mon.settle (m : Mon) (now : Nat) : Mon :=
  match m.clearAt with
  | some t => if t ≤ now then { m.clear with clearAt := none } else m
  | none => m

/-- A monitor as it stands now. -/
def State.mon (s : State) (m : Nat) : Mon := (Table.get s.mons {} m).settle s.now

/-- What a sample belongs to, to be matched against MON_SCOPE (R431). -/
structure SampleScope where
  die : Option Nat := none
  flex : Option Nat := none
  peer : Option Nat := none
  tenant : Option Nat := none

/-- Whether a sample falls in a MON_SCOPE value. -/
def SampleScope.within (x : SampleScope) (v : Nat) : Bool :=
  let n := bits v 27 16
  match v % 16 with
  | 0 => true
  | 1 => x.die == some n
  | 2 => x.flex == some n
  | 3 => x.peer == some n
  | _ => x.tenant == some n

/-- Takes the sample v of monitor m, and notifies when it crosses MON_THRESH (R430, R439). -/
def State.sample (s : State) (m v : Nat) (sc : SampleScope) : State :=
  if !sc.within (s.obj (0xA100 + m) 1) then s
  else
    let x := (s.mon m).add v
    let th := s.obj (0xA100 + m) 3
    let crosses := decide (th ≠ 0) && (if m = 16 then decide (v < th) else decide (th < v))
    if !crosses then { s with mons := Table.put s.mons m x }
    else
      let due := match x.notedAt with | some t => decide (t + 10000000 ≤ s.now) | none => true
      if due then
        let s1 := { s with mons := Table.put s.mons m { x with notedAt := some s.now, cross := 0 } }
        (s1.notify (0x0100 + m) (leBytes 8 v ++ leBytes 4 (x.cross + 1) ++ leBytes 4 (s.obj (0xA100 + m) 1))).flag 0xA000 4 0
      else { s with mons := Table.put s.mons m { x with cross := x.cross + 1 } }

/-! ### Token buckets (R346 to R351) -/

/-- Key of the bucket of a tenant and class. -/
abbrev bktKey (t tc : Nat) : Nat := t * 8 + tc

/-- A tenant's bucket. -/
def State.bucket (s : State) (t tc : Nat) : Bucket := Table.get s.buckets {} (bktKey t tc)

/-- RATE of class TC2 + i. -/
def State.shapeRate (s : State) (t tc : Nat) : Nat := s.objI 0x4410 (tc - 1) t
/-- BURST of class TC2 + i, in bytes. -/
def State.shapeBurst (s : State) (t tc : Nat) : Nat := s.objI 0x4410 (tc + 4) t * 1024

/-- Records that a unit passed, or was held or refused, for the throttle registers (R352). -/
def State.throttle (s : State) (t tc bytes : Nat) (hit : Bool) : State :=
  let r := Table.get s.reports {} t
  let i := tc - 2
  let r1 : Report := { r with bytes := r.bytes.set i (r.bytes.getD i 0 + bytes), hit := r.hit.set i (r.hit.getD i false || hit) }
  { s with reports := Table.put s.reports t r1 }

/-- The die that keeps a tenant's buckets with a mask of dies in service (R351). -/
def bucketHome (dies t : Nat) : Option Nat :=
  let h := t % 8
  if bit dies h then some h
  else if bit dies ((h + 4) % 8) then some ((h + 4) % 8)
  else (List.range 8).find? (fun d => bit dies d)
/-- A die's bucket with a unit of `cost` taken by die d, which holds `a` of earlier advances: it draws what it lacks in advances of at most 4 KiB, and
what is left of the last one, which the spec does not state, is `w` modulo what it can be (R351). -/
def Bucket.draw (b : Bucket) (d a cost w : Nat) : Bucket :=
  let lack := cost - a
  let left := w % (Nat.min (ceilDiv lack 4096 * 4096 - lack) (b.tokens - lack).toNat + 1)
  { b with tokens := b.tokens - lack - left, advances := Table.put b.advances d left }
/-- A unit at its bucket, metered at die d: whether it passes, and the state with its cost taken (R347, R351). -/
def State.take (s : State) (t tc d cost : Nat) : Bool × State :=
  if s.shapeRate t tc = 0xFFFFFFFF then (true, s.throttle t tc cost false)
  else
    let b := s.bucket t tc
    let need := Nat.min cost (s.shapeBurst t tc)
    let put := fun (u : State) (y : Bucket) => ({ u with buckets := Table.put u.buckets (bktKey t tc) y } : State).throttle t tc cost false
    if bucketHome s.rel.dies t = some d then
      if b.tokens ≥ (need : Int) then (true, put s { b with tokens := b.tokens - cost }) else (false, s.throttle t tc 0 true)
    else
      let a := Table.get b.advances 0 d
      if cost ≤ a then (true, put s { b with advances := Table.put b.advances d (a - cost) })
      else if b.tokens + a ≥ (need : Int) then
        let w := s.drawWord
        (true, put w.2 (b.draw d a cost w.1))
      else (false, s.throttle t tc 0 true)

/-! ### Resets of objects -/

/-- Returns to default every object whose key and class `f` picks; the class P objects kept in nonvolatile store are not picked
by the callers (R425, R452). -/
def State.dropObjs (s : State) (f : Nat → Cls → Bool) : State :=
  { s with objs := s.objs.filter (fun e => !f e.1 (objClass e.1)), blobs := s.blobs.filter (fun e => !f e.1 (objClass e.1)) }

/-- Objects of R452: kept by every reset. -/
def nonvolatile (k : Nat) : Bool :=
  let idx := k % 2 ^ 24 / 256
  let sub := k % 256
  (idx == 0x1000 && sub == 5) || (idx == 0x2020 && sub == 1) || (idx == 0x3C00 && (sub == 1 || sub == 2))
    || (idx == 0x7200 && sub == 2) || (idx == 0x8000 && (sub == 2 || sub == 4)) || (idx == 0x8100 && decide (sub ≤ 0x12))
    || (decide (0x3000 ≤ idx ∧ idx < 0x3400) && (idx % 8 == 0) && sub == 7)
    || (decide (0x3800 ≤ idx ∧ idx < 0x3A00) && (idx % 8 == 0) && sub == 6)

/-- A list cut to a prefix and appended: the ring of the last `n` elements. -/
def lastN {α : Type} (n : Nat) (l : List α) : List α := l.drop (l.length - n)

end Sys2Proof.Machine
end

