-- ==== Sys2Proof/Machine/Clock.lean ====
section
/-! DEFINITION. The time base's own advance (R50, R88). -/

namespace Sys2Proof.Machine

open Sys2Proof

/-- The most a TIMECLK cycle of 10 ns may be slewed, ps: 200 ppm (R88). -/
def slewPs : Int := 2

/-- What a TIMECLK cycle of 10 ns gains for the spread in force, fs (R50): the triangle's mean deficit is half its depth, so the mean cycle
lasts 10 ns / (1 - 0.00125) or 10 ns / (1 - 0.0025). -/
def spreadFs (setting : Nat) : Int := if setting = 1 then 12516 else if setting = 2 then 25063 else 0

/-- One TIMECLK cycle: 10 ns, the spread's correction, and at most 200 ppm of the correction still to be slewed (R50, R88). -/
def TimeBase.tick (t : TimeBase) (spread : Nat) : TimeBase :=
  let d : Int := max (-slewPs) (min slewPs t.corr)
  let fs := t.fs + 1000 * d + spreadFs spread
  let whole : Int := fs / 1000000
  { t with now := ((t.now : Int) + 10 + whole).toNat % 2 ^ 64, fs := fs - whole * 1000000, corr := t.corr - d }

/-- One TIMECLK cycle of the block; nothing else happens unless a command says so. -/
def State.tick (s : State) : State := { s with tb := s.tb.tick s.pw.spread }

end Sys2Proof.Machine
end

