-- ==== Sys2Proof/Machine/Operands.lean ====
section
/-! DEFINITION. The operands of a command packet: header fields, arguments and payload (R190 to R198). -/

namespace Sys2Proof.Machine

open Sys2Proof

/-- HDR_VER (R196). -/
def hVer (h : Bytes) : Nat := bits (field h 0 8) 63 60
/-- RECIPE_ID. -/
def hRecipe (h : Bytes) : Nat := bits (field h 0 8) 55 40
/-- CMD_TAG. -/
def hTag (h : Bytes) : Nat := bits (field h 0 8) 39 24
/-- PAYLOAD_LEN. -/
def hLen (h : Bytes) : Nat := bits (field h 0 8) 23 9
/-- NOTIFY. -/
def hNotify (h : Bytes) : Bool := bit (field h 0 8) 3
/-- ORDER (R204). -/
def hOrder (h : Bytes) : Bool := bit (field h 0 8) 2
/-- RESULT_ADDR. -/
def hResAddr (h : Bytes) : Nat := field h 8 8
/-- RESULT_LEN. -/
def hResLen (h : Bytes) : Nat := field h 0x14 4
/-- MAP_EPOCH. -/
def hEpoch (h : Bytes) : Nat := field h 0x10 4
/-- A little-endian argument of `n` bytes at header offset `off`. -/
def arg (h : Bytes) (off n : Nat) : Nat := field h off n

/-- Step 1 of R199: the reason of the first failing part. -/
def hdrFault (h : Bytes) : Option Nat :=
  let w := field h 0 8
  if hVer h ≠ 1 then some 0x01
  else if bits w 59 56 ≠ 0 ∨ bits w 8 4 ≠ 0 ∨ bits w 1 0 ≠ 0 then some 0x02
  else if hLen h > 16384 then some 0x03
  else if hResAddr h % 64 ≠ 0 then some 0x04
  else none

/-- Bytes a packet takes in its ring: the header and the payload, each a multiple of 64 (R192). -/
def packetBytes (h : Bytes) : Nat := 64 + roundUp (hLen h) 64

/-- Built-in recipes (R183). -/
def builtins : List Nat :=
  [1, 2, 3, 4, 5, 6, 7, 8, 9, 10, 11, 12, 13, 0x10, 0x11, 0x20, 0x21, 0x22, 0x23, 0x30, 0xF0, 0xF1, 0xF2]

/-- The right a built-in recipe needs (R338); none for DESCRIBE. -/
def recipeRight (base : Nat) : Option Nat :=
  if base = 0 then some 5
  else if base ∈ [1, 2, 3, 0x10, 0x11] then some 0
  else if base ∈ [4, 5] then some 1
  else if base ∈ [9, 10, 11, 13] then some 2
  else if base ∈ [0x22, 0x23, 12] then some 3
  else if base ∈ [0x20, 0x21] then some 4
  else if base ∈ [0xF1, 0xF2] then some 5
  else if base = 0x30 then some 6
  else if base ∈ [6, 7, 8] then some 8
  else none

/-- The ARGS ranges a recipe marks reserved, as (offset, size) (R6). -/
def argsReserved (base : Nat) : List (Nat × Nat) :=
  if base = 1 then [(0x25, 1), (0x2A, 6), (0x30, 8), (0x38, 8)]
  else if base = 2 then [(0x25, 1), (0x2A, 6), (0x38, 8)]
  else if base = 3 then [(0x1E, 34)]
  else if base ∈ [4, 5] then [(0x1E, 2), (0x30, 16)]
  else if base ∈ [6, 7, 8] then [(0x1F, 33)]
  else if base ∈ [9, 10, 11, 13] then [(0x34, 12)]
  else if base = 12 then [(0x2C, 8), (0x34, 12)]
  else if base ∈ [0x10, 0x11] then [(0x1A, 38)]
  else if base = 0x20 then [(0x1B, 37)]
  else if base = 0x21 then [(0x19, 1), (0x1B, 37)]
  else if base = 0x22 then [(0x24, 4), (0x30, 16)]
  else if base ∈ [0x23, 0xF2] then [(0x1A, 38)]
  else if base ∈ [0x30, 0xF0, 0xF1] then [(0x18, 40)]
  else []

/-- Reserved bits inside an ARGS byte, as (offset, mask) (R6). -/
def argsReservedBits (base : Nat) : List (Nat × Nat) :=
  if base = 3 then [(0x1B, 0xF0)]
  else if base = 0x20 then [(0x18, 0xF0), (0x19, 0xFE)]
  else if base = 0x21 then [(0x18, 0xF0)]
  else if base = 0x22 then [(0x1B, 0xFE)]
  else []

/-- No ARGS field that the recipe marks reserved holds a nonzero bit (R6, step 3 of R199). -/
def argsClean (base : Nat) (h : Bytes) : Bool :=
  (argsReserved base).all (fun r => zeroAt h r.1 r.2)
    && (argsReservedBits base).all (fun r => decide (field h r.1 1 &&& r.2 = 0))

/-- Element size in bytes of an element code (R178). -/
def elemSize : Nat → Nat
  | 0 => 2 | 1 => 4 | 2 => 1 | 3 => 4 | 4 => 1 | 5 => 2 | 6 => 8 | 7 => 4 | 8 => 1 | _ => 0

/-- Status codes (R203). -/
abbrev stOK : Nat := 0x00
abbrev stRetryPoliced : Nat := 0x10
abbrev stRetryBusy : Nat := 0x11
abbrev stNotOwner : Nat := 0x20
abbrev stMoving : Nat := 0x21
abbrev stPhaseAborted : Nat := 0x30
abbrev stSeqLost : Nat := 0x31
abbrev stPoisoned : Nat := 0x40
abbrev stRevoked : Nat := 0x41
abbrev stLeaseExpired : Nat := 0x42
abbrev stConflict : Nat := 0x50
abbrev stPrefixMiss : Nat := 0x51
abbrev stPaletteAbsent : Nat := 0x60
abbrev stSlotsFull : Nat := 0x61
abbrev stRecipeInvalid : Nat := 0x70
abbrev stMismatch : Nat := 0x71
abbrev stDenied : Nat := 0x7F
abbrev stFault : Nat := 0xF0

end Sys2Proof.Machine
end

