-- ==== Sys2Proof/Machine/StreamOps.lean ====
section
/-! DEFINITION. Rings, admission and completion (R190 to R205): what every command packet shares. -/

namespace Sys2Proof.Machine

open Sys2Proof

/-! ### Rings -/

/-- Submission ring r. -/
def Ld.ring (x : Ld) (r : Nat) : SRing := Table.get x.rings {} r
/-- Completion ring r. -/
def Ld.cq (x : Ld) (r : Nat) : CRing := Table.get x.cqs {} r
/-- Stores a submission ring. -/
def State.setRing (s : State) (p l r : Nat) (x : SRing) : State :=
  let d := s.ld p l
  s.setLd p l { d with rings := Table.put d.rings r x }
/-- Stores a completion ring. -/
def State.setCq (s : State) (p l r : Nat) (x : CRing) : State :=
  let d := s.ld p l
  s.setLd p l { d with cqs := Table.put d.cqs r x }
/-- Whether ENABLE of a submission ring reads 1: RUNNING or BROKEN (R193). -/
def SRing.enabled (x : SRing) : Bool := x.st == 1 || x.st == 3
/-- Size of a submission ring. -/
def SRing.size (x : SRing) : Nat := 2 ^ Nat.max 16 (Nat.min 20 (x.cfg % 32))
/-- CQ of SQ_CFG. -/
def SRing.cqNo (x : SRing) : Nat := bits x.cfg 21 16
/-- WEIGHT of SQ_CFG, at least 1. -/
def SRing.weight (x : SRing) : Nat := Nat.max 1 (Nat.min 16 (bits x.cfg 15 8))
/-- Entries of a completion ring. -/
def CRing.size (x : CRing) : Nat := 2 ^ (x.cfg % 32)
/-- ENABLE of CQ_CFG. -/
def CRing.on (x : CRing) : Bool := bit x.cfg 16
/-- MSIX_EN of CQ_CFG. -/
def CRing.msix (x : CRing) : Bool := bit x.cfg 8
/-- Entries written and not yet released. -/
def CRing.unread (x : CRing) : Nat := (x.idx + x.size - x.head) % x.size
/-- Free entries (R194). -/
def CRing.free (x : CRing) : Nat := x.size - 1 - x.unread - x.reserved
/-- The ring after one record: the index advances, and PHASE flips on each wrap. -/
def CRing.wrote (x : CRing) : CRing :=
  if x.idx + 1 = x.size then { x with idx := 0, phase := 1 - x.phase } else { x with idx := x.idx + 1 }
/-- n bytes of ring storage from `off` on. -/
def SRing.read (x : SRing) (off n : Nat) : Bytes := (List.range n).map (fun i => Table.get x.store 0 (off + i))

/-- A completion record (R201). -/
def record (tag status sq : Nat) (event : Bool) (sqHead phase detail resBytes hint epoch : Nat) : Bytes :=
  leBytes 8 (tag * 2 ^ 48 + status * 2 ^ 40 + sq * 2 ^ 34 + bool01 event * 2 ^ 33 + sqHead % 65536 * 2 ^ 17 + phase)
    ++ leBytes 8 (detail * 2 ^ 32 + resBytes) ++ leBytes 8 hint ++ leBytes 8 (epoch * 2 ^ 32)

/-- An event record goes to the event ring, or is held, or overflows (R195). -/
def State.eventRecord (s : State) (p l status detail hint : Nat) : State :=
  let d := s.ld p l
  let q := d.eq
  let mk := fun ph => record 0 status 0 true 0 ph detail 0 hint s.epoch
  if q.on ∧ q.queued = [] ∧ 0 < q.free then
    let s1 := (s.setLd p l { d with eq := q.wrote }).emit (.dma p l (q.base + 32 * q.idx) (mk q.phase))
    if q.msix then s1.emit (.msix p l 64) else s1
  else if q.queued.length < 256 then s.setLd p l { d with eq := { q with queued := q.queued ++ [mk 0] } }
  else (s.setLd p l { d with eq := { q with overflow := true } }).flag 0x6000 6 0

/-- A held record as it is written: with the PHASE and the map epoch of that time (R194, R201). -/
def heldRecord (b : Bytes) (phase epoch : Nat) : Bytes :=
  (match b with | x :: t => (x ||| BitVec.ofNat 8 phase) :: t | [] => []).take 28 ++ leBytes 4 epoch
/-- Records held for a full event ring are written while entries are free (R195). -/
def State.flushEvents (s : State) (p l : Nat) : Nat → State
  | 0 => s
  | n + 1 =>
    let d := s.ld p l
    let q := d.eq
    match q.queued with
    | [] => s
    | b :: rest =>
      if q.on ∧ 0 < q.free then
        let s1 := (s.setLd p l { d with eq := { q.wrote with queued := rest } }).emit
          (.dma p l (q.base + 32 * q.idx) (heldRecord b q.phase s.epoch))
        (if q.msix then s1.emit (.msix p l 64) else s1).flushEvents p l n
      else s

/-- Admitted commands of a ring that are not completed. -/
def State.ringCmds (s : State) (p l r : Nat) : List Nat :=
  (s.cmds.filter (fun e => e.2.p == p && e.2.l == l && e.2.r == r && e.2.refused.isNone)).map Prod.fst

/-- Commands of a ring whose record is owed, refused ones included. -/
def State.ringAll (s : State) (p l r : Nat) : List Nat := (s.cmds.filter (fun e => e.2.p == p && e.2.l == l && e.2.r == r)).map Prod.fst
/-- How many they are. -/
def State.ringOwed (s : State) (p l r : Nat) : Nat := (s.ringAll p l r).length

/-- A ring becomes BROKEN, with its event record and RING_BROKEN (R193). -/
def State.breakRing (s : State) (p l r reason : Nat) : State :=
  ((s.setRing p l r { (s.ld p l).ring r with st := 3, reason := reason }).eventRecord p l stRecipeInvalid (0xFF00 + reason) 0).flag
    0x6000 6 1

/-- What INGEST finds at SQ_HEAD. -/
inductive Peek where
  | nothing
  | broken
  | packet (h : Bytes)
deriving DecidableEq, Repr

/-- The next packet of a ring: none, one that runs past the tail, or its header (R192, R193). -/
def SRing.peek (x : SRing) : Peek :=
  if x.st ≠ 1 ∨ x.head = x.tail then .nothing
  else
    let h := x.read x.head 64
    if hRecipe h = 0 then (if x.head < x.tail then .broken else .packet h)
    else
      let e := x.head + packetBytes h
      if x.head < x.tail then (if e ≤ x.tail then .packet h else .broken)
      else if e < x.size ∨ (e = x.size ∧ 0 ≤ x.tail) then .packet h else .broken

/-- The recipe a tenant's ID resolves to (R183 to R188): the base and its descriptor; an install or a removal in progress leaves
it open whether a command resolves it. -/
def State.resolve (s : State) (t id : Nat) : Option (Nat × Option Recipe) :=
  if builtins.contains id then some (id, none)
  else
    match s.recipes.find? (fun x => x.tenant == t && x.id == id) with
    | none => none
    | some x =>
      let base := field x.hdr 6 2
      match x.removedBy with
      | some c => if (Table.find s.cmds c).isSome && Config.midInstall s.freeCtr then some (base, some x) else none
      | none => if (Table.find s.cmds x.byCmd).isSome && !Config.midInstall s.freeCtr then none else some (base, some x)

/-! ### Tiles (R177 to R180) -/

/-- The fields of a tile header (R177). -/
structure TileHdr where
  kind : Nat
  fmt : Nat
  tenant : Nat
  stage : Nat
  last : Bool := false
  coded : Bool := false
  poison : Bool := false
  length : Nat := 0
  item : Nat := 0
  no : Nat := 0
  key : Nat := 0
  slot : Nat := 0
  ref : Nat := 0
deriving DecidableEq, Repr

/-- The 28 bytes that HCRC covers. -/
def TileHdr.head (h : TileHdr) : Bytes :=
  leBytes 8 (h.kind % 16 * 2 ^ 60 + h.fmt % 16 * 2 ^ 56 + h.tenant % 4096 * 2 ^ 40 + h.stage % 16 * 2 ^ 36 + bool01 h.last * 2 ^ 35
      + bool01 h.coded * 2 ^ 34 + bool01 h.poison * 2 ^ 33 + h.length % 2 ^ 17 * 2 ^ 15)
    ++ leBytes 8 (h.item % 2 ^ 24 * 2 ^ 32 + h.no % 2 ^ 32) ++ leBytes 8 h.key ++ leBytes 4 (h.slot % 4096 * 2 ^ 20 + h.ref % 2 ^ 20)
/-- The 32 bytes of a tile header. -/
def TileHdr.bytes (h : TileHdr) : Bytes := h.head ++ leBytes 4 (crc32c h.head)
/-- A header read from its bytes. -/
def tileHdr (b : Bytes) : TileHdr :=
  let w := field b 0 8
  let y := field b 0x18 4
  { kind := bits w 63 60, fmt := bits w 59 56, tenant := bits w 51 40, stage := bits w 39 36, last := bit w 35, coded := bit w 34,
    poison := bit w 33, length := bits w 31 15, item := bits (field b 8 8) 55 32, no := field b 8 4, key := field b 0x10 8,
    slot := bits y 31 20, ref := y % 2 ^ 20 }
/-- Whether HCRC of a header's bytes holds (R180). -/
def hdrOk (b : Bytes) : Bool := b.length == 32 && field b 0x1C 4 == crc32c (b.take 0x1C)
/-- Whether KIND is one of R178 and FORMAT is one of its. -/
def TileHdr.good (h : TileHdr) : Bool :=
  if h.kind ≤ 1 then decide (h.fmt ≤ 2)
  else if h.kind = 6 ∨ h.kind = 9 then h.fmt == 7
  else if h.kind = 10 ∨ h.kind = 11 then h.fmt == 8
  else decide (h.kind ≤ 8) && decide (h.fmt ≤ 8)

/-- A stream cut into tiles of the granted size; every one but the last is exactly that size (R179). -/
def cutTiles (n : Nat) (b : Bytes) : List Bytes := if b.isEmpty then [[]] else chunks n (ceilDiv b.length (Nat.max 1 n)) b
/-- The tiles of an item's stream, with their headers (R177, R179). -/
def streamTiles (h : TileHdr) (n : Nat) (b : Bytes) : List Tile :=
  let ts := cutTiles n b
  ts.zipIdx.map (fun x =>
    { hdr := { h with length := x.1.length, no := x.2, key := x.2 * n, last := x.2 + 1 == ts.length }.bytes, data := x.1 })

/-! ### Tile buffers (R176) -/

/-- Whether an engine state is in service: IN_SERVICE or SUSPECT (R401). -/
def inService (st : Nat) : Bool := st == 1 || st == 2

/-- Stages of a built-in recipe (R183). -/
def builtinStages (base : Nat) : Nat :=
  if base = 1 then 8 else if base = 2 then 7 else if base = 3 then 5 else if base ∈ [6, 8, 9, 10] then 4
  else if base ∈ [4, 5, 7, 11, 12, 13, 0x10, 0x11] then 3 else 2
/-- Tile size granted for a recipe (R179, R189); a built-in one has the device's choice. -/
def tileGrant (var : Option Recipe) : Nat := match var with | some v => field v.hdr 8 4 | none => 16384
/-- Bytes of the largest tile a recipe passes between stages: the largest page where it passes pages (R179, R211). -/
def stageTile (base : Nat) (var : Option Recipe) : Nat := if base ∈ [1, 2, 3, 6, 8] then 67584 else tileGrant var
/-- One tile for each stage of a recipe. -/
def recipeTiles (base : Nat) (var : Option Recipe) : Nat :=
  (if base = 0 then (match var with | some v => v.stages.length | none => 0) else builtinStages base) * stageTile base var
/-- The reservation that the packet at SQ_HEAD needs; none where it is refused at once. -/
def State.tileNeed (s : State) (p l : Nat) (h : Bytes) : Nat :=
  match s.ldTenant p l with
  | none => 0
  | some t => if (hdrFault h).isSome then 0 else match s.resolve t (hRecipe h) with | some (b, v) => recipeTiles b v | none => 0
/-- The engine set a tenant's stages run on: its partition, or the common one (R340). -/
def State.engineSet (s : State) (t : Nat) : Option Nat := if s.tStrict t then some t else none
/-- Tile-buffer bytes of a tenant's engine set on a die that no command has reserved. -/
def State.tileFree (s : State) (d t : Nat) : Nat :=
  (s.rel.engines.filter (fun e => e.1 / 52 == d && inService e.2.st && e.2.part == s.engineSet t)).length * Config.tileBuffer
    - sumNat (s.cmds.map (fun e => if e.2.p / 16 = d ∧ s.engineSet e.2.tenant = s.engineSet t then e.2.buf else 0))
/-- Whether the tile buffers on the die of the first stage hold one tile for each stage: INGEST runs on the die of the ring (R176, R192). -/
def State.tilesFit (s : State) (p l : Nat) (h : Bytes) : Bool :=
  s.tileNeed p l h == 0 || decide (s.tileNeed p l h ≤ s.tileFree (p / 16) ((s.ldTenant p l).getD 0))

/-- Whether a ring's next packet can be read now: an entry to reserve, tile buffers, and the limits of R200. -/
def State.canRead (s : State) (p l r : Nat) : Bool :=
  let d := s.ld p l
  let x := d.ring r
  match x.peek with
  | .nothing => false
  | .broken => true
  | .packet h =>
    hRecipe h == 0 ||
    ((d.cq x.cqNo).on && decide (0 < (d.cq x.cqNo).free) && decide ((s.ringCmds p l r).length < 1024)
      && decide ((s.cmds.filter (fun e => e.2.p == p && e.2.l == l && e.2.refused.isNone)).length < s.obj 0x6000 4)
      && decide ((s.cmds.filter (fun e => e.2.refused.isNone)).length < 65536) && s.tilesFit p l h)

/-- Rings of a logical device that INGEST could serve now; an offline device, or a port that is down, is not served. An unbound one is, to
have its commands refused (R63). -/
def State.readable (s : State) (p l : Nat) : List Nat :=
  if s.hostUp p && (s.ldOn p l || (s.ldTenant p l).isNone) && !(s.ld p l).offline && s.ready && !s.fmap.expelled && !s.stopped && s.dieUp (p / 16)
  then (List.range 64).filter (fun r => s.canRead p l r) else []

/-- Deficit round robin over the readable rings (R205): the ring served, and the deficits after it was topped up. -/
def drr (x : Ld) (ok : List Nat) : Nat → Nat → Table SRing → Option (Nat × Table SRing)
  | 0, _, _ => none
  | n + 1, cur, t =>
    let g := Table.get t {} cur
    let next := (cur + 1) % 64
    if !ok.contains cur then
      drr x ok n next (if g.deficit = 0 ∧ g.topped = false then t else Table.put t cur { g with deficit := 0, topped := false })
    else
      let need := match g.peek with | .packet h => packetBytes h | _ => 0
      let have_ := if g.topped then g.deficit else g.deficit + g.weight * 1024
      if need ≤ have_ then some (cur, Table.put t cur { g with deficit := have_, topped := true })
      else drr x ok n next (Table.put t cur { g with deficit := have_, topped := false })

/-- The ring of a logical device whose turn it is. -/
def State.dueRing (s : State) (p l : Nat) : Option (Nat × Table SRing) :=
  let d := s.ld p l
  let ok := s.readable p l
  if ok.isEmpty then none else drr d ok 2304 d.rrRing d.rings

/-- The logical device of a port whose turn it is: round robin, one packet at a time (R205). -/
def State.dueLd (s : State) (p : Nat) : Option Nat :=
  let last := Table.get s.rrLd 15 p
  ((List.range 16).map (fun i => (last + 1 + i) % 16)).find? (fun l => !(s.readable p l).isEmpty)

/-- Whether it is the turn of ring r: then the state with the deficits settled. -/
def State.turn (s : State) (p l r : Nat) : Option State :=
  if s.dueLd p = some l then
    match s.dueRing p l with
    | some (r0, t) => if r0 = r then some (s.setLd p l { s.ld p l with rings := t, rrRing := r }) else none
    | none => none
  else none

/-- INGEST takes the packet of `n` bytes at SQ_HEAD; a PAD skips to offset 0. -/
def State.consume (s : State) (p l r n : Nat) (pad : Bool) : State :=
  let x := (s.ld p l).ring r
  let e := x.head + n
  { s.setRing p l r { x with head := if pad ∨ e = x.size then 0 else e, deficit := x.deficit - n } with
    rrLd := Table.put s.rrLd p l }

/-! ### Commands in the device -/

/-- A command, by reference. -/
def State.cmd (s : State) (c : Nat) : Option Cmd := Table.find s.cmds c
/-- Changes a command that is still in the device. -/
def State.modCmd (s : State) (c : Nat) (f : Cmd → Cmd) : State :=
  match s.cmd c with | some x => { s with cmds := Table.put s.cmds c (f x) } | none => s
/-- An item ends with a status, unless it has ended. -/
def Cmd.endItem (x : Cmd) (i st : Nat) : Cmd :=
  match x.items[i]? with | some none => { x with items := x.items.set i (some st) } | _ => x
/-- The lowest-indexed failed item: index and status. -/
def firstFail : List (Option Nat) → Nat → Option (Nat × Nat)
  | [], _ => none
  | some st :: t, i => if st = 0 then firstFail t (i + 1) else some (i, st)
  | none :: t, i => firstFail t (i + 1)
/-- An item fails; reason and hint are those of the lowest-indexed failed item (R201, R202). -/
def Cmd.failItem (x : Cmd) (i st reason hint : Nat) : Cmd :=
  match x.items[i]? with
  | some none =>
    let y := x.endItem i st
    if (firstFail y.items 0).map Prod.fst = some i then { y with reason := reason, hint := hint } else y
  | _ => x
/-- A command without an item table, a collective, fails as a whole, unless it has ended (R202). -/
def Cmd.failAll (x : Cmd) (st reason : Nat) : Cmd :=
  if x.whole.isSome || x.items.all (fun o => o.isSome) then x else { x with whole := some st, reason := reason }
/-- Every item has ended, or the whole command has. -/
def Cmd.ended (x : Cmd) : Bool :=
  x.refused.isSome || x.whole.isSome || (x.items.all (fun o => o.isSome) && x.heldItems.isEmpty
    && (match x.work with | .ordered _ => false | .coll _ _ => false | .moves _ => false | _ => true))

/-- A completion ring whose write failed (R194): disabled, every submission ring that names it BROKEN, whatever its state, an event record. -/
def State.cqFail (s : State) (p l c : Nat) : State :=
  let d := s.ld p l
  let s1 := s.setCq p l c { d.cq c with cfg := clearBit (d.cq c).cfg 16 }
  (((List.range 64).filter (fun r => (d.ring r).cqNo == c)).foldl
    (fun (a : State) r => (a.setRing p l r { (a.ld p l).ring r with st := 3, reason := 0x12 }).flag 0x6000 6 1) s1).eventRecord
    p l stRecipeInvalid (0xFF00 + 0x12) 0

/-- The record's status, detail, result data and status vector of an ended command (R201, R202). -/
def Cmd.outcome (x : Cmd) (resultOk : Bool) : Nat × Nat × Bytes × Bytes :=
  match x.refused with
  | some (st, stage, reason) => (st, stage * 256 + reason, [], [])
  | none =>
    match x.whole with
    | some st => (st, x.stage * 256 + x.reason, [], [])
    | none =>
      match firstFail x.items 0 with
      | some (i, st) =>
        let n := (x.items.filter (fun o => o != some 0)).length
        (st, n * 65536 + i, [], (x.items.map (fun o => BitVec.ofNat 8 (o.getD 0))).take (hResLen x.hdr))
      | none => if resultOk then (0, 0, x.result.take (hResLen x.hdr), []) else (stFault, 0xFF0F, [], [])

/-- A DMA write to a host, in PCIe writes of at most the largest payload, in ascending address (R21, R61). -/
def dmaPieces (p l a : Nat) (b : Bytes) : List Output :=
  (List.range (ceilDiv b.length Config.maxPayload)).map (fun i => .dma p l (a + Config.maxPayload * i) (slice b (Config.maxPayload * i)
    (Nat.min Config.maxPayload (b.length - Config.maxPayload * i))))
/-- Sequences an APPEND or ATTEND packet names. -/
def itemSeqs (h pay : Bytes) : List Nat := (List.range (Nat.min (arg h 0x1C 2) (pay.length / 16))).map (fun i => field pay (16 * i) 4)
/-- What an APPEND and an ATTEND have in common where the one depends on the other: layer, KV head and sequence (R20). -/
def Cmd.kvNames (x : Cmd) : List (Nat × Nat × Nat) :=
  ((itemSeqs x.hdr x.pay).map (fun q => (field x.hdr 0x18 2, field x.hdr 0x1A 1, q))).eraseDups
/-- An APPEND completes with a status: one other than OK dooms the ATTENDs that depend on it, and those that follow it on its ring (R20). -/
def State.appendDone (s : State) (c : Nat) (x : Cmd) (st : Nat) : State :=
  if x.recipe ≠ 3 then s
  else
    let g := (s.ld x.p x.l).ring x.r
    let rest := g.lostApps.filter (fun k => !x.kvNames.contains k)
    let s1 := s.setRing x.p x.l x.r { g with lostApps := if st = stOK then rest else rest ++ x.kvNames }
    if st = stOK then s1
    else { s1 with cmds := s1.cmds.map (fun (e : Nat × Cmd) => if e.2.binds.contains c then (e.1, { e.2 with doomed := true }) else e) }

/-- The record is written: status vector or result data first, then the record, then MSI-X (R21, R194, R202). -/
def State.writeRecord (s : State) (c : Nat) (x : Cmd) (resultOk recordOk : Bool) : State :=
  let o := x.outcome resultOk
  let s0 := ({ s with cmds := Table.del s.cmds c } : State).appendDone c x o.1
  let data := if o.2.2.1.isEmpty then o.2.2.2 else o.2.2.1
  let s1 := s0.emits (dmaPieces x.p x.l (hResAddr x.hdr) data)
  let q := (s1.ld x.p x.l).cq x.cq
  let hint := if o.1 = stNotOwner ∨ o.1 = stMoving ∨ o.1 = stRevoked ∨ o.1 = stLeaseExpired then x.hint else 0
  let s2 := s1.setCq x.p x.l x.cq { (if recordOk then q.wrote else q) with reserved := q.reserved - 1 }
  let s3 := if recordOk then
      let s' := s2.emit (.dma x.p x.l (q.base + 32 * q.idx)
        (record (hTag x.hdr) o.1 x.r false x.sqHead q.phase o.2.1 o.2.2.1.length hint s.epoch))
      if q.msix && hNotify x.hdr then s'.emit (.msix x.p x.l x.cq) else s'
    else s2.cqFail x.p x.l x.cq
  let sc : SampleScope := { flex := some x.p, tenant := some x.tenant }
  let s4 := s3.sample 0 (s.now - x.at_) sc
  if x.recipe = 1 then s4.sample 1 (s.now - x.at_) sc else s4

/-- A failure of the whole command (R202), with the record's HINT (R201). -/
def State.failCmd (s : State) (c st reason : Nat) (hint : Nat := 0) : State :=
  s.modCmd c (fun x => if x.ended then x else { x with whole := some st, reason := reason, hint := hint, work := .none })

/-! ### Items that end from outside -/

/-- The sequence an item of a command works on, where its recipe works on one. -/
def Cmd.itemSeq (x : Cmd) (i : Nat) : Option Nat :=
  if [1, 2, 3, 6, 7, 8, 0x10, 0x11].contains x.recipe then some (field x.pay (16 * i) 4)
  else if x.recipe = 4 ∨ x.recipe = 5 then some (arg x.hdr 0x18 4)
  else none

/-- Items of a command that works on sequences; none for other recipes. -/
def Cmd.itemCount (x : Cmd) : Nat :=
  if [1, 2, 3, 6, 7, 8].contains x.recipe then arg x.hdr 0x1C 2 else if x.recipe = 0x10 ∨ x.recipe = 0x11 then arg x.hdr 0x18 2
  else if x.recipe = 4 ∨ x.recipe = 5 then 1 else 0
/-- A command whose stages begin, with n items: those that have ended already stay so (R311). -/
def Cmd.start (x : Cmd) (n : Nat) : Cmd := { x with work := .none, items := if x.items.length = n then x.items else List.replicate n none }
/-- Whether an item of a command is still to be done. -/
def State.todo (s : State) (ref i : Nat) : Bool := match s.cmd ref with | some x => x.items[i]? == some none | none => false
/-- The items of a command that are still to be done, in order. -/
def State.eachTodo (s : State) (ref n : Nat) (f : State → Nat → State) : State :=
  (List.range n).foldl (fun (a : State) i => if a.todo ref i then f a i else a) s

/-- Whether a command still waits for others, for moves or for appends, before its COMMIT (R306, R311). -/
def Cmd.waits (x : Cmd) : Bool := match x.work with | .ordered _ => true | .attend _ => true | .moves _ => true | _ => false
/-- An item ends with a status although its stages had not failed (R311, R381, R386): one still running, or one whose only effect is
the result data that its command has yet to return. -/
def State.cutItem (s : State) (ref i st reason : Nat) : State :=
  match s.cmd ref with
  | none => s
  | some x =>
    match x.items[i]? with
    | some none =>
      let w := match x.work with
        | .moves l => let r := l.filter (fun z => z.1 != i); if r.isEmpty then .none else .moves r
        | .coll _ _ => .none
        | w => w
      { s with pend := s.pend.filter (fun (q : PendItem) => !(q.cmd == ref && q.item == i)) }.modCmd ref
        (fun y => { y.failItem i st reason 0 with work := w, heldItems := y.heldItems.filter (fun j => j != i) })
    | some (some 0) =>
      if [0, 1, 2, 12].contains x.recipe then
        s.modCmd ref (fun y => { y with items := y.items.set i (some st), reason := if y.reason = 0 then reason else y.reason,
                                        heldItems := y.heldItems.filter (fun j => j != i) })
      else s
    | _ => s

/-- Every item of the commands in the device that `f` picks ends so. -/
def State.cutItems (s : State) (f : Nat → Cmd → Nat → Bool) (st reason : Nat) : State :=
  s.cmds.foldl (fun (a : State) e =>
    if e.2.refused.isSome ∨ e.2.whole.isSome then a
    else (List.range e.2.items.length).foldl (fun (b : State) i => if f e.1 e.2 i then b.cutItem e.1 i st reason else b) a) s

/-! ### Admission (R199) -/

/-- A command as the checks after step 3 see it. -/
structure Ctx where
  p : Nat
  l : Nat
  r : Nat
  ref : Nat
  tenant : Nat
  base : Nat
  rid : Nat
  h : Bytes
  pay : Bytes
  var : Option Recipe

/-- A recipe's own checks: steps 6 and 7 of R199, as status and reason, and what it does once admitted. -/
structure Recipe.Run where
  check : State → Ctx → Option (Nat × Nat × Nat)
  /-- What happens at admission even where ORDER delays the first stage (R204). -/
  atAdmit : State → Ctx → State := fun s _ => s
  start : State → Ctx → State

/-- A composed command's ARGS beyond its section counts are zero (R6, R198). -/
def composedArgs (base : Nat) (var : Option Recipe) (h : Bytes) : Bool :=
  match base, var with
  | 0, some v => let n := field (v.stages.headD []) 4 1 - 1; zeroAt h (0x18 + 4 * n) (40 - 4 * n)
  | _, _ => true

/-- Steps 2 to 5 of R199 on a resolved recipe: a refusal, or the state with the policer's tokens taken. -/
def State.policed (s : State) (p l base : Nat) (var : Option Recipe) (h : Bytes) : (Option (Nat × Nat)) × State :=
  match s.ldTenant p l with
  | none => (some (stDenied, 0x0C), s)
  | some t =>
    if !argsClean base h ∨ !composedArgs base var h then (some (stRecipeInvalid, 0x02), s)
    else if !(s.tOn t) ∨ !(match recipeRight base with | some b => s.right t b | none => true)
        ∨ (s.ld p l).tdi = 3 ∨ (s.sec.debugOpen ∧ (Table.find s.sec.tenantKeys t).isNone) then (some (stDenied, 0x0D), s)
    else
      let g := s.take t 4 (p / 16) (packetBytes h)
      if g.1 then (none, g.2) else (some (stRetryPoliced, 0x00), g.2.bumpI 0x4410 0x10 t 1)

/-- Enters a command in the device with its completion entry reserved. -/
def State.enter (s : State) (c : Cmd) : State :=
  let d := s.ld c.p c.l
  let q := d.cq c.cq
  { s.setCq c.p c.l c.cq { q with reserved := q.reserved + 1 } with cmds := Table.put s.cmds s.nextCmd c, nextCmd := s.nextCmd + 1 }

/-- The command of a packet just read. -/
def State.newCmd (s : State) (p l r : Nat) (h pay : Bytes) : Cmd :=
  { p := p, l := l, r := r, tenant := (s.ldTenant p l).getD 0, recipe := 0, rid := hRecipe h, hdr := h, pay := pay,
    sqHead := ((s.ld p l).ring r).head / 64, cq := ((s.ld p l).ring r).cqNo, at_ := s.now }

/-- A refused command: no effect, its record owed (R199). -/
def State.refuse (s : State) (p l r base : Nat) (h pay : Bytes) (st stage reason hint : Nat) : State :=
  (s.enter { s.newCmd p l r h pay with recipe := base, refused := some (st, stage, reason), hint := hint }).bump 0x6000 8 1

/-- Reads the packet at SQ_HEAD of ring r where it is the ring's turn and the recipe is the row's, and admits or refuses it
in the order of R199. `mine` says whether the row is that of a resolved base. -/
def State.ingest (s : State) (p l r : Nat) (mine : Nat → Bool) (run : Recipe.Run) : State :=
  match s.turn p l r with
  | none => s
  | some s0 =>
    let x := (s0.ld p l).ring r
    match x.peek with
    | .nothing => s
    | .broken => s0.breakRing p l r 0x11
    | .packet h =>
      if hRecipe h = 0 ∨ (hdrFault h).isSome then s
      else
        match s0.resolve ((s0.ldTenant p l).getD 4096) (hRecipe h) with
        | none => s
        | some (base, var) =>
          if !mine base then s
          else
            let pay := x.read (x.head + 64) (hLen h)
            let s1 : State := { s0.consume p l r (packetBytes h) false with freeCtr := s0.freeCtr + 1 }
            match s1.policed p l base var h with
            | (some (st, reason), s2) => s2.refuse p l r base h pay st 0 reason 0
            | (none, s2) =>
              let c : Ctx := { p := p, l := l, r := r, ref := s2.nextCmd, tenant := (s2.ldTenant p l).getD 0, base := base,
                               rid := hRecipe h, h := h, pay := pay, var := var }
              match run.check s2 c with
              | some (st, reason, hint) => s2.refuse p l r base h pay st 0 reason hint
              | none =>
                let before := s2.ringAll p l r
                let y := { s2.newCmd p l r h pay with recipe := base, buf := recipeTiles base var }
                let s3 := (s2.enter (if hOrder h ∧ before ≠ [] then { y with work := .ordered before, items := List.replicate y.itemCount none } else y)).bump 0x6000 7 1
                let s4 := run.atAdmit s3 c
                if hOrder h ∧ before ≠ [] then s4 else run.start s4 c

/-- A STRICT partition is given up once its tenant counts as disabled (R335, R341). -/
def State.releaseParts (s : State) : State :=
  { s with rel := { s.rel with engines := s.rel.engines.map (fun e => match e.2.part with
      | some t => if s.tStrict t then e else (e.1, { e.2 with part := none })
      | none => e) } }

end Sys2Proof.Machine
end

