-- ==== Sys2Proof/Machine/PoolOps.lean ====
section
/-! DEFINITION. Extents, leases, address checks and data-class writes (R118 to R148, R157 to R161), shared by their commands. -/

namespace Sys2Proof.Machine

open Sys2Proof

/-! ### Addresses -/

/-- SPACE of a fabric address (R118). -/
def faSpace (a : Nat) : Nat := bits a 54 52
/-- Fabric die that homes an extent's backing (R119). -/
def faDie (a : Nat) : Nat := if faSpace a = 0 then bits a 38 36 else bits a 50 44 / 16
/-- Flex port of a tray address. -/
def faPort (a : Nat) : Nat := bits a 50 44
/-- HBM crossbar port of a byte (R119). -/
def faXbar (a : Nat) : Nat := 45 + ((a >>> 8) ^^^ (a >>> 11) ^^^ (a >>> 14)) % 8
/-- Fabric address of a byte of a tray (R118). -/
def trayAddr (p off : Nat) : Nat := 2 ^ 52 + p * 2 ^ 44 + off

/-- Whether a fabric address has the form of R118: a SPACE that is not reserved, and zeros where zeros are asked. -/
def faOk (a : Nat) : Bool :=
  match faSpace a with
  | 0 => bits a 51 39 == 0
  | 1 => !bit a 51
  | 2 => true
  | 3 => true
  | _ => false

/-- ENABLE of a flex port. -/
def State.flexOn (s : State) (p : Nat) : Bool := s.obj (0x3000 + 8 * p) 1 == 1
/-- ENABLE of a peer port. -/
def State.peerOn (s : State) (q : Nat) : Bool := s.obj (0x3800 + 8 * q) 1 == 1
/-- XBCLK cycles by fabric time (R48): 1.28 to the ns. -/
def State.xbCycle (s : State) : Nat := s.now * 32 / 25

/-- XBCLK cycle from which a host port's ingress admits its next TC0 cell (R102). -/
def State.tc0Due (s : State) (d x : Nat) : Nat := match Table.find (s.core d).tc0At x with | some t => t + s.obj 0x4000 3 | none => 0
/-- A TC0 cell is admitted at a host port's ingress. -/
def State.tc0Note (s : State) (d x : Nat) : State := let c := s.core d; s.setCore d { c with tc0At := Table.put c.tc0At x s.xbCycle }
/-- A doorbell or a back-invalidate response of a host waits in the dedicated TC0 buffer of its port until the rate lets it in (R102). -/
def State.tc0Gate (s : State) (p : Nat) : State := (s.atTime (ceilDiv (s.tc0Due (p / 16) (p % 16) * 25) 32)).tc0Note (p / 16) (p % 16)

/-- Whether an extent is HBM of this device (R121). -/
def Extent.isHbm (x : Extent) : Bool := faSpace x.base == 0 && x.away.isNone
/-- Whether an extent is backed on a tray of this device at a flex port (R121). -/
def onTray (p : Nat) (x : Extent) : Bool := faSpace x.base == 1 && x.away.isNone && faPort x.base == p
/-- Whether an extent is backed on a die of this device: in its stack, or on a tray of its ports. -/
def onDie (d : Nat) (x : Extent) : Bool := x.away.isNone && faDie x.base == d
/-- Peer ports in ACTIVE (R93). -/
def State.activePeers (s : State) : List Nat := (s.peer.filter (fun e => e.2.st == 4)).map Prod.fst
/-- Route mask of a device (R100, R117). -/
def State.routeMask (s : State) (d : Nat) : Nat := s.obj (0x4200 + d / 64) (d % 64 + 1)
/-- Whether some path leads to a device: a direct ACTIVE port, or a route through one (R100, R304). -/
def State.reaches (s : State) (d : Nat) : Bool :=
  s.activePeers.any (fun q => (s.peerP q).peerDev == some d || bit (s.routeMask d) q)

/-- Whether the home of an extent's backing is in service: its die, and its tray's port (R122, R145). One on a peer device is that device's concern. -/
def State.extHomeUp (s : State) (x : Extent) : Bool :=
  x.away.isSome || (s.dieUp (faDie x.base) && (x.isHbm || (s.flexP (faPort x.base)).st == 3))

/-! ### Slots and the check of R130 -/

/-- The extent a logical device maps or is offered at a slot, as (extent, state of the mapping, read-only). -/
def Extent.at (x : Extent) (p l slot : Nat) : Option (Nat × Bool) :=
  if x.holder = some (p, l) ∧ x.slot = slot ∧ (x.st = 1 ∨ x.st = 2 ∨ x.st = 6 ∨ x.st = 7) then some (x.st, x.ro)
  else
    match x.maps.find? (fun m => m.p == p && m.l == l && m.slot == slot) with
    | some m => if m.st = 2 ∧ (x.st = 6 ∨ x.st = 7) then some (x.st, true) else some (m.st, true)
    | none => none

/-- Extent at a slot: ID, extent, state, read-only. -/
def State.slotExt (s : State) (p l slot : Nat) : Option (Nat × Extent × Nat × Bool) :=
  s.extents.findSome? (fun e => (e.2.at p l slot).map (fun r => (e.1, e.2, r.1, r.2)))

/-- Slots of a logical device that an OFFERED, GRANTED, FAILED or UNREACHABLE extent occupies (R123). -/
def State.usedSlots (s : State) (p l : Nat) : List Nat :=
  s.extents.flatMap (fun e =>
    (if e.2.holder = some (p, l) ∧ (e.2.st = 1 ∨ e.2.st = 2 ∨ e.2.st = 6 ∨ e.2.st = 7) then [e.2.slot] else [])
      ++ (e.2.maps.filter (fun m => m.p == p && m.l == l)).map (fun m => m.slot))

/-- Whether anything holds an extent: a logical device, a mapping, a peer device it is lent to or whose confirmation is awaited (R129, R146, R457). -/
def Extent.held (x : Extent) : Bool := x.holder.isSome || !x.maps.isEmpty || x.lent.isSome || x.confirm.isSome

/-- Extents held: GRANTED, FAILED or UNREACHABLE (R148). -/
def State.heldCount (s : State) (p l : Nat) : Nat :=
  (s.extents.filter (fun e => (e.2.holder == some (p, l) && (e.2.st == 2 || e.2.st == 6 || e.2.st == 7))
    || e.2.maps.any (fun m => m.p == p && m.l == l && m.st == 2))).length

/-- The outcome of the check of R130. -/
inductive Access where
  /-- Served at the backing address of this extent. -/
  | ok (eid addr : Nat)
  /-- Served at this address of a peer device, which checks it no more (R121, R131). -/
  | remote (eid dev addr : Nat)
  /-- Passes, but the backing is lost: reads return poison, writes are discarded (R143). -/
  | lost (eid : Nat)
  /-- The slot is read-only and this is a write. -/
  | readOnly
  | denied
deriving DecidableEq, Repr

/-- The check of an access of `n` bytes to a DPA (R130, R120). One to an extent of a peer device to which no path is left is lost (R129, R143). -/
def State.check (s : State) (p l dpa n : Nat) (write : Bool) : Access :=
  match s.slotExt p l (dpa / Config.extentBytes) with
  | none => .denied
  | some (e, x, st, ro) =>
    if st = 1 ∨ !s.ldOn p l ∨ (s.ldTenant p l).isNone ∨ dpa % Config.extentBytes + n > Config.extentBytes ∨ (s.ld p l).tdi = 3
    then .denied
    else if st ≠ 2 then .lost e
    else if write ∧ ro then .readOnly
    else match x.away with
      | some v => if s.reaches v then .remote e v (x.base + dpa % Config.extentBytes) else .lost e
      | none => .ok e (x.base + dpa % Config.extentBytes)

/-- An access by a station for a command admitted before: one to a slot revoked since still completes, on the extent it was admitted for (R130, R132,
R133). -/
def State.stationCheck (s : State) (ref p l dpa n : Nat) (write : Bool) : Access :=
  let slot := dpa / Config.extentBytes
  match s.extents.find? (fun e => e.2.users.contains ref && e.2.past.contains (p, l, slot)) with
  | some (e, x) =>
    if x.st = 6 ∨ x.st = 7 then .lost e
    else if x.st ≠ 2 ∧ x.st ≠ 3 ∧ x.st ≠ 4 then .denied
    else if write ∧ (x.ro ∨ x.set.isSome) then .readOnly
    else
      (match x.away with
        | some v => if s.reaches v then .remote e v (x.base + dpa % Config.extentBytes) else .lost e
        | none => .ok e (x.base + dpa % Config.extentBytes))
  | none => s.check p l dpa n write

/-- A failed check is counted and flagged (R130, R142). -/
def State.deny (s : State) (p l : Nat) (ro : Bool) : State :=
  let s1 := (s.bump (0x5400 + p) (8 * l + 8) 1).ldFlag p l 2
  if ro then s1.ldFlag p l 3 else s1

/-! ### Leases (R125, R127) -/

/-- LEASE_TERM in ns. -/
def State.leaseTerm (s : State) (p l : Nat) : Nat := s.ldObj p l 3 * 1000000
/-- The lease state of R126: 0 NONE, 1 ACTIVE, 2 GRACE, 3 EXPIRED. -/
def State.leaseState (s : State) (p l : Nat) : Nat :=
  let d := s.ld p l
  match d.lease, d.expiry with
  | 0, _ => 0
  | 3, _ => 3
  | _, some e => if s.now < e then 1 else 2
  | _, none => 0
/-- A lease starts or is renewed now. -/
def State.renew (s : State) (p l : Nat) : State :=
  s.setLd p l { s.ld p l with lease := 1, expiry := some (s.now + s.leaseTerm p l), graced := false }

/-- E moves by a time; to one after the present it makes a lease in GRACE ACTIVE again, which enters GRACE anew at E (R127). -/
def Ld.moveExpiry (d : Ld) (by_ now : Nat) : Ld :=
  match d.expiry with
  | some e => { d with expiry := some (e + by_), graced := d.graced && decide (e + by_ ≤ now) }
  | none => d

/-! ### Writes in flight (R151, R157) -/

/-- Die and crossbar port of a caching agent: its engine group, or the root die's port, which this model takes at FD0 (R97). -/
def agentPort (a : Nat) : Nat × Nat := if a = 416 then (0, 62) else (a / 52, 53 + a % 52 % 8)
/-- Where the packets of a source enter the fabric, and its tenant. -/
def State.sourceAt (s : State) (src : Source) : Nat × Nat × Nat :=
  match src with
  | .host p l => (p / 16, p % 16, (s.ldTenant p l).getD 0)
  | .engine e _ => ((agentPort e).1, (agentPort e).2, 0)
  | _ => ((agentPort 416).1, (agentPort 416).2, 0)
/-- A request packet to another device, to be admitted at its source's crossbar port. -/
def State.askPeer (s : State) (src : Source) (kind dev a tag : Nat) (flag : Bool) (want : Nat) (d : Bytes) : State :=
  let x := s.sourceAt src
  s.emit (.toCore x.1 x.2.1 { ptype := kind, tc := if kind = 1 then 2 else 3, flag := flag, srcDev := s.devId, dstDev := dev, tenant := x.2.2, tag := tag,
                              addr := dev * 2 ^ 55 + a, data := d, want := want })
/-- A request whose completion is awaited: a read (1) or an atomic (4). -/
def State.await (s : State) (src : Source) (kind dev a back : Nat) (ctl : Bool) (want : Nat) (d : Bytes) : State :=
  let r : RemoteReq := { tag := s.nextTag, src := src, kind := kind, back := back, dev := dev, ctl := ctl }
  { s with remote := s.remote ++ [r], nextTag := (s.nextTag + 1) % 65536 }.askPeer src kind dev a s.nextTag false want d
/-- The completion of an atomic at its source. -/
def State.atomicReply (s : State) (r : AtomReq) (data : Bytes) (poison : Bool) : State :=
  match r.src with
  | .host p l => s.emit (.readCpl p l r.addr data poison)
  | src => s.emit (.atomicCpl src r.addr data poison)
/-- Whether a range [b, b + n) meets another. -/
def overlaps (b n c m : Nat) : Bool := decide (b < c + m) && decide (c < b + n)
/-- Whether a write or atomic that is bound for a peer device may be sent: a flagged store once every earlier write of its source is applied, another one
once no earlier one of its source to its bytes waits to be sent (R157, R158). -/
def State.sendable (s : State) (w : WrOut) : Bool :=
  let earlier := (s.writes.takeWhile (fun y => y.id != w.id)).filter (fun y => y.src == w.src)
  w.away.isSome && !w.sent && (if w.flag then earlier.isEmpty
    else !earlier.any (fun y => !y.sent && y.away == w.away && overlaps y.addr y.data.length w.addr w.data.length))
/-- Sends one write or atomic to its peer device: an atomic then awaits its completion. -/
def State.sendOne (s : State) (w : WrOut) : State :=
  match w.away, w.atom with
  | some v, none =>
    ({ s with writes := s.writes.map (fun (y : WrOut) => if y.id = w.id then { y with sent := true } else y) }).askPeer w.src 2 v w.addr (w.id % 65536) w.flag 0 w.data
  | some v, some r =>
    ({ s with writes := s.writes.filter (fun (y : WrOut) => y.id != w.id) }).await w.src 4 v w.addr r.addr (faSpace w.addr == 3) 0
      (leBytes r.size r.operand ++ leBytes r.size r.compare)
  | none, _ => s
/-- What waits to be sent to peer devices and may go is sent, in order of admission. -/
def State.sendReady (s : State) : State := s.writes.foldl (fun (a : State) w => if a.sendable w then a.sendOne w else a) s

/-- A data-class write is admitted: it waits to be applied at its home. -/
def State.admitWrite (s : State) (src : Source) (a dpa : Nat) (d : Bytes) (flag : Bool) (e : Option Nat) : State :=
  let w : WrOut := { id := s.nextWid, src := src, addr := a, data := d, flag := flag, eid := e, dpa := dpa, at_ := s.now }
  { s with writes := s.writes ++ [w], nextWid := s.nextWid + 1 }
/-- A host's write of `n` bytes at a DPA was discarded or lost (R161). -/
def State.noteLost (s : State) (p l wid dpa n : Nat) : State :=
  s.setLd p l { s.ld p l with lostW := (s.ld p l).lostW ++ [(wid, dpa, n)] }
/-- Whether accesses admitted before are outstanding to an extent: writes, or a command that still reads it (R132, R133). -/
def State.outstanding (s : State) (e : Nat) : Bool :=
  s.writes.any (fun w => w.eid == some e)
    || (match Table.find s.extents e with
        | some x => x.users.any (fun r => match Table.find s.cmds r with 
            | some c => c.whole.isNone && (c.items.isEmpty || c.items.any Option.isNone)
            | none => false)
        | none => false)
/-- The time at which a flagged store that waits begins to count is moved: FLAG_WAITS has counted up to now (R158, R171). -/
def State.countWaits (s : State) : State :=
  let at_ := (s.writes.filter (fun w => w.flag)).map (fun w => Nat.max w.at_ s.flagMark)
  match at_ with
  | [] => s
  | a :: l => { s.bump 0x5100 7 (s.now - l.foldl Nat.min a) with flagMark := s.now }
/-- Writes to an extent are lost (R161): the flushes of their hosts that cover them set LOSS; an atomic completes with poison. -/
def State.loseWrites (s : State) (f : WrOut → Bool) : State :=
  let gone := s.writes.filter f
  let s0 := if gone.any (fun w => w.flag) then s.countWaits else s
  let s1 : State := { s0 with writes := s.writes.filter (fun w => !f w) }
  (gone.foldl (fun (a : State) w => match w.atom, w.src with
    | some r, _ => a.atomicReply r [] true
    | none, .host p l => a.noteLost p l w.id w.dpa w.data.length
    | none, .engine _ _ => a.flag 0x6100 7 1
    | none, _ => a) s1).sendReady

/-! ### Extent life -/

/-- An extent back to FREE with nothing of its holder left. -/
def Extent.freed (x : Extent) : Extent := { base := x.base }
/-- Where an extent is mapped to logical devices. -/
def Extent.mapped (x : Extent) : List (Nat × Nat × Nat) :=
  (match x.holder with | some (p, l) => [(p, l, x.slot)] | none => []) ++ (x.maps.filter (fun m => m.st == 2)).map (fun m => (m.p, m.l, m.slot))
/-- An extent returns to FREE; the loan of a peer device's range ends with it (R123, R129). -/
def State.freeExt (s : State) (e : Nat) (x : Extent) : State :=
  match x.away with
  | some v => ({ s with extents := Table.del s.extents e }).emit (.loanEnd v x.base)
  | none => s.setExt e x.freed
/-- An extent is scrubbed next, once its home is in service (R124, R145); a peer device scrubs its own. -/
def State.toScrub (s : State) (e : Nat) (x : Extent) : State :=
  match x.away with
  | some _ => s.freeExt e x
  | none => s.setExt e { x.freed with st := 5, scrubbing := s.extHomeUp x }
/-- An extent is FAILED with no holder (R143, R146). -/
def State.toFailed (s : State) (e : Nat) (x : Extent) : State :=
  match x.away with
  | some _ => s.freeExt e x
  | none => s.setExt e { x.freed with st := 6 }
/-- Commands admitted before that read or write an extent where it is mapped so (R132, R133). -/
def State.usersAt (s : State) (at_ : List (Nat × Nat × Nat)) : List Nat :=
  let reads := fun (c : Cmd) => at_.any (fun m => c.p == m.1 && c.l == m.2.1
    && c.reads.any (fun r => decide (r.1 < (m.2.2 + 1) * Config.extentBytes) && decide (m.2.2 * Config.extentBytes < r.1 + r.2)))
  (s.cmds.filter (fun c => c.2.refused.isNone && reads c.2)).map Prod.fst
/-- An extent with the mappings given ended: the commands admitted before that use it there are noted, and go on (R132, R133). -/
def State.leftAt (s : State) (x : Extent) (at_ : List (Nat × Nat × Nat)) : Extent :=
  { x with past := x.past ++ at_, users := x.users.filter (fun r => (Table.find s.cmds r).isSome) ++ s.usersAt at_ }
/-- An extent drains (R132): its mappings end; commands admitted before that read it go on. -/
def State.toDrain (s : State) (e : Nat) (x : Extent) (n : Option (Nat × Nat × Nat × Bool)) : State :=
  s.setExt e { s.leftAt x x.mapped with st := 3, holder := none, maps := [], drainAt := s.now, notice := n }

/-- The host's notice of a revocation: the CXL record and the event record (R133). -/
def State.revokeNotice (s : State) (x : Extent) : State :=
  match x.notice with
  | some (p, l, slot, byLease) =>
    (s.emit (.cxlEvent p l 1 slot)).eventRecord p l (if byLease then stLeaseExpired else stRevoked) 0xFF00 (slot % 65536)
  | none => s

/-- Mappings of a shared version are withdrawn with their notices. -/
def State.dropMaps (s : State) (x : Extent) (byLease : Bool) : State :=
  (x.maps.filter (fun m => m.st == 2)).foldl (fun (a : State) m =>
    (a.emit (.cxlEvent m.p m.l 1 m.slot)).eventRecord m.p m.l (if byLease then stLeaseExpired else stRevoked) 0xFF00 (m.slot % 65536)) s

/-- Resident versions of a shared set, oldest first: those whose extent still holds them, and is not on its way to FREE (R122, R139). -/
def State.resident (s : State) (g : Nat) : List SVersion :=
  match Table.find s.sets g with
  | some st => st.versions.filter (fun v => match Table.find s.extents v.eid with
      | some x => x.set == some (g, v.num) && (x.st == 2 || x.st == 6 || x.st == 7)
      | none => false)
  | none => []

/-- The current version of a shared set (R139). -/
def State.current (s : State) (g : Nat) : Option SVersion := (s.resident g).getLast?

/-- Versions that no logical device holds, other than the current one, are scrubbed and freed (R142); one whose home is out waits for its scrub (R145). -/
def State.dropUnheld (s : State) : State :=
  { s with extents := s.extents.map (fun e =>
      match e.2.set with
      | some (g, _) =>
        if (e.2.st = 2 ∨ e.2.st = 7) ∧ !e.2.held ∧ (s.current g).map (fun v => v.eid) ≠ some e.1 then
          (e.1, if e.2.st = 2 then { e.2 with st := 3, drainAt := s.now, notice := none } else { e.2.freed with st := 5, scrubbing := s.extHomeUp e.2 })
        else e
      | none => e) }

/-- Revocation of one extent at its state (R132, R135, R146): offers are withdrawn, granted extents drain, one lent to a peer device once it has
confirmed; failed ones lose their holders, and one whose home is out waits to be scrubbed. `notify` is false where the host gets no notice (R144). -/
def State.revoke (s : State) (e : Nat) (byLease notify : Bool) : State :=
  match Table.find s.extents e with
  | none => s
  | some x =>
    let n := match x.holder with | some (p, l) => if notify then some (p, l, x.slot, byLease) else none | none => none
    let s0 := if notify then s.dropMaps x byLease else s
    if x.st = 1 then s0.freeExt e x
    else if x.st = 2 ∨ x.st = 7 ∧ x.lent.isSome then
      match x.lent with
      | some v => (s0.setExt e { x with st := 3, drainAt := s.now, notice := none, confirm := some v }).emit (.revokeSent v e)
      | none => s0.toDrain e x n
    else if x.st = 6 then
      match x.lent with
      | some v => (s0.setExt e { x with confirm := some v }).emit (.revokeSent v e)
      | none => if x.holder.isSome ∨ !x.maps.isEmpty then (s0.revokeNotice { x with notice := n }).toFailed e x else s0
    else if x.st = 7 then (s0.revokeNotice { x with notice := n }).toScrub e x
    else s0

/-- A shared version after one logical device's holds of it, as its publisher and by its mappings, have ended: a FAILED one that nothing holds has no
holder any more (R142, R143, R146). -/
def State.leaveVersion (s : State) (e : Nat) (x : Extent) (mine : Option (Nat × Nat) → Nat × Nat × Nat → Bool) : State :=
  let left := x.mapped.filter (mine x.holder)
  let y : Extent := { s.leftAt x left with
    holder := match x.holder with | some h => if mine x.holder (h.1, h.2, x.slot) then none else some h | none => none,
    maps := x.maps.filter (fun m => !mine x.holder (m.p, m.l, m.slot)) }
  if x.st = 6 ∧ !y.held then s.toFailed e y else s.setExt e y

/-- Every extent and offer of a logical device is revoked (R127, R132, R148): of a shared version, this logical device's holds of it (R142, R144). -/
def State.revokeAll (s : State) (p l : Nat) (byLease notify : Bool) : State :=
  (s.extents.foldl (fun (a : State) e =>
    let mine := fun (m : ShMap) => m.p == p && m.l == l
    if e.2.set.isSome ∧ (e.2.st = 2 ∨ e.2.st = 6 ∨ e.2.st = 7) ∧ (e.2.holder = some (p, l) ∨ e.2.maps.any mine) then
      let a1 := if notify ∧ e.2.holder = some (p, l) then a.revokeNotice { e.2 with notice := some (p, l, e.2.slot, byLease) } else a
      let a2 := if notify then a1.dropMaps { e.2 with maps := e.2.maps.filter mine } byLease else a1
      a2.leaveVersion e.1 e.2 (fun _ m => m.1 == p && m.2.1 == l)
    else if e.2.holder = some (p, l) ∧ (e.2.st = 1 ∨ e.2.st = 2 ∨ e.2.st = 6 ∨ e.2.st = 7) then a.revoke e.1 byLease notify
    else a) s).dropUnheld

/-- Extents of a backing that fails enter FAILED, offers are withdrawn, hosts get one General Media record per slot (R143). -/
def State.failExt (s : State) (e : Nat) : State :=
  match Table.find s.extents e with
  | none => s
  | some x =>
    let s1 := s.loseWrites (fun w => w.eid == some e)
    match x.st with
    | 1 => s1.toFailed e x
    | 0 => s1.toFailed e x
    | 5 => s1.toFailed e x
    | 3 => (s1.revokeNotice x).toFailed e x
    | 4 => s1.toFailed e x
    | 6 => s1
    | _ =>
      let s2 := match x.holder with | some (p, l) => s1.emit (.cxlEvent p l 2 x.slot) | none => s1
      let s3 := (x.maps.filter (fun m => m.st == 2)).foldl (fun (a : State) m => a.emit (.cxlEvent m.p m.l 2 m.slot)) s2
      s3.setExt e { x with st := 6, maps := x.maps.filter (fun m => m.st == 2) }

/-- Extents homed where `f` says become UNREACHABLE, scrubs there stop, tests end in FAILED (R145, R146). -/
def State.extentsOut (s : State) (f : Extent → Bool) : State :=
  { s with extents := s.extents.map (fun e =>
      if !f e.2 then e
      else if e.2.st = 2 then (e.1, { e.2 with st := 7 })
      else if e.2.st = 5 ∧ e.2.testing then (e.1, { e.2.freed with st := 6 })
      else if e.2.st = 5 then (e.1, { e.2 with scrubbing := false })
      else e) }

/-- Extents whose home returns with contents kept: UNREACHABLE ones are GRANTED again, scrubs start from the beginning (R145). -/
def State.extentsBack (s : State) (f : Extent → Bool) : State :=
  { s with extents := s.extents.map (fun e =>
      if !f e.2 then e
      else if e.2.st = 7 then (e.1, { e.2 with st := 2 })
      else if e.2.st = 5 then (e.1, { e.2 with scrubbing := true })
      else e) }

/-- HBM extents out of FREE (R121). -/
def State.hbmOut (s : State) : Nat := (s.extents.filter (fun e => e.2.isHbm && e.2.st != 0)).length

/-- A tray that may back extents: up, in the pool, and with IDE where required (R65, R66). -/
def State.trayOk (s : State) (p : Nat) : Bool :=
  s.role p == 2 && (s.flexP p).st == 3 && !(s.flexP p).failed && !(s.flexP p).unused
    && (s.obj (0x3000 + 8 * p) 6 == 0 || (s.flexP p).ide)

/-- FREE extents of a requested backing, in ascending ID (R123). -/
def State.freeOf (s : State) (backing argv : Nat) : List Nat :=
  (s.extents.filter (fun e => e.2.st == 0 && s.extHomeUp e.2 &&
    (if e.2.isHbm then backing == 0 || (backing == 2 && faDie e.2.base == bits argv 7 4)
     else e.2.away.isNone && s.trayOk (faPort e.2.base) && (backing == 1 || (backing == 3 && faPort e.2.base == argv % 128))))).map Prod.fst

/-- Offers an extent to a logical device at a slot, with its Add Capacity record (R123). -/
def State.offer (s : State) (p l e slot : Nat) : State :=
  match Table.find s.extents e with
  | some x => (s.setExt e { x with st := 1, holder := some (p, l), slot := slot, offeredAt := s.now }).emit (.cxlEvent p l 0 slot)
  | none => s

/-- Offers a shared version to a logical device (R142). -/
def State.offerShared (s : State) (p l e slot : Nat) : State :=
  match Table.find s.extents e with
  | some x => (s.setExt e { x with maps := x.maps ++ [⟨p, l, slot, 1, s.now⟩] }).emit (.cxlEvent p l 0 slot)
  | none => s

/-- The lowest free slots of a logical device's region (R120). -/
def State.freeSlots (s : State) (p l n : Nat) : List Nat :=
  let used := s.usedSlots p l
  ((List.range (Nat.min (s.ldObj p l 4) (used.length + n))).filter (fun i => !used.contains i)).take n

/-- The response codes of R411. -/
abbrev rcOK : Nat := 0x00
abbrev rcIgnored : Nat := 0x01
abbrev rcStale : Nat := 0x02
abbrev rcPending : Nat := 0x03
abbrev rcNoObject : Nat := 0x10
abbrev rcReadOnly : Nat := 0x11
abbrev rcWriteOnly : Nat := 0x12
abbrev rcBadType : Nat := 0x13
abbrev rcBadValue : Nat := 0x14
abbrev rcRefused : Nat := 0x15
abbrev rcLocked : Nat := 0x16
abbrev rcQuorum : Nat := 0x17
abbrev rcBadNonce : Nat := 0x18
abbrev rcBadSignature : Nat := 0x19
abbrev rcBusy : Nat := 0x1A
abbrev rcNotPermitted : Nat := 0x1B
abbrev rcNoRoute : Nat := 0x1C
abbrev rcTimeout : Nat := 0x1D

/-- Whether an ALLOC blob has the form of R124. -/
def allocForm (b : Bytes) : Bool :=
  let kind := field b 3 1
  let v := field b 0xC 4
  b.length == 16 && decide (field b 0 2 < 128) && decide (field b 2 1 < 16) && decide (kind ≤ 4) && field b 6 2 == 0
    && (field b 4 2 == 0xFFFF || decide (field b 4 2 < 512))
    && (kind == 4 || (decide (1 ≤ field b 8 4) && decide (field b 8 4 ≤ 4096)))
    && (match kind with | 2 => decide (v / 16 ≤ 7) && v % 16 == 0 | 3 => decide (v < 128) | _ => true)

/-- Whether a range that a peer device lends is one of the backing asked for, 256 MiB-aligned (R121, R123). -/
def lentFits (kind argv a : Nat) : Bool :=
  a % Config.extentBytes == 0 && decide (a < 2 ^ 55) && faOk a
    && (match kind with
        | 0 => faSpace a == 0
        | 1 => faSpace a == 1
        | 2 => faSpace a == 0 && bits a 38 36 == bits argv 7 4
        | _ => faSpace a == 1 && faPort a == argv % 128)
/-- ALLOC with backing on a peer device (R121, R123, R129): the ranges the peer lends become extents of this device, offered at once; refused where it has
no path to the peer or the peer has too few. -/
def State.allocAway (s : State) (p l v kind argv n : Nat) : Nat × State :=
  let s0 : State := { s with freeCtr := s.freeCtr + 1 }
  let have_ := fun (a : Nat) => s.extents.any (fun e => e.2.away == some v && e.2.base == a)
  let got := (((Config.lentRanges v s.freeCtr).filter (lentFits kind argv)).eraseDups.filter (fun a => !have_ a)).take n
  let slots := s.freeSlots p l n
  if !s.reaches v then (rcRefused, s)
  else if got.length < n ∨ slots.length < n ∨ 2 ^ 20 < s.nextEid + n then (rcRefused, s0)
  else
    let new := (got.zipIdx).map (fun x => (s0.nextEid + x.2, ({ base := x.1, away := some v } : Extent)))
    let s1 : State := { s0 with extents := s0.extents ++ new, nextEid := s0.nextEid + n }
    (rcOK, (slots.zipIdx).foldl (fun (a : State) x => a.offer p l (s0.nextEid + x.2) x.1) s1)

/-- ALLOC (R123): the response code and the state. DESIGN CHOICE: backing 4 offers the current version of the set that this device keeps, whatever device
+0x4 names. -/
def State.allocOp (s : State) (b : Bytes) : Nat × State :=
  if !allocForm b then (rcBadValue, s)
  else
    let p := field b 0 2
    let l := field b 2 1
    let kind := field b 3 1
    let here := field b 4 2 = 0xFFFF ∨ (s.assigned ∧ field b 4 2 = s.devId)
    let argv := field b 0xC 4
    if s.role p ≠ 1 ∨ !s.flexOn p ∨ !s.ldOn p l ∨ (s.ldTenant p l).isNone then (rcRefused, s)
    else if kind = 4 then
      match Table.find s.sets argv, s.ldTenant p l with
      | some st, some t =>
        match s.current argv, s.freeSlots p l 1 with
        | some v, slot :: _ =>
          let lost := match Table.find s.extents v.eid with | some x => x.st == 6 | none => true
          if s.right t 6 ∧ s.tDomain t = some st.domain ∧ !lost then (rcOK, s.offerShared p l v.eid slot) else (rcRefused, s)
        | _, _ => (rcRefused, s)
      | _, _ => (rcRefused, s)
    else if !here then s.allocAway p l (field b 4 2) kind argv (field b 8 4)
    else
      let n := field b 8 4
      let picked := (s.freeOf kind argv).take n
      let slots := s.freeSlots p l n
      let hbmNew := (picked.filter (fun e => decide (e < 2048))).length
      if picked.length < n ∨ slots.length < n ∨ s.hbmOut + hbmNew > s.obj 0x5000 4 then (rcRefused, s)
      else (rcOK, (picked.zip slots).foldl (fun (a : State) x => a.offer p l x.1 x.2) s)

/-- REVOKE_EXTENT (R132). -/
def State.revokeOp (s : State) (v : Nat) : Nat × State :=
  match Table.find s.extents v with
  | none => (rcRefused, s)
  | some x =>
    if x.st = 0 ∨ x.st = 5 ∨ (x.st = 6 ∧ !x.held) then (rcRefused, s)
    else if x.st = 3 ∨ x.st = 4 ∨ x.confirm.isSome then (rcOK, s)
    else (rcOK, s.revoke v false true)

/-- Extents a REPAIR_BACKING value names (R146). -/
def State.repairNames (s : State) (v : Nat) : List Nat :=
  let e := v % 2 ^ 20
  match Table.find s.extents e with
  | none => []
  | some x =>
    if !bit v 31 then [e]
    else (s.extents.filter (fun y => y.2.st == 6 && !y.2.held && y.2.isHbm == x.isHbm
      && y.2.away.isNone && (if x.isHbm then faDie y.2.base == faDie x.base else faPort y.2.base == faPort x.base))).map Prod.fst

/-! ### Spares of an HBM stack (R383, R387) -/

/-- Keys of `rel.spare`. -/
def spareKey (kind n : Nat) : Nat := kind * 2 ^ 32 + n
/-- Spares used at a key. -/
def State.spareUsed (s : State) (k : Nat) : Nat := Table.get s.rel.spare 0 k
/-- Stores a number of spares used. -/
def State.setSpare (s : State) (k v : Nat) : State := { s with rel := { s.rel with spare := Table.put s.rel.spare k v } }
/-- A failing HBM channel moves to a spare of its stack (R387). -/
def State.hbmChannel (s : State) (die channel : Nat) : State :=
  let key := spareKey 4 die
  if s.rel.moving.contains (die, channel) ∨ 2 ≤ s.spareUsed key then s
  else
    let s1 := s.setSpare key (s.spareUsed key + 1)
    { s1 with rel := { s1.rel with moving := s1.rel.moving ++ [(die, channel)] } }

/-- An HBM row is repaired at once where its stack has a row left (R383). -/
def State.hbmRow (s : State) (die row : Nat) : State :=
  let key := spareKey 3 die
  if s.spareUsed key < Config.hbmRepairRows die then
    let s1 := s.setSpare key (s.spareUsed key + 1)
    { s1 with rel := { s1.rel with hard := s1.rel.hard ++ [(die, row)] } }
  else s

/-- Before the test of an HBM extent every repair that its stack still allows is made: its rows that are not, and with no row left the channel of
such a row (R146). -/
def State.repairRows (s : State) (x : Extent) : State :=
  let inExt := fun (r : Nat × Nat × Nat × Nat) => x.isHbm && decide (x.base ≤ r.2.2.2) && decide (r.2.2.2 < x.base + Config.extentBytes)
  (s.rel.badRows.filter inExt).foldl (fun (a : State) r =>
    if a.spareUsed (spareKey 3 r.1) < Config.hbmRepairRows r.1 then
      let b := a.hbmRow r.1 r.2.2.1
      { b with rel := { b.rel with badRows := b.rel.badRows.erase r } }
    else a.hbmChannel r.1 r.2.1) s

/-- REPAIR_BACKING (R146): the test and scrub of each named extent start. -/
def State.repairOp (s : State) (v : Nat) : Nat × State :=
  match Table.find s.extents (v % 2 ^ 20) with
  | none => (rcRefused, s)
  | some x =>
    if x.st ≠ 6 ∨ x.held ∨ x.away.isSome ∨ !s.dieUp (faDie x.base)
        ∨ (!x.isHbm ∧ ((s.flexP (faPort x.base)).st ≠ 3 ∨ bit (s.obj (0x3000 + 8 * faPort x.base) 5) 4)) then (rcRefused, s)
    else (rcOK, (s.repairNames v).foldl (fun (a : State) e => match Table.find a.extents e with
      | some y => (a.repairRows y).setExt e { y.freed with st := 5, testing := true, scrubbing := true }
      | none => a) s)

end Sys2Proof.Machine
end

