-- ==== Sys2Proof/Machine/Flags.lean ====
section
/-! DEFINITION. Status flags and the order of a write's response codes (R411, R412, R458). -/

namespace Sys2Proof.Machine

open Sys2Proof

/-- Codes that the checks 1 to 6 of R458 give, ahead of BUSY. -/
def earlyCode (rc : Nat) : Bool := [0x10, 0x11, 0x12, 0x13, 0x14, 0x16, 0x17, 0x1B].contains rc

/-- Whether a scope lies in a reset (R442). -/
def ResetRun.covers (r : ResetRun) (sc : OScope) : Bool :=
  match r.kind with
  | 1 => true
  | 6 => true
  | 2 => (match sc with | .engine _ => true | .peer _ => true | _ => false)
  | 3 => (match sc with
      | .die d => d == r.unit
      | .flex p => p / 16 == r.unit
      | .peer q => q / 8 == r.unit
      | .engine e => e / 52 == r.unit
      | .ld p _ => p / 16 == r.unit
      | _ => false)
  | 4 => (match sc with
      | .flex p => p == r.unit
      | .peer q => q + 256 == r.unit
      | .ld p _ => p == r.unit
      | _ => false)
  | _ => (match sc with | .engine e => e == r.unit | _ => false)

/-- Whether a scope lies in a reset that runs (R408, R445). -/
def State.scopeBusy (s : State) (sc : OScope) : Bool := s.resets.any (fun r => r.covers sc)

/-- The scope of `idx.sub`. -/
def scopeOf (idx sub : Nat) : OScope := objScope (okey idx sub)

/-- One write of one object by a session. The response leaves before the effect, since some effects end the session (R402); `op`
gives the code and the state of the checks after BUSY and of the effect (R408, R458). A session under a claim window may write nothing but its three objects (R368). -/
def State.sessionWrite (s : State) (sid idx sub : Nat) (claimMay : Bool) (op : State → Nat × State) : State :=
  match Table.find s.sess sid with
  | none => s
  | some x =>
    if x.claim ∧ !claimMay then s.respond sid idx sub rcNotPermitted
    else
      let r := op s
      if earlyCode r.1 then s.respond sid idx sub r.1
      else if s.scopeBusy (scopeOf idx sub) then s.respond sid idx sub rcBusy
      else (op (s.respond sid idx sub r.1)).2

/-- The conditions that are still present keep a flag set when it is cleared, as a new event (R412). -/
def State.stillHeld (s : State) (k b : Nat) : Bool :=
  if k = okey 0x2000 6 then bit s.pw.held b
  else if k = okey 0x2000 10 then (if b = 0 then bit s.pw.held 8 else s.pw.uvWarn)
  else if k = okey 0x7500 5 then b == 0 && decide (4096 < s.slots.length + 64)
  else false

/-- A write to a WSQ object: the flags named are cleared where the sequence matches, STALE_SEQ otherwise (R412). -/
def State.wsqWrite (s : State) (k v : Nat) : Nat × State :=
  let cur := s.objK k
  if v / 65536 ≠ cur / 65536 then (rcStale, s)
  else
    let named := (setBits 16 (v % 65536)).filter (fun b => bit cur b)
    let s1 := s.setObjK k (named.foldl clearBit cur)
    (rcOK, named.foldl (fun (a : State) b => if s.stillHeld k b then a.flagK k b else a) s1)

/-- ALERT_N is low (R56): a condition of R56 holds or a status of 0x2000.06 or 0x2000.0A is unacknowledged. -/
def State.alertN (s : State) : Bool :=
  s.pw.uvWarn || decide (105 ≤ s.pw.temp) || (s.pw.rootOk == false) || (s.pw.lref != 0xFF)
    || s.obj 0x2000 6 % 65536 != 0 || s.obj 0x2000 10 % 65536 != 0

end Sys2Proof.Machine
end

