-- ==== Sys2Proof/Machine/CohOps.lean ====
section
/-! DEFINITION. The directory protocol's operations at the home and at a holder (R152, R165 to R170). -/

namespace Sys2Proof.Machine

open Sys2Proof

/-- Agent numbers: engine e of die d is d * 52 + e, the root-die agents share 416 (R165). -/
def agentNum : Agent → Nat
  | .engine d e => d * 52 + e
  | .root => 416
/-- Whether the agent exists. -/
def agentOk : Agent → Bool
  | .engine d e => decide (d < 8) && decide (e < 52)
  | .root => true
/-- Bit of the sharer vector: engine group 8n + g, or 64 (R97, R165). -/
def sharerBit (a : Nat) : Nat := if a = 416 then 64 else 8 * (a / 52) + a % 52 % 8
/-- Home die of control line o (R152), o counted in 64-byte lines. -/
def lineHome (o : Nat) : Nat := (o ^^^ (o >>> 3) ^^^ (o >>> 6)) % 8
/-- Lines of an agent's control-line cache: 64 KiB for an engine, 16 KiB for the root-die agents (R165). -/
def cacheLines (a : Nat) : Nat := if a = 416 then 256 else 1024
/-- Lines of a device's control space (R152). -/
abbrev ctlLines : Nat := 2 ^ 34

/-- A line at its home. -/
def State.line (s : State) (o : Nat) : HLine := Table.get s.lines {} o
/-- Stores a line. -/
def State.setLine (s : State) (o : Nat) (x : HLine) : State := { s with lines := Table.put s.lines o x }
/-- An agent's copy of a line. -/
def State.cached (s : State) (a o : Nat) : CLine :=
  (s.caches.find? (fun c => c.agent == a && c.line == o)).getD { agent := a, line := o }
/-- Stores an agent's copy; one that holds nothing is not listed. -/
def State.setCached (s : State) (c : CLine) : State :=
  let rest := s.caches.filter (fun y => !(y.agent == c.agent && y.line == c.line))
  if c.st = 0 ∧ c.req = 0 ∧ c.wb.isNone ∧ c.aside.isEmpty then { s with caches := rest } else { s with caches := rest ++ [c] }
/-- Sends a message of the protocol. -/
def State.send (s : State) (m : CohMsg) : State := { s with msgs := s.msgs ++ [m] }
/-- Messages that keep their order (R111): those of one home die to one agent, those of one agent to one home die, and an owner's data to a requester. -/
def CohMsg.lane (m : CohMsg) : Nat × Nat × Nat :=
  (m.agent, lineHome m.line, if 6 ≤ m.kind then 0 else match m.fwd with | some a => if m.kind = 3 then a + 2 else 1 | none => 1)
/-- Takes the first message of a kind for (agent, line), unless one before it in its lane has not arrived (R111). -/
def State.receive (s : State) (kinds : List Nat) (a o : Nat) : Option (CohMsg × State) :=
  match s.msgs.find? (fun m => kinds.contains m.kind && m.agent == a && m.line == o) with
  | some m =>
    if (s.msgs.takeWhile (· != m)).any (fun y => y.lane == m.lane) then none else some (m, { s with msgs := s.msgs.erase m })
  | none => none

/-- Agents of a sharer bit that hold the line or whose fill is on its way: those a snoop to the group reaches. A request that still waits at the home
holds nothing. -/
def State.groupHolders (s : State) (b o : Nat) : List Nat :=
  let waits := fun (a : Nat) => (s.line o).queue.any (fun t => decide (t.kind ≤ 3) && decide (1 ≤ t.kind) && t.agent == a)
  (s.caches.filter (fun c => c.line == o && sharerBit c.agent == b && (c.st != 0 || (c.req != 0 && !waits c.agent)))).map (fun c => c.agent)

/-! ### The device's own objects in control space (R150, R169, R267, R270) -/

/-- Descriptor of a sequence (R267). TABLE_ROOT's place is the device's own. -/
def Seq.minLen (x : Seq) : Nat :=
  let n := x.shape.layers * x.shape.heads
  ((List.range n).map (fun m => Table.get x.lens (64 * x.prefixBlocks) m)).foldl Nat.min (Table.get x.lens (64 * x.prefixBlocks) 0)
/-- Greatest committed length over the pairs (R267). -/
def Seq.maxLen (x : Seq) : Nat := (x.lens.map Prod.snd).foldl Nat.max (64 * x.prefixBlocks)
/-- Height of the block table that reaches the highest block (R270). -/
def Seq.height (x : Seq) : Nat :=
  let top := (x.blocks.map Prod.fst).foldl Nat.max 0
  if top < 2 ^ 9 then 1 else if top < 2 ^ 18 then 2 else if top < 2 ^ 27 then 3 else 4
/-- The FORMAT byte (R267). -/
def shapeFormat (x : Shape) : Nat := x.fmt + 4 * x.dim
/-- The 64 descriptor bytes (R267). -/
def Seq.descriptor (x : Seq) (pinned : Nat) : Bytes :=
  leBytes 4 x.id ++ leBytes 4 x.fabTag ++ leBytes 2 x.shape.layers ++ leBytes 2 x.shape.heads ++ leBytes 1 (shapeFormat x.shape)
    ++ leBytes 1 x.st ++ leBytes 2 (match x.shape.domain with | some d => d | none => 0x8000) ++ leBytes 8 x.minLen
    ++ leBytes 8 x.maxLen
    ++ leBytes 8 (if x.blocks.isEmpty then 0 else Config.tableNode x.fabTag x.id x.height 0 % 2 ^ 40 + (x.height - 1) * 2 ^ 40)
    ++ leBytes 4 x.prefixBlocks ++ leBytes 4 x.ownerEpoch
    ++ leBytes 2 (match x.partner with | some d => d + 2 ^ 15 | none => 0) ++ leBytes 1 x.copy ++ zeros 1 ++ leBytes 4 pinned
    ++ leBytes 8 x.lastUse

/-- Pages of a sequence held pinned (R267). -/
def Seq.pinnedPages (x : Seq) : Nat := x.pins.eraseDups.length

/-- The sequence whose descriptor is a line. -/
def State.lineSeq (s : State) (o : Nat) : Option Seq :=
  (s.seqs.find? (fun e => e.2.line == o && e.2.partnerOf.isNone)).map Prod.snd

/-- Blocks of a sequence's table under a node of a level, as entry and block number. -/
def Seq.nodeBlocks (x : Seq) (level n : Nat) : List Nat := (x.blocks.map Prod.fst).filter (fun b => b / 512 ^ level == n)
/-- Bytes of a node: 64, 512 or 4,096, for the greatest entry used (R270). -/
def Seq.nodeSize (x : Seq) (level n : Nat) : Nat :=
  let top := ((x.nodeBlocks level n).map (fun b => b / 512 ^ (level - 1) % 512)).foldl Nat.max 0
  if top < 8 then 64 else if top < 64 then 512 else 4096
/-- Entry i of a node (R272): of level 1 the block's group; above it, the offset of the node below, whose form the spec does not state. -/
def Seq.nodeEntry (x : Seq) (level n i : Nat) : Nat :=
  if level = 1 then (match Table.find x.blocks (512 * n + i) with | some g => g.1 * 2 ^ 16 + 2 ^ 15 + bool01 g.2 * 2 ^ 14 | none => 0)
  else if (x.nodeBlocks (level - 1) (512 * n + i)).isEmpty then 0
  else Config.tableNode x.fabTag x.id (level - 1) (512 * n + i) % 2 ^ 40
/-- The nodes of a sequence's table, as level and number. -/
def Seq.nodes (x : Seq) : List (Nat × Nat) :=
  (List.range x.height).flatMap (fun k => ((x.blocks.map (fun b => b.1 / 512 ^ (k + 1))).eraseDups).map (fun n => (k + 1, n)))
/-- The 64 bytes of a line of a sequence's block table; none where the line is not of it. -/
def Seq.tableLine (x : Seq) (o : Nat) : Option Bytes :=
  x.nodes.findSome? (fun y =>
    let at_ := Config.tableNode x.fabTag x.id y.1 y.2 % 2 ^ 40 / 64
    if at_ ≤ o ∧ o < at_ + x.nodeSize y.1 y.2 / 64 then some ((List.range 8).flatMap (fun i => leBytes 8 (x.nodeEntry y.1 y.2 ((o - at_) * 8 + i)))) else none)

/-- The object of a tenant at a line, with its bytes: a descriptor, or a part of a block table (R169). -/
def State.lineObj (s : State) (o : Nat) : Option (Nat × Bytes) :=
  match s.lineSeq o with
  | some x => some (x.tenant, x.descriptor x.pinnedPages)
  | none => s.seqs.findSome? (fun e => if e.2.partnerOf.isNone then (e.2.tableLine o).map (fun b => (e.2.tenant, b)) else none)

/-- Line from which the model lays the records that are no tenant's: lease records, the ownership table, prefix entries (R150). DESIGN CHOICE: the spec
states no places. -/
abbrev recordBase : Nat := 2 ^ 33
/-- The record of the device at a line: a lease record, a line of the ownership table, or a prefix entry (R150, R294). -/
def State.recordAt (s : State) (o : Nat) : Option Bytes :=
  if o < recordBase then none
  else
    let i := o - recordBase
    if i < 2048 then (Table.find s.lds i).map (fun d => (Config.leaseImage i d.expiry d.lease d.renewSeq).take 64)
    else if i < 2 ^ 20 then s.fmap.map.map (fun m => (Config.ownerImage m.epoch (i - 2048)).take 64)
    else (s.prefixes.find? (fun e => Config.prefixLine e.key % 2 ^ 32 + 2 ^ 20 == i)).map (fun e => (Config.prefixImage e.key e.gid e.domain).take 64)
/-- The bytes of the device's own object at a line (R150). -/
def State.lineBytes (s : State) (o : Nat) : Option Bytes :=
  match s.lineObj o with | some x => some x.2 | none => s.recordAt o

/-- Logical devices whose view covers a line: those of its object's tenant whose view is not cut (R169); of an object that is gone, of the tenant it was. -/
def State.viewers (s : State) (o : Nat) : List (Nat × Nat) :=
  let t := match s.lineObj o with | some (t, _) => some t | none => (s.line o).tenant
  (s.lds.filter (fun e => t.isSome && !e.2.viewCut && s.ldTenant (e.1 / 16) (e.1 % 16) == t)).map (fun e => (e.1 / 16, e.1 % 16))

/-- BISnpInv to a list of host sharers (R169). -/
def State.biSnoop (s : State) (o : Nat) (hs : List (Nat × Nat)) : State :=
  (hs.foldl (fun (a : State) h => a.emit (.biSnp h.1 h.2 o)) s).bump 0x5100 6 hs.length

/-- The prior value's successor under an atomic of `size` bytes (R154). -/
def atomicNew (op : AtomicOp) (size old operand compare : Nat) : Nat :=
  let m := 2 ^ (8 * size)
  match op with
  | .fetchAdd => (old + operand) % m
  | .swap => operand % m
  | .cas => if old = compare % m then operand % m else old
  | .fetchMin => Nat.min old (operand % m)
  | .fetchMax => Nat.max old (operand % m)

/-- Bytes of a line. -/
def field_ (v : Bytes) (off n : Nat) : Bytes := (v.drop off).take n
/-- A line with a store made in it. -/
def putIn (v : Bytes) (d : LineStore) : Bytes :=
  match d with | some (off, b) => (v.take off ++ b ++ v.drop (off + b.length)).take 64 | none => v
/-- The completion of a peer device's MEM_RD: it goes back in TC1 with the request's tag (R73, R74). -/
def replyTo (k : Packet) (data : Bytes) (poison : Bool) : Packet :=
  { ptype := 3, tc := 1, poison := poison, srcDev := k.dstDev, dstDev := k.srcDev, tenant := k.tenant, tag := k.tag, addr := k.addr, data := data }

/-- Snoops a transaction needs before it is granted (R165, R167, R169). -/
def State.snoopFor (s : State) (o : Nat) (t : Txn) : State :=
  let h := s.line o
  let inval := t.kind = 2 ∨ t.kind = 3 ∨ t.kind = 4 ∨ t.kind = 5 ∨ t.kind = 8
  let fwd : Option Nat := if t.kind = 1 ∨ t.kind = 2 then some t.agent else none
  let owners := match h.owner with | some a => if a = t.agent ∧ (t.kind ≤ 3) then [] else [a] | none => []
  let shr := if inval then (h.sharers.flatMap (fun b => s.groupHolders b o)).filter (fun a => !(decide (t.kind ≤ 3) && a == t.agent)) else []
  let hosts := if !inval then [] else if h.hostOver then s.viewers o else h.hosts
  let s1 := owners.foldl (fun (x : State) a => x.send { kind := if inval then 1 else 2, agent := a, line := o, fwd := fwd }) s
  let s2 := shr.foldl (fun (x : State) a => x.send { kind := 1, agent := a, line := o }) s1
  let s3 := s2.biSnoop o hosts
  let waits := hosts.map (fun x => (x.1, x.2, s.now, s.obj 0x5100 1 * 1000))
  s3.setLine o { s3.line o with txn := some { t with waitAgents := owners ++ shr, waitHosts := waits } }

/-- What a granted transaction does at the home (R155, R163, R167): the grant is the point at which a write becomes visible. -/
def State.grantTxn (s : State) (o : Nat) (t : Txn) : State :=
  let h := s.line o
  let h1 : HLine := { h with txn := none }
  match t.kind with
  | 1 =>
    let own1 := match h.owner with | some a => if a = t.agent then [] else [sharerBit a] | none => []
    let alone := (h.owner.isNone || h.owner == some t.agent) && h.sharers.isEmpty && h.hosts.isEmpty && !h.hostOver
    let h2 := if alone then { h1 with owner := some t.agent }
      else { h1 with owner := none, sharers := (own1 ++ [sharerBit t.agent] ++ h.sharers).eraseDups }
    let s1 := s.setLine o h2
    if t.forwarded then s1.send { kind := 4, agent := t.agent, line := o, st := 1 }
    else s1.send { kind := 3, agent := t.agent, line := o, st := if alone then 2 else 1, val := h.val }
  | 2 =>
    let s1 := s.setLine o { h1 with owner := some t.agent, sharers := [], hosts := [], hostOver := false }
    if t.forwarded then s1.send { kind := 4, agent := t.agent, line := o, st := 3 }
    else s1.send { kind := 3, agent := t.agent, line := o, st := 3, val := h.val }
  | 3 =>
    let s1 := s.setLine o { h1 with owner := some t.agent, sharers := [], hosts := [], hostOver := false }
    if (s.cached t.agent o).st = 1 then s1.send { kind := 4, agent := t.agent, line := o, st := 3 }
    else s1.send { kind := 3, agent := t.agent, line := o, st := 3, val := h.val }
  | 4 =>
    match t.atom with
    | some r =>
      let off := r.addr % 64
      let old := field h.val off r.size
      let v := h.val.take off ++ leBytes r.size (atomicNew r.op r.size old r.operand r.compare) ++ h.val.drop (off + r.size)
      (s.setLine o { h1 with val := v, owner := none, sharers := [], hosts := [], hostOver := false }).atomicReply r
        (leBytes r.size old) false
    | none => s.setLine o h1
  | 5 => s.setLine o { h1 with owner := none, sharers := [], hosts := [], hostOver := false }
  | 7 =>
    let own := match h.owner with | some a => [sharerBit a] | none => []
    let s1 := s.setLine o { h1 with owner := none, sharers := (own ++ h.sharers).eraseDups }
    match t.pkt with
    | some k => s1.emit (.toCore (lineHome o) 61 (replyTo k (field_ h.val (k.addr % 64) k.want) false))
    | none => s1
  | 8 =>
    let v := match t.pkt with | some k => putIn h.val (some (k.addr % 64, k.data)) | none => t.bytes.getD h.val
    s.setLine o { h1 with val := v, owner := none, sharers := [], hosts := [], hostOver := false }
  | _ =>
    match t.view with
    | some (p, l) =>
      let own := match h.owner with | some a => [sharerBit a] | none => []
      let more := !h.hosts.contains (p, l)
      let h2 := { h1 with owner := none, sharers := (own ++ h.sharers).eraseDups,
                          hosts := if more ∧ h.hosts.length < 2 then h.hosts ++ [(p, l)] else h.hosts,
                          hostOver := h.hostOver || (more && decide (2 ≤ h.hosts.length)) }
      (s.setLine o h2).emit (.readCpl p l (o * 64) h.val false)
    | none => s.setLine o h1

/-- Whether the running transaction has every answer. -/
def Txn.ready (t : Txn) : Bool := t.waitAgents.isEmpty && t.waitHosts.isEmpty && t.wbWait.isEmpty

/-- A line makes what progress it can: a ready transaction is granted, the next waiting one starts (R167). -/
def State.runLine (s : State) (o : Nat) : Nat → State
  | 0 => s
  | n + 1 =>
    let h := s.line o
    match h.txn with
    | some t => if t.ready then (s.grantTxn o t).runLine o n else s
    | none =>
      match h.queue with
      | [] => s
      | t :: rest => ((s.setLine o { h with queue := rest }).snoopFor o t).runLine o n

/-- Directory entries of a die that record some copy. -/
def State.dirEntries (s : State) (d : Nat) : List Nat :=
  (s.lines.filter (fun e => lineHome e.1 == d && (e.2.owner.isSome || !e.2.sharers.isEmpty || !e.2.hosts.isEmpty || e.2.hostOver))).map
    Prod.fst

/-- A full directory first evicts an idle entry, invalidating every copy it records (R14, R165): the control cache of 8 MiB holds
131,072 lines. Which entry goes is not stated; the model takes the lowest-numbered idle one. -/
def State.makeRoom (s : State) (o : Nat) : State :=
  let d := s.dirEntries (lineHome o)
  if d.contains o ∨ d.length < 131072 then s
  else
    match d.find? (fun v => (s.line v).txn.isNone) with
    | some v => (({ s with rel := { s.rel with recalls := s.rel.recalls + 1 } }).snoopFor v { kind := 5 }).runLine v 8
    | none => s

/-- A transaction takes its place at its home: it waits behind a running one in order of arrival (R167). -/
def State.queueAt (s : State) (o : Nat) (t : Txn) : State :=
  let s0 := ({ s with rel := { s.rel with txns := s.rel.txns + 1 } }).makeRoom o
  let h := s0.line o
  (s0.setLine o { h with queue := h.queue ++ [t] }).runLine o (4 * (h.queue.length + 2))

/-- The object at a line is as the device last wrote it; where it has changed, the device writes it anew: every copy, and every host view, is
invalidated first (R162, R163, R169). -/
def State.freshLine (s : State) (o : Nat) (v : Bytes) : State :=
  let h := s.line o
  let t := match s.lineObj o with | some x => some x.1 | none => h.tenant
  if h.obj = some v then s
  else if h.owner.isNone ∧ h.sharers = [] ∧ h.hosts = [] ∧ !h.hostOver ∧ h.txn.isNone ∧ h.queue = [] then
    s.setLine o { h with val := v, obj := some v, tenant := t }
  else (s.setLine o { h with obj := some v, tenant := t }).queueAt o { kind := 8, bytes := some v }
/-- A line's object as it now is, written where it has changed; one that is gone leaves zeros (R150, R151, R169). -/
def State.bringLine (s : State) (o : Nat) : State :=
  match s.lineBytes o with
  | some v => s.freshLine o v
  | none => if (s.line o).obj.isSome then s.freshLine o (zeros 64) else s
/-- Lines that have held an object of the device, where the object has changed since. -/
def State.freshViews (s : State) : State :=
  (s.lines.filter (fun e => e.2.obj.isSome)).foldl (fun (a : State) e => a.bringLine e.1) s
/-- Whether a write of the device to one of its objects is not yet visible to every observer (R162). -/
def State.unseen (s : State) : Bool :=
  s.lines.any (fun e => (match e.2.txn with | some t => t.bytes.isSome | none => false) || e.2.queue.any (fun t => t.bytes.isSome))

/-- A transaction arrives at its home, after what the device has written there before (R151, R167). -/
def State.atHome (s : State) (o : Nat) (t : Txn) : State := (s.bringLine o).queueAt o t

/-- An answer of agent a is counted at the home; `v` is data it brings. -/
def State.answered (s : State) (a o : Nat) (v : Option Bytes) (fwd : Bool) : State :=
  let h := s.line o
  match h.txn with
  | none => s
  | some t =>
    let t1 := { t with waitAgents := t.waitAgents.erase a, forwarded := t.forwarded || fwd }
    (s.setLine o { h with txn := some t1, val := v.getD h.val }).runLine o (4 * (h.queue.length + 2))

/-! ### Accesses of a thread context, and fences (R163, R164) -/

/-- The agent and context of a source of control-class accesses. -/
def sourceCtx : Source → Option (Nat × Nat)
  | .engine e c => some (e, c)
  | .root => some (416, 0)
  | _ => none
/-- Whether a request for a line is of a source: of its context, or of any root-die agent. -/
def CLine.isOf (c : CLine) (a ctx : Nat) : Bool := c.agent == a && (a == 416 || c.ctx == ctx)
/-- Whether a fence holds back the accesses of a context (R164). -/
def State.fenced (s : State) (a ctx : Nat) : Bool :=
  s.fences.any (fun f => match sourceCtx f.src with | some (b, c) => b == a && (a == 416 || c == ctx) | none => false)
/-- A fence as it is issued: it waits for the requests of its context that are out, and for SYSTEM for its accesses to the control space of other
devices (R164). -/
def State.newFence (s : State) (src : Source) (sc : Scope) : Fence :=
  match sourceCtx src with
  | some (a, ctx) =>
    { src := src, scope := sc, lines := (s.caches.filter (fun c => c.isOf a ctx && c.req != 0)).map (fun c => c.line),
      tags := match sc with | .system => (s.remote.filter (fun r => r.src == src && r.ctl)).map (fun r => r.tag) | _ => [] }
  | none => { src := src, scope := sc }
/-- Whether a fence's earlier accesses are performed (R164): the agent has what it asked for, which for a write the home grants once every invalidation
is acknowledged; its atomics here are done, of which none comes after a fence that waits; and the remote accesses have completed at their homes. -/
def State.fenceMet (s : State) (f : Fence) : Bool :=
  let a := match sourceCtx f.src with | some x => x.1 | none => 0
  let atom := fun (t : Txn) => match t.atom with | some r => r.src == f.src | none => false
  !f.lines.any (fun o => (s.cached a o).req != 0) && !f.tags.any (fun n => s.remote.any (fun r => r.tag == n))
    && !s.lines.any (fun e => (match e.2.txn with | some t => atom t | none => false) || e.2.queue.any atom)
/-- Waiting fences that are now met complete; one before which a remote access was lost reports it. -/
def State.settleFences (s : State) : State :=
  let done := s.fences.filter s.fenceMet
  { s with
    fences := s.fences.filter (fun f => !s.fenceMet f),
    out := s.out ++ done.flatMap (fun f => (if f.lost then [.fenceLost f.src] else []) ++ [.fenceDone f.src]) }

/-- Room in an agent's cache for one more line (R165): a clean copy is dropped without a message (R166), the one held longest, which the spec does not
name; none where every line is modified or in flight. -/
def State.cacheRoom (s : State) (a o : Nat) : Option State :=
  let held := s.caches.filter (fun c => c.agent == a && c.line != o && (c.st != 0 || c.req != 0))
  if held.length < cacheLines a then some s
  else (held.find? (fun c => (c.st == 1 || c.st == 2) && c.req == 0)).map (fun c => s.setCached { agent := a, line := c.line, wb := c.wb })

end Sys2Proof.Machine
end

