-- ==== Sys2Proof/Machine/Coherence.lean ====
section
/-! DEFINITION. Commands of the directory protocol, host views and fences (R152 to R171). -/

namespace Sys2Proof.Machine

open Sys2Proof

/-- A request of a context for a line may go out: no earlier fence of the context waits, and the agent neither holds the line modified nor has it
underway. A copy in E or S is then one dropped without a message (R164, R166). -/
def State.mayAsk (s : State) (a : Agent) (line ctx : Nat) : Bool :=
  let c := s.cached (agentNum a) line
  agentOk a && decide (line < ctlLines) && !s.fenced (agentNum a) ctx && c.st != 3 && c.req == 0 && c.wb.isNone

/-- A request reaches its home, from an agent with room for the line. -/
def State.askLine (s : State) (a : Agent) (line ctx kind : Nat) (store : LineStore) : State :=
  let n := agentNum a
  if s.mayAsk a line ctx then
    match s.cacheRoom n line with
    | some s1 => (s1.setCached { s1.cached n line with st := 0, val := [], req := kind, ctx := ctx, due := store }).atHome line { kind := kind, agent := n }
    | none => s
  else s

/-- RdShared reaches its home (R167), in TC2. -/
def execRdShared (a : Agent) (r : LineRead) (s : State) : Res := .next (s.askLine a r.line r.ctx 1 none)

/-- RdOwn reaches its home (R167), in TC2, for a store of its context (R163). -/
def execRdOwn (a : Agent) (r : LineOwn) (s : State) : Res := .next (s.askLine a r.line r.ctx 2 r.store)

/-- Upgrade of an S copy reaches its home (R167), in TC2. -/
def execUpgrade (a : Agent) (r : LineOwn) (s : State) : Res :=
  let c := s.cached (agentNum a) r.line
  if agentOk a ∧ r.line < ctlLines ∧ !s.fenced (agentNum a) r.ctx ∧ c.st = 1 ∧ c.req = 0 then
    .next ((s.setCached { c with req := 3, ctx := r.ctx, due := r.store }).atHome r.line { kind := 3, agent := (agentNum a) })
  else .next s

/-- WB (R166 to R168), in TC3. Of a line in M, or in E to which its context has stored: it leaves for the home, data kept until WB_ACK, at most 4 on
their way per agent. Of a line whose WB is on its way: it arrives, is taken, used where the home waits for it, and acknowledged. -/
def execWb (a : Agent) (r : LineBack) (s : State) : Res :=
  let line := r.line
  let n := (agentNum a)
  let c := s.cached n line
  match c.wb with
  | none =>
    if agentOk a ∧ (c.st = 3 ∨ (c.st = 2 ∧ r.store.isSome)) ∧ c.req = 0 ∧ (s.caches.filter (fun y => y.agent == n && y.wb.isSome)).length < 4 then
      .next (s.setCached { c with st := 0, wb := some (putIn c.val r.store), val := [] })
    else .next s
  | some v =>
    let h := s.line line
    if s.msgs.any (fun m => m.kind == 5 && m.agent == n && m.line == line) ∨ h.wbs.any (fun w => w.1 == n) then .next s
    else
      match h.txn with
      | some t =>
        if t.wbWait.contains n then
          let s1 := s.setLine line { h with val := v, txn := some { t with wbWait := t.wbWait.erase n } }
          .next ((s1.runLine line (4 * (h.queue.length + 2))).send { kind := 5, agent := n, line := line }).settleFences
        else .next (s.setLine line { h with wbs := h.wbs ++ [(n, v)] })
      | none =>
        let s1 := s.setLine line { h with val := v, owner := if h.owner = some n then none else h.owner }
        .next (s1.send { kind := 5, agent := n, line := line })

/-- A snoop answered by a holder: its copy afterwards, and the messages (R167, R168). `inv`: SnpInv, else SnpData. DESIGN CHOICE: a modified line's data
goes to the home in RspFwd (kind 8) where the snoop names no requester, since R166 names no message for it. -/
def State.answerSnoop (s : State) (c : CLine) (inv : Bool) (fwd : Option Nat) : State :=
  let keep : Nat := if inv then 0 else if c.st = 0 then 0 else 1
  let home := fun (k : Nat) (v : Bytes) => ({ kind := k, agent := c.agent, line := c.line, val := v } : CohMsg)
  if c.wb.isSome then s.send (home 9 [])
  else if c.req = 1 ∨ c.req = 2 then s.setCached { c with aside := c.aside ++ [(inv, fwd)] }
  else
    let s1 := s.setCached { c with st := keep, val := if keep = 0 then [] else c.val }
    match fwd with
    | some b =>
      if c.st = 2 ∨ c.st = 3 then
        (s1.send { kind := 3, agent := b, line := c.line, fwd := some c.agent, st := if inv then 3 else 1, val := c.val }).send (home 8 c.val)
      else s1.send (home 6 [])
    | none => if c.st = 3 then s1.send (home 8 c.val) else if keep = 1 then s1.send (home 7 []) else s1.send (home 6 [])

/-- A holder receives SnpInv (R167, R168). -/
def execSnpInv (a : Agent) (line : Nat) (s : State) : Res :=
  match s.receive [1] (agentNum a) line with
  | some (m, s1) => .next (s1.answerSnoop (s1.cached (agentNum a) line) true m.fwd)
  | none => .next s

/-- A holder receives SnpData (R167). -/
def execSnpData (a : Agent) (line : Nat) (s : State) : Res :=
  match s.receive [2] (agentNum a) line with
  | some (m, s1) => .next (s1.answerSnoop (s1.cached (agentNum a) line) false m.fwd)
  | none => .next s

/-- The home receives RspI, RspS or RspFwd of agent a (R167). -/
def execSnoopResponse (a : Agent) (line : Nat) (rsp : SnpRsp) (s : State) : Res :=
  let k := match rsp with | .rspI => 6 | .rspS => 7 | .rspFwd => 8
  match s.receive [k] (agentNum a) line with
  | some (m, s1) =>
    let named := match (s1.line line).txn with | some t => decide (t.kind = 1 ∨ t.kind = 2) | none => false
    .next (s1.answered (agentNum a) line (if k = 8 then some m.val else none) (k == 8 && named)).settleFences
  | none => .next s

/-- The home receives WB_PENDING: it waits for the WB, or uses one it has (R168). -/
def execWbPending (a : Agent) (line : Nat) (s : State) : Res :=
  match s.receive [9] (agentNum a) line with
  | none => .next s
  | some (_, s1) =>
    let s2 := s1.bump 0x5100 4 1
    let h := s2.line line
    match h.txn, h.wbs.find? (fun w => w.1 == (agentNum a)) with
    | some t, some w =>
      let s3 := s2.setLine line { h with wbs := h.wbs.filter (fun y => y.1 != (agentNum a)), txn := some t }
      .next ((s3.answered (agentNum a) line (some w.2) false).send { kind := 5, agent := (agentNum a), line := line }).settleFences
    | some t, none =>
      .next (s2.setLine line { h with txn := some { t with waitAgents := t.waitAgents.erase (agentNum a), wbWait := t.wbWait ++ [(agentNum a)] } })
    | none, _ => .next s2

/-- Snoops a requester set aside are answered after its fill, in order (R167). -/
def State.answerAside (s : State) (a o : Nat) : List (Bool × Option Nat) → State
  | [] => s
  | x :: t => (s.answerSnoop (s.cached a o) x.1 x.2).answerAside a o t

/-- A requester receives line data, its completion, or both: its context has read the line and makes its store, and then it answers what it set aside
(R163, R167). Data sent by an owner waits for the home's Cmp to complete the transaction. -/
def execDataCmp (a : Agent) (line : Nat) (s : State) : Res :=
  match s.receive [3, 4] (agentNum a) line with
  | none => .next s
  | some (m, s1) =>
    let c := s1.cached (agentNum a) line
    if m.kind = 3 ∧ m.fwd.isSome then .next (s1.setCached { c with val := m.val })
    else
      let v := if m.kind = 3 then m.val else c.val
      let c1 := { c with st := m.st, val := if m.st = 3 then putIn v c.due else v, req := 0, due := none, aside := [] }
      .next ((((s1.setCached c1).emit (.lineRead (agentNum a) c.ctx line v)).answerAside (agentNum a) line c.aside).settleFences)

/-- A former owner receives WB_ACK and drops the data (R168). -/
def execWbAck (a : Agent) (line : Nat) (s : State) : Res :=
  match s.receive [5] (agentNum a) line with
  | some (_, s1) => .next ((s1.setCached { s1.cached (agentNum a) line with wb := none }).settleFences)
  | none => .next s

/-- A host's BIRsp reaches the home; of a cut view it is discarded (R169, R170). -/
def execBirsp (p l line : Nat) (s0 : State) : Res :=
  let s := s0.tc0Gate p
  if (s.ld p l).viewCut then .next s
  else
    let h := s.line line
    match h.txn with
    | some t =>
      match t.waitHosts.find? (fun w => w.1 == p && w.2.1 == l) with
      | some w =>
        let s1 := (s.setLine line { h with txn := some { t with waitHosts := t.waitHosts.erase w } }).sample 12
          (s.now - w.2.2.1) { flex := some p }
        .next (s1.runLine line (4 * (h.queue.length + 2))).settleFences
      | none => .next s
    | none => .next s

/-- No BIRsp after BI_TIMEOUT: the home proceeds, the view is cut (R170). -/
def execBiTimeout (p l line : Nat) (s : State) : Res :=
  let h := s.line line
  match h.txn with
  | some t =>
    match t.waitHosts.find? (fun w => w.1 == p && w.2.1 == l) with
    | some w =>
      let s1 := (s.atTime (w.2.2.1 + w.2.2.2)).setLine line { h with txn := some { t with waitHosts := t.waitHosts.erase w } }
      let s2 := ((s1.setLd p l { s1.ld p l with viewCut := true }).sample 12 w.2.2.2 { flex := some p }).flag 0x5100 2 0
      .next (s2.runLine line (4 * (h.queue.length + 2))).settleFences
    | none => .next s
  | none => .next s

/-- What a view of tenant t decodes at a line: an object of its own, nothing elsewhere (R169). -/
def State.viewValue (s : State) (t o : Nat) : Option Bytes := (s.lineObj o).bind (fun x => if x.1 = t then some x.2 else none)

/-- A host reads a line of its view: poison where it is cut; the line's value, recording the sharer; or zeros (R169, R170). -/
def execViewRead (p l line : Nat) (s : State) : Res :=
  if !s.hostUp p ∨ !s.ldOn p l then .next s
  else if (s.ld p l).viewCut then .next (s.emit (.readCpl p l (line * 64) [] true))
  else
    match s.ldTenant p l with
    | none => .next (s.emit (.readCpl p l (line * 64) (zeros 64) false))
    | some t =>
      match s.viewValue t line with
      | none => .next (s.emit (.readCpl p l (line * 64) (zeros 64) false))
      | some _ => .next (s.atHome line { kind := 6, view := some (p, l) })

/-- VIEW_RESTORE restores a cut view (R170). -/
def State.viewRestoreOp (s : State) (v : Nat) : Nat × State :=
  if v ≥ 2048 then (rcBadValue, s)
  else
    let p := v / 16
    let l := v % 16
    (rcOK, if (s.ld p l).viewCut then s.setLd p l { s.ld p l with viewCut := false } else s)

/-- VIEW_RESTORE (R170). -/
def execViewRestore (sid value : Nat) (s : State) : Res :=
  .next (s.sessionWrite sid 0x5100 5 false (fun t => t.viewRestoreOp value))

/-- A fence: done once the earlier accesses of its context meet its scope (R164). -/
def execFence (src : Source) (scope : Scope) (s : State) : Res :=
  .next ({ s with fences := s.fences ++ [s.newFence src scope] }.settleFences)

end Sys2Proof.Machine
end

