-- ==== Sys2Proof/Machine/Pool.lean ====
section
/-! DEFINITION. Commands on extents, leases and donors (R118 to R148). -/

namespace Sys2Proof.Machine

open Sys2Proof

/-- ALLOC (R123). -/
def execAlloc (sid : Nat) (blob : Bytes) (s : State) : Res :=
  .next (s.sessionWrite sid 0x5010 1 false (fun t => t.allocOp blob))

/-- The host accepts an offered slot: the extent is GRANTED, or UNREACHABLE while its home is out; the first grant starts a
lease (R123, R125, R127, R145). An offer that was declined, withdrawn or has lapsed is refused (R123, R135). -/
def execExtentAccept (p l slot : Nat) (s : State) : Res :=
  match s.slotExt p l slot with
  | some (e, x, 1, _) =>
    let first := s.heldCount p l = 0 ∨ s.leaseState p l = 0 ∨ s.leaseState p l = 3
    let s1 := if x.st = 1 ∧ x.holder = some (p, l)
      then s.setExt e { x with st := if s.extHomeUp x then 2 else 7 }
      else s.setExt e { x with maps := x.maps.map (fun m => if m.p = p ∧ m.l = l ∧ m.slot = slot then { m with st := 2 } else m) }
    .next ((if first then s1.renew p l else s1).emit (.dcReply p l slot true))
  | _ => .next (s.emit (.dcReply p l slot false))

/-- An offer not accepted within OFFER_TIMEOUT returns to FREE without a scrub (R123); with a lapsed offer of a shared version its last hold may end
(R142). -/
def execOfferTimeout (eid : Nat) (s : State) : Res :=
  match Table.find s.extents eid with
  | some x =>
    let due := fun at_ => at_ + s.obj 0x5000 3 * 1000000
    if x.st = 1 then .next ((s.atTime (due x.offeredAt)).freeExt eid x)
    else
      match x.maps.find? (fun m => m.st == 1) with
      | some m => .next ((s.atTime (due m.at_)).setExt eid { x with maps := x.maps.filter (fun y => y != m) }).dropUnheld
      | none => .next s
  | none => .next s

/-- Release Dynamic Capacity: an offer is declined, a granted extent drains, a FAILED one loses its holder (R123, R135, R146). Of a shared version, one
logical device's hold ends (R142, R143). A release that finds nothing to release succeeds and changes nothing (R135). -/
def execReleaseDynamicCapacity (p l slot : Nat) (s0 : State) : Res :=
  let s := s0.emit (.dcReply p l slot true)
  match s.slotExt p l slot with
  | none => .next s
  | some (e, x, _, _) =>
    if x.holder = some (p, l) ∧ x.slot = slot then
      if x.set.isSome ∧ (x.st = 2 ∨ x.st = 7 ∨ !x.maps.isEmpty) then
        .next (s.leaveVersion e x (fun h m => h == some (m.1, m.2.1) && m == (p, l, slot))).dropUnheld
      else
        match x.st with
        | 1 => .next (s.freeExt e x)
        | 2 => .next (s.toDrain e x none)
        | 6 => .next (s.toFailed e x)
        | _ => .next (s.toScrub e x)
    else
      .next (s.leaveVersion e x (fun _ m => m == (p, l, slot))).dropUnheld

/-- REVOKE_EXTENT (R132). -/
def execRevokeExtent (sid eid : Nat) (s : State) : Res :=
  .next (s.sessionWrite sid 0x5010 2 false (fun t => if eid < 2 ^ 20 then t.revokeOp eid else (rcBadValue, t)))

/-- Every access admitted before the revoke has completed, and a peer holder has confirmed: the notices go out and the scrub starts (R132, R133). -/
def execDrainComplete (eid : Nat) (s : State) : Res :=
  match Table.find s.extents eid with
  | some x =>
    if x.st = 3 ∧ !s.outstanding eid ∧ x.confirm.isNone then .next ((s.revokeNotice x).toScrub eid x)
    else .next s
  | none => .next s

/-- An access is still outstanding after DRAIN_LIMIT: QUARANTINED (R134). -/
def execDrainTimeout (eid : Nat) (s : State) : Res :=
  match Table.find s.extents eid with
  | some x =>
    if x.st = 3 ∧ s.outstanding eid ∧ x.confirm.isNone then
      let s1 := s.atTime (x.drainAt + s.obj 0x5000 2 * 1000)
      .next (((s1.revokeNotice x).setExt eid { x with st := 4, notice := none }).flag 0x5000 8 1)
    else .next s
  | none => .next s

/-- The stuck accesses have completed, or the tray port was reset: the scrub starts (R134). -/
def execQuarantineRelease (eid : Nat) (s : State) : Res :=
  match Table.find s.extents eid with
  | some x =>
    if x.st = 4 ∧ !s.outstanding eid then .next (s.toScrub eid x) else .next s
  | none => .next s

/-- An extent whose scrub has run: zero at every byte, and FREE (R124). -/
def State.scrubbed (s : State) (eid : Nat) (x : Extent) : State :=
  let inExt := fun a => decide (x.base ≤ a) && decide (a < x.base + Config.extentBytes)
  let s1 : State := { s with mem := memClear s.mem x.base Config.extentBytes, poison := s.poison.filter (fun r => !inExt r.1) }
  s1.setExt eid x.freed

/-- The scrub ends: the extent reads zero and is FREE (R124). -/
def execScrubComplete (eid : Nat) (s : State) : Res :=
  match Table.find s.extents eid with
  | some x =>
    if x.st = 5 ∧ x.scrubbing ∧ !x.testing then
      .next (s.scrubbed eid x)
    else .next s
  | none => .next s

/-- A write of LEASE_DOORBELL, `size` bytes wide (R125 to R127): discarded while the logical device is disabled, where it is not
8 bytes, and once E + 1 s has passed. -/
def State.doorbell (s : State) (p l value size : Nat) : State :=
  let d := s.ld p l
  if size ≠ 8 ∨ !s.ldOn p l then s
  else
    match d.lease, d.expiry with
    | 1, some e =>
      if s.now < e + 1000000000 then
        let s1 := s.renew p l
        s1.setLd p l { s1.ld p l with renewSeq := value % 65536 }
      else s
    | _, _ => s

/-- LEASE_DOORBELL (R102, R125 to R127). -/
def execLeaseDoorbell (p l value size : Nat) (s : State) : Res := .next ((s.tc0Gate p).doorbell p l value size)

/-- Fabric time E: the lease enters GRACE, and MSI-X 64 goes out where the event ring is enabled with MSIX_EN (R127). -/
def execLeaseGrace (p l : Nat) (s : State) : Res :=
  let d := s.ld p l
  match d.lease, d.expiry with
  | 1, some e =>
    if d.graced then .next s
    else
      let s1 := ((s.atTime e).setLd p l { d with graced := true }).ldFlag p l 0
      .next (if d.eq.on && d.eq.msix then s1.emit (.msix p l 64) else s1)
  | _, _ => .next s

/-- Fabric time E + 1 s: EXPIRED, every extent revoked and every offer withdrawn (R127, R132). -/
def execLeaseExpired (p l : Nat) (s : State) : Res :=
  let d := s.ld p l
  match d.lease, d.expiry with
  | 1, some e =>
    let s1 := s.atTime (e + 1000000000)
    .next (((s1.setLd p l { d with lease := 3 }).ldFlag p l 1).revokeAll p l true true)
  | _, _ => .next s

/-- When the path to a device has been lost for a LEASE_TERM in ms and 1 s; none while it stands (R129). -/
def State.loanDue (s : State) (dev term : Nat) : Option Nat :=
  if s.reaches dev then none else (Table.find s.fmap.lostAt dev).map (fun t => t + term * 1000000 + 1000000000)

/-- The backing device has no path to a lent extent's holder for LEASE_TERM + 1 s: it reclaims the extent through DRAINING and SCRUBBING, and waits for no
confirmation any more (R129). One that is FAILED loses its holder (R146). -/
def execLentPathLoss (eid : Nat) (s : State) : Res :=
  match Table.find s.extents eid with
  | some x =>
    match x.lent.bind (fun v => s.loanDue v x.term) with
    | some due =>
      let s1 := s.atTime due
      if x.st = 6 then .next (s1.setExt eid { x with lent := none, confirm := none })
      else if x.st = 2 ∨ x.st = 7 ∨ x.confirm.isSome then
        .next (s1.setExt eid { x with st := 3, lent := none, confirm := none, drainAt := s1.now, notice := none })
      else .next s
    | none => .next s
  | none => .next s

/-- A host write to the HDM-DB region is discarded with an error completion (R64). -/
def execHdmDbWrite (p l addr : Nat) (s : State) : Res :=
  if s.hostUp p then .next (s.emit (.writeCpl p l addr true)) else .next s

/-- A region index no donor uses (R118); none while all 4,096 are in use. -/
def State.freeRegion (s : State) : Option Nat :=
  let used := s.lds.flatMap (fun e => (e.2.donors.filter (fun d => d.st == 1 || d.st == 2)).map (fun d => d.region))
  (List.range 4096).find? (fun i => !used.contains i)

/-- OFFER in donor slot i: IN_USE with a region index, or REFUSED (R137). DESIGN CHOICE: a length of 0, a base that is not 2 MiB-aligned and an offer while
every region index is in use are also REFUSED, of which R137 says nothing. -/
def State.donorOffer (s : State) (p l i : Nat) : State :=
  let d := s.ld p l
  match d.donors[i]? with
  | none => s
  | some x =>
    if !s.hostUp p ∨ (x.st ≠ 0 ∧ x.st ≠ 3) then s
    else
      let rights : Bool := match s.ldTenant p l with | some t => s.right t 7 | none => false
      let good := decide (x.len % 2 ^ 21 = 0 ∧ 0 < x.len ∧ x.len ≤ 2 ^ 40 ∧ x.base % 2 ^ 21 = 0)
      let region := if s.obj 0x5030 1 = 1 ∧ rights ∧ good then s.freeRegion else none
      match region with
      | some r => s.setLd p l { d with donors := d.donors.set i { x with st := 1, region := r, since := s.now } }
      | none => s.setLd p l { d with donors := d.donors.set i { x with st := 4 } }

/-- OFFER (R137). -/
def execDonorOffer (p l i : Nat) (s : State) : Res := .next (s.donorOffer p l i)

/-- Copies in a donor region are dropped (R138, R285); a read of one that is under way is discarded when it fails. -/
def State.dropRegion (s : State) (region : Nat) : State :=
  { s with groups := s.groups.map (fun g => (g.1, { g.2 with pages := g.2.pages.map (fun y =>
      if y.2.t3.map PCopy.place = some region then (y.1, { y.2 with t3 := none, gone3 := some region }) else y) })) }

/-- No read of a region is under way any more. -/
def State.forgetRegion (s : State) (region : Nat) : State :=
  { s with groups := s.groups.map (fun g => (g.1, { g.2 with pages := g.2.pages.map (fun y =>
      if y.2.gone3 = some region then (y.1, { y.2 with gone3 := none }) else y) })) }

/-- REVOKE in donor slot i: REVOKING, no new DMA (R138). -/
def State.donorRevoke (s : State) (p l i : Nat) : State :=
  let d := s.ld p l
  match d.donors[i]? with
  | some x =>
    if x.st = 1 then
      (s.setLd p l { d with donors := d.donors.set i { x with st := 2, since := s.now } }).dropRegion x.region
    else s
  | none => s

/-- REVOKE (R138). -/
def execDonorRevoke (p l i : Nat) (s : State) : Res := .next (s.donorRevoke p l i)

/-- The DMA issued before the REVOKE is over, or 100 µs have passed: RELEASED (R138). -/
def execDonorReleased (p l i : Nat) (s : State) : Res :=
  let d := s.ld p l
  match d.donors[i]? with
  | some x =>
    if x.st = 2 then .next ((s.setLd p l { d with donors := d.donors.set i { x with st := 3 } }).forgetRegion x.region) else .next s
  | none => .next s

/-- A donor's port goes down: every region of the port is dropped at once (R138). -/
def State.dropDonors (s : State) (p : Nat) : State :=
  (List.range 16).foldl (fun (a : State) l =>
    let d := a.ld p l
    let live := d.donors.filter (fun x => x.st == 1 || x.st == 2)
    if live.isEmpty then a
    else (live.foldl (fun (b : State) x => b.dropRegion x.region) a).setLd p l
      { d with donors := d.donors.map (fun x => if x.st = 1 ∨ x.st = 2 then { x with st := 3 } else x) }) s

/-- See `State.dropDonors`; the event stands only while the port is in fact down. -/
def execDonorPortDown (p : Nat) (s : State) : Res := .next (if s.hostUp p then s else s.dropDonors p)

/-- Backing fails: a tray leaves the pool, an HBM region or a lent extent's backing is lost (R66, R143). -/
def State.trayFail (s : State) (p : Nat) : State :=
  let s1 := (((s.setFlex p { s.flexP p with failed := true }).flag (0x3000 + 8 * p) 5 4).flag 0x5000 8 0)
  s1.extents.foldl (fun (a : State) e => if onTray p e.2 then a.failExt e.1 else a) s1

/-- BACKING_FAILURE (R143): a lent extent's backing is lost once no path to its device has stood for LEASE_TERM + 1 s (R129). -/
def execBackingFailure (b : Backing) (s : State) : Res :=
  match b with
  | .tray p => .next (if s.role p = 2 ∨ s.role p = 3 then s.trayFail p else s)
  | .hbm e => .next (match Table.find s.extents e with | some x => if x.isHbm then s.failExt e else s | none => s)
  | .lent e =>
    match Table.find s.extents e with
    | some x =>
      match x.away.bind (fun v => s.loanDue v (match x.mapped.head? with | some (p, l, _) => s.ldObj p l 3 | none => 0)) with
      | some due => .next ((s.atTime due).failExt e)
      | none => .next s
    | none => .next s

/-- A control copy of a logical device's records is lost: rebuilt from the other, or, with both lost, the logical device goes
offline (R144). -/
def execCtlCopyLoss (p l : Nat) (second : Bool) (s : State) : Res :=
  if !second then .next (s.flag 0x5000 8 2)
  else
    let d := s.ld p l
    let stopped : Table SRing := d.rings.map (fun r => (r.1, { r.2 with st := 0 }))
    let s1 := (s.setLd p l { d with offline := true, lease := 0, expiry := none, rings := stopped }).emit (.aerFatal p l)
    let s2 := (s1.revokeAll p l false false)
    let s3 := (s2.cmds.filter (fun e => e.2.p == p && e.2.l == l)).foldl (fun (a : State) e => a.failCmd e.1 stFault 0x20) s2
    .next ((s3.ldFlag p l 4).flag 0x5000 8 3)

/-- REPAIR_BACKING (R146). -/
def execRepairBacking (sid value : Nat) (s : State) : Res :=
  .next (s.sessionWrite sid 0x5010 5 false (fun t =>
    if value &&& 0x7FF00000 ≠ 0 ∨ value ≥ 2 ^ 32 then (rcBadValue, t) else t.repairOp value))

/-- The test and scrub of a named extent end: FREE, or FAILED again with REPAIR_FAILED (R146). -/
def execRepairTestComplete (eid : Nat) (ok : Bool) (s : State) : Res :=
  match Table.find s.extents eid with
  | some x =>
    if x.st = 5 ∧ x.testing then
      if ok then .next (s.scrubbed eid x)
      else .next ((s.setExt eid { x.freed with st := 6 }).flag 0x5000 8 4)
    else .next s
  | none => .next s

end Sys2Proof.Machine
end

