-- ==== Sys2Proof/Machine/Rings.lean ====
section
/-! DEFINITION. Commands on the ring registers (R190 to R195). -/

namespace Sys2Proof.Machine

open Sys2Proof

/-- A write of SQ_TAIL (R193): a bad value breaks the ring; a ring that is not RUNNING takes no doorbell. -/
def State.sqTailOp (s : State) (p l r v : Nat) : State :=
  let x := (s.ld p l).ring r
  if x.st ≠ 1 ∨ r ≥ 64 then s
  else if v % 64 ≠ 0 ∨ v ≥ x.size then s.breakRing p l r 0x10
  else s.setRing p l r { x with tail := v }

/-- Sizes of the enabled submission rings of a logical device (R192). -/
def Ld.sqBytes (d : Ld) : Nat := ((d.rings.filter (fun e => e.2.enabled)).map (fun e => e.2.size)).foldl (· + ·) 0

/-- ENABLE = 1 (R193). A BROKEN ring is recovered by ENABLE = 0 first. -/
def State.sqEnableOp (s : State) (p l r : Nat) : State :=
  let d := s.ld p l
  let x := d.ring r
  if r ≥ 64 ∨ d.offline ∨ x.enabled then s
  else if !(d.cq x.cqNo).on then s.setRing p l r { x with reason := 0x13 }
  else if d.sqBytes + x.size > 16 * 2 ^ 20 then s.setRing p l r { x with reason := 0x14 }
  else s.setRing p l r { x with st := 1, reason := 0, head := 0, tail := 0, lostApps := [], deficit := 0, topped := false }

/-- ENABLE = 0 (R193): DRAINING until every record is written. -/
def State.sqDisableOp (s : State) (p l r : Nat) : State :=
  let x := (s.ld p l).ring r
  if x.st = 0 then s
  else if s.ringOwed p l r = 0 then s.setRing p l r { x with st := 0 }
  else s.setRing p l r { x with st := 2 }

/-- A write of SQ_CFG (R191): discarded while the ring is enabled, and where WEIGHT or SIZE_LOG2 is out of range. -/
def State.sqCfgOp (s : State) (p l r v : Nat) : State :=
  let x := (s.ld p l).ring r
  if x.enabled ∨ v % 32 < 16 ∨ v % 32 > 20 ∨ bits v 15 8 = 0 ∨ bits v 15 8 > 16 then s
  else s.setRing p l r { x with cfg := v &&& 0x3FFF1F }

/-- A write of CQ_CFG (R191, R193): SIZE_LOG2 out of range discards it, and so does clearing ENABLE while an enabled ring names
the completion ring or a record is owed. A write to an enabled ring changes MSIX_EN only. -/
def State.cqCfgOp (s : State) (p l r v : Nat) : State :=
  let d := s.ld p l
  let q := d.cq r
  let named := d.rings.any (fun e => e.2.enabled && e.2.cqNo == r) || s.cmds.any (fun e => e.2.p == p && e.2.l == l && e.2.cq == r)
  if r ≥ 64 then s
  else if bit v 16 then
    if q.on then s.setCq p l r { q with cfg := (if bit v 8 then setBit q.cfg 8 else clearBit q.cfg 8) }
    else if v % 32 < 6 ∨ v % 32 > 16 then s
    else s.setCq p l r { base := q.base, cfg := v &&& 0x1011F, reserved := q.reserved }
  else if q.on ∧ named then s
  else s.setCq p l r { q with cfg := v &&& 0x1011F }

/-- A write of CQ_BASE, 4 KiB aligned; not taken while the ring is enabled (R191). -/
def State.cqBaseOp (s : State) (p l r v : Nat) : State :=
  let q := (s.ld p l).cq r
  if q.on then s else s.setCq p l r { q with base := v / 4096 * 4096 }

/-- Whether CQ_HEAD may take a value: among the entries written and not yet released (R194). -/
def CRing.headOk (q : CRing) (v : Nat) : Bool := decide (v < q.size) && decide ((v + q.size - q.head) % q.size ≤ q.unread)

/-- A write of CQ_HEAD (R194). -/
def State.cqHeadOp (s : State) (p l r v : Nat) : State :=
  let q := (s.ld p l).cq r
  if q.on ∧ q.headOk v then s.setCq p l r { q with head := v } else s

/-- A write of EQ_HEAD (R195): clears OVERFLOW, and held records are written. -/
def State.eqHeadOp (s : State) (p l v : Nat) : State :=
  let d := s.ld p l
  let q := d.eq
  if q.on then
    (s.setLd p l { d with eq := { (if q.headOk v then { q with head := v } else q) with overflow := false } }).flushEvents p l 256
  else s.setLd p l { d with eq := { q with overflow := false } }

/-- A write of EQ_CFG (R195), SIZE_LOG2 from 6 to 12. -/
def State.eqCfgOp (s : State) (p l v : Nat) : State :=
  let d := s.ld p l
  let q := d.eq
  if bit v 16 ∧ !q.on then
    if v % 32 < 6 ∨ v % 32 > 12 then s
    else (s.setLd p l { d with eq := { q with cfg := v &&& 0x1011F, idx := 0, phase := 1, head := 0 } }).flushEvents p l 256
  else if bit v 16 then s.setLd p l { d with eq := { q with cfg := if bit v 8 then setBit q.cfg 8 else clearBit q.cfg 8 } }
  else s.setLd p l { d with eq := { q with cfg := v &&& 0x1011F } }

/-- State of an ingress (R109). -/
def State.ingressAt (s : State) (k : Nat) : IngressSt := Table.get s.ingress {} k
/-- INGRESS_STATE: of the port, or of the tenants stopped alone (R109). -/
def IngressSt.shown (g : IngressSt) : Nat :=
  if g.st ≠ 0 then g.st else if g.tenants.any (fun e => e.2 == 1) then 1 else if g.tenants.isEmpty then 0 else 2
/-- Whether TC2 to TC7 of a tenant are admitted at a flex port's ingress (R109); not in a WARM reset (R443). -/
def State.admits (s : State) (p : Nat) (t : Option Nat) : Bool :=
  !s.warm && (s.ingressAt p).st == 0 && (match t with | some t => !(s.ingressAt p).tenants.any (fun x => x.1 == t) | none => true)

/-- Whether a host reaches the command function of a logical device: its port is up, and the logical device is on it. -/
def State.reach (s : State) (p l : Nat) : Bool := s.hostUp p && !s.warm && decide (l < 16)
/-- Whether a host's write or read of a register or of ring storage is admitted: TC3 or TC2 at its port's ingress (R101, R109). -/
def State.takes (s : State) (p l : Nat) : Bool := s.reach p l && s.admits p (s.ldTenant p l)

/-- SQ_TAIL (R193). -/
def execSqTail (p l r value : Nat) (s : State) : Res := .next (if s.takes p l then s.sqTailOp p l r value else s)
/-- SQ_ENABLE (R193). -/
def execSqEnable (p l r : Nat) (s : State) : Res := .next (if s.takes p l then s.sqEnableOp p l r else s)
/-- SQ_DISABLE (R193). -/
def execSqDisable (p l r : Nat) (s : State) : Res := .next (if s.takes p l then s.sqDisableOp p l r else s)

/-- The last admitted command of a DRAINING ring has its record: DISABLED (R193). -/
def execSqDrained (p l r : Nat) (s : State) : Res :=
  let x := (s.ld p l).ring r
  .next (if x.st = 2 ∧ s.ringOwed p l r = 0 then s.setRing p l r { x with st := 0 } else s)

/-- CQ_CFG (R193, R194). -/
def execCqCfg (p l r value : Nat) (s : State) : Res := .next (if s.takes p l then s.cqCfgOp p l r value else s)
/-- CQ_HEAD (R194). -/
def execCqHead (p l r value : Nat) (s : State) : Res := .next (if s.takes p l then s.cqHeadOp p l r value else s)
/-- EQ_HEAD (R195). -/
def execEqHead (p l value : Nat) (s : State) : Res := .next (if s.takes p l then s.eqHeadOp p l value else s)

/-- A write to CQ_BASE fails (R194). -/
def execCqWriteFail (p l r : Nat) (s : State) : Res :=
  .next (if s.reach p l ∧ ((s.ld p l).cq r).on then s.cqFail p l r else s)

/-- INGEST reads a PAD: to offset 0, without a record; a PAD in the same lap as the tail, or any packet that runs past it, breaks
the ring (R192, R193). -/
def execPad (p l r : Nat) (s : State) : Res :=
  match s.turn p l r with
  | none => .next s
  | some s0 =>
    match ((s0.ld p l).ring r).peek with
    | .nothing => .next s
    | .broken => .next (s0.breakRing p l r 0x11)
    | .packet h => .next (if hRecipe h = 0 then s0.consume p l r 64 true else s)

end Sys2Proof.Machine
end

