-- ==== Sys2Proof/Machine/HostOps.lean ====
section
/-! DEFINITION. Host accesses: the DPA space, the register pages, flagged stores and flushes (R126, R130, R157 to R161, R190). -/

namespace Sys2Proof.Machine

open Sys2Proof

/-! ### Accesses to other devices, and theirs to this one (R121, R131, R149, R153) -/

/-- A read of a peer device's memory, in packets of at most 256 bytes (R98); of bytes whose write was lost on the way it returns poison (R161). -/
def State.readAway (s : State) (p l dev a dpa n : Nat) : State :=
  (List.range (ceilDiv n 256)).foldl (fun (t : State) i =>
    let k := Nat.min 256 (n - 256 * i)
    if t.poisoned (dev * 2 ^ 55 + a + 256 * i) k then t.emit (.readCpl p l (dpa + 256 * i) [] true)
    else t.await (.host p l) 1 dev (a + 256 * i) (dpa + 256 * i) false k []) s
/-- A write to a peer device's memory: each packet is a write that waits until the peer has performed it, sent in its turn (R157, R158). -/
def State.writeAway (s : State) (src : Source) (e dev a dpa : Nat) (d : Bytes) (flag : Bool) : State :=
  ((List.range (ceilDiv d.length 256)).foldl (fun (t : State) i =>
    let b := (d.drop (256 * i)).take 256
    let w : WrOut := { id := t.nextWid, src := src, addr := a + 256 * i, data := b, flag := flag, eid := some e, dpa := dpa + 256 * i, at_ := t.now,
                       away := some dev }
    { t with writes := t.writes ++ [w], nextWid := t.nextWid + 1 }) s).sendReady
/-- The completion of a request to another device, at its source. -/
def State.peerAnswer (s : State) (k : Packet) : State :=
  match s.remote.find? (fun r => r.tag == k.tag && r.dev == k.srcDev && r.kind == (if k.ptype = 3 then 1 else 4)) with
  | some r =>
    let s1 : State := { s with remote := s.remote.erase r }
    let s2 := match r.src with
      | .host p l => s1.emit (.readCpl p l r.back k.data k.poison)
      | src => s1.emit (.atomicCpl src r.back k.data k.poison)
    s2.settleFences
  | none => s
/-- A packet of this device is lost on a peer path: a read or an atomic completes with poison; a write is lost, and its bytes read as poison from then on,
whatever path is left (R80, R161, R391). -/
def State.endRequest (s : State) (k : Packet) : State :=
  if k.srcDev ≠ s.devId then s
  else if k.ptype = 1 ∨ k.ptype = 4 then
    let ctl := (s.remote.filter (fun r => r.tag == k.tag && r.dev == k.dstDev && r.ctl)).map (fun r => r.src)
    let s1 : State := { s with fences := s.fences.map (fun (f : Fence) => if f.tags.contains k.tag ∧ ctl.contains f.src then { f with lost := true } else f) }
    s1.peerAnswer { k with ptype := if k.ptype = 1 then 3 else 5, srcDev := k.dstDev, data := [], poison := true }
  else if k.ptype = 2 then
    let mine := fun (w : WrOut) => w.away == some k.dstDev && w.sent && w.id % 65536 == k.tag
    { s with poison := s.poison ++ (s.writes.filter mine).map (fun (w : WrOut) => (k.dstDev * 2 ^ 55 + w.addr, w.data.length)) }.loseWrites mine
  else s
/-- Packets that are lost, at their sources (R107, R391). -/
def State.losePackets (s : State) (l : List Packet) : State := l.foldl State.endRequest (s.emits (l.map Output.lostPacket))

/-- The extent that a device, this one where none is named, backs at an address. -/
def State.extentOf (s : State) (away : Option Nat) (a : Nat) : Option (Nat × Extent) :=
  s.extents.find? (fun e => e.2.away == away && decide (e.2.base ≤ a) && decide (a < e.2.base + Config.extentBytes))
/-- The extent of this device that holds an address. -/
def State.extentAt (s : State) (a : Nat) : Option (Nat × Extent) := s.extentOf none a
/-- Whether bytes of this device are lost: their extent is FAILED or UNREACHABLE, or their die is out (R143, R145). -/
def State.bytesLost (s : State) (a : Nat) : Bool :=
  !s.dieUp (faDie a) || (match s.extentAt a with | some (_, x) => x.st == 6 || x.st == 7 | none => false)
/-- A peer device's access performed at its home (R131, R149, R153): data class at once or in its order, control class as an uncached transaction, which
does not cross a line (R152), a flagged one after the source's earlier writes (R158). Donor memory is reached by this device alone (R150). -/
def State.homePerform (s : State) (d x : Nat) (k : Packet) : State :=
  let a := k.addr % 2 ^ 55
  let reply := fun (t : State) (b : Bytes) (poison : Bool) => t.emit (.toCore d x (replyTo k b poison))
  if faSpace k.addr = 3 then
    let n := if k.ptype = 1 then k.want else k.data.length
    if 64 < a % 64 + n ∨ ctlLines ≤ a % 2 ^ 52 / 64 then (if k.ptype = 1 then reply s [] true else s)
    else if k.ptype = 2 ∧ k.flag ∧ s.writes.any (fun w => w.src == .peer k.srcDev k.tenant) then
      s.admitWrite (.peer k.srcDev k.tenant) a 0 k.data true none
    else if k.ptype = 1 ∨ k.ptype = 2 then s.atHome (a % 2 ^ 52 / 64) { kind := if k.ptype = 1 then 7 else 8, pkt := some k }
    else s
  else if faSpace k.addr = 2 then (if k.ptype = 1 then reply s [] true else s)
  else if k.ptype = 1 then
    if s.bytesLost a ∨ s.poisoned a k.want then reply s [] true else reply s (memRead s.mem a k.want) false
  else if k.ptype = 2 then
    if s.bytesLost a then s else s.admitWrite (.peer k.srcDev k.tenant) a 0 k.data k.flag ((s.extentAt a).map Prod.fst)
  else s

/-! ### Hosts -/

/-- A read of `n` bytes at a DPA, served at its home (R130, R143, R157). -/
def State.serveRead (s : State) (p l dpa n : Nat) : State :=
  match s.check p l dpa n false with
  | .remote _ v a => s.readAway p l v a dpa n
  | .ok _ a =>
    if s.poisoned a n then s.emit (.readCpl p l dpa [] true)
    else
      let g := s.drawNs
      let s1 := if faSpace a = 0 then g.2.sample 4 g.1 { die := some (faDie a) } else g.2.sample 5 g.1 { flex := some (faPort a) }
      s1.emit (.readCpl p l dpa (memRead s.mem a n) false)
  | .lost _ => s.emit (.readCpl p l dpa [] true)
  | _ => (s.deny p l false).emit (.readCpl p l dpa [] true)

/-- A write at a DPA: admitted, or discarded; it completes normally either way (R130, R142, R143, R161). `flag`: a flagged
store, which has no completion of its own. -/
def State.serveWrite (s : State) (p l dpa : Nat) (d : Bytes) (flag : Bool) : State :=
  let done := fun (x : State) => if flag then x else x.emit (.writeCpl p l dpa false)
  let lost := fun (x : State) => { x.noteLost p l x.nextWid dpa d.length with nextWid := x.nextWid + 1 }
  match s.check p l dpa d.length true with
  | .ok e a => done (s.admitWrite (.host p l) a dpa d flag (some e))
  | .remote e v a => done (s.writeAway (.host p l) e v a dpa d flag)
  | .lost _ => done (lost s)
  | .readOnly => done (s.deny p l true)
  | .denied => done (lost (s.deny p l false))

/-! ### Flagged stores and flushes (R158 to R161) -/

/-- A write of FLUSH_CTRL starts one flush of the range: the writes it covers are those of the source not yet applied, and those lost and not yet
reported (R160, R161). DESIGN CHOICE: a range that is not of whole lines is flushed with the lines it touches, whatever its length (R159). -/
def State.flushStart (s : State) (p l seq : Nat) : State :=
  let d := s.ld p l
  let b := d.flushBase / 64 * 64
  let n := roundUp (d.flushBase % 64 + d.flushLen) 64
  let out := (s.writes.filter (fun w => w.src == .host p l && overlaps w.dpa w.data.length b n)).map (fun w => w.id)
  let gone := (d.lostW.filter (fun w => overlaps w.2.1 w.2.2 b n)).map (fun w => w.1)
  s.setLd p l { d with flushes := d.flushes ++ [(seq % 65536, b, n, out ++ gone)] }

/-- Whether the oldest flush of a logical device is done: no covered write is outstanding. -/
def State.flushReady (s : State) (ids : List Nat) : Bool := !s.writes.any (fun w => ids.contains w.id)
/-- The copies that stations hold of a range of a logical device are discarded (R160). -/
def State.dropCopies (s : State) (p l b n : Nat) : State :=
  let at_ := s.extents.flatMap (fun e => (e.2.mapped.filter (fun m => m.1 == p && m.2.1 == l)).map (fun m => (e.2.base, m.2.2)))
  let meets := fun (c : DataCopy) => at_.any (fun x => decide (x.1 ≤ c.addr) && decide (c.addr < x.1 + Config.extentBytes)
    && overlaps (x.2 * Config.extentBytes + (c.addr - x.1)) c.data.length b n)
  { s with copies := s.copies.filter (fun c => !meets c) }

/-- The extent becomes the set's new version, and is offered to every logical device that holds the previous one. -/
def State.newVersion (s : State) (c e : Nat) (y : Extent) (g v : Nat) (digest : Bytes) (st : SharedSet) (prev : Option SVersion) : State :=
  let st1 := { st with versions := s.resident g ++ [⟨v, e, digest⟩], top := Nat.max st.top v }
  let s1 : State := { s.setExt e { y with ro := true, set := some (g, v) } with sets := Table.put s.sets g st1 }
  let had := match prev with
    | some w => (match Table.find s1.extents w.eid with
      | some z => (match z.holder with | some h => [h] | none => []) ++ (z.maps.filter (fun (m : ShMap) => m.st == 2)).map (fun (m : ShMap) => (m.p, m.l))
      | none => [])
    | none => []
  let s2 := (had.filter (fun h => some h != y.holder)).foldl (fun (a : State) h =>
    match a.freeSlots h.1 h.2 1 with | slot :: _ => a.offerShared h.1 h.2 e slot | [] => a) s1
  s2.dropUnheld.modCmd c (fun z => { z.endItem 0 0 with work := .none })

/-- A PUBLISH_EXTENT whose writer's earlier writes are all applied is decided (R139 to R142). DESIGN CHOICE: an extent that is a version already, of this set
or another, is not published again at a greater number: PUBLISH_CONFLICT. With no version resident, a number not below the last used is a new one. -/
def State.publishNow (s : State) (c : Nat) (x : Cmd) (e : Nat) : State :=
  let g := field x.pay 0 4
  let v := field x.pay 4 4
  let fail := fun (a : State) (st : Nat) =>
    let a1 := match Table.find a.extents e with
      | some y => if y.set.isNone then a.setExt e { y with ro := false } else a
      | none => a
    a1.failCmd c st 0 (if st = stRevoked then field x.pay 8 8 / Config.extentBytes % 65536 else 0)
  match Table.find s.extents e, Table.find s.sets g with
  | some y, some st =>
    let digest := (sha384 (match y.away with
      | some _ => (Config.peerData s.freeCtr y.base Config.extentBytes).getD []
      | none => memRead s.mem y.base Config.extentBytes)).take 32
    if s.tDomain x.tenant ≠ some st.domain then fail s stDenied
    else if y.st ≠ 2 ∨ s.poisoned ((match y.away with | some u => u * 2 ^ 55 | none => 0) + y.base) Config.extentBytes then
      fail s (if y.st = 6 ∨ y.st = 7 ∨ y.st = 2 then stPoisoned else stRevoked)
    else
      match s.current g with
      | some cur =>
        if v = cur.num then
          if digest = cur.digest then
            let s1 := if y.set.isNone then s.setExt e { y with ro := false } else s
            s1.modCmd c (fun z => { z.endItem 0 0 with work := .none })
          else fail s stConflict
        else if v < cur.num ∨ y.set.isSome then fail s stConflict
        else if 16 ≤ (s.resident g).length then fail s stRetryBusy
        else s.newVersion c e y g v digest st (some cur)
      | none => if v < st.top ∨ y.set.isSome then fail s stConflict else s.newVersion c e y g v digest st none
  | _, _ => fail s stDenied

/-- Publishes whose writer has no write outstanding to the extent are decided, in order of arrival (R140). -/
def State.settlePublish (s : State) : State :=
  s.cmds.foldl (fun (a : State) e => match e.2.work with
    | .publish eid => if a.writes.any (fun w => w.eid == some eid && w.src == .host e.2.p e.2.l) then a else a.publishNow e.1 e.2 eid
    | _ => a) s

/-! ### Registers -/

/-- The report registers of BAR2 (R352). -/
def State.reportReg (s : State) (t o : Nat) : Nat :=
  let r := Table.get s.reports {} t
  if o = 0x200 then r.time else if o = 0x230 then r.iso else if o = 0x238 then r.charge else r.thr.getD ((o - 0x208) / 8) 0

/-- LEASE_STATE (R126). -/
def State.leaseReg (s : State) (p l : Nat) : Nat :=
  let d := s.ld p l
  let left := match d.expiry with | some e => if s.leaseState p l = 0 then 0 else (e - s.now) / 1000000 | none => 0
  Nat.min left (2 ^ 24 - 1) * 2 ^ 40 + s.leaseState p l * 2 ^ 32 + d.renewSeq

/-- An 8-byte read of BAR2 (R126, R159, R352); none where the offset has no readable register. -/
def State.bar2Read (s : State) (p l o : Nat) : Option Nat :=
  let d := s.ld p l
  if o = 0x008 then some (s.leaseReg p l)
  else if 0x40 ≤ o ∧ o < 0xC0 then
    match d.donors[(o - 0x40) / 0x20]? with
    | some x =>
      if o % 0x20 = 0 then some x.base else if o % 0x20 = 8 then some x.len
      else if o % 0x20 = 0x18 then some (x.region * 2 ^ 36 + x.st) else none
    | none => none
  else if o = 0x100 then some d.flagAddr
  else if o = 0x110 then some d.flushBase
  else if o = 0x118 then some d.flushLen
  else if o = 0x128 then some (bool01 d.flushLoss * 2 ^ 17 + bool01 (!d.flushes.isEmpty) * 2 ^ 16 + d.flushDone)
  else if 0x200 ≤ o ∧ o ≤ 0x238 ∧ o % 8 = 0 then
    match s.ldTenant p l with | some t => some (s.reportReg t o) | none => some 0
  else none

/-- An 8-byte write of BAR2; other offsets take no effect. A write of FLAG_DATA is one flagged store (R159). DESIGN CHOICE: a write of DONOR_CTRL with OFFER
and REVOKE both set does the OFFER and then the REVOKE (R137). -/
def State.bar2Write (s : State) (p l o v : Nat) : State :=
  let d := s.ld p l
  if o = 0 then (s.tc0Gate p).doorbell p l v 8
  else if 0x40 ≤ o ∧ o < 0xC0 then
    let i := (o - 0x40) / 0x20
    match d.donors[i]? with
    | some x =>
      if o % 0x20 = 0x10 then
        let s1 := if bit v 0 then s.donorOffer p l i else s
        if bit v 1 then s1.donorRevoke p l i else s1
      else if x.st = 1 ∨ x.st = 2 then s
      else if o % 0x20 = 0 then s.setLd p l { d with donors := d.donors.set i { x with base := v } }
      else if o % 0x20 = 8 then s.setLd p l { d with donors := d.donors.set i { x with len := v } }
      else s
    | none => s
  else if o = 0x100 then s.setLd p l { d with flagAddr := v }
  else if o = 0x108 then s.serveWrite p l ((s.ld p l).flagAddr / 8 * 8) (leBytes 8 v) true
  else if o = 0x110 then s.setLd p l { d with flushBase := v }
  else if o = 0x118 then s.setLd p l { d with flushLen := v }
  else if o = 0x120 then s.flushStart p l v
  else s

/-- Whether a ring waits for entries of completion ring c (R191, R194). -/
def Ld.cqWaiting (d : Ld) (c : Nat) : Bool :=
  (d.cq c).on && (d.cq c).free == 0 && d.rings.any (fun e => e.2.cqNo == c && (match e.2.peek with | .packet h => hRecipe h != 0 | _ => false))

/-- CQ_STATE, or EQ_STATE with its OVERFLOW (R191, R195). -/
def CRing.stateReg (q : CRing) (waiting : Bool) : Nat :=
  bool01 q.overflow * 2 ^ 18 + bool01 waiting * 2 ^ 17 + q.phase * 2 ^ 16 + q.idx

/-- An 8-byte read of a BAR0 register page (R191, R195). -/
def State.pageRead (s : State) (p l o : Nat) : Option Nat :=
  let d := s.ld p l
  if o < 0x10000 then
    let r := o / 0x400
    let x := d.ring r
    let q := d.cq r
    match o % 0x400 with
    | 0x000 => some x.cfg
    | 0x008 => some (if x.st = 1 ∨ x.st = 3 then 1 else 0)
    | 0x018 => some x.head
    | 0x020 => some ((s.ringCmds p l r).length * 2 ^ 32 + x.reason * 2 ^ 8 + x.st)
    | 0x040 => some q.base
    | 0x048 => some q.cfg
    | 0x058 => some (q.stateReg (d.cqWaiting r))
    | _ => none
  else if o = 0x10000 then some d.eq.base
  else if o = 0x10008 then some d.eq.cfg
  else if o = 0x10018 then some (d.eq.stateReg false)
  else none

/-- An 8-byte write of a BAR0 register page. -/
def State.pageWrite (s : State) (p l o v : Nat) : State :=
  if o < 0x10000 then
    let r := o / 0x400
    match o % 0x400 with
    | 0x000 => s.sqCfgOp p l r v
    | 0x008 => if bit v 0 then s.sqEnableOp p l r else s.sqDisableOp p l r
    | 0x010 => s.sqTailOp p l r (v % 2 ^ 20)
    | 0x040 => s.cqBaseOp p l r v
    | 0x048 => s.cqCfgOp p l r v
    | 0x050 => s.cqHeadOp p l r (v % 65536)
    | _ => s
  else if o = 0x10000 then
    if (s.ld p l).eq.on then s else s.setLd p l { s.ld p l with eq := { (s.ld p l).eq with base := v / 4096 * 4096 } }
  else if o = 0x10008 then s.eqCfgOp p l v
  else if o = 0x10010 then s.eqHeadOp p l (v % 65536)
  else s

/-- Stores bytes in a ring's storage; bytes past SQ_SIZE are discarded (R190). -/
def SRing.put (x : SRing) : Nat → Bytes → SRing
  | _, [] => x
  | off, b :: t =>
    if off < x.size then ({ x with store := if b = 0 then Table.del x.store off else Table.put x.store off b } : SRing).put (off + 1) t else x

/-- A read of BAR0. -/
def State.bar0Read (s : State) (p l o n : Nat) : State :=
  if 0x4000000 ≤ o ∧ o < 0x8000000 then
    let x := (s.ld p l).ring ((o - 0x4000000) / 0x100000)
    let off := o % 0x100000
    s.emit (.readCpl p l o ((List.range n).map (fun i => if off + i < x.size then Table.get x.store 0 (off + i) else 0)) false)
  else
    match (if n = 8 then s.pageRead p l o else none) with
    | some v => s.emit (.readCpl p l o (leBytes 8 v) false)
    | none => let g := s.drawWord; g.2.emit (.readCpl p l o (leBytes n g.1) false)

/-- A write of BAR0. -/
def State.bar0Write (s : State) (p l o : Nat) (d : Bytes) : State :=
  if 0x4000000 ≤ o ∧ o < 0x8000000 then
    let r := (o - 0x4000000) / 0x100000
    s.setRing p l r (((s.ld p l).ring r).put (o % 0x100000) d)
  else if d.length = 8 then s.pageWrite p l o (leNat d)
  else s

/-- A read of BAR2. -/
def State.bar2Get (s : State) (p l o n : Nat) : State :=
  match (if n = 8 then s.bar2Read p l o else none) with
  | some v => s.emit (.readCpl p l o (leBytes 8 v) false)
  | none => let g := s.drawWord; g.2.emit (.readCpl p l o (leBytes n g.1) false)

/-! ### Metering (R346, R348) -/

/-- A host's atomic that waited for its tokens (R154 to R156, R348): it takes its turn among the writes of its source. -/
def State.serveAtomic (s : State) (p l : Nat) (r : AtomReq) : State :=
  let w := fun (a : Nat) (v : Option Nat) (e : Nat) =>
    ({ id := s.nextWid, src := .host p l, addr := a, data := leBytes r.size r.operand, eid := some e, dpa := r.addr, at_ := s.now, away := v,
       atom := some r } : WrOut)
  let put := fun (x : WrOut) => ({ s with writes := s.writes ++ [x], nextWid := s.nextWid + 1 } : State)
  match s.check p l r.addr r.size true with
  | .denied => (s.deny p l false).atomicReply r [] true
  | .readOnly => (s.deny p l true).atomicReply r [] true
  | .lost _ => s.atomicReply r [] true
  | .remote e v a => (put (w a (some v) e)).sendReady
  | .ok e a => put (w a none e)

/-- An access that has its tokens. -/
def State.serve (s : State) (x : HeldAcc) : State :=
  match x.space, x.atom with
  | .bar0, _ => if x.isWrite then s.bar0Write x.p x.l x.addr x.data else s.bar0Read x.p x.l x.addr x.len
  | .bar2, _ => if x.isWrite then (if x.data.length = 8 then s.bar2Write x.p x.l x.addr (leNat x.data) else s) else s.bar2Get x.p x.l x.addr x.len
  | .dpa, some r => s.serveAtomic x.p x.l r
  | .dpa, none => if x.isWrite then s.serveWrite x.p x.l x.addr x.data x.flag else s.serveRead x.p x.l x.addr x.len

/-- Ready to be metered: an access waits behind the held ones of its tenant and class, and without tokens (R346, R348). -/
def State.shape (s : State) (x : HeldAcc) : State :=
  if s.heldAcc.any (fun y => y.tenant == x.tenant && y.tc == x.tc) then
    { s.throttle x.tenant x.tc 0 true with heldAcc := s.heldAcc ++ [x] }
  else
    let g := s.take x.tenant x.tc (x.p / 16) x.cost
    if g.1 then g.2.serve x else { g.2 with heldAcc := g.2.heldAcc ++ [x] }

/-- Held accesses that have their tokens now, and whose ingress is not stopped, go on, in order per tenant and class (R109, R348). -/
def State.releaseHeld (s : State) : State :=
  let go := fun (a : State × List HeldAcc) (x : HeldAcc) =>
    if a.2.any (fun y => y.tenant == x.tenant && y.tc == x.tc) ∨ !a.1.admits x.p (some x.tenant) then (a.1, a.2 ++ [x])
    else
      let g := a.1.take x.tenant x.tc (x.p / 16) x.cost
      if g.1 then (g.2.serve x, a.2) else (g.2, a.2 ++ [x])
  let r := s.heldAcc.foldl go ({ s with heldAcc := [] }, [])
  { r.1 with heldAcc := r.2 ++ r.1.heldAcc }

/-- With 64 flagged stores of a source waiting, those held for tokens among them, its ingress withholds write credit (R158). -/
def State.flagFull (s : State) (p l : Nat) : Bool :=
  decide (64 ≤ (s.writes.filter (fun w => w.flag && w.src == .host p l)).length
    + (s.heldAcc.filter (fun x => x.space == .bar2 && x.isWrite && x.addr == 0x108 && x.p == p && x.l == l)).length)
/-- A write of FLAG_DATA, metered in TC3 behind the earlier writes that its tenant has waiting: it issues a flagged store (R157 to R159, R346). -/
def State.flagStore (s : State) (p l v : Nat) : State :=
  if s.flagFull p l then s
  else match s.ldTenant p l with
    | some t => s.shape { space := .bar2, tenant := t, tc := 3, cost := 64, p := p, l := l, addr := 0x108, len := 0, data := leBytes 8 v, isWrite := true }
    | none => s.bar2Write p l 0x108 v

/-! ### Atomics (R154 to R156) -/

/-- Whether the device performs an operation at a size for a kind of source (R154). -/
def atomicOk (src : Source) (op : AtomicOp) (size : Nat) : Bool :=
  let host := match src with | .host _ _ => true | _ => false
  src != .root && (size == 4 || size == 8 || (size == 16 && op == .cas)) && !(host && (op == .fetchMin || op == .fetchMax))

/-- An atomic at a data-class address of its home (R151, R155). -/
def State.atomicAt (s : State) (r : AtomReq) (a : Nat) : State :=
  if s.poisoned a r.size ∨ s.bytesLost a then s.atomicReply r [] true
  else
    let old := leNat (memRead s.mem a r.size)
    (s.applyWrite a (leBytes r.size (atomicNew r.op r.size old r.operand r.compare))).atomicReply r (leBytes r.size old) false

/-- A write or atomic whose turn has come is performed at its home; on a peer device's home the state here does not change, but for bytes there that
were lost and are now whole (R151, R161). -/
def State.perform (s : State) (w : WrOut) : State :=
  match w.away, w.atom with
  | some v, _ =>
    { s with poison := s.poison.filter (fun r => !(decide (v * 2 ^ 55 + w.addr ≤ r.1) && decide (r.1 + r.2 ≤ v * 2 ^ 55 + w.addr + w.data.length))) }
  | none, some r => s.atomicAt r w.addr
  | none, none =>
    if faSpace w.addr = 3 then
      match w.src with
      | .peer dev t =>
        s.atHome (w.addr % 2 ^ 52 / 64)
          { kind := 8, pkt := some { ptype := 2, tc := 3, flag := true, srcDev := dev, dstDev := s.devId, tenant := t, tag := 0, addr := w.addr, data := w.data } }
      | _ => s
    else s.applyWrite w.addr w.data

end Sys2Proof.Machine
end

