-- ==== Sys2Proof/Machine/PageOps.lean ====
section
/-! DEFINITION. KV pages: quantization, the plain page, its summary, and the stored and coded forms (R209 to R213, R274, R313 to
R321). -/

namespace Sys2Proof.Machine

open Sys2Proof

/-- Head dimension of a DIM code (R210). -/
def dimOf (c : Nat) : Nat := 64 * 2 ^ c
/-- Channel groups (R209). -/
def groupsOf (dim : Nat) : Nat := dimOf dim / 32
/-- Bytes of a plain page (R209, R211). -/
def plainBytes (fmt dim : Nat) : Nat :=
  let d := dimOf dim
  if fmt = 0 then 64 + 2 * d + 8 * d + 128 * d else if fmt = 1 then 64 + 2 * d + 8 * d + 64 * d else 64 + 2 * d + 256 * d
/-- Granules of a plain page (R211). -/
def plainGranules (fmt dim : Nat) : Nat := ceilDiv (plainBytes fmt dim) 2044
/-- Size at which a page is charged (R211, R280). -/
def plainSize (fmt dim : Nat) : Nat := plainGranules fmt dim * Config.granule

/-! ### Quantization of appended rows (R274) -/

/-- Magnitude of a bf16 encoding. -/
def absBf (x : Fbits) : Fbits := x % 0x8000
/-- The largest magnitude of a list of finite bf16 encodings. -/
def maxAbsBf (vs : List Fbits) : Fbits := (vs.map absBf).foldl Nat.max 0
/-- Whether a bf16 is a NaN or an infinity. -/
def badBf (x : Fbits) : Bool := decide (0x7F80 ≤ absBf x)
/-- clamp(x, −m, m). -/
def clampInt (m x : Int) : Int := max (-m) (min m x)
/-- Cut a row of d values into its groups of 32 channels. -/
def rowGroups (dim : Nat) (row : List Fbits) : List (List Fbits) := chunks 32 (groupsOf dim) row

/-- One group's scale and codes; none where the input is unusable. -/
def quantGroup (fmt : Nat) (vs : List Fbits) : Option (Fbits × List Nat) :=
  let a := maxAbsBf vs
  if vs.any badBf then none
  else if fmt = 2 then some (0, vs)
  else if a = 0 then some (0, vs.map (fun _ => 0))
  else if fmt = 0 then
    if (Dy.ofInt (65504 * 127)).lt (valBf a) then none
    else
      let s := leastAtLeast fp16 (valBf a) 127
      some (s, vs.map (fun v => ofSigned 8 (clampInt 127 (val32 (div32 (bfTo32 v) (hfTo32 s))).rint)))
  else
    let s := leastAtLeast bf16 (valBf a) 7
    some (s, vs.map (fun v => ofSigned 4 (clampInt 7 (val32 (div32 (bfTo32 v) (bfTo32 s))).rint)))

/-- One row's scales and codes. -/
def quantRow (fmt dim : Nat) (row : List Fbits) : Option (List Fbits × List Nat) :=
  (rowGroups dim row).foldr (fun g a =>
    match quantGroup fmt g, a with
    | some (s, c), some (ss, cs) => some (if fmt = 2 then ss else s :: ss, c ++ cs)
    | _, _ => none) (some ([], []))

/-- The 16-bit values of a byte string. -/
def halves : Nat → Bytes → List Nat
  | 0, _ => []
  | n + 1, b => field b 0 2 :: halves n (b.drop 2)

/-- One position from its K row and V row, 2d bytes each. -/
def quantPos (fmt dim : Nat) (glob : Bool) (b : Bytes) : Option Pos :=
  let d := dimOf dim
  match quantRow fmt dim (halves d b), quantRow fmt dim (halves d (b.drop (2 * d))) with
  | some (ks, kc), some (vs, vc) => some { kc := kc, ks := ks, vc := vc, vs := vs, global := glob }
  | _, _ => none

/-! ### Stored keys and values (R212) -/

/-- The exact value of a code. -/
def codeVal (fmt : Nat) (c : Nat) : Dy :=
  if fmt = 2 then valBf c else Dy.ofInt (toSigned (if fmt = 0 then 8 else 4) c)
/-- The exact value of a scale; 1 for KV16. -/
def scaleVal (fmt : Nat) (s : Fbits) : Dy := if fmt = 0 then valHf s else if fmt = 1 then valBf s else Dy.ofInt 1
/-- The scale of channel group g of a row. -/
def groupScale (fmt : Nat) (ss : List Fbits) (g : Nat) : Dy := if fmt = 2 then Dy.ofInt 1 else scaleVal fmt (ss.getD g 0)
/-- The dequantized channel c of a row. -/
def deq (fmt : Nat) (cs : List Nat) (ss : List Fbits) (c : Nat) : Dy := (codeVal fmt (cs.getD c 0)).mul (groupScale fmt ss (c / 32))

/-! ### The summary (R213) -/

/-- floor(a / b) for b > 0. -/
def Dy.fdiv (a b : Dy) : Int :=
  if a.e ≥ b.e then (a.m * (2 ^ (a.e - b.e).toNat : Nat)) / b.m else a.m / (b.m * (2 ^ (b.e - a.e).toNat : Nat))
/-- ceil(a / b) for b > 0. -/
def Dy.cdiv (a b : Dy) : Int := -(Dy.fdiv a.neg b)

/-- Summary scale of a group over the valid keys. -/
def sumScale (fmt g : Nat) (ps : List Pos) : Fbits :=
  let a := ps.foldl (fun m p => ((List.range 32).map (fun i => (deq fmt p.kc p.ks (32 * g + i)).abs)).foldl Dy.max m) Dy.zero
  if a.m = 0 then 0 else leastAtLeast fp16 a 127

/-- Minimum and maximum of a channel. A scale beyond fp16 leaves the bounds of the sign. -/
def sumBounds (fmt c : Nat) (s : Fbits) (ps : List Pos) : Int × Int :=
  let ks := ps.map (fun p => deq fmt p.kc p.ks c)
  let lo := (ks.drop 1).foldl Dy.min (ks.headD Dy.zero)
  let hi := (ks.drop 1).foldl Dy.max (ks.headD Dy.zero)
  if s = 0 then (0, 0)
  else if s = fp16.inf then ((if lo.m < 0 then -1 else 0), (if 0 < hi.m then 1 else 0))
  else (lo.fdiv (valHf s), hi.cdiv (valHf s))

/-- A page's summary: scales, minima, maxima. -/
structure Summary where
  scales : List Fbits
  lo : List Int
  hi : List Int
deriving DecidableEq, Repr

/-- The summary over the given positions. -/
def summarize (fmt dim : Nat) (ps : List Pos) : Summary :=
  let ss := (List.range (groupsOf dim)).map (fun g => sumScale fmt g ps)
  let bs := (List.range (dimOf dim)).map (fun c => sumBounds fmt c (ss.getD (c / 32) 0) ps)
  { scales := ss, lo := bs.map Prod.fst, hi := bs.map Prod.snd }

/-- A summary as a PAGE_REF and a MIRROR carry it: SUM_SCALE, minima, maxima (R276, R281). -/
def Summary.bytes (x : Summary) : Bytes :=
  padTo 16 (x.scales.flatMap (leBytes 2)) ++ x.lo.flatMap (fun v => leBytes 1 (ofSigned 8 v)) ++ x.hi.flatMap (fun v => leBytes 1 (ofSigned 8 v))

/-! ### The plain page (R209, R210) -/

/-- Packs codes: int8, two int4 to a byte with the lower index in the low nibble (R9), or bf16. -/
def packCodes (fmt : Nat) : List Nat → Bytes
  | [] => []
  | a :: t =>
    if fmt = 0 then BitVec.ofNat 8 a :: packCodes fmt t
    else if fmt = 2 then leBytes 2 a ++ packCodes fmt t
    else match t with
      | b :: u => BitVec.ofNat 8 (a + 16 * b) :: packCodes fmt u
      | [] => [BitVec.ofNat 8 a]

/-- The plain page of positions in slot order, padded to whole granules. -/
def plainPage (fmt dim layer head block : Nat) (ps : List Pos) : Bytes :=
  let d := dimOf dim
  let ng := groupsOf dim
  let sm := summarize fmt dim ps
  let glob := ((List.range 64).map (fun j => match ps[j]? with | some p => bool01 p.global * 2 ^ j | none => 0)).foldl (· + ·) 0
  let hdr := leBytes 1 fmt ++ leBytes 1 dim ++ leBytes 1 ps.length ++ zeros 1 ++ leBytes 2 layer ++ leBytes 2 head ++ leBytes 8 glob
    ++ leBytes 8 (64 * block) ++ zeros 8 ++ padTo 16 (sm.scales.flatMap (leBytes 2)) ++ zeros 16
  let scales := fun (f : Pos → List Fbits) => if fmt = 2 then [] else padTo (64 * ng * 2) (ps.flatMap (fun p => (f p).flatMap (leBytes 2)))
  let width := if fmt = 0 then d else if fmt = 1 then d / 2 else 2 * d
  let vals := fun (f : Pos → List Nat) => padTo (64 * width) (ps.flatMap (fun p => packCodes fmt (f p)))
  padTo (plainSize fmt dim) (hdr ++ sm.lo.flatMap (fun x => leBytes 1 (ofSigned 8 x)) ++ sm.hi.flatMap (fun x => leBytes 1 (ofSigned 8 x))
    ++ scales (fun p => p.ks) ++ scales (fun p => p.vs) ++ vals (fun p => p.kc) ++ vals (fun p => p.vc))

/-! ### Coding with a Palette (R315 to R319) -/

/-- Entry e of a Palette. -/
def palEntry (pal : Bytes) (e : Nat) : Bytes := slice pal (4 * e) 4
/-- The folded residual z of byte b against p (R316). -/
def residual (b p : Byte) : Nat :=
  let r := toSigned 8 ((b - p).toNat)
  if 0 ≤ r then (2 * r).toNat else (-2 * r - 1).toNat
/-- Residuals of a sub-vector against an entry. -/
def residuals (sv en : Bytes) : List Nat := (sv.zip en).map (fun x => residual x.1 x.2)
/-- The entry of least Σz, the lower index on a tie (R317). -/
def bestEntry (pal sv : Bytes) : Nat :=
  ((List.range 256).foldl (fun (b : Nat × Nat) e =>
    let z := (residuals sv (palEntry pal e)).foldl (· + ·) 0
    if z < b.2 then (e, z) else b) (0, 4 * 256)).1

/-- The low k bits of z, least significant first. -/
def lowBits (k z : Nat) : List Bool := (List.range k).map (fun i => z.testBit i)
/-- Rice bits of one residual (R316). -/
def riceBits (k z : Nat) : List Bool :=
  if z >>> k < 8 then List.replicate (z >>> k) true ++ false :: lowBits k z else List.replicate 8 true ++ lowBits 8 z
/-- Length of the Rice bits. -/
def riceLen (k z : Nat) : Nat := if z >>> k < 8 then (z >>> k) + 1 + k else 16
/-- Bits packed from bit 0 of each byte upward. -/
def packBits : Nat → List Bool → Bytes
  | 0, _ => []
  | _, [] => []
  | n + 1, l => BitVec.ofNat 8 (((l.take 8).zipIdx.map (fun x => bool01 x.1 * 2 ^ x.2)).foldl (· + ·) 0) :: packBits n (l.drop 8)

/-- The k of fewest residual bits, the lower on a tie (R317). -/
def bestK (zs : List Nat) : Nat :=
  ((List.range 8).foldl (fun (b : Nat × Nat) k =>
    let n := (zs.map (riceLen k)).foldl (· + ·) 0
    if n < b.2 then (k, n) else b) (0, 64 * 17)).1

/-- The record of one 64-byte block (R315 to R317). -/
def codeBlock (pal blk : Bytes) : Bytes :=
  let svs := chunks 4 16 blk
  let idx := svs.map (bestEntry pal)
  let zs := (svs.zip idx).flatMap (fun x => residuals x.1 (palEntry pal x.2))
  let ix := idx.map (BitVec.ofNat 8)
  if zs.all (· == 0) then 0x0F#8 :: ix
  else
    let k := bestK zs
    let rec_ := BitVec.ofNat 8 k :: (ix ++ packBits 64 (zs.flatMap (riceBits k)))
    if 17 + ceilDiv ((zs.map (riceLen k)).foldl (· + ·) 0) 8 > 64 then 0x0E#8 :: blk else rec_

/-- The byte of residual z against p. -/
def unfold_ (z : Nat) (p : Byte) : Byte :=
  let r : Int := if z % 2 = 0 then (z / 2 : Nat) else -((z + 1) / 2 : Nat)
  BitVec.ofNat 8 (ofSigned 8 ((p.toNat : Int) + r))

/-- Value of bits, least significant first. -/
def bitsVal : List Bool → Nat
  | [] => 0
  | b :: t => bool01 b + 2 * bitsVal t

/-- One residual read from the bits, and the rest (R316). -/
def riceRead (k : Nat) (l : List Bool) : Nat × List Bool :=
  let q := (l.takeWhile (· == true)).length
  if q < 8 then (q * 2 ^ k + bitsVal ((l.drop (q + 1)).take k), l.drop (q + 1 + k))
  else (bitsVal ((l.drop 8).take 8), l.drop 16)

/-- n residuals read from the bits. -/
def riceReads (k : Nat) : Nat → List Bool → List Nat
  | 0, _ => []
  | n + 1, l => let r := riceRead k l; r.1 :: riceReads k n r.2

/-- Bits of a byte string, bit 0 of each byte first. -/
def bytesBits (b : Bytes) : List Bool := b.flatMap (fun x => lowBits 8 x.toNat)

/-- The 64 plain bytes of a record (R315, R316, R321); none for a reserved MODE. -/
def decodeBlock (pal rec_ : Bytes) : Option Bytes :=
  match rec_ with
  | [] => none
  | m :: rest =>
    if m = 0x0E#8 then some (rest.take 64)
    else
      let ps := (rest.take 16).flatMap (fun i => palEntry pal i.toNat)
      if m = 0x0F#8 then some ps
      else if 8 ≤ m.toNat then none
      else some (((riceReads m.toNat 64 (bytesBits (rest.drop 16))).zip ps).map (fun x => unfold_ x.1 x.2))

/-- Bytes that a record takes; none for a reserved MODE. -/
def recordLen (b : Bytes) : Option Nat :=
  match b with
  | [] => none
  | m :: rest =>
    if m = 0x0E#8 then some 65
    else if m = 0x0F#8 then some 17
    else if 8 ≤ m.toNat then none
    else
      let left := (List.range 64).foldl (fun l _ => (riceRead m.toNat l).2) (bytesBits (rest.drop 16))
      some (17 + ((rest.drop 16).length - left.length / 8))
/-- The plain bytes of n records, from block i on: each of a MODE that is not reserved, the first of every 32 where SEG_OFF has it, and all within the
record bytes (R315, R318, R321). `offs` are the SEG_OFF entries, `at_` is where the record stands. -/
def decodeRecords (pal : Bytes) (offs : List Nat) : Nat → Nat → Nat → Bytes → Option Bytes
  | 0, _, _, _ => some []
  | n + 1, i, at_, b =>
    if i % 32 = 0 ∧ offs.getD (i / 32) 0 ≠ at_ then none
    else match recordLen b with
      | none => none
      | some k =>
        if b.length < k then none
        else match decodeBlock pal (b.take k), decodeRecords pal offs n (i + 1) (at_ + k) (b.drop k) with
          | some x, some y => some (x ++ y)
          | _, _ => none
/-- DECODE of a coded stream that its reference says has a generation, a slot and a number of blocks: none where a check of R321 fails. -/
def decodeStream (pal : Bytes) (gen slot blocks : Nat) (b : Bytes) : Option Bytes :=
  let n := field b 8 4
  if field b 0 1 ≠ 1 ∨ field b 1 1 ≠ gen ∨ field b 2 2 ≠ slot ∨ field b 4 2 ≠ blocks ∨ field b 6 1 ≠ ceilDiv blocks 32 ∨ b.length < 128 + n then none
  else decodeRecords pal ((List.range 33).map (fun i => field b (0x10 + 2 * i) 2)) blocks 0 0 ((b.drop 128).take n)

/-- Records of a plain page, `blocks` of 64 bytes. -/
def codeRecords (pal plain : Bytes) (blocks : Nat) : List Bytes := (chunks 64 blocks plain).map (codeBlock pal)

/-- The stored stream of a coded page (R318). -/
def codedStream (gen slot : Nat) (recs : List Bytes) : Bytes :=
  let n := recs.length
  let segs := ceilDiv n 32
  let offs := (List.range segs).map (fun i => ((recs.take (32 * i)).map List.length).foldl (· + ·) 0)
  leBytes 1 1 ++ leBytes 1 gen ++ leBytes 2 slot ++ leBytes 2 n ++ leBytes 1 segs ++ zeros 1
    ++ leBytes 4 (recs.flatten.length) ++ zeros 4 ++ padTo 66 (offs.flatMap (leBytes 2)) ++ zeros 46 ++ recs.flatten

/-- Granules a coded page takes (R319). -/
def codedGranules (recs : List Bytes) : Nat := ceilDiv (128 + recs.flatten.length) 2044

/-- Granule n of a stream, encrypted and checked (R320). -/
def granuleOf (key : Bytes) (page n : Nat) (stream : Bytes) : Bytes :=
  let c := aesXts key (page + n * 2 ^ 64) (slice stream (2044 * n) 2044)
  c ++ leBytes 4 (crc32c c)

/-- The granules of a stream (R320). -/
def granules (key : Bytes) (page count : Nat) (stream : Bytes) : Bytes :=
  (List.range count).flatMap (fun n => granuleOf key page n stream)

end Sys2Proof.Machine
end

