-- ==== Sys2Proof/Machine/Ring.lean ====
section
/-! DEFINITION. The ring of the fabric map: positions, owners and partners (R301, R302). -/

namespace Sys2Proof.Machine

open Sys2Proof

/-- A ring point: position, device, index. -/
structure RPoint where
  pos : Nat
  dev : Nat
  i : Nat
deriving DecidableEq, Repr

/-- Position of point i of device v (R302). -/
def pointPos (v i : Nat) : Nat := field (sha256 [BitVec.ofNat 8 v, BitVec.ofNat 8 (v / 256), BitVec.ofNat 8 i]) 0 4
/-- Position of a sequence (R302). -/
def seqPos (tag id : Nat) : Nat := field (sha256 (leBytes 4 tag ++ leBytes 4 id)) 0 4
/-- Position of a prefix key (R294). -/
def keyPos (k : Bytes) : Nat := field k 0 4

/-- Order of points: by position, then by device, then by index. -/
def RPoint.before (a b : RPoint) : Bool := decide (a.pos < b.pos ∨ (a.pos = b.pos ∧ (a.dev < b.dev ∨ (a.dev = b.dev ∧ a.i ≤ b.i))))
/-- Inserts a point in order. -/
def insertPoint (a : RPoint) : List RPoint → List RPoint
  | [] => [a]
  | b :: t => if a.before b then a :: b :: t else b :: insertPoint a t

/-- The points of a member on the ring: those of its dies in service. -/
def memberPoints (m : FMember) : List RPoint :=
  ((List.range 64).filter (fun i => bit m.dies (i % 8))).map (fun i => ⟨pointPos m.dev i, m.dev, i⟩)

/-- The whole ring, in order. -/
def mapPoints (m : FMap) : List RPoint := (m.members.flatMap memberPoints).foldl (fun l a => insertPoint a l) []

/-- The ring read from position x on, once around. -/
def ringFrom (l : List RPoint) (x : Nat) : List RPoint := l.filter (fun a => decide (x ≤ a.pos)) ++ l.filter (fun a => decide (a.pos < x))

/-- Failure group of a member. -/
def mapGroup (m : FMap) (d : Nat) : Nat := match m.members.find? (fun a => a.dev == d) with | some a => a.group | none => 0

/-- Where a position lies: the owner, its home die and the partner (R302). -/
structure Home where
  dev : Nat
  die : Nat
  partner : Option Nat
deriving DecidableEq, Repr

/-- The home of a position, given the ordered ring. -/
def homeAt (m : FMap) (ring : List RPoint) (x : Nat) : Option Home :=
  let r : List RPoint := ringFrom ring x
  let owner : Option Nat := match m.overrides.find? (fun o => decide (o.1 ≤ x) && decide (x ≤ o.2.1)) with
    | some o => some o.2.2
    | none => r.head?.map (fun (a : RPoint) => a.dev)
  match owner with
  | none => none
  | some d =>
    match r.find? (fun (a : RPoint) => a.dev == d) with
    | none => some { dev := d, die := 0, partner := none }
    | some a =>
      let after : List RPoint := (r.dropWhile (fun b => b != a)).drop 1 ++ r.takeWhile (fun b => b != a)
      some { dev := d, die := a.i % 8, partner := (after.find? (fun (b : RPoint) => mapGroup m b.dev != mapGroup m d)).map (fun b => b.dev) }

/-- The home of a position under a map. -/
def mapHome (m : FMap) (x : Nat) : Option Home := homeAt m (mapPoints m) x

/-- Ring positions at which ownership can change: the points, and the bounds of the overrides. -/
def mapBreaks (m : FMap) : List Nat :=
  (mapPoints m).map (fun a => a.pos) ++ m.overrides.flatMap (fun o => [(o.1 + 2 ^ 32 - 1) % 2 ^ 32, o.2.1])

/-- Inserts a number in rising order, once. -/
def insertNat (a : Nat) : List Nat → List Nat
  | [] => [a]
  | b :: t => if a < b then a :: b :: t else if a = b then b :: t else b :: insertNat a t

/-- Consecutive pieces (low, high) of the ring cut at the given positions; the piece that wraps is given as two. -/
def pieces (cuts : List Nat) : List (Nat × Nat) :=
  let l := cuts.foldl (fun a x => insertNat x a) []
  ((0 :: l.map (· + 1)).zip (l ++ [2 ^ 32 - 1])).filter (fun p => decide (p.1 ≤ p.2))

/-- The pieces of the ring that device a owned under map m and device b owns under map n (R306). -/
def movedRanges (m n : FMap) (a b : Nat) : List (Nat × Nat) :=
  let rm := (mapPoints m)
  let rn := (mapPoints n)
  (pieces (mapBreaks m ++ mapBreaks n)).filter (fun p =>
    (homeAt m rm p.2).map (fun h => h.dev) == some a && (homeAt n rn p.2).map (fun h => h.dev) == some b)

end Sys2Proof.Machine
end

