-- ==== Sys2Proof/Machine/KvOps.lean ====
section
/-! DEFINITION. Sequences, groups, pages, tiers and quotas (R262 to R292). -/

namespace Sys2Proof.Machine

open Sys2Proof

/-! ### Sequences and pages -/

/-- Key of a sequence in the table (R262). -/
def seqKey (tag id : Nat) : Nat := tag * 2 ^ 32 + id
/-- A sequence held by this device, as owner or as partner. -/
def State.seq (s : State) (tag id : Nat) : Option Seq := Table.find s.seqs (seqKey tag id)
/-- The key under which a sequence is held: a closing one lies apart from a new one of its name (R266). -/
def Seq.key (x : Seq) : Nat := x.gen * 2 ^ 64 + seqKey x.fabTag x.id
/-- Stores a sequence. -/
def State.setSeq (s : State) (x : Seq) : State := { s with seqs := Table.put s.seqs x.key x }
/-- MEMBER of a (layer, KV head) (R271). -/
def memberOf (sh : Shape) (layer head : Nat) : Nat := layer * sh.heads + head
/-- Members of a shape. -/
def shapeMembers (sh : Shape) : Nat := sh.layers * sh.heads
/-- A page ID (R271). -/
def pageId (gid m : Nat) : Nat := gid * 65536 + m
/-- The device of a GROUP_ID (R271). -/
def groupDev (gid : Nat) : Nat := gid / 2 ^ 39
/-- A group. -/
def State.group (s : State) (gid : Nat) : Option Group := Table.find s.groups gid
/-- Changes a group that exists. -/
def State.modGroup (s : State) (gid : Nat) (f : Group → Group) : State :=
  match s.group gid with | some g => { s with groups := Table.put s.groups gid (f g) } | none => s
/-- A page. -/
def State.page (s : State) (gid m : Nat) : Option Page := (s.group gid).bind (fun g => Table.find g.pages m)
/-- Changes a page that exists. -/
def State.modPage (s : State) (gid m : Nat) (f : Page → Page) : State :=
  s.modGroup gid (fun g => match Table.find g.pages m with | some y => { g with pages := Table.put g.pages m (f y) } | none => g)
/-- Stores a page of a group that exists. -/
def State.putPage (s : State) (gid m : Nat) (y : Page) : State := s.modGroup gid (fun g => { g with pages := Table.put g.pages m y })
/-- Committed length of a member (R268). -/
def Seq.committed (x : Seq) (m : Nat) : Nat := Table.get x.lens (64 * x.prefixBlocks) m
/-- Sets a committed length. -/
def Seq.setLen (x : Seq) (m n : Nat) : Seq := { x with lens := Table.put x.lens m n }
/-- The page of block b and member m of a sequence, with its GROUP_ID. -/
def State.pageAt (s : State) (x : Seq) (b m : Nat) : Option (Nat × Page) :=
  match Table.find x.blocks b with
  | some (gid, _) => (s.page gid m).map (fun y => (gid, y))
  | none => none

/-- The packets that carry a tile to another device (R74, R98, R180): its header and data in pieces of at most 256 bytes, in order, at the crossbar port of
the agent that sends it. -/
def State.tilePackets (s : State) (src : Source) (ptype tc dev : Nat) (t : Tile) : List Output :=
  let x := s.sourceAt src
  (chunks 256 (ceilDiv (t.hdr ++ t.data).length 256) (t.hdr ++ t.data)).map (fun b =>
    .toCore x.1 x.2.1 { ptype := ptype, tc := tc, srcDev := s.devId, dstDev := dev, tenant := (tileHdr t.hdr).tenant, tag := (tileHdr t.hdr).ref % 65536,
                        addr := 0, data := b })
/-- A station's tile to another device: it goes as TILE packets (R74, R180). -/
def State.sendTile (s : State) (dev : Nat) (t : Tile) : State := s.emits (.tile dev t :: s.tilePackets .root 6 4 dev t)

/-! ### Charges (R280, R288) -/

/-- Charge of one page of a shape. -/
def shapeSize (sh : Shape) : Nat := plainSize sh.fmt sh.dim
/-- Pages of a group that lie at this device. -/
def Group.here (g : Group) : Nat := (g.pages.filter (fun y => y.2.away.isNone)).length
/-- Bytes charged to a tenant's KV_QUOTA. -/
def State.kvUsed (s : State) (t : Nat) : Nat :=
  sumNat (s.groups.map (fun g => if g.2.tenant = t ∧ !g.2.shared ∧ !g.2.partner then g.2.here * shapeSize g.2.shape else 0))
/-- Bytes charged to a sharing domain's SD_KV_QUOTA. -/
def State.sdUsed (s : State) (d : Nat) : Nat :=
  sumNat (s.groups.map (fun g => if g.2.shared ∧ g.2.domain = some d ∧ !g.2.partner then g.2.here * shapeSize g.2.shape else 0))
/-- Pages pinned through a tenant's sequences, with their sizes. -/
def State.pinsOf (s : State) (t : Nat) : List ((Nat × Nat) × Nat) :=
  ((s.seqs.filter (fun e => e.2.tenant == t && e.2.partnerOf.isNone)).flatMap (fun e =>
    e.2.pins.map (fun q => (q, shapeSize e.2.shape)))).eraseDups
/-- Bytes pinned by a tenant. -/
def State.pinUsed (s : State) (t : Nat) : Nat := sumNat ((s.pinsOf t).map Prod.snd)
/-- Whether some sequence holds a page pinned. -/
def State.pinned (s : State) (gid m : Nat) : Bool := s.seqs.any (fun e => e.2.pins.contains (gid, m))

/-! ### Tiers (R283 to R286) -/

/-- Every page with its GROUP_ID, member and shape. -/
def State.allPages (s : State) : List (Nat × Nat × Page × Shape) :=
  s.groups.flatMap (fun g => g.2.pages.map (fun y => (g.1, y.1, y.2, g.2.shape)))
/-- Stored bytes of a page. -/
def Page.bytes (y : Page) : Nat := y.granules * Config.granule
/-- Whether a tier of this device is the page's home. -/
def Page.home (y : Page) (t : Nat) : Bool := y.away.isNone && y.tier == t
/-- Granules that a tier holds of the page: as its home, or as a copy (R283). -/
def Page.granulesIn (y : Page) (t : Nat) : Nat :=
  let copy := fun (c : Option PCopy) => match c with | some x => x.granules | none => 0
  if t = 0 then copy y.t0 else if t = 3 then copy y.t3
  else if y.home t then y.granules else if t = 4 ∧ y.spill then copy y.t4 else 0
/-- Whether a tier holds the page or a copy of it. -/
def Page.inTier (y : Page) (t : Nat) : Bool :=
  if t = 0 then y.t0.isSome else if t = 3 then y.t3.isSome else y.home t || (t == 4 && y.spill)
/-- TIER_STORED. -/
def State.tierStored (s : State) (t : Nat) : Nat := sumNat (s.allPages.map (fun y => y.2.2.1.granulesIn t)) * Config.granule
/-- TIER_PLAIN. -/
def State.tierPlain (s : State) (t : Nat) : Nat := sumNat (s.allPages.map (fun y => if y.2.2.1.inTier t then shapeSize y.2.2.2 else 0))
/-- Bytes of one page's reference (R281). -/
def refSize (dim : Nat) : Nat := 48 + 2 * dimOf dim
/-- Bytes of a sequence's page references. -/
def Seq.refBytes (x : Seq) : Nat := x.blocks.length * shapeMembers x.shape * refSize x.shape.dim
/-- Bytes of the references of the active set, or of the other sequences (R269). -/
def State.refBytes (s : State) (active : Bool) : Nat :=
  sumNat (s.seqs.map (fun e => if e.2.partnerOf.isNone ∧ e.2.active = active then e.2.refBytes else 0))
/-- Whether a tray port is in use: up, of the role given, and its tray not out of the pool. -/
def State.trayUsed (s : State) (role p : Nat) : Bool :=
  s.role p == role && (s.flexP p).st == 3 && !(s.flexP p).failed && !(s.flexP p).unused
/-- Bytes of the tray ports in use. -/
def State.trayBytes (s : State) (role : Nat) : Nat := sumNat (s.flex.map (fun e => if s.trayUsed role e.1 then e.2.gib * 2 ^ 30 else 0))
/-- T2 before the references that lie in it: the trays in use less what they back of extents granted; the device has no T2 where it is 0. -/
def State.t2Bytes (s : State) : Nat :=
  s.trayBytes 2
    - (s.extents.filter (fun e => !e.2.isHbm && e.2.st != 0 && e.2.away.isNone && s.trayUsed 2 (faPort e.2.base))).length * Config.extentBytes
/-- Bytes of control space in use: its lines and the backups of the Palettes. How much is reserved for it is not stated (R152, R322). -/
def State.controlBytes (s : State) : Nat := 64 * s.lines.length + 4096 * s.slots.length
/-- TIER_CAPACITY: the bytes a tier offers to pages; page references take theirs of T1 and T2 (R269, R283). -/
def State.tierCap (s : State) (t : Nat) : Nat :=
  match t with
  | 0 => s.diesUp.length * 52 * Config.tileBuffer
  | 1 => s.diesUp.length * Config.hbmBytes
           - (s.extents.filter (fun e => e.2.isHbm && e.2.st != 0 && e.2.away.isNone && s.dieUp (faDie e.2.base))).length * Config.extentBytes
           - (s.obj 0x6200 2 + s.obj 0x6200 4) * 2 ^ 20
           - sumNat (s.lds.map (fun e => e.2.sqBytes)) - s.controlBytes - s.refBytes true - (if s.t2Bytes = 0 then s.refBytes false else 0)
  | 2 => s.t2Bytes - s.refBytes false
  | 3 => sumNat (s.lds.map (fun e => sumNat (e.2.donors.map (fun d => if d.st = 1 then d.len else 0))))
  | _ => s.trayBytes 3

/-- Bytes of a tenant's pages in T1. -/
def State.t1Of (s : State) (t : Nat) : Nat :=
  sumNat (s.groups.map (fun g => if g.2.tenant = t then sumNat (g.2.pages.map (fun y => if y.2.home 1 then y.2.bytes else 0)) else 0))
/-- T1 kept for the STRICT tenants other than t (R340, R345). -/
def State.t1Hold (s : State) (t : Nat) : Nat :=
  sumNat ((s.strictTenants.filter (fun u => u != t)).map (fun u => s.tObj u 9 * 2 ^ 20 - s.t1Of u))
/-- KV capacity kept for the unused quota of the STRICT tenants other than t (R340). -/
def State.kvHold (s : State) (t : Nat) : Nat :=
  sumNat ((s.strictTenants.filter (fun u => u != t)).map (fun u => s.objI 0x7300 2 u * 2 ^ 20 - s.kvUsed u))
/-- Whether T1 has room for n more bytes of tenant t. -/
def State.t1Room (s : State) (t n : Nat) : Bool := decide (s.tierStored 1 + n + s.t1Hold t ≤ s.tierCap 1)
/-- Whether a tier has room for n more bytes of tenant t. -/
def State.tierRoom (s : State) (t u n : Nat) : Bool := if u = 1 then s.t1Room t n else decide (s.tierStored u + n ≤ s.tierCap u)
/-- Whether the tiers together keep room for n more bytes of tenant t beside what is reserved. -/
def State.kvRoom (s : State) (t n : Nat) : Bool :=
  decide (s.tierStored 1 + s.tierStored 2 + s.tierStored 4 + n + s.kvHold t ≤ s.tierCap 1 + s.tierCap 2 + s.tierCap 4)

/-- Bytes on their way into a tier. -/
def State.inbound (s : State) (t : Nat) : Nat :=
  sumNat (s.allPages.map (fun y => if y.2.2.1.moving = some t ∧ !y.2.2.1.home t then y.2.2.1.bytes else 0))
/-- Bytes on their way out of a tier. -/
def State.outbound (s : State) (t : Nat) : Nat :=
  sumNat (s.allPages.map (fun y => if y.2.2.1.home t ∧ y.2.2.1.moving.isSome ∧ y.2.2.1.moving ≠ some t then y.2.2.1.bytes else 0))
/-- Whether a tier takes n more bytes once the moves under way are over. -/
def State.fitsSoon (s : State) (u n : Nat) : Bool := decide (s.tierStored u + s.inbound u + n ≤ s.tierCap u + s.outbound u)
/-- The tier a page of `bytes` is demoted to when it leaves `t`: the next one, or where that is absent the one after it; none where it is full (R284). -/
def State.nextTier (s : State) (t bytes : Nat) : Option Nat :=
  let u := if t = 1 ∧ s.tierCap 2 ≠ 0 then 2 else 4
  if t ≤ 2 ∧ s.fitsSoon u bytes then some u else none
/-- The lowest tier with room for a partner's copy: T2, then T4, then T1 (R310). -/
def State.lowTier (s : State) (bytes : Nat) : Nat := if s.fitsSoon 2 bytes then 2 else if s.fitsSoon 4 bytes then 4 else 1

/-! ### Stored forms (R318 to R320) -/

/-- The key that encrypts a group's pages: its domain's for a SHARED group, its tenant's otherwise (R320). -/
def State.groupKey (s : State) (g : Group) : Bytes :=
  match g.shared, g.domain with
  | true, some d => Table.get s.sec.tenantKeys [] (Config.tenants + d)
  | _, _ => Table.get s.sec.tenantKeys [] g.tenant
/-- Layer and head of a member. -/
def layerOf (sh : Shape) (m : Nat) : Nat := m / Nat.max 1 sh.heads
/-- KV head of a member. -/
def headOf (sh : Shape) (m : Nat) : Nat := m % Nat.max 1 sh.heads
/-- The plain page of a member of a group (R209). -/
def plainOf (g : Group) (m : Nat) (y : Page) : Bytes :=
  plainPage g.shape.fmt g.shape.dim (layerOf g.shape m) (headOf g.shape m) g.block y.pos

/-- Palette slot of (tenant, set, generation), if resident (R323). -/
def State.slotOf (s : State) (t set gen : Nat) : Option (Nat × PSlot) :=
  s.slots.find? (fun e => e.2.tenant == t && e.2.set == set && e.2.gen == gen)
/-- Palette set of a shape (R323). -/
def setOf (sh : Shape) : Nat := sh.fmt * 3 + sh.dim
/-- Key of a Palette set. -/
def psKey (t set : Nat) : Nat := t * 9 + set
/-- A Palette set. -/
def State.pset (s : State) (t set : Nat) : PSet := Table.get s.psets {} (psKey t set)
/-- Stores a Palette set. -/
def State.setPset (s : State) (t set : Nat) (x : PSet) : State := { s with psets := Table.put s.psets (psKey t set) x }
/-- 64-byte blocks of a shape's plain page (R318). -/
def pageBlocks (sh : Shape) : Nat := plainBytes sh.fmt sh.dim / 64

/-- The stored stream of a page under a generation in a slot (R318). -/
def State.streamIn (s : State) (g : Group) (m : Nat) (y : Page) (gen slot : Nat) : Bytes :=
  match (if gen = 0 then none else Table.find s.slots slot) with
  | some p => codedStream gen slot (codeRecords p.bytes (plainOf g m y) (pageBlocks g.shape))
  | none => plainOf g m y
/-- The granules of a copy: its stream compressed, encrypted and checked (R320). -/
def State.granulesOf (s : State) (g : Group) (m : Nat) (y : Page) (c : PCopy) : Bytes :=
  granules (s.groupKey g) (pageId g.gid m) c.granules (s.streamIn g m y c.gen c.slot)
/-- A copy in the form of the page's home. -/
def Page.copyAt (y : Page) (place off since : Nat) : PCopy :=
  { place := place, off := off, granules := y.granules, gen := y.gen, slot := y.slot, since := since }
/-- The form a page takes under a generation of its set: coded where that saves a granule, raw otherwise (R319). -/
def State.formOf (s : State) (g : Group) (m : Nat) (y : Page) (gen : Nat) : PCopy × List Bytes :=
  let n0 := plainGranules g.shape.fmt g.shape.dim
  match (if gen = 0 then none else s.slotOf g.tenant (setOf g.shape) gen) with
  | none => ({ place := 0, granules := n0 }, [])
  | some (slot, x) =>
    let recs := codeRecords x.bytes (plainOf g m y) (pageBlocks g.shape)
    let n := codedGranules recs
    if n < n0 then ({ place := 0, granules := n, gen := gen, slot := slot }, recs) else ({ place := 0, granules := n0 }, [])

/-! ### Places (R281) -/

/-- LOCATION of a place that a free word picks in T1 or T2, in a stack or a tray in use: which place a page takes there is not stated. -/
def State.placeIn (s : State) (tier w : Nat) : Nat :=
  let g := fun (n : Nat) => w % Nat.max 1 n / 2048 * 2048
  if tier = 2 then
    let ps := (s.flex.map Prod.fst).filter (s.trayUsed 2)
    let p := ps.getD (w / 2 ^ 44 % Nat.max 1 ps.length) 0
    s.devId * 2 ^ 55 + 2 ^ 52 + p * 2 ^ 44 + g ((s.flexP p).gib * 2 ^ 30)
  else s.devId * 2 ^ 55 + s.diesUp.getD (w / 2 ^ 36 % Nat.max 1 s.diesUp.length) 0 * 2 ^ 36 + g Config.hbmBytes
/-- The place in flash tray p that a free word picks: namespace and LBA (R281). -/
def State.flashPlace (s : State) (p w : Nat) : Nat :=
  s.devId * 2 ^ 55 + p * 2 ^ 44 + w / 2 ^ 40 % Nat.max 1 (s.flexP p).spaces * 2 ^ 40 + w % 2 ^ 40
/-- Flex port of a T4 LOCATION. -/
def locPort (loc : Nat) : Nat := loc / 2 ^ 44 % 128
/-- LOCATION of a place in a donor region (R118). -/
def State.donorLoc (s : State) (c : PCopy) : Nat := s.devId * 2 ^ 55 + 2 * 2 ^ 52 + c.place * 2 ^ 40 + c.off

/-! ### NVMe (R66, R67) -/

/-- A flash tray in service: up, and not out of the pool (R66). -/
def State.flashUp (s : State) (p : Nat) : Bool := s.trayUsed 3 p
/-- Depth of a queue pair (R66). -/
abbrev nvmeDepth : Nat := 1024
/-- The queues of a command: the admin queue, or the I/O queues (R66). -/
def nvmeQueues (op : Nat) : List Nat := if 4 ≤ op then [0] else (List.range 64).map (· + 1)
/-- The first queue for a command with a place. -/
def FlexPort.nvmePlace (x : FlexPort) (op : Nat) : Option Nat :=
  (nvmeQueues op).find? (fun q => decide ((x.nvme.filter (fun e => e.2.queue == q)).length < nvmeDepth))
/-- The granules a Write of a page carries (R67, R320). -/
def State.writeData (s : State) (page : Nat) : Bytes :=
  match s.group (page / 65536), s.page (page / 65536) (page % 65536) with
  | some g, some y => match y.t4 with | some c => s.granulesOf g (page % 65536) y c | none => []
  | _, _ => []
/-- An NVMe command is submitted to a tray, or waits for a place in its queues (R66). A Flush covers the Writes completed by then (R67). -/
def State.nvmeSubmit (s : State) (p op page loc : Nat) : State :=
  let x := s.flexP p
  match x.nvmePlace op with
  | none => s.setFlex p { x with nvmeWait := x.nvmeWait ++ [{ op := op, page := page, issued := s.now, loc := loc }] }
  | some q =>
    let c : NvmeCmd := { op := op, page := page, issued := s.now, queue := q, loc := loc, covers := if op = 2 then x.unflushed else [] }
    (s.setFlex p { x with nvme := Table.put x.nvme x.nextCid c, nextCid := x.nextCid + 1 }).emit
      (.nvme p x.nextCid op (loc % 2 ^ 44) (if op = 1 then s.writeData page else []))
/-- A command has left the queues: the one that waited longest of those that find a place takes it. -/
def State.nvmeNext (s : State) (p : Nat) : State :=
  let x := s.flexP p
  match x.nvmeWait.find? (fun c => (x.nvmePlace c.op).isSome) with
  | none => s
  | some c => (s.setFlex p { x with nvmeWait := x.nvmeWait.erase c }).nvmeSubmit p c.op c.page c.loc
/-- The commands that bring a flash tray into use: Identify, Get Log Page, Set Features for queues and interrupts, creation of the I/O queues (R66). -/
def State.nvmeBringUp (s : State) (p : Nat) : State :=
  (((s.nvmeSubmit p 4 0 0).nvmeSubmit p 5 0 0).nvmeSubmit p 6 0 0).nvmeSubmit p 7 0 0
/-- A Read or a deallocation at a T4 LOCATION, where its tray is in service. -/
def State.nvmeAt (s : State) (op page loc : Nat) : State := if s.flashUp (locPort loc) then s.nvmeSubmit (locPort loc) op page loc else s
/-- A Write of a page in a stored form to the lowest flash tray in service (R66, R67). -/
def State.nvmeWrite (s : State) (gid m : Nat) (form : PCopy) : State :=
  match (s.flex.map Prod.fst).find? s.flashUp with
  | none => s
  | some p =>
    let w := s.drawWord
    let loc := s.flashPlace p w.1
    (w.2.modPage gid m (fun y => { y with t4 := some { form with place := loc } })).nvmeSubmit p 1 (pageId gid m) loc
/-- Whether a page's NVMe command, or the Flush it needs, is still to complete (R67). -/
def State.nvmeWaits (s : State) (page : Nat) : Bool :=
  s.flex.any (fun e => e.2.nvme.any (fun c => c.2.page == page && decide (c.2.op ≤ 1)) || e.2.nvmeWait.any (fun c => c.page == page && decide (c.op ≤ 1))
    || e.2.unflushed.contains page)
/-- A page starts on its way to another tier (R284): to T4 by a Write, unless a spill copy stands there; from T4 by a Read (R66, R67). -/
def State.setOff (s : State) (gid m tier : Nat) : State :=
  match s.page gid m with
  | none => s
  | some y =>
    let s1 := s.modPage gid m (fun z => { z with moving := some tier, recode := none })
    if tier = 4 then (if y.spill then s1 else s1.nvmeWrite gid m (y.copyAt 0 0 s.now))
    else if y.home 4 then s1.nvmeAt 0 (pageId gid m) y.loc else s1

/-- A group's spill copy is begun: one Write a page (R67, R300). -/
def State.spillGroup (s : State) (gid : Nat) : State :=
  match s.group gid with
  | none => s
  | some g =>
    if s.tierCap 4 = 0 then s
    else
      let ms := (g.pages.filter (fun y => y.2.away.isNone)).map Prod.fst
      ms.foldl (fun (a : State) m => match a.page gid m with | some y => a.nvmeWrite gid m (y.copyAt 0 0 s.now) | none => a)
        (s.modGroup gid (fun h => { h with spill := ms.isEmpty, spillLeft := ms }))
/-- What a group that goes had in T4 is deallocated (R66). -/
def State.deallocate (s : State) (gid : Nat) : State :=
  match s.group gid with
  | none => s
  | some g => g.pages.foldl (fun (a : State) y =>
      let a1 := if y.2.home 4 then a.nvmeAt 3 (pageId gid y.1) y.2.loc else a
      match y.2.spill && !y.2.home 4, y.2.t4 with | true, some c => a1.nvmeAt 3 (pageId gid y.1) c.place | _, _ => a1) s
/-- A group goes with its pages. -/
def State.dropGroup (s : State) (gid : Nat) : State :=
  let s1 := s.deallocate gid
  { s1 with groups := Table.del s1.groups gid }

/-! ### Donor copies (R136, R285) -/

/-- The T3 copies in a region: GROUP_ID, member, the copy and when its page was read. -/
def State.inRegion (s : State) (region : Nat) : List (Nat × Nat × PCopy × Nat) :=
  s.allPages.filterMap (fun y => match y.2.2.1.t3 with | some c => if c.place = region then some (y.1, y.2.1, c, y.2.2.1.readAt) else none | none => none)
/-- The lowest place for n bytes among the copies of a region of `len` bytes. -/
def gapIn (len n : Nat) (cs : List PCopy) : Option Nat :=
  let fin := fun (c : PCopy) => c.off + c.granules * Config.granule
  (0 :: cs.map fin).foldl (fun (b : Option Nat) o =>
    if o + n ≤ len ∧ cs.all (fun c => decide (o + n ≤ c.off) || decide (fin c ≤ o)) ∧ b.all (fun x => decide (o < x)) then some o else b) none
/-- The donor region with room for n bytes, and where in it (R285). -/
def State.donorRoom (s : State) (n : Nat) : Option (Nat × Nat × Nat × Nat) :=
  (s.lds.flatMap (fun e => (e.2.donors.filter (fun d => d.st == 1)).map (fun d => (e.1, d)))).findSome? (fun d =>
    (gapIn d.2.len n ((s.inRegion d.2.region).map (fun c => c.2.2.1))).map (fun o => (d.1 / 16, d.1 % 16, d.2.region, o)))
/-- The T3 copy that a page last read at `readAt` may take the room of: the one read last, where it was read later (R285). -/
def State.warmest (s : State) (readAt : Nat) : Option (Nat × Nat) :=
  ((s.allPages.filter (fun y => y.2.2.1.t3.isSome && decide (readAt < y.2.2.1.readAt))).foldl (fun (b : Option (Nat × Nat × Nat)) y =>
    match b with
    | some (_, _, r) => if r < y.2.2.1.readAt then some (y.1, y.2.1, y.2.2.1.readAt) else b
    | none => some (y.1, y.2.1, y.2.2.1.readAt)) none).map (fun x => (x.1, x.2.1))
/-- Room for n bytes in a donor region: T3 copies of pages read after `readAt` are dropped for it (R285). -/
def State.makeT3 (s : State) (n readAt : Nat) : Nat → State
  | 0 => s
  | fuel + 1 =>
    match s.donorRoom n with
    | some _ => s
    | none => match s.warmest readAt with
      | some (gid, m) => (s.modPage gid m (fun z => { z with t3 := none })).makeT3 n readAt fuel
      | none => s
/-- A copy in donor memory of a page that goes to T4, by DMA of its granules (R136, R285). -/
def State.donorCopy (s : State) (gid m : Nat) : State :=
  match s.group gid, s.page gid m with
  | some g, some y =>
    if s.tierCap 3 < y.bytes then s
    else
      let s1 := s.makeT3 y.bytes y.readAt (s.allPages.length + 1)
      match s1.donorRoom y.bytes with
      | some (p, l, region, off) =>
        let c := y.copyAt region off s.now
        (s1.modPage gid m (fun z => { z with t3 := some c })).emit (.donorDma p l region off (pageId gid m) (s1.granulesOf g m y c))
      | none => s1
  | _, _ => s

/-! ### Moves (R284, R312) -/

/-- Whether a tier's stored occupancy is above HIGH_WATER (R284). -/
def State.highTier (s : State) (t : Nat) : Bool := decide (s.obj 0x7000 5 * s.tierCap t < 100 * s.tierStored t)
/-- Tiers that fell to HIGH_WATER or below are no longer above it for the whole window (R312). -/
def State.settlePress (s : State) : State :=
  if s.rel.above.isEmpty then s else { s with rel := { s.rel with above := s.rel.above.filter (fun t => s.highTier t) } }

/-- A page's new copy is complete: LOCATION changes to it (R284, R285), and the page lies here from then on (R306). -/
def State.moved (s : State) (gid m tier : Nat) : State :=
  match s.page gid m with
  | none => s
  | some y =>
    let s0 := if y.home 4 ∧ tier ≠ 4 ∧ !y.spill then s.nvmeAt 3 (pageId gid m) y.loc else s
    let g := s0.drawWord
    let loc := match tier == 4, y.t4 with | true, some c => c.place | _, _ => g.2.placeIn tier g.1
    let s1 := g.2.modPage gid m (fun z => { z with
      tier := tier, loc := loc, away := none, moving := none, recode := none, bad := z.bad.filter (· == 3),
      t3 := if tier ≤ 2 then none else z.t3, t4 := if tier = 4 ∨ z.spill then z.t4 else none })
    (if tier = 4 then s1.donorCopy gid m else s1).settlePress

/-- Pages that R284 may demote from a tier, with their age: sealed, unpinned, not moving; a STRICT tenant's pages within its
STRICT_T1 stay (R345). -/
def State.demotable (s : State) (t : Nat) : List (Nat × Nat × Page) :=
  s.groups.flatMap (fun g =>
    let kept := t = 1 ∧ s.tStrict g.2.tenant ∧ s.t1Of g.2.tenant ≤ s.tObj g.2.tenant 9 * 2 ^ 20
    if kept then []
    else (g.2.pages.filter (fun y => y.2.home t && y.2.sealed && y.2.moving.isNone && !s.pinned g.1 y.1)).map (fun y => (g.1, y.1, y.2)))

/-- The least recently read of a list of pages. -/
def oldestPage : List (Nat × Nat × Page) → Option (Nat × Nat × Page)
  | [] => none
  | a :: t => match oldestPage t with
    | some b => if b.2.2.readAt < a.2.2.readAt then some b else some a
    | none => some a

/-- A cached prefix group with no links, least recently linked first (R299). -/
def State.coldPrefix (s : State) (d : Option Nat) : Option Nat :=
  (s.groups.filter (fun g => g.2.shared && g.2.links == 0 && !g.2.partner && (d.isNone || g.2.domain == d))).foldl
    (fun (b : Option (Nat × Nat)) g => match b with
      | some (_, at_) => if g.2.linkedAt < at_ then some (g.1, g.2.linkedAt) else b
      | none => some (g.1, g.2.linkedAt)) none |>.map Prod.fst

/-- The device at which a key is homed, where it is another one. -/
def State.keyAway (s : State) (key : Bytes) : Option Nat :=
  ((s.fmap.map.bind (fun m => mapHome m (keyPos key))).map (fun h => h.dev)).filter (fun d => d != s.devId)
/-- Eviction of a cached prefix: the entry, at its key's home, then the group (R299). -/
def State.evictPrefix (s : State) (gid : Nat) : State :=
  let s1 := match (s.group gid).bind (fun g => (s.keyAway g.key).map (fun d => (d, g.key))) with
    | some (d, k) => s.emit (.evictMsg d gid k)
    | none => s
  (({ s1 with prefixes := s1.prefixes.filter (fun e => e.gid != gid) } : State).dropGroup gid).settlePress

/-- Bytes of T1 that a page may take for tenant t: what is free, and what the moves under way will leave (R284, R286). DESIGN CHOICE: a new page need not
wait for a demotion that is under way. -/
def State.t1Soon (s : State) (t n : Nat) : Bool := decide (s.tierStored 1 + n + s.t1Hold t ≤ s.tierCap 1 + s.outbound 1)
/-- Demotion of one page of a tier begins, the least recently read; where the next tier is full, one of that tier goes first (R284). -/
def State.demoteOne (s : State) (t : Nat) : Option State :=
  match oldestPage (s.demotable t) with
  | none => none
  | some (gid, m, y) =>
    match s.nextTier t y.bytes with
    | some u => some (s.setOff gid m u)
    | none =>
      if t ≠ 1 then none
      else (oldestPage (s.demotable 2)).bind (fun z => (s.nextTier 2 z.2.2.bytes).map (fun u => s.setOff z.1 z.2.1 u))
/-- Room in T1 for n bytes of tenant t: demotions begin, then cached prefixes are evicted (R67, R284, R286). -/
def State.makeT1 (s : State) (t n : Nat) : Nat → State
  | 0 => s
  | fuel + 1 =>
    let room := s.t1Soon t n
    if room ∧ s.kvRoom t n then s
    else
      match (if room then none else s.demoteOne 1) with
      | some s1 => s1.makeT1 t n fuel
      | none =>
        match s.coldPrefix none with
        | some gid => (s.evictPrefix gid).makeT1 t n fuel
        | none => s

/-- Whether tenant t's quota takes n more bytes (R278). -/
def State.quotaOk (s : State) (t n : Nat) : Bool :=
  let q := s.objI 0x7300 2 t
  q == 0xFFFFFFFF || decide (s.kvUsed t + n ≤ q * 2 ^ 20)

/-- A fresh GROUP_ID of this device (R271). -/
def State.newGid (s : State) : Nat × State :=
  (s.devId * 2 ^ 39 + s.fmap.nextGroup, { s with fmap := { s.fmap with nextGroup := s.fmap.nextGroup + 1 } })

/-! ### Stalls (R291) -/

/-- One stall of a read from tier 2, 3 or 4 under a cause. How long it lasts is not stated. -/
def State.stall (s : State) (tier cause : Nat) (t : Nat) : State :=
  let k := 4 * (tier - 2) + cause + 1
  let g := s.drawNs
  ((g.2.bump 0x7100 k 1).bump 0x7101 k g.1).sample 8 g.1 { tenant := some t }

/-- The tier a read takes (R283): the lowest-numbered readable copy, T2 before T3. -/
def Page.readTier (y : Page) : Option Nat :=
  let ok := fun (t : Nat) => !y.bad.contains t
  if y.t0.isSome then some 0
  else if y.tier ≤ 2 ∧ ok y.tier then some y.tier
  else if y.t3.isSome ∧ ok 3 then some 3
  else if ok y.tier then some y.tier
  else none

/-- A page that lies at another device since a handoff is read there (R306): whether that gives data. -/
def State.awayGood (s : State) (gid m d : Nat) : Bool := s.reaches d && Config.remotePageGood (pageId gid m) s.freeCtr
/-- Whether a page that was read may be promoted to T1 (R284). -/
def State.promotes (s : State) (y : Page) : Bool :=
  s.obj 0x7000 4 == 1 && decide (s.tierStored 1 * 100 < s.obj 0x7000 6 * s.tierCap 1) && y.moving.isNone

/-- A page is read for tenant t (R283, R284, R291, R292): whether a copy can be read, and the state afterwards. A T0 copy goes with the read, and the one
that the read itself places goes with it too. `mirrored`: the partner holds a copy too, whose read counts under T2. -/
def State.readPage (s : State) (gid m t : Nat) (mirrored : Bool) : Bool × State :=
  match s.page gid m with
  | none => (false, s)
  | some y =>
    let touch := fun (z : Page) => { z with readAt := s.now, t0 := none, prefetching := false }
    let cause := bool01 y.prefetching
    let other := if mirrored then (true, (s.stall (Nat.max 2 y.tier) cause t).modPage gid m touch) else (false, s)
    match y.away, y.readTier with
    | some d, _ =>
      if s.awayGood gid m d then
        let s1 := s.modPage gid m touch
        (true, if s1.promotes y then s1.setOff gid m 1 else s1)
      else other
    | none, some 0 => (true, s.modPage gid m touch)
    | none, some 1 => (true, s.modPage gid m touch)
    | none, some k =>
      let s1 := (s.stall k cause t).modPage gid m touch
      (true, if s1.promotes y then s1.setOff gid m 1 else s1)
    | none, none => other

/-! ### Pages of prefix groups that other devices hold -/

/-- Whether a block's group is another device's, linked and not held here (R296). -/
def State.farGroup (s : State) (gid : Nat) (shared : Bool) : Bool := shared && groupDev gid != s.devId && (s.group gid).isNone
/-- The positions of such a page, which is full (R294). -/
def farPos (page : Nat) : List Pos :=
  (List.range 64).map (fun j => let r := Config.remotePos page j; { kc := r.1.1, ks := r.1.2, vc := r.2.1.1, vs := r.2.1.2, global := r.2.2 })
/-- Whether a read of it gives data: its device is reached, and answers. -/
def State.farGood (s : State) (gid m : Nat) : Bool := s.reaches (groupDev gid) && Config.remotePageGood (pageId gid m) s.freeCtr

/-- Whether a spill copy of a group can be read: one of this device's, or, where it can be reached, of a device out of the map (R300). -/
def State.spillReadable (s : State) (gid : Nat) : Bool :=
  match s.group gid with
  | some g => g.spill
  | none => groupDev gid != s.devId && s.reaches (groupDev gid) && Config.remoteSpill gid s.freeCtr

/-! ### The active set (R269) -/

/-- A sequence enters the active set, or is used again in it: LAST_USE; the least recently used one leaves for it. -/
def State.useSeq (s0 : State) (x : Seq) : State :=
  let act := s0.seqs.filter (fun e => e.2.active)
  let out := if x.active ∨ act.length < 1048576 then none else
    act.foldl (fun (b : Option (Nat × Nat)) e => match b with
      | some (_, u) => if e.2.lastUse < u then some (e.1, e.2.lastUse) else b
      | none => some (e.1, e.2.lastUse)) none
  let s1 := match out with
    | some (k, _) => { s0 with seqs := s0.seqs.map (fun (e : Nat × Seq) => if e.1 = k then (e.1, { e.2 with active := false }) else e) }
    | none => s0
  match Table.find s1.seqs x.key with
  | some y => s1.setSeq { y with active := true, lastUse := s0.now }
  | none => s1
/-- A sequence is named by an item: one outside the set has its references read from T2. -/
def State.touchSeq (s : State) (x : Seq) : State := (if x.active ∨ s.t2Bytes = 0 then s else s.stall 2 0 x.tenant).useSeq x

/-! ### Sealing (R279, R314, R330) -/

/-- A page becomes SEALED: queued for coding, and counted for the training of its set. -/
def State.sealPage (s : State) (gid m : Nat) : State :=
  match s.group gid with
  | none => s
  | some g =>
    let set := setOf g.shape
    let p := s.pset g.tenant set
    (s.modPage gid m (fun y => { y with sealed := true, queued := true })).setPset g.tenant set
      { p with recent := ((gid, m) :: p.recent).take 65536, count := p.count + 1 }

/-! ### Images for handoffs and catch-ups (R306, R309) -/

/-- A sequence as it is sent. -/
def State.image (s : State) (x : Seq) : SeqImage :=
  let pgs := x.blocks.flatMap (fun b => match s.group b.2.1 with
    | some g => g.pages.map (fun y => (b.1, b.2.1, y.1, y.2))
    | none => [])
  { fabTag := x.fabTag, seqId := x.id, shape := x.shape, prefixBlocks := x.prefixBlocks, lastKey := x.lastKey,
    blocks := x.blocks.map (fun b => (b.1, b.2.1, b.2.2)),
    pages := (pgs.filter (fun y => y.2.2.2.readTier.isSome)).map (fun y =>
      { layer := layerOf x.shape y.2.2.1, head := headOf x.shape y.2.2.1, block := y.1, group := y.2.1, pos := y.2.2.2.pos,
        dev := y.2.2.2.away.getD s.devId }),
    missing := (pgs.filter (fun y => y.2.2.2.readTier.isNone)).length }

/-- Stores one received page: a full one of a partner's goes to its lowest tier (R310), to T4 by a Write that is begun (R67); any other raw to T1. Where
in the tier it lies is a free value. One that stays at the device it names is only noted (R306). -/
def State.storePage (s0 : State) (t : Nat) (sh : Shape) (shared partner : Bool) (away : Option Nat) (y : PageImage) : State :=
  let m := memberOf sh y.layer y.head
  let gr := plainGranules sh.fmt sh.dim
  let full := decide (64 ≤ y.pos.length)
  let low := if partner ∧ full then s0.lowTier (gr * Config.granule) else 1
  let tier := if low = 4 then 1 else low
  let go := fun (a : State) => if low = 4 then a.setOff y.group m 4 else a
  let w := s0.drawWord
  let s := w.2
  let pg : Page := { pos := y.pos, tier := tier, granules := gr, sealed := full, queued := full && away.isNone, readAt := s.now, away := away,
                     loc := if away.isSome then 0 else s.placeIn tier w.1 }
  match s.group y.group with
  | some g =>
    match Table.find g.pages m with
    | some old => if old.pos.length < y.pos.length then s.putPage y.group m { old with pos := y.pos, sealed := full, queued := full && old.away.isNone } else s
    | none => go (s.putPage y.group m pg)
  | none =>
    let g : Group := { gid := y.group, tenant := t, domain := sh.domain, shape := sh, block := y.block, shared := shared, links := bool01 shared,
                       linkedAt := s.now, partner := partner, pages := [(m, pg)] }
    go { s with groups := Table.put s.groups y.group g }

/-- Committed length of a member from received pages (R268). -/
def imageLen (im : SeqImage) (m : Nat) : Nat :=
  (im.pages.filter (fun y => memberOf im.shape y.layer y.head == m)).foldl (fun n y => Nat.max n (64 * y.block + y.pos.length)) (64 * im.prefixBlocks)

/-- A received sequence: its metadata in state st, and its pages; those of an owner's stay where they lie (R306). -/
def State.storeImage (s : State) (im : SeqImage) (st : Nat) (partnerOf incoming : Option Nat) : State :=
  let t := (s.tagTenant im.fabTag).getD Config.tenants
  let old := s.seq im.fabTag im.seqId
  let line := match old with | some x => x.line | none => s.fmap.nextLine
  let ms := (im.pages.map (fun y => memberOf im.shape y.layer y.head)).eraseDups
  let x : Seq := { fabTag := im.fabTag, id := im.seqId, tenant := t, shape := im.shape, st := st, partnerOf := partnerOf,
                   prefixBlocks := im.prefixBlocks, lastKey := im.lastKey, blocks := im.blocks.foldl (fun a b => Table.put a b.1 (b.2.1, b.2.2)) [],
                   ownerEpoch := s.epoch, copy := if im.missing = 0 then 0 else 1, lastUse := s.now, incoming := incoming,
                   lens := ms.foldl (fun a m => Table.put a m (imageLen im m)) [], line := line }
  let s1 := im.pages.foldl (fun (a : State) y =>
    a.storePage t im.shape ((im.blocks.find? (fun b => b.2.1 == y.group)).elim false (fun b => b.2.2)) partnerOf.isSome
      (if partnerOf.isSome ∨ y.dev = s.devId then none else some y.dev) y) s
  { s1.setSeq x with fmap := { s1.fmap with nextLine := if old.isSome then s1.fmap.nextLine else s1.fmap.nextLine + 1 } }

/-- What a sequence holds at other devices is let go there: its links to their prefix groups, and its own pages that lie there (R266, R306). -/
def State.unlinkFar (s : State) (x : Seq) : State :=
  s.emits ((x.blocks.filter (fun b => groupDev b.2.1 != s.devId)).map (fun b => .unlinkMsg (groupDev b.2.1) b.2.1))
/-- A sequence's metadata goes, its pages and links stay: another device owns it from now on (R306). -/
def State.dropMeta (s : State) (x : Seq) : State := { s with seqs := Table.del s.seqs x.key }
/-- A sequence as one to be freed here while its links stand. -/
def Seq.sansLinks (x : Seq) : Seq := { x with blocks := x.blocks.filter (fun b => !b.2.2) }
/-- What a sequence holds is freed: its private groups, its links, itself (R266, R279). -/
def State.freeSeq (s : State) (x : Seq) : State :=
  let s1 := x.blocks.foldl (fun (a : State) b =>
    if b.2.2 then a.modGroup b.2.1 (fun g => { g with links := g.links - 1 }) else a.dropGroup b.2.1) s
  ({ s1 with seqs := Table.del s1.seqs x.key }).settlePress

end Sys2Proof.Machine
end

