-- ==== Sys2Proof/Machine/MapOps.lean ====
section
/-! DEFINITION. The fabric map: paths, ownership of items, adoption, handoff, takeover, partners and MIRRORs (R301 to R311, R393 to
R400, R454). -/

namespace Sys2Proof.Machine

open Sys2Proof

/-- Members of the adopted map. -/
def State.members (s : State) : List FMember := match s.fmap.map with | some m => m.members | none => []
/-- The times at which members, and devices with which a loan of an extent stands, lost their last path are kept up (R129, R304). -/
def State.notePaths (s : State) : State :=
  let loans := (s.extents.filterMap (fun e => e.2.away)) ++ s.extents.filterMap (fun e => e.2.lent)
  let t := ((s.members.map (fun m => m.dev) ++ loans.eraseDups).filter (· != s.devId)).foldl (fun (a : Table Nat) v =>
    if s.reaches v then Table.del a v
    else match Table.find a v with | some _ => a | none => Table.put a v s.now) s.fmap.lostAt
  { s with fmap := { s.fmap with lostAt := t } }

/-! ### Ownership of items (R197, R305, R306, R454) -/

/-- A hint that names a device (R201). -/
def hintOf (dev epoch : Nat) : Nat := dev * 2 ^ 55 + 2 ^ 54 + epoch % 2 ^ 32
/-- Where a position lies under the adopted map. -/
def State.homeOf (s : State) (pos : Nat) : Option Home := s.fmap.map.bind (fun m => mapHome m pos)
/-- The status and hint of an item for a position that this device does not own; none where it does. -/
def State.notOwned (s : State) (pos hdrEpoch : Nat) : Option (Nat × Nat) :=
  if !s.fmap.member then some (stNotOwner, match s.homeOf pos with | some h => hintOf h.dev s.epoch | none => s.epoch)
  else if s.epoch < hdrEpoch then some (stMoving, s.epoch)
  else
    match s.homeOf pos with
    | some h => if h.dev = s.devId then none else some (stNotOwner, hintOf h.dev s.epoch)
    | none => some (stNotOwner, s.epoch)

/-- What an item finds for its sequence. -/
inductive SeqItem where
  | bad (st hint : Nat)
  | ok (x : Seq)

/-- Resolves the sequence of an item of command `ref` (R219, R263, R266, R278, R305, R306, R399). A command admitted before a
CLOSE_SEQ finishes with the closing sequence. -/
def State.seqItem (s : State) (ref tag id hdrEpoch : Nat) : SeqItem :=
  let before := s.seqs.find? (fun e => e.2.fabTag == tag && e.2.id == id && (e.2.closing.getD []).contains ref)
  match (match before with | some e => some e.2 | none => s.seq tag id) with
  | some x =>
    if x.partnerOf.isNone ∧ x.st = 2 ∧ s.fmap.member ∧ hdrEpoch ≤ s.epoch then
      .bad stMoving (match s.homeOf (seqPos tag id) with | some h => hintOf h.dev s.epoch | none => s.epoch)
    else
      match s.notOwned (seqPos tag id) hdrEpoch with
      | some (st, hint) => .bad st hint
      | none =>
        if x.partnerOf.isSome then .bad stMismatch 0
        else if x.st = 3 then .bad stMoving (hintOf s.devId s.epoch)
        else if x.st = 5 then .bad stSeqLost 0
        else .ok x
  | none =>
    match s.notOwned (seqPos tag id) hdrEpoch with
    | some (st, hint) => .bad st hint
    | none => .bad stMismatch 0

/-! ### Items before COMMIT -/

/-- APPEND items of sequences that `f` picks end with PHASE_ABORTED; their positions stay invisible (R277, R306, R311). -/
def State.abortPend (s : State) (f : PendItem → Bool) : State :=
  (s.pend.filter f).foldl (fun (a : State) q => a.modCmd q.cmd (fun c => c.failItem q.item stPhaseAborted 0 0))
    { s with pend := s.pend.filter (fun q => !f q) }

/-! ### Partners (R309) -/

/-- A sequence of this device under a home just adopted: the claim's epoch, and a partner to bring up to date where the map gives a new one, or gives a
range that was MOVING back. -/
def State.claim (s : State) (x : Seq) (h : Home) : State :=
  let y := { x with ownerEpoch := s.epoch, st := if x.st = 2 then 1 else x.st }
  match h.partner with
  | none => (s.setSeq { y with partner := none, copy := 2 }).flag 0x7000 7 2
  | some d =>
    if x.partner = some d ∧ x.copy ≠ 2 ∧ x.st ≠ 2 then s.setSeq y
    else
      let s1 := s.setSeq { y with partner := some d, copy := 1 }
      (s1.emit (.catchUp d (s1.image y))).flag 0x7000 7 3

/-- A partner's copy becomes the owner's (R306, R393, R399). -/
def State.takeOver (s : State) (x : Seq) (h : Home) : State :=
  let s1 := x.blocks.foldl (fun (a : State) b => a.modGroup b.2.1 (fun g => { g with partner := false })) s
  s1.claim { x with partnerOf := none, st := if x.copy = 0 then 1 else 5, partner := none } h

/-! ### MIRRORs at a partner (R276, R277, R308, R309) -/

/-- Positions of a MIRROR are stored as committed; a page that seals so is demoted to the lowest tier (R310). -/
def State.mirrorStore (s : State) (x : Seq) (m : Mirror) : State :=
  let mem := memberOf x.shape m.layer m.head
  let old := match s.page m.group mem with | some y => y.pos | none => []
  let pos := old.take m.slot ++ m.pos ++ old.drop (m.slot + m.pos.length)
  let s1 := s.storePage x.tenant x.shape false true none { layer := m.layer, head := m.head, block := m.block, group := m.group, pos := pos, dev := s.devId }
  let s2 := s1.modPage m.group mem (fun y => { y with pos := pos })
  let s3 := if 64 ≤ pos.length ∧ old.length < 64 then
      let u := s2.sealPage m.group mem
      match u.page m.group mem with
      | some y => if y.home 1 ∧ y.moving.isNone ∧ u.lowTier y.bytes ≠ 1 then u.setOff m.group mem (u.lowTier y.bytes) else u
      | none => u
    else s2
  s3.setSeq { x with blocks := Table.put x.blocks m.block (m.group, false),
                     lens := Table.put x.lens mem (Nat.max (x.committed mem) (64 * m.block + pos.length)) }

/-- A MIRROR is acknowledged, held or refused. One whose claim is of a higher epoch than this device's own claim of the sequence ends that claim. -/
def State.mirrorIn (s : State) (m : Mirror) : State :=
  if m.epoch < s.epoch then s.emit (.mirrorRefuse m s.epoch)
  else if s.epoch < m.epoch then { s with fmap := { s.fmap with heldMirrors := s.fmap.heldMirrors ++ [m] } }
  else
    match s.homeOf (seqPos m.fabTag m.seqId) with
    | none => s.emit (.mirrorRefuse m s.epoch)
    | some h =>
      if h.dev ≠ m.owner ∨ h.partner ≠ some s.devId then s.emit (.mirrorRefuse m s.epoch)
      else
        match s.seq m.fabTag m.seqId with
        | some x =>
          if x.partnerOf.isNone ∧ x.st ≠ 3 ∧ x.ownerEpoch < m.epoch then
            let s1 := (s.freeSeq x.sansLinks).flag 0x7200 7 3
            { s1 with fmap := { s1.fmap with heldMirrors := s1.fmap.heldMirrors ++ [m] } }
          else
          let have_ := match s.page m.group (memberOf x.shape m.layer m.head) with | some y => y.pos.length | none => 0
          if x.partnerOf = some m.owner ∧ m.slot ≤ have_ then (s.mirrorStore x m).emit (.mirrorAck m)
          else { s with fmap := { s.fmap with heldMirrors := s.fmap.heldMirrors ++ [m] } }
        | none => { s with fmap := { s.fmap with heldMirrors := s.fmap.heldMirrors ++ [m] } }

/-- The held MIRRORs are looked at again. -/
def State.retryMirrors (s : State) : State :=
  s.fmap.heldMirrors.foldl State.mirrorIn { s with fmap := { s.fmap with heldMirrors := [] } }

/-! ### Adoption (R303 to R311, R393, R398, R400) -/

/-- Whether a device is in map m with a die in service. -/
def dieIn (m : FMap) (dev die : Nat) : Bool := m.members.any (fun v => v.dev == dev && bit v.dies die)

/-- One sequence under a newly adopted map m; `was` is its home before. `b` collects what goes to which device. Where the die it was
homed on has left service, a successor that is its partner becomes owner from its own copy (R311); from any other owner in service it
comes by handoff (R306), and from a failed one out of a partner's copy. -/
def State.reseat (a : State × List (Nat × Nat)) (m : FMap) (ring : List RPoint) (was : Option Home) (k : Nat) (x : Seq) :
    State × List (Nat × Nat) :=
  let s := a.1
  let live := match was with | some o => dieIn m o.dev o.die | none => false
  if x.closing.isSome then a else
  match homeAt m ring (seqPos x.fabTag x.id) with
  | none => a
  | some h =>
    match x.partnerOf with
    | none =>
      if h.dev = s.devId then (s.claim x h, a.2)
      else if x.st = 3 then
        (s.freeSeq x, a.2)
      else
        let s1 := (s.abortPend (fun q => q.seq == k)).cutItems (fun _ c i => s.tObj c.tenant 4 == x.fabTag && c.itemSeq i == some x.id && c.waits)
          stPhaseAborted 0
        if !live ∧ x.partner = some h.dev then (s1.freeSeq x.sansLinks, a.2)
        else (s1.setSeq { x with st := if x.st = 5 then 5 else 2 }, a.2 ++ [(h.dev, k)])
    | some o =>
      if h.dev = s.devId then
        (if live ∧ was.map (fun y => y.dev) = some o then s.setSeq { x with st := 3, partnerOf := none, incoming := some o } else s.takeOver x h, a.2)
      else
        let s1 := if m.members.any (fun v => v.dev == o) then s else s.emit (.handoff h.dev [s.image x] [])
        if h.partner = some s.devId then (s1.setSeq { x with partnerOf := some h.dev }, a.2)
        else (if m.members.any (fun v => v.dev == o) then s1.freeSeq x else s1.dropMeta x, a.2)

/-- Prefix entries whose key another device homes under a map, as that device gets them (R306). -/
def State.entriesFor (s : State) (m : FMap) (ring : List RPoint) (dev : Nat) : List PrefixImage :=
  (s.prefixes.filter (fun e => (homeAt m ring (keyPos e.key)).map (fun h => h.dev) == some dev)).map
    (fun e => { key := e.key, gid := e.gid, domain := e.domain, digest := e.digest })

/-- Entries of groups of devices out of the map with no readable copy are removed (R300): the state, and how many. -/
def State.dropPrefixes (s : State) (m : FMap) : State × Nat :=
  let dead := fun (e : PEntry) => !m.members.any (fun v => v.dev == groupDev e.gid) && groupDev e.gid != s.devId
    && !s.spillReadable e.gid
  let n := (s.prefixes.filter dead).length
  if n = 0 then (s, 0) else (({ s with prefixes := s.prefixes.filter (fun e => !dead e) }).flag 0x7000 7 4, n)

/-- A device removed from the map stops: its commands end with NOT_OWNER, its claims are dropped (R308, R400). -/
def State.leaveMap (s : State) : State :=
  let own := s.seqs.filter (fun e => e.2.partnerOf.isNone)
  let hint := fun (x : Cmd) => match x.itemSeq 0 with
    | some id => (match s.notOwned (seqPos (s.tObj x.tenant 4) id) 0 with | some (_, h) => h | none => s.epoch)
    | none => s.epoch
  let s1 := s.cmds.foldl (fun (a : State) e => if e.2.refused.isSome then a else a.failCmd e.1 stNotOwner 0 (hint e.2)) s
  let s2 := own.foldl (fun (a : State) e => a.freeSeq e.2) { s1 with pend := [] }
  if own.isEmpty then s2 else s2.flag 0x7200 7 3

/-- A map comes into force (R301 to R311). -/
def State.adoptMap (s : State) (m : FMap) : State :=
  let old := s.fmap.map
  let oldMembers := s.members
  let isIn := s.assigned && m.members.any (fun v => v.dev == s.devId)
  let left := s.fmap.member && !isIn
  let lost := match s.fmap.expelling with
    | some (d, e) => decide (m.epoch = e) && (m.proposer != s.devId) && m.members.any (fun v => v.dev == d)
    | none => false
  let exp := match s.fmap.expelling with | some (d, e) => if m.epoch < e then some (d, e) else none | none => none
  let keepExp := if m.proposer = s.devId then s.fmap.expelling else exp
  let s1 : State := { s with fmap := { s.fmap with map := some m, member := isIn, expelled := !isIn && (s.fmap.expelled || left), expelling := keepExp } }
  let s2 := (s1.flag 0x7200 7 0).emits (s1.activePeers.map (fun q => .mapSend q m))
  let s3 := if lost then s2.flag 0x9000 8 7 else s2
  if left then s3.leaveMap.notePaths
  else
    let ring := mapPoints m
    let oldRing := match old with | some o => mapPoints o | none => []
    let took := s3.seqs.filter (fun e => e.2.partnerOf.isSome && (homeAt m ring (seqPos e.2.fabTag e.2.id)).map (fun h => h.dev) == some s3.devId)
    let r := s3.seqs.foldl (fun a e => State.reseat a m ring ((old.bind (fun o => homeAt o oldRing (seqPos e.2.fabTag e.2.id)))) e.1 e.2) (s3, [])
    let d := r.1.dropPrefixes m
    let devs := (r.2.map Prod.fst ++ (d.1.prefixes.filterMap (fun e => (homeAt m ring (keyPos e.key)).map (fun h => h.dev))).filter
      (fun v => v != d.1.devId)).eraseDups
    let s4 := devs.foldl (fun (a : State) v =>
      let ks := (r.2.filter (fun x => x.1 == v)).map Prod.snd
      let new := match old with | some o => movedRanges o m a.devId v | none => []
      let h : Handoff := match s.fmap.handoffs.find? (fun (y : Handoff) => y.dev == v && y.seqs.any (fun k => ks.contains k)) with
        | some y => { y with seqs := ks, ranges := (y.ranges ++ new).eraseDups }
        | none => { dev := v, seqs := ks, epoch := m.epoch, at_ := a.now, ranges := new }
      ({ a with fmap := { a.fmap with handoffs := a.fmap.handoffs.filter (fun (y : Handoff) => y.dev != v) ++ [h] } }).emit
        (.handoff v (ks.filterMap (fun k => (Table.find a.seqs k).map a.image)) (a.entriesFor m ring v)))
      { d.1 with fmap := { d.1.fmap with handoffs := [] } }
    let s5 := if devs.isEmpty then s4 else s4.flag 0x7200 7 1
    let gone := oldMembers.filter (fun v => !m.members.any (fun w => w.dev == v.dev) && v.dev != s.devId)
    let s6 := gone.foldl (fun (a : State) v =>
      let mine := match old with | some o => !(movedRanges o m v.dev a.devId).isEmpty | none => false
      if !mine then a
      else
        let rec_ := (took.filter (fun e => e.2.partnerOf == some v.dev && e.2.copy == 0)).length
        let lst := (took.filter (fun e => e.2.partnerOf == some v.dev && e.2.copy != 0)).length
        let a1 := (((a.setObj 0x9200 6 rec_).setObj 0x9200 7 lst).setObj 0x9200 9 d.2).notify 0x0005
          (leBytes 2 v.dev ++ leBytes 4 rec_ ++ leBytes 4 lst ++ leBytes 4 d.2)
        if lst = 0 then a1 else a1.flag 0x9000 8 5) s5
    let fresh := m.members.filter (fun v => v.dev != s.devId && !oldMembers.any (fun w => w.dev == v.dev))
    let s7 := fresh.foldl (fun (a : State) v =>
      a.emits (a.seqs.flatMap (fun e => if e.2.partnerOf.isSome then [] else
        (e.2.blocks.filter (fun b => b.2.2 && groupDev b.2.1 == v.dev)).map (fun b => .linkMsg v.dev b.2.1)))) s6
    s7.notePaths.retryMirrors

/-- Adoption of a map; what hosts have read of the objects it changed is told them (R169). -/
def State.adopt (s : State) (m : FMap) : State := (s.adoptMap m).freshViews

/-- A map of this device's own (R303, R304): epoch + 1, or a given epoch for a reclaim (R307). -/
def State.propose (s : State) (epoch : Nat) (members : List FMember) (overrides : List (Nat × Nat × Nat)) (lastExpel : Option Nat) : State :=
  s.adopt { epoch := epoch, proposer := s.devId, members := members, overrides := overrides.take 256, lastExpel := lastExpel }

/-- The map with this device's dies as they now are, where it is a member (R304). -/
def State.proposeDies (s : State) : State :=
  match s.fmap.map with
  | some m =>
    if s.fmap.member then
      s.propose (m.epoch + 1) (m.members.map (fun v => if v.dev = s.devId then { v with dies := s.rel.dies, group := s.failureGroup } else v))
        m.overrides m.lastExpel
    else s
  | none => s

/-- Members without one device; overrides to it fall away. -/
def State.proposeWithout (s : State) (d : Nat) (expelAt : Option Nat) : State :=
  match s.fmap.map with
  | some m =>
    s.propose (m.epoch + 1) (m.members.filter (fun v => v.dev != d)) (m.overrides.filter (fun o => o.2.2 != d))
      (match expelAt with | some t => some t | none => m.lastExpel)
  | none => s

end Sys2Proof.Machine
end

