-- ==== Sys2Proof/Machine/AttendOps.lean ====
section
/-! DEFINITION. The arithmetic of attention, page selection and the backward pass (R214 to R238). -/

namespace Sys2Proof.Machine

open Sys2Proof

/-! ### Arguments (R214, R215) -/

/-- ARGS of ATTEND and ATTEND_BWD. -/
structure AttArgs where
  layer : Nat
  head : Nat
  group : Nat
  items : Nat
  fmt : Nat
  dim : Nat
  qBf16 : Bool
  outPartial : Bool
  outLse : Bool
  outStats : Bool
  mode : Nat
  scale : Fbits
  tau : Nat
  window : Nat
  topk : Nat
  grad : Nat
deriving DecidableEq, Repr

/-- The arguments of a header. -/
def attArgs (h : Bytes) : AttArgs :=
  let f := arg h 0x1E 1
  { layer := arg h 0x18 2, head := arg h 0x1A 1, group := arg h 0x1B 1, items := arg h 0x1C 2, fmt := f % 4, dim := f / 4 % 4,
    qBf16 := bit f 4, outPartial := bit f 5, outLse := bit f 6, outStats := bit f 7, mode := arg h 0x1F 1, scale := arg h 0x20 4,
    tau := arg h 0x24 1, window := arg h 0x26 2, topk := arg h 0x28 2, grad := arg h 0x30 8 }

/-- One entry of the item table. -/
structure AttItem where
  seq : Nat
  qpos : Nat
  len : Nat
deriving DecidableEq, Repr

/-- Entry i of the item table (R215). -/
def attItem (pay : Bytes) (i : Nat) : AttItem :=
  { seq := field pay (16 * i) 4, qpos := field pay (16 * i + 4) 1, len := field pay (16 * i + 8) 6 }
/-- The item table. -/
def attItems (pay : Bytes) (n : Nat) : List AttItem := (List.range n).map (attItem pay)
/-- Whether an item entry has its reserved bits clear. -/
def attItemClean (pay : Bytes) (i : Nat) : Bool := zeroAt pay (16 * i + 5) 3 && zeroAt pay (16 * i + 14) 2
/-- Rows of an item. -/
def AttArgs.rowsOf (a : AttArgs) (it : AttItem) : Nat := it.qpos * a.group
/-- Rows before item i. -/
def rowsBefore (a : AttArgs) (its : List AttItem) (i : Nat) : Nat := sumNat ((its.take i).map a.rowsOf)

/-! ### Queries and scores (R221, R222) -/

/-- A query row as SCORE takes it: exact codes and s_q. -/
structure QRow where
  codes : List Dy
  sq : Fbits
deriving DecidableEq, Repr

/-- Quantizes a query row; the bf16 path keeps it as it is. -/
def quantQuery (bfPath : Bool) (q : List Fbits) : QRow :=
  if bfPath then { codes := q.map valBf, sq := 0x3F800000 }
  else
    let sq := div32 (bfTo32 (maxAbsBf q)) (rne (Dy.ofInt 127))
    if sq = 0 then { codes := q.map (fun _ => Dy.zero), sq := 0 }
    else { codes := q.map (fun v => Dy.ofInt (clampInt 127 (val32 (div32 (bfTo32 v) sq)).rint)), sq := sq }

/-- The fp32 form of a scale; 1 for KV16. -/
def scale32 (fmt : Nat) (ss : List Fbits) (g : Nat) : Fbits :=
  if fmt = 0 then hfTo32 (ss.getD g 0) else if fmt = 1 then bfTo32 (ss.getD g 0) else 0x3F800000

/-- Exact sum of the products of two lists. -/
def dotDy (a b : List Dy) : Dy := Dy.sum ((a.zip b).map (fun x => x.1.mul x.2))
/-- The n elements of channel group g. -/
def grp {α : Type} (l : List α) (g : Nat) : List α := (l.drop (32 * g)).take 32

/-- The accumulation loop of R222 over the channel groups. -/
def accGroups (fmt ng : Nat) (q : List Dy) (codes : List Nat) (ss : List Fbits) : Fbits :=
  (List.range ng).foldl (fun acc g =>
    add32 acc (mul32 (rne (dotDy (grp q g) ((grp codes g).map (codeVal fmt)))) (scale32 fmt ss g))) 0

/-- The exact sum of R222 over a channel group, rounded, for a bf16 operand that may be infinite or NaN: then what its terms that are not finite add to. -/
def dotBf (fmt : Nat) (q : List Fbits) (codes : List Nat) : Fbits :=
  if q.any badBf then
    (((q.zip codes).filter (fun x => badBf x.1)).map (fun x => mul32 (bfTo32 x.1) (rne (codeVal fmt x.2)))).foldl add32 0
  else rne (dotDy (q.map valBf) (codes.map (codeVal fmt)))
/-- The loop of R222 with a bf16 operand as a payload gives it (R237). -/
def accBf (fmt ng : Nat) (q : List Fbits) (codes : List Nat) (ss : List Fbits) : Fbits :=
  (List.range ng).foldl (fun acc g => add32 acc (mul32 (dotBf fmt (grp q g) (grp codes g)) (scale32 fmt ss g))) 0

/-- The score of a row at a position (R222). -/
def score (fmt dim : Nat) (scale : Fbits) (q : QRow) (p : Pos) : Fbits :=
  mul32 (mul32 (accGroups fmt (groupsOf dim) q.codes p.kc p.ks) q.sq) scale

/-- −∞. -/
def negInf : Fbits := fp32.sign + fp32.inf
/-- The larger of two non-NaN fp32 values. -/
def max32 (a b : Fbits) : Fbits := if ordKey a < ordKey b then b else a

/-! ### Folding and merging (R224 to R228) -/

/-- The state (m, l, o) of a row. -/
structure Fold where
  m : Fbits
  l : Fbits
  o : List Fbits
deriving DecidableEq, Repr

/-- The start state. -/
def fold0 (d : Nat) : Fold := { m := negInf, l := 0, o := List.replicate d 0 }

/-- floor(log2) of a positive dyadic value. -/
def Dy.lg (a : Dy) : Int := (Nat.log2 a.m.natAbs : Int) + a.e

/-- Value contributions of one V group for KV8 and KV4 (R226). -/
def wGroup (fmt g : Nat) (ps : List Fbits) (pos : List Pos) : List Fbits :=
  let ys := (ps.zip pos).map (fun x => mul32 x.1 (scale32 fmt x.2.vs g))
  let top := (ys.map val32).foldl Dy.max Dy.zero
  if top.m = 0 then List.replicate 32 0
  else
    let e : Int := 7 - top.lg
    let zs := ys.map (fun y => match decE4 (rndE4 false ((val32 y).shift e)).1 with | .fin _ z => z | _ => Dy.zero)
    (List.range 32).map (fun c =>
      rne ((val32 (rne (Dy.sum ((zs.zip pos).map (fun x => x.1.mul (codeVal fmt (x.2.vc.getD (32 * g + c) 0))))))).shift (-e)))

/-- Value contributions of a page (R226). -/
def wPage (fmt dim : Nat) (ps : List Fbits) (pos : List Pos) : List Fbits :=
  if fmt = 2 then
    let zs := ps.map (fun p => valBf (toBf p))
    (List.range (dimOf dim)).map (fun c => rne (Dy.sum ((zs.zip pos).map (fun x => x.1.mul (valBf (x.2.vc.getD c 0))))))
  else (List.range (groupsOf dim)).flatMap (fun g => wGroup fmt g ps pos)

/-- One page folded into a row's state (R225); the scores are those of the slots, −∞ where not attended. -/
def foldPage (fmt dim : Nat) (st : Fold) (xs : List Fbits) (pos : List Pos) : Fold :=
  if xs.all (· == negInf) then st
  else
    let m' := xs.foldl max32 st.m
    let al := expE (sub32 st.m m')
    let ps := xs.map (fun x => if x = negInf then 0 else expE (sub32 x m'))
    let lP := ps.foldl add32 0
    { m := m', l := add32 (mul32 st.l al) lP, o := (st.o.zip (wPage fmt dim ps pos)).map (fun x => add32 (mul32 x.1 al) x.2) }

/-- The merge of two states (R227). -/
def mergeFold (a b : Fold) : Fold :=
  let m := max32 a.m b.m
  if m = negInf then { m := negInf, l := 0, o := a.o.map (fun _ => 0) }
  else
    let x := expE (sub32 a.m m)
    let y := expE (sub32 b.m m)
    { m := m, l := add32 (mul32 a.l x) (mul32 b.l y), o := (a.o.zip b.o).map (fun v => add32 (mul32 v.1 x) (mul32 v.2 y)) }

/-- One round of the merge tree: neighbours are merged, an odd last element is carried. -/
def mergeRound {α : Type} (f : α → α → α) : List α → List α
  | a :: b :: t => f a b :: mergeRound f t
  | l => l

/-- The merge tree (R227). -/
def mergeTree {α : Type} (f : α → α → α) : Nat → List α → Option α
  | _, [] => none
  | _, [a] => some a
  | 0, a :: _ => some a
  | n + 1, l => mergeTree f n (mergeRound f l)

/-- Where LOCATE finds a page and in which stored form (R19, R281). -/
structure PageRef where
  tier : Nat := 1
  loc : Nat := 0
  granules : Nat := 0
  slot : Nat := 0
  gen : Nat := 0
  shared : Bool := false
  pinned : Bool := false
  t0 : Bool := false
deriving DecidableEq, Repr

/-- A page as an item sees it: block index, its positions below the item's length, its reference, and whether FILTER keeps it. -/
structure APage where
  block : Nat
  gid : Nat
  pos : List Pos
  keep : Bool := true
  ref : PageRef := {}
  /-- The device where it lies, where that is another one; and whether it is a page of that device's own, and its data cannot be read. -/
  dev : Option Nat := none
  far : Bool := false
  gone : Bool := false
deriving DecidableEq, Repr

/-- The data of a page's PAGE_REF tile: the reference and the summary that FILTER works from (R19, R281). -/
def APage.refData (fmt dim : Nat) (p : APage) : Bytes :=
  let sm := summarize fmt dim p.pos
  leBytes 4 p.block ++ leBytes 1 p.pos.length
    ++ leBytes 1 (bool01 (p.pos.any (fun x => x.global)) + 2 * bool01 p.ref.shared + 4 * bool01 p.ref.pinned + 8 * bool01 p.ref.t0)
    ++ leBytes 1 p.ref.tier ++ leBytes 1 p.ref.granules ++ leBytes 2 p.ref.slot ++ leBytes 1 p.ref.gen ++ zeros 5 ++ leBytes 8 p.ref.loc ++ zeros 8
    ++ sm.bytes
/-- The PAGE_REF tiles of an item: one a page, in ascending block (R179, R281). -/
def refTiles (tenant ref item fmt dim m : Nat) (pages : List APage) : List Tile :=
  pages.zipIdx.map (fun x =>
    let b := x.1.refData fmt dim
    { hdr := ({ kind := 1, fmt := fmt, tenant := tenant, stage := 1, last := x.2 + 1 == pages.length, length := b.length, item := item, no := x.2,
                key := pageId x.1.gid m, ref := ref } : TileHdr).bytes, data := b })

/-- Whether a row at sequence position t may attend slot j of block b (R216). -/
def mayAttend (t b j : Nat) : Bool := decide (64 * b + j ≤ t)
/-- Scores of a page's slots for a row. -/
def pageScores (a : AttArgs) (q : QRow) (t : Nat) (pg : APage) : List Fbits :=
  pg.pos.zipIdx.map (fun x => if mayAttend t pg.block x.2 then score a.fmt a.dim a.scale q x.1 else negInf)

/-- The spans of an item's pages: 16 page indices each (R224). -/
def spans (pages : List APage) : List (List APage) :=
  let n := ceilDiv ((pages.map (fun p => p.block + 1)).foldl Nat.max 0) 16
  (List.range n).map (fun i => pages.filter (fun p => p.block / 16 == i))

/-- A row's result over the kept pages (R224 to R227). -/
def attRow (a : AttArgs) (q : QRow) (t : Nat) (pages : List APage) : Fold :=
  let d := dimOf a.dim
  let fs := (spans pages).map (fun sp => (sp.filter (fun p => p.keep)).foldl (fun st p => foldPage a.fmt a.dim st (pageScores a q t p) p.pos) (fold0 d))
  (mergeTree mergeFold 64 fs).getD (fold0 d)

/-- Whether every score of a row over the kept pages is finite (R219, R222). -/
def scoresFinite (a : AttArgs) (q : QRow) (t : Nat) (pages : List APage) : Bool :=
  (pages.filter (fun p => p.keep)).all (fun p => p.pos.zipIdx.all (fun x =>
    !mayAttend t p.block x.2 || isFin32 (score a.fmt a.dim a.scale q x.1)))

/-! ### Choosing pages (R230 to R233) -/

/-- The bounds U and L of a row on a page (R231), in the order of R222's operations. -/
def bounds (a : AttArgs) (q : QRow) (sm : Summary) : Fbits × Fbits :=
  let ng := groupsOf a.dim
  if sm.scales.contains fp16.inf then (fp32.inf, negInf)
  else
    let cells := fun (g : Nat) => (grp q.codes g).zip ((grp sm.lo g).zip (grp sm.hi g))
    let ends := fun (x : Dy × Int × Int) => (x.1.mul (Dy.ofInt x.2.1), x.1.mul (Dy.ofInt x.2.2))
    let up := fun (g : Nat) => Dy.sum ((cells g).map (fun x => Dy.max (ends x).1 (ends x).2))
    let dn := fun (g : Nat) => Dy.sum ((cells g).map (fun x => Dy.min (ends x).1 (ends x).2))
    let run := fun (md : Rnd) (f : Nat → Dy) =>
      let acc := (List.range ng).foldl (fun acc g =>
        fadd md acc (fp32.rnd md false ((f g).mul (valHf (sm.scales.getD g 0))))) 0
      fmul md (fmul md acc q.sq) a.scale
    let mag := fun (g : Nat) => Dy.sum ((cells g).map (fun x => x.1.abs.mul (Dy.ofInt (max x.2.1.natAbs x.2.2.natAbs : Nat))))
    let w := ((val32 a.scale).mul (val32 q.sq)).mul (Dy.sum ((List.range ng).map (fun g => (valHf (sm.scales.getD g 0)).mul (mag g))))
    let mg := fp32.rnd .up false (w.shift (-18))
    (fadd .up (run .up up) mg, fadd .down (run .down dn) (fneg mg))

/-- Whether R230 keeps a page. One that is missing is kept, and fails the item. -/
def keptAlways (len window : Nat) (p : APage) : Bool :=
  decide (len < 64 * p.block + p.pos.length + window) && decide (0 < p.pos.length) || p.pos.any (fun x => x.global) || p.pos.isEmpty

/-- x ≤ y for non-NaN fp32. -/
def le32 (x y : Fbits) : Bool := decide (ordKey x ≤ ordKey y) || (isFin32 x && isFin32 y && (val32 x).le (val32 y))

/-- The rank of U − M in R233, the difference rounded as all arithmetic of the section is; infinities rank at the ends. -/
def gapOf (u m : Fbits) : Int :=
  let x := sub32 u m
  if isNan32 x then ordKey fp32.inf else if x = 0x80000000 then ordKey 0 else ordKey x

/-- FILTER: the pages with their keep decision (R230 to R233). `rows`: the query rows with their positions. -/
def filterPages (a : AttArgs) (len : Nat) (rows : List (QRow × Nat)) (pages : List APage) : List APage :=
  if a.mode = 0 then pages
  else
    let window := if a.window = 0 then 256 else a.window
    let bs := pages.map (fun p => let sm := summarize a.fmt a.dim p.pos; rows.map (fun r => bounds a r.1 sm))
    let ms := rows.zipIdx.map (fun r => (pages.zip bs).foldl (fun m x =>
      if mayAttend r.1.2 x.1.block 0 ∧ x.1.pos ≠ [] then max32 m ((x.2.getD r.2 (0, 0)).2) else m) negInf)
    if a.mode = 1 then
      let tau := rne (Dy.ofInt (if a.tau = 0 then 16 else a.tau))
      let lims := ms.map (fun m => fadd .down m (fneg tau))
      (pages.zip bs).map (fun x => { x.1 with keep := keptAlways len window x.1 || !((x.2.zip lims).all (fun y => le32 y.1.1 y.2)) })
    else
      let key := fun (b : List (Fbits × Fbits)) => ((b.zip ms).map (fun y => gapOf y.1.1 y.2)).foldl max (ordKey negInf)
      let cand := ((pages.zip bs).filter (fun x => !keptAlways len window x.1)).map (fun x => (x.1.block, key x.2))
      let above := fun (x : Nat × Int) => (cand.filter (fun y => decide (x.2 < y.2) || (y.2 == x.2 && decide (y.1 < x.1)))).length
      let top := (cand.filter (fun x => decide (above x < a.topk))).map Prod.fst
      pages.map (fun p => { p with keep := keptAlways len window p || top.contains p.block })

/-! ### Output (R217, R228) -/

/-- A row in the OUT_PARTIAL = 1 layout (R217), which a PARTIAL tile carries too. -/
def Fold.bytes (f : Fold) : Bytes := leBytes 4 f.m ++ leBytes 4 f.l ++ f.o.flatMap (leBytes 4)
/-- The rows that a PARTIAL tile carries at head dimension d (R217). -/
def foldsOf (d : Nat) (b : Bytes) : List Fold :=
  (chunks (8 + 4 * d) (b.length / (8 + 4 * d)) b).map (fun r =>
    { m := field r 0 4, l := field r 4 4, o := (List.range d).map (fun c => field r (8 + 4 * c) 4) })
/-- Output bytes of one row. A row of mode 2 with no page left has a state and no stated output. -/
def rowOut (a : AttArgs) (f : Fold) : Bytes :=
  if a.outPartial then f.bytes
  else if f.l = 0 then f.o.zipIdx.flatMap (fun x => leBytes 2 (Config.emptyRowOutput x.2))
  else let r := recip32 f.l; f.o.flatMap (fun x => leBytes 2 (toBf (mul32 x r)))
/-- LSE of one row. -/
def rowLse (f : Fold) : Bytes := leBytes 4 (if f.l = 0 then Config.emptyRowLse 0 % 2 ^ 32 else add32 f.m (lnL f.l))

/-- Bytes of each row of the output section. -/
def AttArgs.rowBytes (a : AttArgs) : Nat := if a.outPartial then 8 + 4 * dimOf a.dim else 2 * dimOf a.dim
/-- Size of the result data (R217). -/
def attResult (a : AttArgs) (rows : Nat) : Nat :=
  let o := rows * a.rowBytes
  let l := if a.outLse then roundUp o 64 + 4 * rows else o
  if a.outStats then roundUp l 64 + 8 * a.items else l

/-- What one item gives. -/
structure AttOut where
  rows : List Fold
  read : Nat
  skipped : Nat

/-- The result data of a command (R217). -/
def attBytes (a : AttArgs) (outs : List AttOut) : Bytes :=
  let fs := outs.flatMap (fun o => o.rows)
  let o := fs.flatMap (rowOut a)
  let l := if a.outLse then padTo (roundUp o.length 64) o ++ fs.flatMap rowLse else o
  if a.outStats then padTo (roundUp l.length 64) l ++ outs.flatMap (fun x => leBytes 4 x.read ++ leBytes 4 x.skipped) else l

/-! ### The backward pass (R236 to R238) -/

/-- One row of ATTEND_BWD's payload. -/
structure BwdRow where
  q : List Fbits
  dO : List Fbits
  lse : Fbits
  delta : Fbits

/-- Row r of the payload (R236). -/
def bwdRow (dim : Nat) (b : Bytes) : BwdRow :=
  let d := dimOf dim
  { q := halves d b, dO := halves d (b.drop (2 * d)), lse := field b (4 * d) 4, delta := field b (4 * d + 4) 4 }

/-- fp32 product with an exact value, rounded once. -/
def mulDy (x : Fbits) (d : Dy) : Fbits := if isFin32 x then rne ((val32 x).mul d) else mul32 x (rne d)

/-- The weight and dS of a row at a position it attends (R237). -/
def bwdCell (a : AttArgs) (r : BwdRow) (q : QRow) (p : Pos) : Fbits × Fbits :=
  let pj := expE (sub32 (score a.fmt a.dim a.scale q p) r.lse)
  let dP := accBf a.fmt (groupsOf a.dim) r.dO p.vc p.vs
  (pj, mul32 pj (sub32 dP r.delta))

/-- dQ of a row (R237). -/
def bwdQ (a : AttArgs) (r : BwdRow) (q : QRow) (t : Nat) (pages : List APage) : List Fbits :=
  let d := dimOf a.dim
  let span := fun (sp : List APage) => sp.foldl (fun acc pg => pg.pos.zipIdx.foldl (fun acc x =>
      if mayAttend t pg.block x.2 then
        let c := (bwdCell a r q x.1).2
        acc.zipIdx.map (fun y => add32 y.1 (mulDy c (deq a.fmt x.1.kc x.1.ks y.2)))
      else acc) acc) (List.replicate d 0)
  let q0 := (mergeTree (fun x y => (x.zip y).map (fun v => add32 v.1 v.2)) 64 ((spans pages).map span)).getD (List.replicate d 0)
  q0.map (fun x => mul32 a.scale x)

/-- dK and dV of a position over the command's rows for its sequence in payload order (R237). -/
def bwdKV (a : AttArgs) (rows : List (BwdRow × QRow × Nat)) (b j : Nat) (p : Pos) : Bytes :=
  let d := dimOf a.dim
  let r := rows.foldl (fun (acc : List Fbits × List Fbits) x =>
    if mayAttend x.2.2 b j then
      let c := bwdCell a x.1 x.2.1 p
      ((acc.1.zip x.1.q).map (fun y => add32 y.1 (mul32 c.2 (bfTo32 y.2))), (acc.2.zip x.1.dO).map (fun y => add32 y.1 (mul32 c.1 (bfTo32 y.2))))
    else acc) (List.replicate d 0, List.replicate d 0)
  (r.1.map (fun x => mul32 a.scale x)).flatMap (leBytes 4) ++ r.2.flatMap (leBytes 4)

/-- The gradient region of an item, over the rows of every item of its sequence (R238). -/
def bwdRegion (a : AttArgs) (rows : List (BwdRow × QRow × Nat)) (pages : List APage) : Bytes :=
  pages.flatMap (fun pg => pg.pos.zipIdx.flatMap (fun x => bwdKV a rows pg.block x.2 x.1))

end Sys2Proof.Machine
end

