-- ==== Sys2Proof/Machine/AttendRun.lean ====
section
/-! DEFINITION. ATTEND and ATTEND_BWD as built-in recipes: admission checks, dependencies, items, prefetch (R20, R214 to R219,
R234 to R239, R289 to R292). -/

namespace Sys2Proof.Machine

open Sys2Proof

/-! ### Admission -/

/-- Whether a score scale is positive, finite and normal (R214). -/
def scaleOk (x : Fbits) : Bool := decide (0x00800000 ≤ x) && decide (x < 0x7F800000)

/-- What ATTEND and ATTEND_BWD require alike of the ranges of their arguments (R214, R218). -/
def AttArgs.rangeOk (a : AttArgs) : Bool :=
  decide (1 ≤ a.items) && decide (a.items ≤ 256) && decide (1 ≤ a.group) && decide (a.group ≤ 16)
    && (a.tau == 0 || (decide (8 ≤ a.tau) && decide (a.tau ≤ 30))) && decide (a.mode ≤ 2)
    && ((a.mode == 2) == (a.topk != 0)) && scaleOk a.scale && !(a.outPartial && a.outLse)

/-- Whether the item table is there, its QPOS are in range and the payload has exactly its length, with `w` bytes a row. -/
def AttArgs.layoutOk (a : AttArgs) (h pay : Bytes) (w : Nat) : Bool :=
  let its := attItems pay a.items
  decide (16 * a.items ≤ hLen h) && its.all (fun i => decide (1 ≤ i.qpos) && decide (i.qpos ≤ 8))
    && (hLen h == 16 * a.items + w * sumNat (its.map a.rowsOf))

/-- Whether every item entry has its reserved bits clear. -/
def itemsClean (pay : Bytes) (n : Nat) : Bool := (List.range n).all (attItemClean pay)

/-- Step 6 of ATTEND (R218). DESIGN CHOICE, here and in the other recipes: where a payload breaks several of the requirements of step 6, formats come
before ranges and layout, these before reserved bits, and RESULT_LEN last; R6 and R199 give no order among them. -/
def attendCheck (_ : State) (c : Ctx) : Option (Nat × Nat × Nat) :=
  let a := attArgs c.h
  if a.fmt = 3 ∨ a.dim = 3 then some (stMismatch, 0x0A, 0)
  else if !a.rangeOk ∨ !a.layoutOk c.h c.pay (2 * dimOf a.dim) then some (stMismatch, 0x09, 0)
  else if !itemsClean c.pay a.items then some (stMismatch, 0x02, 0)
  else if hResLen c.h < attResult a (rowsBefore a (attItems c.pay a.items) a.items) then some (stMismatch, 0x0B, 0)
  else none

/-- Status and hint of a slot that step 7 of R199 refuses: not held, or read-only. -/
def State.slotFault (s : State) (p l slot : Nat) : Option (Nat × Nat × Nat) :=
  let gone := some (if s.leaseState p l = 3 then stLeaseExpired else stRevoked, 0x00, slot % 65536)
  match s.slotExt p l slot with
  | none => gone
  | some (_, _, st, ro) => if st = 1 then gone else if ro then some (stDenied, 0x0E, 0) else none

/-- The first slot of `n` from `slot` on that step 7 refuses. -/
def State.firstFault (s : State) (p l slot : Nat) : Nat → Option (Nat × Nat × Nat)
  | 0 => none
  | n + 1 => match s.slotFault p l slot with
    | some f => some f
    | none => s.firstFault p l (slot + 1) n

/-- Positions of a command's items, by their LENGTH fields. -/
def attPositions (a : AttArgs) (pay : Bytes) (i : Nat) : Nat := sumNat (((attItems pay a.items).take i).map (fun x => x.len))

/-- Steps 6 and 7 of ATTEND_BWD (R236, R238). -/
def bwdCheck (s : State) (c : Ctx) : Option (Nat × Nat × Nat) :=
  let a := attArgs c.h
  let d := dimOf a.dim
  let its := attItems c.pay a.items
  if a.fmt = 3 ∨ a.dim = 3 then some (stMismatch, 0x0A, 0)
  else if !a.rangeOk ∨ a.mode ≠ 0 ∨ a.outPartial ∨ a.outLse ∨ a.outStats ∨ a.grad % 64 ≠ 0
      ∨ !a.layoutOk c.h c.pay (4 * d + 8) ∨ its.any (fun i => i.len == 0) then some (stMismatch, 0x09, 0)
  else if !itemsClean c.pay a.items then some (stMismatch, 0x02, 0)
  else if hResLen c.h < 4 * d * rowsBefore a its a.items then some (stMismatch, 0x0B, 0)
  else
    let n := 8 * d * attPositions a c.pay a.items
    let first := a.grad / Config.extentBytes
    let last := (a.grad + n - 1) / Config.extentBytes
    s.firstFault c.p c.l first (Nat.min (last - first) 65536 + 1)

/-! ### Items -/

/-- Fabric tag of a tenant (R336). -/
def State.tagOf (s : State) (t : Nat) : Nat := s.tObj t 4

/-- The copy that a read of a tier takes, with its LOCATION: a fabric address of T1 or T2, of donor memory for T3, or a place in a flash tray (R281). A T0
copy shows the LOCATION of its page's home. -/
def State.copyIn (s : State) (y : Page) (tier : Nat) : PCopy :=
  match tier, y.t0, y.t3 with
  | 0, some c, _ => { c with place := y.loc }
  | 3, _, some c => { c with place := s.donorLoc c }
  | _, _, _ => y.copyAt y.loc 0 0
/-- The reference of a page (R281, R283); of one that lies at another device, the one it has there. -/
def State.pageRef (s : State) (y : Page) (gid m : Nat) (shared : Bool) : PageRef :=
  let tier := y.readTier.getD y.tier
  let c := s.copyIn y tier
  match y.away with
  | none => { tier := tier, loc := c.place, granules := c.granules, slot := c.slot, gen := c.gen, shared := shared, pinned := s.pinned gid m, t0 := y.t0.isSome }
  | some _ =>
    let r := Config.remoteRef (pageId gid m)
    { tier := r.1, loc := r.2.1, granules := r.2.2.1, slot := r.2.2.2.1, gen := r.2.2.2.2, shared := shared, pinned := s.pinned gid m }
/-- What LOCATE gives for a block of a member, for the positions below n (R281). -/
def State.locate (s : State) (m n : Nat) (b : Nat × Nat × Bool) : APage :=
  match s.page b.2.1 m with
  | some y => { block := b.1, gid := b.2.1, pos := y.pos.take (n - 64 * b.1), ref := s.pageRef y b.2.1 m b.2.2, dev := y.away }
  | none =>
    if s.farGroup b.2.1 b.2.2 then
      let r := Config.remoteRef (pageId b.2.1 m)
      { block := b.1, gid := b.2.1, pos := (farPos (pageId b.2.1 m)).take (n - 64 * b.1),
        ref := { tier := r.1, loc := r.2.1, granules := r.2.2.1, slot := r.2.2.2.1, gen := r.2.2.2.2, shared := true },
        dev := some (groupDev b.2.1), far := true, gone := !s.farGood b.2.1 m }
    else { block := b.1, gid := b.2.1, pos := [], gone := true }
/-- The pages of a member that hold positions below n, in ascending block (R281). -/
def State.pagesBelow (s : State) (x : Seq) (m n : Nat) : List APage := (x.blocks.filter (fun b => decide (64 * b.1 < n))).map (s.locate m n)

/-- Reads the kept pages in ascending block: whether each gave data, and the state afterwards. -/
def State.readPages (s : State) (m t : Nat) (mirrored : Bool) (pages : List APage) : Bool × State :=
  pages.foldl (fun a p =>
    if p.gone then (false, a.2) else if p.far then a else let r := a.2.readPage p.gid m t mirrored; (a.1 && r.1, r.2))
    (true, { s with freeCtr := s.freeCtr + 1 })

/-- FETCH of the pages of an item that lie at other devices: their PAGE_REF tiles go there, for the station that runs there for this device's command under the
recipe that they carry (R180, R281). -/
def State.askPages (s : State) (t ref item fmt dim m : Nat) (pages : List APage) : State :=
  ((refTiles t ref item fmt dim m pages).zip pages).foldl (fun (a : State) x => match x.2.dev with
    | some d => a.sendTile d x.1
    | none => a) s

/-- Merges of the span tree for each row: one less than the spans (R227). -/
def spanMerges (pages : List APage) : Nat := (spans pages).length - 1
/-- Pages that FILTER kept. -/
def keptPages (pages : List APage) : Nat := (pages.filter (fun p => p.keep)).length
/-- Whether rows are scored in the bf16 path (R221). -/
def AttArgs.bfPath (a : AttArgs) : Bool := a.qBf16 || a.fmt == 2

/-- FILTER's counters: the pages skipped in modes 1 and 2 (R239). -/
def State.countSkips (s : State) (a : AttArgs) (pages : List APage) : State :=
  if a.mode = 0 then s else s.bump 0x6100 (2 + a.mode) (pages.length - keptPages pages)
/-- Counters of the work of an item whose pages are all folded (R239). -/
def State.attWork (s : State) (a : AttArgs) (rows : Nat) (pages : List APage) : State :=
  let s1 := (s.bump 0x6100 2 (keptPages pages)).bump 0x6100 5 (rows * spanMerges pages)
  if a.bfPath then s1.bump 0x6100 6 rows else s1
/-- Counters of an item that ended OK (R239). -/
def State.attCount (s : State) (a : AttArgs) (rows : Nat) (pages : List APage) : State := (s.bump 0x6100 1 1).attWork a rows pages
/-- Counters of an item that failed behind FILTER: how far SCORE and FOLD had come by then is open (R239). -/
def State.countPart (s : State) (a : AttArgs) (rows : Nat) (pages : List APage) : State :=
  let f := s.drawWord
  let g := f.2.drawWord
  let b := g.2.drawWord
  let s1 := (b.2.bump 0x6100 2 (f.1 % (keptPages pages + 1))).bump 0x6100 5 (g.1 % (rows * spanMerges pages + 1))
  if a.bfPath then s1.bump 0x6100 6 (b.1 % (rows + 1)) else s1

/-- How an item of attention ends. -/
inductive AttEnd where
  /-- A status and hint, and whether NONFINITE is set. -/
  | fail (st hint : Nat) (nonfinite : Bool)
  /-- Length, query rows with their sequence positions, and the pages with FILTER's decision. -/
  | ok (len : Nat) (rows : List (List Fbits × QRow × Nat)) (pages : List APage)

/-- LOCATE, FILTER and FETCH for one item (R216, R219, R221, R230 to R234, R263, R270). `rows` are its query rows. -/
def State.attLocate (s : State) (ref t epoch i : Nat) (a : AttArgs) (it : AttItem) (qs : List (List Fbits)) : AttEnd × State :=
  match s.seqItem ref (s.tagOf t) it.seq epoch with
  | .bad st hint => (.fail st hint false, s)
  | .ok x =>
    let s1 := s.touchSeq x
    if x.shape.fmt ≠ a.fmt ∨ x.shape.dim ≠ a.dim ∨ x.shape.layers ≤ a.layer ∨ x.shape.heads ≤ a.head then (.fail stMismatch 0 false, s1)
    else
      let m := memberOf x.shape a.layer a.head
      let c := x.committed m
      let len := if it.len = 0 then c else it.len
      if 2 ^ 42 < len ∨ c < len ∨ len < it.qpos then (.fail stMismatch 0 false, s1)
      else if qs.any (fun q => q.any badBf) then (.fail stMismatch 0 true, s1)
      else
        let rows := qs.zipIdx.map (fun q => (q.1, quantQuery a.bfPath q.1, len - it.qpos + q.2 / a.group))
        let pages := filterPages a len (rows.map (fun r => r.2)) (s1.pagesBelow x m len)
        let kept := pages.filter (fun p => p.keep)
        let r := ((s1.countSkips a pages).askPages t ref i a.fmt a.dim m kept).readPages m t (x.copy == 0 && x.partner.isSome) kept
        if !r.1 then (.fail stPoisoned 0 false, r.2.countPart a rows.length pages)
        else if !rows.all (fun q => scoresFinite a q.2.1 q.2.2 pages) then (.fail stMismatch 0 true, r.2.countPart a rows.length pages)
        else (.ok len rows pages, r.2)

/-- The query rows of item i, rows of w bytes each. -/
def itemRows (a : AttArgs) (pay : Bytes) (w i : Nat) : List Bytes :=
  let its := attItems pay a.items
  let n := (its.getD i { seq := 0, qpos := 0, len := 0 }).qpos * a.group
  let off := 16 * a.items + w * rowsBefore a its i
  (List.range n).map (fun r => (pay.drop (off + w * r)).take w)

/-- One item of ATTEND: what it gives, and the state. -/
def State.attItemRun (s : State) (ref : Nat) (c : Cmd) (i : Nat) : Option AttOut × State :=
  let a := attArgs c.hdr
  let d := dimOf a.dim
  let it := attItem c.pay i
  let r := s.attLocate ref c.tenant (hEpoch c.hdr) i a it ((itemRows a c.pay (2 * d) i).map (halves d))
  match r.1 with
  | .fail st hint nf =>
    let s1 := if nf then r.2.flag 0x6100 7 0 else r.2
    (none, s1.modCmd ref (fun x => x.failItem i st 0 hint))
  | .ok _ rows pages =>
    let kept := (pages.filter (fun p => p.keep)).length
    let out : AttOut := { rows := rows.map (fun q => attRow a q.2.1 q.2.2 pages), read := kept, skipped := pages.length - kept }
    (some out, (r.2.attCount a rows.length pages).modCmd ref (fun x => x.endItem i 0))

/-- The stages of ATTEND: every item, then the result data (R217). -/
def State.attendRun (s : State) (ref : Nat) : State :=
  match s.cmd ref with
  | none => s
  | some c =>
    let a := attArgs c.hdr
    let s0 := s.modCmd ref (fun x => x.start a.items)
    let r := (List.range a.items).foldl (fun (acc : List AttOut × State) i =>
      let o := if acc.2.todo ref i then acc.2.attItemRun ref c i else (none, acc.2)
      (match o.1 with | some y => acc.1 ++ [y] | none => acc.1, o.2)) ([], s0)
    if r.1.length = a.items then r.2.modCmd ref (fun x => { x with result := attBytes a r.1 }) else r.2

/-! ### Waiting for APPEND (R20) -/

/-- Earlier APPENDs of the ring for the same (layer, KV head) and a sequence of the item table. -/
def State.attendDeps (s : State) (ref : Nat) (c : Cmd) : List Nat :=
  (s.cmds.filter (fun e => decide (e.1 < ref) && e.2.p == c.p && e.2.l == c.l && e.2.r == c.r && e.2.recipe == 3
    && e.2.kvNames.any (fun k => c.kvNames.contains k))).map Prod.fst
/-- What an ATTEND depends on is fixed at its admission (R20): it waits for every such APPEND, and for each sequence the last one decides, so that a
re-issued pair runs. -/
def State.noteDeps (s : State) (ref : Nat) : State :=
  s.modCmd ref (fun x =>
    let ds := s.attendDeps ref x
    let names := fun (d : Nat) (k : Nat × Nat × Nat) => (s.cmd d).elim false (fun y => y.kvNames.contains k)
    { x with deps := ds,
             binds := ds.filter (fun d => x.kvNames.any (fun k => names d k && !ds.any (fun e => decide (d < e) && names e k))),
             doomed := (((s.ld x.p x.l).ring x.r).lostApps).any (fun k => x.kvNames.contains k && !ds.any (fun d => names d k)) })

/-- Whether an ended command failed. -/
def Cmd.failed (x : Cmd) : Bool := x.refused.isSome || x.whole.isSome || x.items.any (fun o => o.isSome && o != some 0)

/-- An ATTEND that waits: it runs once every APPEND it depends on has committed, and ends PHASE_ABORTED if one that decides failed. -/
def State.attendTry (s : State) (ref : Nat) (deps : List Nat) : State :=
  let ds := deps.filterMap (fun d => s.cmd d)
  let doomed := ((s.cmd ref).map (fun x => x.doomed)).getD false
  let bound := (((s.cmd ref).map (fun x => x.binds)).getD []).filterMap (fun d => s.cmd d)
  if doomed ∨ bound.any (fun x => x.ended && x.failed) then s.failCmd ref stPhaseAborted 0
  else if ds.all (fun x => x.ended) then s.attendRun ref
  else s.modCmd ref (fun x => { x with work := .attend deps })

/-- Every waiting ATTEND is looked at again. -/
def State.settleAttend (s : State) : State :=
  s.cmds.foldl (fun (a : State) e => match e.2.work with | .attend deps => a.attendTry e.1 deps | _ => a) s

/-- ATTEND begins its first stage. -/
def State.attendStart (s : State) (ref : Nat) : State :=
  match s.cmd ref with
  | some c => (s.modCmd ref (fun x => x.start (arg c.hdr 0x1C 2))).attendTry ref c.deps
  | none => s

/-! ### The backward pass -/

/-- Stores result bytes at a DPA, slot by slot: the state, whether a part was lost with its backing, and the status and slot of
a part whose extent is gone (R161, R162). -/
def State.gradWrite (s : State) (ref p l : Nat) : Nat → Nat → Bytes → State × Bool × Option (Nat × Nat)
  | 0, _, _ => (s, false, none)
  | n + 1, dpa, b =>
    if b.isEmpty then (s, false, none)
    else
      let k := Config.extentBytes - dpa % Config.extentBytes
      let here := b.take k
      match s.stationCheck ref p l dpa here.length true with
      | .ok _ a => (s.applyWrite a here).gradWrite ref p l n (dpa + k) (b.drop k)
      | .remote e v a => (s.writeAway (.engine (52 * (p / 16)) 0) e v a dpa here false).gradWrite ref p l n (dpa + k) (b.drop k)
      | .lost _ => let r := s.gradWrite ref p l n (dpa + k) (b.drop k); (r.1, true, r.2.2)
      | _ => (s, false, some (if s.leaseState p l = 3 then stLeaseExpired else stRevoked, dpa / Config.extentBytes))

/-- An item of ATTEND_BWD whose pages were read: its sequence, its rows with their queries and sequence positions, its pages. -/
structure BwdItem where
  seq : Nat
  rows : List (BwdRow × QRow × Nat)
  pages : List APage

/-- LOCATE to FETCH for an item of ATTEND_BWD: what it works on, none where it failed (R236). -/
def State.bwdLocate (s : State) (ref : Nat) (c : Cmd) (i : Nat) : Option BwdItem × State :=
  let a := attArgs c.hdr
  let it := attItem c.pay i
  let raw := (itemRows a c.pay (4 * dimOf a.dim + 8) i).map (bwdRow a.dim)
  let r := s.attLocate ref c.tenant (hEpoch c.hdr) i a it (raw.map (fun x => x.q))
  match r.1 with
  | .fail st hint nf => (none, (if nf then r.2.flag 0x6100 7 0 else r.2).modCmd ref (fun x => x.failItem i st 0 hint))
  | .ok _ rows pages => (some { seq := it.seq, rows := (raw.zip rows).map (fun x => (x.1, x.2.2.1, x.2.2.2)), pages := pages }, r.2)

/-- One item of ATTEND_BWD over the rows of the command for its sequence: dQ of its own rows, and the state with dK and dV written (R237, R238). -/
def State.bwdItemRun (s : State) (ref : Nat) (c : Cmd) (all : List BwdItem) (i : Nat) (y : BwdItem) : Option Bytes × State :=
  let a := attArgs c.hdr
  let rows := (all.filter (fun z => z.seq == y.seq)).flatMap (fun z => z.rows)
  let w := s.gradWrite ref c.p c.l 65537 (a.grad + 8 * dimOf a.dim * attPositions a c.pay i) (bwdRegion a rows y.pages)
  let s1 := if w.2.1 || w.2.2.isSome then w.1.flag 0x6100 7 1 else w.1
  match w.2.2 with
  | some (st, slot) => (none, (s1.attWork a y.rows.length y.pages).modCmd ref (fun x => x.failItem i st 0 slot))
  | none =>
    (some (y.rows.flatMap (fun x => (bwdQ a x.1 x.2.1 x.2.2 y.pages).flatMap (leBytes 4))),
      (s1.attCount a y.rows.length y.pages).modCmd ref (fun x => x.endItem i 0))

/-- The stages of ATTEND_BWD. -/
def State.bwdStart (s : State) (ref : Nat) : State :=
  match s.cmd ref with
  | none => s
  | some c =>
    let n := arg c.hdr 0x1C 2
    let s0 := s.modCmd ref (fun x => x.start n)
    let q := (List.range n).foldl (fun (acc : List (Nat × BwdItem) × State) i =>
      let o := if acc.2.todo ref i then acc.2.bwdLocate ref c i else (none, acc.2)
      (match o.1 with | some y => acc.1 ++ [(i, y)] | none => acc.1, o.2)) ([], s0)
    let r := q.1.foldl (fun (acc : List Bytes × State) e =>
      let o := acc.2.bwdItemRun ref c (q.1.map Prod.snd) e.1 e.2
      (match o.1 with | some y => acc.1 ++ [y] | none => acc.1, o.2)) ([], q.2)
    if r.1.length = n then r.2.modCmd ref (fun x => { x with result := r.1.flatten }) else r.2

/-! ### Prefetch (R289, R290) -/

/-- The layers that follow `layer` in a declared order, WINDOW of them; none where it is not in the order. -/
def nextLayers (desc : Bytes) (layer : Nat) : List Nat :=
  let n := field desc 0x0E 2
  let step : Int := toSigned 8 (field desc 0x10 1)
  let order := (List.range n).map (fun (k : Nat) => ((field desc 0x0C 2 : Int) + (k : Int) * step).toNat)
  match order.idxOf? layer with
  | some i => (List.range (field desc 0x11 1)).map (fun k => order.getD ((i + 1 + k) % Nat.max 1 n) 0)
  | none => []

/-- The pages of a sequence's layer that lie in T2, T3 or T4 only begin to be prefetched. -/
def State.prefetchLayer (s : State) (x : Seq) (layer : Nat) : State :=
  if x.shape.layers ≤ layer then s
  else
    (List.range x.shape.heads).foldl (fun (a : State) h =>
      x.blocks.foldl (fun (b : State) e =>
        match b.page e.2.1 (memberOf x.shape layer h) with
        | some y =>
          if y.home 1 ∨ y.away.isSome ∨ y.t0.isSome ∨ y.prefetching then b
          else
            let b1 := b.modPage e.2.1 (memberOf x.shape layer h) (fun z => { z with prefetching := true })
            if y.tier = 4 ∧ y.t3.isNone ∧ y.moving.isNone then b1.nvmeAt 0 (pageId e.2.1 (memberOf x.shape layer h)) y.loc else b1
        | none => b) a) s

/-- What a variant with a declared layer order does for every command it admits, by the layer its arguments give first. -/
def State.prefetch (s : State) (c : Ctx) : State :=
  match c.var with
  | none => s
  | some v =>
    if !bit (field v.hdr 5 1) 0 then s
    else
      let ls := nextLayers v.hdr (arg c.h 0x18 2)
      let tag := s.tagOf c.tenant
      ((itemSeqs c.h c.pay).eraseDups).foldl (fun (a : State) id => match a.seqItem c.ref tag id (hEpoch c.h) with
        | .ok x => ls.foldl (fun (b : State) layer => b.prefetchLayer x layer) a
        | .bad _ _ => a) s

/-- ATTEND (R214 to R235). -/
def attendRecipe : Recipe.Run where
  check := attendCheck
  atAdmit := fun s c => (s.prefetch c).noteDeps c.ref
  start := fun s c => s.attendStart c.ref

/-- ATTEND_BWD (R236 to R238). -/
def bwdRecipe : Recipe.Run where
  check := bwdCheck
  atAdmit := fun s c =>
    let a := attArgs c.h
    (s.prefetch c).modCmd c.ref (fun x => { x with reads := [(a.grad, 8 * dimOf a.dim * attPositions a c.pay a.items)] })
  start := fun s c => s.bwdStart c.ref

/-- ATTEND. -/
def execAttend (p l r : Nat) (s : State) : Res := .next (s.ingest p l r (· == 1) attendRecipe)

/-- ATTEND_BWD. -/
def execAttendBwd (p l r : Nat) (s : State) : Res := .next (s.ingest p l r (· == 2) bwdRecipe)

end Sys2Proof.Machine
end

