-- ==== Sys2Proof/Machine/Append.lean ====
section
/-! DEFINITION. APPEND and its acknowledgements (R263, R268, R270 to R280, R286). -/

namespace Sys2Proof.Machine

open Sys2Proof

/-- ARGS of APPEND (R273). -/
structure AppArgs where
  layer : Nat
  head : Nat
  fmt : Nat
  dim : Nat
  items : Nat
deriving DecidableEq, Repr

/-- The arguments of a header. -/
def appArgs (h : Bytes) : AppArgs :=
  let f := arg h 0x1B 1
  { layer := arg h 0x18 2, head := arg h 0x1A 1, fmt := f % 4, dim := f / 4 % 4, items := arg h 0x1C 2 }

/-- One entry of APPEND's item table. -/
structure AppItem where
  seq : Nat
  npos : Nat
  glob : Bool
  pos : Nat
deriving DecidableEq, Repr

/-- Entry i (R273). -/
def appItem (pay : Bytes) (i : Nat) : AppItem :=
  { seq := field pay (16 * i) 4, npos := field pay (16 * i + 4) 1, glob := bit (field pay (16 * i + 5) 1) 0, pos := field pay (16 * i + 8) 6 }
/-- Whether an entry has its reserved bits clear. -/
def appItemClean (pay : Bytes) (i : Nat) : Bool :=
  decide (field pay (16 * i + 5) 1 < 2) && zeroAt pay (16 * i + 6) 2 && zeroAt pay (16 * i + 14) 2
/-- Positions of the items before item i. -/
def appBefore (pay : Bytes) (i : Nat) : Nat := sumNat ((List.range i).map (fun j => (appItem pay j).npos))

/-- Step 6 of APPEND (R199, R273). -/
def appendCheck (_ : State) (c : Ctx) : Option (Nat × Nat × Nat) :=
  let a := appArgs c.h
  if a.fmt = 3 ∨ a.dim = 3 then some (stMismatch, 0x0A, 0)
  else if a.items < 1 ∨ 256 < a.items ∨ hLen c.h < 16 * a.items
      ∨ (List.range a.items).any (fun i => decide ((appItem c.pay i).npos < 1) || decide (64 < (appItem c.pay i).npos))
      ∨ hLen c.h ≠ 16 * a.items + 4 * dimOf a.dim * appBefore c.pay a.items then some (stMismatch, 0x09, 0)
  else if !(List.range a.items).all (appItemClean c.pay) then some (stMismatch, 0x02, 0)
  else none

/-- The stored form of item i's positions; none where the input is unusable (R274). -/
def appRows (a : AppArgs) (pay : Bytes) (i : Nat) : Option (List Pos) :=
  let d := dimOf a.dim
  let it := appItem pay i
  let off := 16 * a.items + 4 * d * appBefore pay i
  (List.range it.npos).foldr (fun j acc =>
    match quantPos a.fmt a.dim it.glob ((pay.drop (off + 4 * d * j)).take (4 * d)), acc with
    | some x, some l => some (x :: l)
    | _, _ => none) (some [])

/-! ### Storage -/

/-- The group of block b of a sequence, allocated where the block has none (R272). -/
def State.ensureGroup (s : State) (x : Seq) (b : Nat) : Nat × Seq × State :=
  let grp := fun (gid : Nat) => ({ gid := gid, tenant := x.tenant, domain := x.shape.domain, shape := x.shape, block := b } : Group)
  let mk := fun (a : State) (gid : Nat) => ({ a with groups := Table.put a.groups gid (grp gid) } : State)
  match Table.find x.blocks b with
  | some (gid, _) => (gid, x, match s.group gid with | some _ => s | none => mk s gid)
  | none =>
    let g := s.newGid
    let y := { x with blocks := Table.put x.blocks b (g.1, false) }
    (g.1, y, (mk g.2 g.1).setSeq y)

/-- Page m of block b, allocated raw in T1 where there is none, or brought there from the device where it lies (R272, R279). Where in T1 it lies is not
stated. -/
def State.ensurePage (s : State) (x : Seq) (b m : Nat) : Seq × State :=
  let r := s.ensureGroup x b
  let new := fun (ps : List Pos) =>
    let g := r.2.2.drawWord
    (r.2.1, g.2.putPage r.1 m { pos := ps, granules := plainGranules x.shape.fmt x.shape.dim, readAt := s.now, loc := g.2.placeIn 1 g.1 })
  match r.2.2.page r.1 m with
  | some y => if y.away.isSome then new y.pos else (r.2.1, r.2.2)
  | none => new []

/-- Blocks that positions n to n + k - 1 touch. -/
def blocksOf (n k : Nat) : List Nat := if k = 0 then [] else (List.range ((n + k - 1) / 64 - n / 64 + 1)).map (· + n / 64)

/-- The stored position at sequence position t of a member. -/
def State.posAt (s : State) (x : Seq) (m t : Nat) : Option Pos :=
  match Table.find x.blocks (t / 64) with
  | some (gid, shared) => if s.farGroup gid shared then (farPos (pageId gid m))[t % 64]? else (s.page gid m).bind (fun y => y.pos[t % 64]?)
  | none => none

/-! ### Commit -/

/-- A staged item after another one staged n positions from pos0 on: what the two name alike is overwritten (R276). -/
def PendItem.overlay (q : PendItem) (pos0 : Nat) (new : List Pos) : PendItem :=
  { q with pos := q.pos.zipIdx.map (fun e => if pos0 ≤ q.pos0 + e.2 then new.getD (q.pos0 + e.2 - pos0) e.1 else e.1) }
/-- New positions of an item, and the committed length they start at, after what was committed meanwhile. -/
def PendItem.rest (q : PendItem) (c : Nat) : List Pos := q.pos.drop (c - q.pos0)

/-- The staged positions of an item become committed (R276, R279). -/
def State.commitItem (s : State) (q : PendItem) : State :=
  let s0 : State := { s with pend := s.pend.filter (fun y => !(y.cmd == q.cmd && y.item == q.item)) }
  match Table.find s0.seqs q.seq with
  | none => s0.modCmd q.cmd (fun x => x.failItem q.item stMismatch 0 0)
  | some x =>
    let c := Nat.max (x.committed q.member) q.pos0
    let new := q.rest c
    let s1 := (blocksOf c new.length).foldl (fun (a : State) b =>
      match Table.find x.blocks b with
      | none => a
      | some (gid, _) =>
        let lo := Nat.max c (64 * b)
        let part := (new.drop (lo - c)).take (64 * b + 64 - lo)
        let a1 := a.modPage gid q.member (fun y => { y with pos := y.pos.take (lo - 64 * b) ++ part })
        if lo + part.length = 64 * b + 64 then a1.sealPage gid q.member else a1) s0
    let s2 := s1.setSeq (x.setLen q.member (c + new.length))
    let sc : SampleScope := { tenant := some x.tenant, die := (s.homeOf (seqPos x.fabTag x.id)).map (fun h => h.die) }
    let s3 := s2.sample 2 (s.now - q.at_) sc
    (if x.copy = 2 then s3 else s3.sample 3 (s.now - q.at_) sc).modCmd q.cmd (fun y => y.endItem q.item 0)

/-- Sends the MIRRORs of a staged item, one per page (R276). -/
def State.sendMirrors (s : State) (x : Seq) (layer head : Nat) (d : Nat) (q : PendItem) : State :=
  s.emits (q.blocks.map (fun b =>
    let lo := Nat.max q.pos0 (64 * b)
    let ps := (q.pos.drop (lo - q.pos0)).take (64 * b + 64 - lo)
    let old := match s.pageAt x b q.member with | some (_, y) => y.pos.take (lo - 64 * b) | none => []
    .mirror d { owner := s.devId, epoch := x.ownerEpoch, fabTag := x.fabTag, seqId := x.id, layer := layer, head := head, block := b,
                group := (match Table.find x.blocks b with | some (gid, _) => gid | none => 0), slot := lo - 64 * b,
                pos := ps, sum := (summarize x.shape.fmt x.shape.dim (old ++ ps)).bytes }))

/-! ### Items -/

/-- The committed positions that an item compares: equal, unequal or unreadable; `tail` names the tail page where it is extended
(R275, R278). -/
def State.compareItem (s : State) (x : Seq) (m t pos0 : Nat) (ps : List Pos) (tail : List Nat) : Option Bool × State :=
  let r := (blocksOf pos0 ps.length ++ tail).eraseDups.foldl (fun (a : Bool × State) b =>
    match Table.find x.blocks b with
    | some (gid, shared) =>
      if a.2.farGroup gid shared then (a.1 && a.2.farGood gid m, { a.2 with freeCtr := a.2.freeCtr + 1 })
      else let g := a.2.readPage gid m t (x.copy == 0 && x.partner.isSome); (a.1 && g.1, g.2)
    | none => (false, a.2)) (true, s)
  if !r.1 then (none, r.2) else (some (ps.zipIdx.all (fun p => s.posAt x m (pos0 + p.2) == some p.1)), r.2)

/-- One item of APPEND through RESOLVE, STAGE and WITNESS (R275 to R278). -/
def State.appendItem (s : State) (ref : Nat) (c : Cmd) (i : Nat) : State :=
  let a := appArgs c.hdr
  let it := appItem c.pay i
  let fail := fun (u : State) (st hint : Nat) => u.modCmd ref (fun y => y.failItem i st 0 hint)
  match s.seqItem ref (s.tagOf c.tenant) it.seq (hEpoch c.hdr) with
  | .bad st hint => fail s st hint
  | .ok x0 =>
    let s1 := s.touchSeq x0
    let x := (Table.find s1.seqs x0.key).getD x0
    match appRows a c.pay i with
    | none => fail s1 stMismatch 0
    | some ps =>
      let m := memberOf x.shape a.layer a.head
      let n := x.committed m
      if x.shape.fmt ≠ a.fmt ∨ x.shape.dim ≠ a.dim ∨ x.shape.layers ≤ a.layer ∨ x.shape.heads ≤ a.head ∨ n < it.pos
          ∨ 2 ^ 42 < it.pos + it.npos then fail s1 stMismatch 0
      else
        let r := s1.compareItem x m c.tenant it.pos (ps.take (n - it.pos)) (if n % 64 ≠ 0 ∧ n < it.pos + it.npos then [n / 64] else [])
        match r.1 with
        | none => fail r.2 stPoisoned 0
        | some false => fail r.2 stMismatch 0
        | some true =>
          let new := ps.drop (n - it.pos)
          if new.isEmpty then r.2.modCmd ref (fun y => y.endItem i 0)
          else
            let bs := blocksOf n new.length
            let fresh := (bs.filter (fun b => (r.2.pageAt x b m).all (fun y => y.2.away.isSome))).length * shapeSize x.shape
            if !r.2.quotaOk c.tenant fresh then fail r.2 stDenied 0
            else
              let s2 := if fresh = 0 then r.2 else r.2.makeT1 c.tenant fresh (r.2.allPages.length + r.2.groups.length + 1)
              if fresh ≠ 0 ∧ !(s2.t1Soon c.tenant fresh && s2.kvRoom c.tenant fresh) then (fail s2 stRetryBusy 0).flag 0x7000 7 0
              else
                let e := bs.foldl (fun (u : Seq × State) b => u.2.ensurePage u.1 b m) (x, s2)
                let q : PendItem := { cmd := ref, item := i, seq := x.key, member := m, pos0 := n, pos := new, blocks := bs, at_ := s.now }
                match x.copy, x.partner with
                | 2, _ => e.2.commitItem q
                | _, some d =>
                  let old := e.2.pend.map (fun (y : PendItem) => if y.seq = q.seq ∧ y.member = m then y.overlay n new else y)
                  ({ e.2 with pend := old ++ [q] } : State).sendMirrors e.1 a.layer a.head d q
                | _, none => e.2.commitItem q

/-- The stages of APPEND. -/
def State.appendStart (s : State) (ref : Nat) : State :=
  match s.cmd ref with
  | none => s
  | some c =>
    let n := arg c.hdr 0x1C 2
    ((s.modCmd ref (fun x => { x.start n with work := .append })).eachTodo ref n (fun a i => a.appendItem ref c i)).settleAttend

/-- APPEND. -/
def appendRecipe : Recipe.Run where
  check := appendCheck
  atAdmit := State.prefetch
  start := fun s c => s.appendStart c.ref

/-- APPEND (R273 to R280). -/
def execAppend (p l r : Nat) (s : State) : Res := .next (s.ingest p l r (· == 3) appendRecipe)

/-- A MIRROR_ACK for one page; the last one commits the item (R276). -/
def execMirrorAck (cmd item page : Nat) (s : State) : Res :=
  match s.pend.find? (fun q => q.cmd == cmd && q.item == item) with
  | none => .next s
  | some q =>
    let x := (Table.find s.seqs q.seq)
    let here := fun (b : Nat) => match x.bind (fun y => Table.find y.blocks b) with
      | some (gid, _) => pageId gid q.member == page
      | none => false
    let q1 := { q with blocks := q.blocks.filter (fun b => !here b) }
    if q1.blocks.isEmpty then .next (s.commitItem q).settleAttend
    else .next { s with pend := s.pend.map (fun (y : PendItem) => if y.cmd = cmd ∧ y.item = item then q1 else y) }

/-- MIRROR_TIMEOUT after the first MIRROR: PHASE_ABORTED, the positions stay invisible (R277). -/
def execMirrorTimeout (cmd item : Nat) (s : State) : Res :=
  match s.pend.find? (fun q => q.cmd == cmd && q.item == item) with
  | none => .next s
  | some q =>
    .next ((s.atTime (q.at_ + s.obj 0x7200 4 * 1000000)).abortPend (fun y => y.cmd == cmd && y.item == item)).settleAttend

end Sys2Proof.Machine
end

