-- ==== Sys2Proof/Machine/CollOps.lean ====
section
/-! DEFINITION. Collective arithmetic, records and results (R240 to R254). -/

namespace Sys2Proof.Machine

open Sys2Proof

/-! ### Arguments (R241, R242) -/

/-- ARGS of a collective command. -/
structure CollArgs where
  group : Nat
  opSeq : Nat
  rank : Nat
  chunk : Nat
  timeoutMs : Nat
  par : CollParams
deriving DecidableEq, Repr

/-- The arguments of a packet of base recipe `what`. -/
def collArgs (what : Nat) (h pay : Bytes) : CollArgs :=
  let par : CollParams := { recipe := what, nranks := arg h 0x22 2, op := arg h 0x26 1, fmt := arg h 0x27 1, elems := arg h 0x28 4, k := arg h 0x2E 2,
                            base := arg h 0x30 4, header := slice pay 0 64 }
  { group := arg h 0x18 4, opSeq := arg h 0x1C 4, rank := arg h 0x20 2, chunk := arg h 0x24 2, timeoutMs := arg h 0x2C 2, par := par }

/-- Input element code. -/
abbrev inFmt (q : CollParams) : Nat := q.fmt % 16
/-- Output element code. -/
abbrev outFmt (q : CollParams) : Nat := q.fmt / 16
/-- BLOCKS (R242). -/
abbrev blocksIn (q : CollParams) : Nat := ceilDiv q.nranks 256
/-- TOP_HOME of a group header. -/
abbrev topHome (q : CollParams) : Nat := field q.header 2 2 % 512
/-- BLOCK_HOME[b]. -/
abbrev blockHome (q : CollParams) (b : Nat) : Nat := field q.header (0x20 + 2 * b) 2 % 512
/-- Ranks of block b. -/
abbrev blockRanks (q : CollParams) (b : Nat) : Nat := Nat.min 256 (q.nranks - 256 * b)

/-- Whether the formats combine (R243). -/
def collFormats (q : CollParams) : Bool :=
  let i := inFmt q
  let o := outFmt q
  if q.recipe = 9 ∨ q.recipe = 10 then (decide (i ≤ 2) && decide (o ≤ 2)) || (i == 3 && (o == 3 || o == 6))
  else if q.recipe = 11 then decide (i ≤ 8) && o == i
  else (i == 0 || i == 1 || i == 5) && o == 1

/-- The result size (R250). -/
def collSize (q : CollParams) : Nat :=
  if q.recipe = 13 then 8 * q.k
  else if q.recipe = 11 then q.nranks * q.elems * elemSize (outFmt q)
  else if q.recipe = 10 then q.elems / Nat.max 1 q.nranks * elemSize (outFmt q)
  else q.elems * elemSize (outFmt q)

/-- What R244 requires beside the formats. -/
def collRange (a : CollArgs) (len : Nat) : Bool :=
  let q := a.par
  let reduce := q.recipe == 9 || q.recipe == 10
  decide (1 ≤ q.nranks) && decide (q.nranks ≤ 4096) && decide (a.rank < q.nranks) && decide (q.op ≤ 2) && (reduce || q.op == 0)
    && decide (1 ≤ q.elems) && decide (a.timeoutMs ≤ 1000)
    && (if q.recipe = 13 then decide (1 ≤ q.k) && decide (q.k ≤ 1024) else q.k == 0 && q.base == 0)
    && field q.header 0 2 == blocksIn q && (List.range 16).all (fun b => decide (b < blocksIn q) || field q.header (0x20 + 2 * b) 2 == 0)
    && (blocksIn q != 1 || blockHome q 0 == topHome q) && len == 64 + q.elems * elemSize (inFmt q)
    && (q.recipe != 10 || q.elems % q.nranks == 0)

/-- No reserved bit of the group header is set (R6, R242). -/
def collClean (q : CollParams) : Bool :=
  decide (field q.header 2 2 < 512) && zeroAt q.header 4 28 && (List.range 16).all (fun b => decide (field q.header (0x20 + 2 * b) 2 < 512))

/-! ### Arithmetic (R247, R248, R251) -/

/-- The raw elements of a byte string. -/
def rawElems (size : Nat) : Nat → Bytes → List Nat
  | 0, _ => []
  | n + 1, b => field b 0 size :: rawElems size n (b.drop size)

/-- An input element as an accumulator: fp32, or int64 in two's complement. -/
def toAcc (i x : Nat) : Nat :=
  if i = 0 then bfTo32 x else if i = 2 then e4To32 x else if i = 5 then hfTo32 x else if i = 3 then ofSigned 64 (toSigned 32 x) else x

/-- combine (R247). -/
def combine (int64 : Bool) (op a b : Nat) : Nat :=
  if int64 then
    if op = 0 then (a + b) % 2 ^ 64
    else if op = 1 then (if toSigned 64 a < toSigned 64 b then b else a)
    else (if toSigned 64 b < toSigned 64 a then b else a)
  else if op = 0 then add32 a b
  else if isNan32 a || isNan32 b then canonNan
  else if op = 1 then (if ordKey a < ordKey b then b else a)
  else (if ordKey b < ordKey a then b else a)

/-- The loop of R247 over vectors of accumulators. -/
def reduceAll (int64 : Bool) (op : Nat) : List (List Nat) → List Nat
  | [] => []
  | x :: t => t.foldl (fun acc y => (acc.zip y).map (fun p => combine int64 op p.1 p.2)) x

/-- An accumulator in the output format, and whether it saturated (R248). -/
def fromAcc (i o x : Nat) : Nat × Bool :=
  if i = 3 then
    if o = 6 then (x, false)
    else
      let v := toSigned 64 x
      if v > 2147483647 then (0x7FFFFFFF, true) else if v < -2147483648 then (0x80000000, true) else (x % 2 ^ 32, false)
  else if o = 0 then (toBf x, false)
  else if o = 2 then toE4 x
  else (x, false)

/-- A candidate of FILTER_TOPK: fp32 value and vocabulary index. -/
abbrev Cand := Nat × Nat

/-- Whether candidate a ranks strictly above b: higher value, then lower index (R251). Equal ones keep their order. -/
def candAbove (a b : Cand) : Bool :=
  let key := fun (x : Nat) => if x = 0x80000000 then (0 : Int) else ordKey x
  if isNan32 a.1 then isNan32 b.1 && decide (a.2 < b.2)
  else if isNan32 b.1 then true
  else if key a.1 = key b.1 then decide (a.2 < b.2)
  else decide (key b.1 < key a.1)

/-- Inserts a candidate behind those that rank at or above it. -/
def candInsert (a : Cand) : List Cand → List Cand
  | [] => [a]
  | b :: t => if candAbove a b then a :: b :: t else b :: candInsert a t

/-- The top k, in rank order; candidates are given in order of rank. -/
def topK (k : Nat) (l : List Cand) : List Cand := l.foldl (fun acc a => (candInsert a acc).take k) []

/-- Result entries, filled up (R251). -/
def candBytes (k : Nat) (l : List Cand) : Bytes :=
  (l ++ List.replicate (k - l.length) (0xFF800000, 0xFFFFFFFF)).flatMap (fun (c : Cand) => leBytes 4 c.2 ++ leBytes 4 c.1)

/-- Whether a collective accumulates in int64. -/
def accInt (q : CollParams) : Bool := inFmt q == 3
/-- Accumulator size in bytes. -/
def accSize (q : CollParams) : Nat := if accInt q then 8 else 4

/-- A block's partial from its contributions in ascending rank (R247, R249, R251). -/
def blockPartialOf (q : CollParams) (held : List CollHeld) : Bytes :=
  let size := elemSize (inFmt q)
  if q.recipe = 11 then held.flatMap (fun h => h.data)
  else if q.recipe = 13 then
    (topK q.k (held.flatMap (fun h => (rawElems size q.elems h.data).zipIdx.map (fun x => (toAcc (inFmt q) x.1, (h.base + x.2) % 2 ^ 32))))).flatMap
      (fun (c : Cand) => leBytes 4 c.2 ++ leBytes 4 c.1)
  else
    (reduceAll (accInt q) q.op (held.map (fun h => (rawElems size q.elems h.data).map (toAcc (inFmt q))))).flatMap (leBytes (accSize q))

/-- The result from the block partials in ascending block, and whether an element saturated. -/
def topResult (q : CollParams) (parts : List Bytes) : Bytes × Bool :=
  if q.recipe = 11 then (parts.flatten, false)
  else if q.recipe = 13 then
    (candBytes q.k (topK q.k (parts.flatMap (fun b => (rawElems 8 (b.length / 8) b).map (fun e => (e / 2 ^ 32, e % 2 ^ 32))))), false)
  else
    let acc := reduceAll (accInt q) q.op (parts.map (rawElems (accSize q) q.elems))
    let out := acc.map (fromAcc (inFmt q) (outFmt q))
    (out.flatMap (fun x => leBytes (elemSize (outFmt q)) x.1), out.any Prod.snd)

/-- What rank r receives of a result (R249). -/
def rankShare (q : CollParams) (r : Nat) (b : Bytes) : Bytes :=
  if q.recipe = 10 then (b.drop (r * (q.elems / Nat.max 1 q.nranks) * elemSize (outFmt q))).take (collSize q) else b

/-! ### Tiles on TC5 (R177, R245, R346, R348) -/

/-- Tokens that tiles take: headers and data. -/
def tileCost (ts : List Tile) : Nat := sumNat (ts.map (fun t => 32 + t.data.length))

/-- Tiles sent to another device for a tenant of this one: they wait for their tokens in order. -/
def State.sendTiles (s : State) (tag dev : Nat) (ts : List Tile) (o : Output) : State :=
  let all := o :: ts.flatMap (s.tilePackets .root 7 5 dev)
  match s.tagTenant tag with
  | none => s.emits all
  | some t =>
    if s.heldTiles.any (fun h => h.1 == t) then { s.throttle t 5 0 true with heldTiles := s.heldTiles ++ [(t, tileCost ts, all)] }
    else
      let r := s.take t 5 (s.sourceAt .root).1 (tileCost ts)
      if r.1 then r.2.emits all else { r.2 with heldTiles := r.2.heldTiles ++ [(t, tileCost ts, all)] }

/-- Held tiles that have their tokens now go on, in order per tenant. -/
def State.releaseTiles (s : State) : State :=
  s.heldTiles.foldl (fun (a : State) h =>
    if a.heldTiles.any (fun y => y.1 == h.1) then { a with heldTiles := a.heldTiles ++ [h] }
    else
      let r := a.take h.1 5 (a.sourceAt .root).1 h.2.1
      if r.1 then r.2.emits h.2.2 else { r.2 with heldTiles := r.2.heldTiles ++ [h] }) { s with heldTiles := [] }

/-- The tiles of a collective: contributions and block partials as CONTRIB, results as ROWS, in the element format they carry. -/
def State.collTiles (s : State) (tag kind fmt stage ref : Nat) (poison : Bool) (data : Bytes) : List Tile :=
  streamTiles { kind := kind, fmt := fmt, tenant := (s.tagTenant tag).getD Config.tenants, stage := stage, poison := poison, ref := ref } 16384 data
/-- Element format of a block partial. -/
def partFmt (q : CollParams) : Nat := if q.recipe = 11 then inFmt q else if q.recipe = 13 then 8 else if accInt q then 6 else 1
/-- Element format of a result. -/
def resultFmt (q : CollParams) : Nat := if q.recipe = 13 then 8 else outFmt q

/-! ### Commands of ranks -/

/-- Changes the commands of this device that wait for a chunk, for the ranks picked. -/
def State.collCmds (s : State) (key : CollKey) (pick : Nat → Bool) (f : Nat → Cmd → Cmd) : State :=
  { s with cmds := s.cmds.map (fun (e : Nat × Cmd) => match e.2.work with
      | .coll k r => if k = key ∧ pick r then (e.1, { f r e.2 with work := .none }) else e
      | _ => e) }

/-- The command of a rank that a CMD_REF names ends with a status, and no other (R177, R246). -/
def State.collEnd (s : State) (key : CollKey) (rank ref st reason : Nat) : State :=
  { s with cmds := s.cmds.map (fun (e : Nat × Cmd) =>
      if e.2.work = .coll key rank ∧ e.1 % 2 ^ 20 = ref then (e.1, { e.2.failAll st reason with work := .none }) else e) }
/-- A contribution ends at this home with a status. -/
def State.collStatus (s : State) (key : CollKey) (dev rank ref st reason : Nat) : State :=
  if dev = s.devId then s.collEnd key rank ref st reason else s.emit (.collStatus dev key false rank ref st reason)

/-- A contribution is refused where it arrives: one of this device's own commands ends with the status, alone; another device is told (R246). -/
def State.collRefuse (s : State) (src : Option Nat) (c : Contribution) (st reason : Nat) : State :=
  match src with
  | some ref => s.modCmd ref (fun x => { x.failAll st reason with work := .none })
  | none => s.collStatus c.key c.dev c.rank c.ref st reason

/-- A result reaches this device: its ranks' commands end (R245, R254). -/
def State.collDeliver (s : State) (key : CollKey) (data : Bytes) (poison : Bool) : State :=
  s.collCmds key (fun _ => true) (fun r x =>
    if poison then x.failAll stPoisoned 0
    else { x.endItem 0 0 with result := rankShare (collArgs x.recipe x.hdr x.pay).par r data })

/-! ### Records at homes (R246, R252, R253) -/

/-- The record of a chunk here, for a block or the top. -/
def State.collRec (s : State) (key : CollKey) (isTop : Bool) (block : Nat) : Option CollRec :=
  s.colls.find? (fun r => r.key == key && r.isTop == isTop && (isTop || r.block == block))
/-- Removes a record. -/
def State.dropRec (s : State) (r : CollRec) : State :=
  { s with colls := s.colls.filter (fun (y : CollRec) => !(y.key == r.key && y.isTop == r.isTop && y.block == r.block)) }
/-- Stores a record. -/
def State.putRec (s : State) (r : CollRec) : State := { s.dropRec r with colls := (s.dropRec r).colls ++ [r] }

/-- Staging held by a fabric tag, in bytes. -/
def State.stagedBy (s : State) (tag : Nat) : Nat := sumNat (s.colls.map (fun r => if r.key.fabTag = tag then r.staged else 0))
/-- Staging in use. -/
def State.staged (s : State) : Nat := sumNat (s.colls.map (fun r => r.staged))
/-- Staging kept for the STRICT tenants other than the one of a tag (R340). -/
def State.stagingHold (s : State) (tag : Nat) : Nat :=
  sumNat ((s.strictTenants.filter (fun u => s.tObj u 4 != tag)).map (fun u => s.obj 0x6200 3 * 2 ^ 20 - s.stagedBy (s.tObj u 4)))

/-- Space a record reserves (R252). -/
def recSpace (q : CollParams) (isTop : Bool) (b : Nat) : Nat :=
  if !isTop then blockRanks q b * q.elems * elemSize (inFmt q)
  else if q.recipe = 13 then blocksIn q * 8 * q.k
  else if q.recipe = 11 then q.nranks * q.elems * elemSize (inFmt q)
  else blocksIn q * q.elems * accSize q

/-- Whether a reservation fits, and whether the tenant's limit is what it breaks. -/
def State.stagingFits (s : State) (tag n : Nat) : Bool × Bool :=
  let full := decide (s.obj 0x6200 3 * 2 ^ 20 < s.stagedBy tag + n)
  (!full && decide (s.staged + s.stagingHold tag + n ≤ s.obj 0x6200 2 * 2 ^ 20), full)

/-- Whether a contribution's parameters are those the record fixed; BASE is each rank's own. -/
def sameParams (a b : CollParams) : Bool := { a with base := 0 } == { b with base := 0 }

/-- The timeout of a record, in ns. -/
def State.recTimeout (s : State) (ms : Nat) : Nat := (if ms = 0 then s.obj 0x6200 1 else ms) * 1000000

/-- The devices of a record's held contributions, other than this one. -/
def State.recDevs (s : State) (r : CollRec) : List Nat := ((r.held.map (fun h => h.dev)).eraseDups).filter (fun d => d != s.devId)

/-- Homes of a chunk's blocks other than this device. -/
def State.otherHomes (s : State) (q : CollParams) : List Nat :=
  (((List.range (blocksIn q)).map (blockHome q)).eraseDups).filter (fun d => d != s.devId)

/-- The record a home opens for a chunk. -/
def State.freshRec (s : State) (key : CollKey) (q : CollParams) (isTop : Bool) (block timeoutMs staged : Nat) : CollRec :=
  { key := key, par := q, tenant := (s.tagTenant key.fabTag).getD Config.tenants, isTop := isTop, block := block, opened := s.now,
    timeoutMs := timeoutMs, staged := staged }

/-- One record is aborted: its contributions complete, and it stays to refuse late ones; the top home aborts at every block home (R253). -/
def State.abortRec (s : State) (r : CollRec) : State :=
  let s1 := (s.putRec { r with held := [], staged := 0, abortedAt := some s.now }).bump 0x6200 7 1
  let s2 := s1.emits ((if r.isTop then s.otherHomes r.par else s.recDevs r).map (fun d => .collAbort d r.key r.par r.timeoutMs))
  (s2.collCmds r.key (fun k => r.isTop || k / 256 == r.block) (fun _ x => x.failAll stPhaseAborted 0)).flag 0x6200 10 1

/-- Every live record of a chunk at this device is aborted, and its ranks' commands end. -/
def State.abortKey (s : State) (key : CollKey) : State :=
  (s.colls.filter (fun r => r.key == key && r.abortedAt.isNone)).foldl (fun (a : State) r => a.abortRec r)
    (s.collCmds key (fun _ => true) (fun _ x => x.failAll stPhaseAborted 0))

/-- Whether a home has a record of a chunk that stands: a live one, or an aborted one that still refuses late contributions (R253). -/
def State.standing (s : State) (key : CollKey) (isTop : Bool) (b : Nat) : Bool :=
  match s.collRec key isTop b with
  | some r => (match r.abortedAt with | some t => decide (s.now < t + 2 * s.recTimeout r.timeoutMs) | none => true)
  | none => false
/-- An abort of a chunk reaches this device (R253): its records are aborted, and where it is a home with no record that stands, one is kept that
refuses late contributions; the top home tells every other block home. -/
def State.abortAll (s : State) (key : CollKey) (q : CollParams) (timeoutMs : Nat) : State :=
  let s1 := s.abortKey key
  let dead := fun (isTop : Bool) (b : Nat) => { s1.freshRec key q isTop b timeoutMs 0 with abortedAt := some s1.now }
  let s2 := if topHome q = s1.devId ∧ 1 < blocksIn q ∧ !s1.standing key true 0
    then (s1.putRec (dead true 0)).emits ((s1.otherHomes q).map (fun d => .collAbort d key q timeoutMs)) else s1
  ((List.range (blocksIn q)).filter (fun b => blockHome q b == s1.devId)).foldl (fun (a : State) b =>
    if a.standing key false b then a else a.putRec (dead false b)) s2

/-- A result leaves the top home: to this device's ranks, and one copy to each of the devices that hold the others (R245, R249). -/
def State.scatter (s : State) (key : CollKey) (q : CollParams) (devs : List Nat) (opened : Nat) (data : Bytes) (sat poison : Bool) : State :=
  let s1 := (s.bump 0x6200 6 1).sample 14 (s.now - opened) { tenant := s.tagTenant key.fabTag }
  let s2 := if sat && !poison then s1.flag 0x6200 10 3 else s1
  let d := if poison then [] else data
  let ts := s.collTiles key.fabTag 5 (resultFmt q) 1 0 poison d
  let s3 := devs.foldl (fun (a : State) v => a.sendTiles key.fabTag v ts (.collResult v key d poison ts)) s2
  { s3 with colls := s3.colls.filter (fun (r : CollRec) => !(r.key == key && !r.isTop && r.sent)) }.collDeliver key data poison

/-- A block's partial is refused at the top home: the block's contributions end with the status (R246, R252). -/
def State.blockRefused (s : State) (key : CollKey) (block st reason : Nat) : State :=
  match s.collRec key false block with
  | some r => (r.held.foldl (fun (b : State) h => b.collStatus key h.dev h.rank h.ref st reason) s).dropRec r
  | none => s

/-- A block partial's end at the top home with a status: at the block home, this device or another. -/
def State.partRefuse (s : State) (key : CollKey) (dev block st reason : Nat) : State :=
  if dev = s.devId then s.blockRefused key block st reason else s.emit (.collStatus dev key true block 0 st reason)

/-- A partial joins the top record; the last one completes the operation, whose result goes to each device that holds ranks (R245, R247). -/
def State.topAdd (s : State) (r : CollRec) (h : CollHeld) : State :=
  let r1 := { r with held := r.held.filter (fun y => decide (y.rank < h.rank)) ++ [h] ++ r.held.filter (fun y => decide (h.rank < y.rank)) }
  if r1.held.length < blocksIn r.par then s.putRec r1
  else
    let bad := r1.held.any (fun y => y.poison)
    let res := if bad then ([], false) else topResult r.par (r1.held.map (fun y => y.data))
    let devs := ((r1.held.flatMap (fun y => y.devs)).eraseDups).filter (fun d => d != s.devId)
    (s.dropRec r).scatter r.key r.par devs r.opened res.1 res.2 bad

/-- A partial opens the top record, or is refused for lack of staging (R252). -/
def State.topOpen (s : State) (key : CollKey) (q : CollParams) (timeoutMs : Nat) (h : CollHeld) : State :=
  let n := recSpace q true 0
  let fits := s.stagingFits key.fabTag n
  if fits.1 then s.topAdd (s.freshRec key q true 0 timeoutMs n) h
  else
    let s1 := s.partRefuse key h.dev h.rank stRetryBusy 0
    if fits.2 then s1.flag 0x6200 10 0 else s1

/-- A block partial at the top home (R246, R247, R252, R253). -/
def State.topIn (s : State) (key : CollKey) (q : CollParams) (timeoutMs : Nat) (h : CollHeld) : State :=
  match s.collRec key true 0 with
  | some r =>
    match r.abortedAt with
    | some t =>
      if s.now < t + 2 * s.recTimeout r.timeoutMs then
        (if h.dev = s.devId then (match s.collRec key false h.rank with | some b => s.abortRec b | none => s)
         else s.emit (.collAbort h.dev key r.par r.timeoutMs))
      else (s.dropRec r).topOpen key q timeoutMs h
    | none =>
      if !sameParams r.par q then (s.partRefuse key h.dev h.rank stMismatch 0x09).flag 0x6200 10 2
      else match r.held.find? (fun y => y.rank == h.rank) with
        | some y =>
          if y.data = h.data then
            s.putRec { r with held := r.held.map (fun z => if z.rank = h.rank then { z with devs := (z.devs ++ h.devs).eraseDups } else z) }
          else s.partRefuse key h.dev h.rank stMismatch 0x09
        | none => s.topAdd r h
  | none => s.topOpen key q timeoutMs h

/-- The contributions of a block in ascending rank, the first for each (R246). -/
def CollRec.ranks (r : CollRec) : List CollHeld :=
  (List.range (blockRanks r.par r.block)).filterMap (fun i => r.held.find? (fun h => h.rank == 256 * r.block + i))
/-- A block's partial goes to the top home, with devices that hold its ranks (R245). -/
def State.sendPart (s : State) (r : CollRec) (devs : List Nat) : State :=
  let bad := r.ranks.any (fun h => h.poison)
  let part := if bad then [] else blockPartialOf r.par r.ranks
  let h : CollHeld := { rank := r.block, dev := s.devId, devs := devs, data := part, poison := bad }
  if topHome r.par = s.devId then s.topIn r.key r.par r.timeoutMs h
  else
    let ts := s.collTiles r.key.fabTag 7 (partFmt r.par) 1 0 bad part
    s.sendTiles r.key.fabTag (topHome r.par) ts (.blockPartial (topHome r.par) r.key r.par r.block r.timeoutMs devs part bad ts)
/-- A block whose contributions are all here: the partial goes to the top home, or is the result (R245, R247). -/
def State.blockDone (s : State) (r : CollRec) : State :=
  if blocksIn r.par = 1 then
    let bad := r.ranks.any (fun h => h.poison)
    let res := if bad then ([], false) else topResult r.par [blockPartialOf r.par r.ranks]
    (s.dropRec r).scatter r.key r.par (s.recDevs r) r.opened res.1 res.2 bad
  else
    let devs := (r.held.map (fun h => h.dev)).eraseDups
    (s.putRec { r with staged := 0, sent := true, told := devs }).sendPart r devs

/-- A contribution joins a record. -/
def State.collAdd (s : State) (r : CollRec) (c : Contribution) : State :=
  let r1 := { r with held := r.held ++ [{ rank := c.rank, dev := c.dev, base := c.par.base, data := c.data, poison := c.poison, ref := c.ref }] }
  if ((r1.held.map (fun h => h.rank)).eraseDups).length < blockRanks r.par r.block then s.putRec r1 else (s.putRec r1).blockDone r1

/-- A contribution opens a record, or is refused for lack of staging (R252). -/
def State.collOpen (s : State) (src : Option Nat) (c : Contribution) : State :=
  let b := c.rank / 256
  let n := recSpace c.par false b
  let fits := s.stagingFits c.key.fabTag n
  if fits.1 then s.collAdd (s.freshRec c.key c.par false b c.timeoutMs n) c
  else
    let s1 := s.collRefuse src c stRetryBusy 0
    if fits.2 then s1.flag 0x6200 10 0 else s1

/-- A contribution at its block home (R246, R252, R253). -/
def State.collIn (s : State) (src : Option Nat) (c : Contribution) : State :=
  match s.collRec c.key false (c.rank / 256) with
  | none => s.collOpen src c
  | some r =>
    match r.abortedAt with
    | some t =>
      if s.now < t + 2 * s.recTimeout r.timeoutMs then s.collRefuse src c stPhaseAborted 0 else (s.dropRec r).collOpen src c
    | none =>
      if r.sent ∧ r.opened + 2 * s.recTimeout r.timeoutMs + 10000000 < s.now then (s.dropRec r).collOpen src c
      else if !sameParams r.par c.par then (s.collRefuse src c stMismatch 0x09).flag 0x6200 10 2
      else
        match r.held.find? (fun h => h.rank == c.rank) with
        | some h =>
          if h.data = c.data then
            (if r.held.any (fun y => y.rank == c.rank && y.dev == c.dev && y.ref == c.ref) then s
             else
               let r1 := { r with held := r.held ++ [{ rank := c.rank, dev := c.dev, base := c.par.base, data := c.data, poison := c.poison, ref := c.ref }],
                                  told := (r.told ++ [c.dev]).eraseDups }
               let s1 := s.putRec r1
               if r.sent ∧ !r.told.contains c.dev then s1.sendPart r1 [c.dev] else s1)
          else s.collRefuse src c stMismatch 0x09
        | none => s.collAdd r c

end Sys2Proof.Machine
end

