-- ==== Sys2Proof/Machine/Coll.lean ====
section
/-! DEFINITION. The collective commands and the tiles between homes (R240 to R254). -/

namespace Sys2Proof.Machine

open Sys2Proof

/-- Step 6 of a collective command (R243, R244). -/
def collCheck (what : Nat) (_ : State) (c : Ctx) : Option (Nat × Nat × Nat) :=
  let a := collArgs what c.h c.pay
  if !collFormats a.par then some (stMismatch, 0x0A, 0)
  else if !collRange a (hLen c.h) then some (stMismatch, 0x09, 0)
  else if !collClean a.par then some (stMismatch, 0x02, 0)
  else if hResLen c.h < collSize a.par then some (stMismatch, 0x0B, 0)
  else none

/-- The contribution goes to its block home; without a route to every home the command ends PHASE_ABORTED (R245). -/
def State.collStart (s : State) (ref what : Nat) : State :=
  match s.cmd ref with
  | none => s
  | some c =>
    let a := collArgs what c.hdr c.pay
    let key : CollKey := { fabTag := s.tagOf c.tenant, group := a.group, opSeq := a.opSeq, chunk := a.chunk }
    let homes := topHome a.par :: (List.range (blocksIn a.par)).map (blockHome a.par)
    let s0 := s.modCmd ref (fun x => { x with items := [none], work := .none })
    if homes.any (fun d => d != s.devId && !s.reaches d) then s0.modCmd ref (fun x => x.failAll stPhaseAborted 0)
    else
      let x : Contribution :=
        { key := key, par := a.par, rank := a.rank, dev := s.devId, timeoutMs := a.timeoutMs, data := c.pay.drop 64, poison := false, ref := ref % 2 ^ 20 }
      let s1 := s0.modCmd ref (fun y => { y with work := .coll key a.rank })
      let home := blockHome a.par (a.rank / 256)
      if home = s.devId then s1.collIn (some ref) x
      else
        let ts := s.collTiles key.fabTag 7 (inFmt a.par) 0 ref false x.data
        s1.sendTiles key.fabTag home ts (.contrib home x ts)

/-- A collective recipe. -/
def collRecipe (what : Nat) : Recipe.Run where
  check := collCheck what
  start := fun s c => s.collStart c.ref what

/-- ALLREDUCE (R247 to R249). -/
def execAllreduce (p l r : Nat) (s : State) : Res := .next (s.ingest p l r (· == 9) (collRecipe 9))
/-- REDUCE_SCATTER (R247 to R249). -/
def execReduceScatter (p l r : Nat) (s : State) : Res := .next (s.ingest p l r (· == 10) (collRecipe 10))
/-- ALLGATHER (R249). -/
def execAllgather (p l r : Nat) (s : State) : Res := .next (s.ingest p l r (· == 11) (collRecipe 11))
/-- FILTER_TOPK (R251). -/
def execFilterTopk (p l r : Nat) (s : State) : Res := .next (s.ingest p l r (· == 13) (collRecipe 13))

/-- Whether the headers that tiles of a collective came with pass the check of R180. -/
def hdrsOk (hdrs : List Bytes) : Bool := hdrs.all hdrOk
/-- Whether one of them carries POISON. -/
def hdrsPoison (hdrs : List Bytes) : Bool := hdrs.any (fun b => (tileHdr b).poison)

/-- A contribution arrives at a block home (R245, R246). One for a block that this device does not home is dropped; one with a bad HCRC ends
its command (R180). -/
def execCollContribution (c : TiledContribution) (s : State) : Res :=
  let x := c.body
  .next (if blockHome x.par (x.rank / 256) = s.devId ∧ x.rank < x.par.nranks then
    (if hdrsOk c.hdrs then s.collIn none { x with poison := x.poison || hdrsPoison c.hdrs }
     else (s.collRefuse none x stFault 0x20).flag 0x6000 6 2) else s)

/-- A block partial arrives at the top home, with the devices of the block's ranks (R245, R247). -/
def execCollBlockPartial (key : CollKey) (par : CollParams) (block timeoutMs : Nat) (b : BlockSum) (hdrs : List Bytes)
    (s : State) : Res :=
  .next (if topHome par = s.devId ∧ block < blocksIn par then
    (if hdrsOk hdrs then
      s.topIn key par timeoutMs { rank := block, dev := blockHome par block, devs := b.devs, data := b.data, poison := b.poison || hdrsPoison hdrs }
     else (s.partRefuse key (blockHome par block) block stFault 0x20).flag 0x6000 6 2) else s)

/-- A home's answer arrives. A result: this device's ranks end, and its records of the chunk's blocks; a refusal ends the command it names, or the block's
contributions (R245, R246, R252). -/
def execCollResult (key : CollKey) (a : CollAnswer) (hdrs : List Bytes) (s : State) : Res :=
  match a with
  | .refused true n _ st reason => .next (s.blockRefused key n st reason)
  | .refused false n ref st reason => .next (s.collEnd key n ref st reason)
  | .result data poison =>
    if !hdrsOk hdrs then .next ((s.collCmds key (fun _ => true) (fun _ x => x.failAll stFault 0x20)).flag 0x6000 6 2)
    else
      let bad := poison || hdrsPoison hdrs
      let mine := s.colls.filter (fun r => r.key == key && !r.isTop && r.sent)
      .next ((mine.foldl (fun (b : State) r => b.dropRec r) s).collDeliver key data bad)

/-- The last contribution of a record is not in within TIMEOUT_MS: the home aborts the chunk (R253). -/
def execCollRecordTimeout (key : CollKey) (at_ : RecordAt) (s : State) : Res :=
  let isTop : Bool := at_ == .top
  let mine := fun (r : CollRec) => match at_ with | .top => r.isTop | .block b => !r.isTop && r.block == b
  match s.colls.find? (fun r => r.key == key && mine r && r.abortedAt.isNone && !r.sent) with
  | none => .next s
  | some r =>
    let s1 := (s.atTime (r.opened + s.recTimeout r.timeoutMs)).abortRec r
    if isTop ∨ blocksIn r.par = 1 ∨ topHome r.par = s.devId then .next (s1.abortAll key r.par r.timeoutMs)
    else .next (s1.emit (.collAbort (topHome r.par) key r.par r.timeoutMs))

/-- No result and no abort within 2 × TIMEOUT_MS + 10 ms of admission: PHASE_ABORTED (R253). -/
def execCollRankTimeout (cmd : Nat) (s : State) : Res :=
  match s.cmd cmd with
  | some x =>
    match x.work with
    | .coll _ _ =>
      let ms := (collArgs x.recipe x.hdr x.pay).timeoutMs
      .next ((s.atTime (x.at_ + 2 * s.recTimeout ms + 10000000)).modCmd cmd (fun y => { y.failAll stPhaseAborted 0 with work := .none }))
    | _ => .next s
  | none => .next s

/-- An abort of a chunk arrives from another home, or at a rank's device (R253). -/
def execCollChunkAbort (k : ChunkAbort) (s : State) : Res := .next (s.abortAll k.key k.par k.timeoutMs)

end Sys2Proof.Machine
end

