-- ==== Sys2Proof/Machine/SwitchOps.lean ====
section
/-! DEFINITION. The switch cores: ports, minima and shared pools, routes, arbiters (R97 to R116). -/

namespace Sys2Proof.Machine

open Sys2Proof

/-! ### Ports and minima (R97, R103, R104) -/

/-- Minimum of a flex port in a class, KiB. -/
def State.flexMin (s : State) (p tc : Nat) : Nat := s.obj (0x4100 + p) (tc + 1)
/-- Minimum of a peer port in a class, KiB. -/
def State.peerMin (s : State) (q tc : Nat) : Nat := s.obj (0x4180 + q) (tc + 1)
/-- Minimum of the other crossbar ports in a class, KiB. -/
def innerMin (tc : Nat) : Nat := if tc = 0 then 16 else 32
/-- Minima of one port over its classes, KiB. -/
def minSum (f : Nat → Nat) : Nat := sumNat ((List.range 8).map f)
/-- The other die of die-to-die link k of die d (R97). -/
def linkDie (d k : Nat) : Nat := if k < d then k else k + 1
/-- The link of die d toward another die, and its first member port. -/
def linkOut (d e : Nat) : Nat := 24 + 3 * (if e < d then e else e - 1)
/-- Minima of the flex and peer ports of a die in service, KiB. -/
def State.portMinima (s : State) (d : Nat) : Nat :=
  sumNat ((List.range 16).map (fun i => if s.flexOn (16 * d + i) then minSum (s.flexMin (16 * d + i)) else 0))
    + sumNat ((List.range 8).map (fun i => if s.peerOn (8 * d + i) then minSum (s.peerMin (8 * d + i)) else 0))
/-- STRICT_BUF of the STRICT tenants, KiB. -/
def State.strictBuf (s : State) : Nat := sumNat (s.strictTenants.map (fun t => s.tObj t 8))
/-- Packet buffer of a die without the banks taken out of use, KiB (R384). -/
def State.packetKiB (s : State) (d : Nat) : Nat := 40960 - 32 * Table.get s.rel.spare 0 (5 * 2 ^ 32 + d * 4 + 1)
/-- What the ports and partitions named leave of a die's buffer under the check of R104, counting every member; whether it
suffices. -/
def State.poolFits (s : State) (d extra : Nat) : Bool :=
  decide (s.portMinima d + extra + 39 * minSum innerMin + s.strictBuf + 4096 ≤ s.packetKiB d)
/-- Size of a die's common shared pool, cells: members toward dies out of service give theirs back (R103). -/
def State.poolCells (s : State) (d : Nat) : Nat :=
  4 * (s.packetKiB d - s.portMinima d - s.strictBuf - (18 + 3 * (s.diesUp.filter (fun e => e != d)).length) * minSum innerMin)

/-- Cells a die's buffer holds: those queued, and those that wait at an egress. -/
def Core.held (c : Core) : List Cell := c.cells ++ c.egress
/-- Free cells of the common shared pool. -/
def State.poolFree (s : State) (d : Nat) : Nat :=
  s.poolCells d - ((s.core d).held.filter (fun c => c.shared && c.part.isNone)).length
/-- Free cells of a STRICT tenant's partition on a die. -/
def State.partFree (s : State) (d t : Nat) : Nat :=
  4 * s.tObj t 8 - ((s.core d).held.filter (fun c => c.part == some t)).length

/-- What a crossbar port of a die is: a flex port, a peer port, a member of the link to a die, one of the eight ports of the HBM controller, an
engine group, the control cache, the root die. -/
inductive XPort where
  | flex (p : Nat)
  | peer (q : Nat)
  | link (die : Nat)
  | hbm (k : Nat)
  | group (g : Nat)
  | ctl
  | root
deriving DecidableEq, Repr

/-- The attachment of a crossbar port (R97). -/
def xport (d x : Nat) : XPort :=
  if x < 16 then .flex (16 * d + x) else if x < 24 then .peer (8 * d + (x - 16)) else if x < 45 then .link (linkDie d ((x - 24) / 3))
  else if x < 53 then .hbm (x - 45) else if x < 61 then .group (x - 53) else if x = 61 then .ctl else .root

/-- The die and crossbar port that a request's fabric address names (R97, R119, R152); none for what a station routes. -/
def addrPort (pkt : Packet) : Option (Nat × Nat) :=
  if pkt.ptype ≠ 1 ∧ pkt.ptype ≠ 2 ∧ pkt.ptype ≠ 4 then none
  else match faSpace pkt.addr with
    | 0 => some (faDie pkt.addr, faXbar pkt.addr)
    | 1 => some (faPort pkt.addr / 16, faPort pkt.addr % 16)
    | 3 => some (lineHome (pkt.addr % 2 ^ 52 / 64), 61)
    | _ => none

/-- Minimum of a crossbar port in a class, in cells. -/
def State.minCells (s : State) (d x tc : Nat) : Nat :=
  4 * (match xport d x with
    | .flex p => s.flexMin p tc
    | .peer q => s.peerMin q tc
    | _ => innerMin tc)

/-- The ingress states of R109 at a crossbar port: whether a class of a tenant is admitted. -/
def State.ingressTakes (s : State) (d x tc tenant : Nat) : Bool :=
  let k := match xport d x with | .flex p => some p | .peer q => some (128 + q) | _ => none
  match k with
  | none => true
  | some k =>
    let g := s.ingressAt k
    tc == 0 || (g.st != 3 && (tc == 1 || (g.st == 0 && !g.tenants.any (fun e => e.1 == tenant))))

/-- The traffic classes of a packet type (R74); none for a reserved type. -/
def typeClasses (t : Nat) : Option (List Nat) :=
  match t with
  | 0 => some [0] | 1 => some [2, 6] | 2 => some [3, 6] | 3 => some [1] | 4 => some [3] | 5 => some [1] | 6 => some [4] | 7 => some [5]
  | 8 => some [3] | 9 => some [1] | 10 => some [0] | 11 => some [7] | 12 => some [0] | _ => none
/-- A packet of a class its type does not have (R74). -/
def malformed (k : Packet) : Bool := match typeClasses k.ptype with | some l => !l.contains k.tc | none => true

/-- What a flex port of a role brings, as packet type and class (R101). Host: reads, writes, atomics, completions of DMA reads, BIRsp and
doorbells. Memory tray: completions. Flash tray: completions, and the tray's own reads and writes. DESIGN CHOICE: a BIRsp is a CONTROL packet, a type
that R101 does not name. -/
def roleKinds (role : Nat) : List (Nat × Nat) :=
  match role with
  | 1 => [(1, 2), (2, 3), (4, 3), (3, 1), (10, 0), (2, 0)]
  | 2 => [(3, 1), (5, 1)]
  | 3 => [(3, 1), (1, 6), (2, 6)]
  | _ => []

/-- Whether a die's switch core runs: its die is in service, or on its way out in a power transition with its domain still on (R447). -/
def State.coreRuns (s : State) (d : Nat) : Bool :=
  s.dieUp d || (bit s.pw.domOn d && (match s.pw.trans with | some (t, m) => (t == 2 || t == 3) && bit m d | none => false))

/-- Whether a crossbar port can bring a packet: its class and type are those of the port (R74, R101), and its data fit one cell (R98). An internal
agent also brings the writes of the device to host memory, in TC1. -/
def State.portClass (s : State) (d x : Nat) (pkt : Packet) : Bool :=
  decide (pkt.data.length ≤ 256) && (match xport d x with
  | .flex p => (s.flexP p).st == 3 && (roleKinds (s.role p)).contains (pkt.ptype, pkt.tc)
  | .peer q => (s.peerP q).st == 4 && !malformed pkt
  | .link e => s.coreRuns e
  | _ => decide (x < 63) && (!malformed pkt || (pkt.ptype == 2 && pkt.tc == 1)))

/-- Cells of the allotment of a flex port's class that host requests held for tokens take: of their data, at least one each (R98, R348). -/
def State.heldCells (s : State) (d x tc : Nat) : Nat :=
  match xport d x with
  | .flex p => sumNat ((s.heldAcc.filter (fun y => y.p == p && y.tc == tc)).map (fun y => Nat.max 1 (ceilDiv y.data.length 256)))
  | _ => 0
/-- Where a new cell finds room (R103, R105, R343): its minimum; or the shared pool or its tenant's partition, while its shared
occupancy is below α times what is free there; none where it must wait. Requests held for tokens count in both, the minimum first (R348). -/
def State.room (s : State) (d x : Nat) (pkt : Packet) : Option (Bool × Option Nat) :=
  let mine := ((s.core d).held ++ (s.core d).tc0Wait).filter (fun c => c.inp == x && c.tc == pkt.tc)
  let waits := s.heldCells d x pkt.tc
  let own := (mine.filter (fun c => !c.shared)).length
  if own + waits < s.minCells d x pkt.tc then some (false, none)
  else if pkt.tc = 0 then none
  else
    let extra := own + waits - s.minCells d x pkt.tc
    let part := if s.tStrict pkt.tenant then some pkt.tenant else none
    let occ := (mine.filter (fun c => c.shared && c.part == part)).length + extra
    let free := (match part with | some t => s.partFree d t | none => s.poolFree d) - extra
    if 0 < free ∧ occ * 8 < free * 2 ^ s.obj 0x4000 2 then some (true, part) else none

/-- Credit units of a packet (R76). -/
def pktUnits (k : Packet) : Nat := ceilDiv (16 + roundUp k.data.length 8) 128

/-- A link credit goes back: the limit granted to a peer's transmitter rises by the packet's units (R76), a flex port returns the credit of the
type that carries the class (R106). A halted ingress returns none in TC1 to TC7 (R109). -/
def State.credit (s : State) (d x : Nat) (pkt : Packet) : State :=
  match xport d x with
  | .peer q =>
    let y := s.peerP q
    if (s.ingressAt (128 + q)).st = 3 ∧ pkt.tc ≠ 0 then s
    else s.setPeer q { y with rxLimit := Table.put y.rxLimit pkt.tc ((Table.get y.rxLimit 0 pkt.tc + (pktUnits pkt)) % 4096) }
  | .flex p =>
    let y := s.flexP p
    if (s.ingressAt p).st = 3 ∧ pkt.tc ≠ 0 then s
    else s.setFlex p { y with credits := Table.put y.credits pkt.tc (Table.get y.credits 0 pkt.tc + 1) }
  | _ => s

/-! ### Routes (R100) -/

/-- The hash input of a flow. -/
def flowWord (tenant tc die x : Nat) : Nat := tenant * 2 ^ 12 + tc * 2 ^ 9 + (die * 63 + x)
/-- Key of a flow toward a device. -/
def flowKey (tenant tc die x dev : Nat) : Nat := flowWord tenant tc die x * 512 + dev
/-- ACTIVE peer ports of a device's route, ascending. -/
def State.routePorts (s : State) (dev : Nat) : List Nat := s.activePeers.filter (fun q => bit (s.routeMask dev) q)
/-- The member that a flow hashes to. -/
def State.routeMember (s : State) (tenant tc die x dev : Nat) : Option Nat :=
  let ps := s.routePorts dev
  if ps = [] then none else ps[crc32c (leBytes 4 (flowWord tenant tc die x)) % ps.length]?
/-- Whether a packet belongs to a flow that a die's crossbar port brings: its cells on the way, queued or unacknowledged. -/
def inFlow (tenant tc dev : Nat) (k : Packet) : Bool := k.tenant == tenant && k.tc == tc && k.dstDev == dev
/-- Whether cells of a flow are still on their way over a peer port: in a core or on a link, queued, or not acknowledged. -/
def State.flowOut (s : State) (tenant tc die x dev q : Nat) : Bool :=
  let mine := fun (c : Cell) => c.org == die * 63 + x && inFlow tenant tc dev c.pkt
  (List.range 8).any (fun d => (s.core d).held.any mine || (s.core d).wires.any (fun w => mine w.2))
    || ((s.peerP q).ahead ++ (s.peerP q).txq ++ (s.peerP q).cont.toList).any (inFlow tenant tc dev)
    || (s.peerP q).replay.any (fun f => (f.head.toList ++ f.pkts).any (inFlow tenant tc dev))

/-- The crossbar port of die d toward a peer port. -/
def peerOut (d q : Nat) : Nat := if q / 8 = d then 16 + q % 8 else linkOut d (q / 8)

/-- Where a new cell of a packet for another device leaves: the peer port of its flow, or nothing while the flow must wait for
its old member; and the state with the flow noted. None where there is no route. -/
def State.routeFlow (s : State) (d x : Nat) (pkt : Packet) : Option (Option Nat × State) :=
  match s.routeMember pkt.tenant pkt.tc d x pkt.dstDev with
  | none => none
  | some q =>
    let k := flowKey pkt.tenant pkt.tc d x pkt.dstDev
    let c := s.core d
    match Table.find c.flows k with
    | some old =>
      if old = q then some (some q, s)
      else if (s.routePorts pkt.dstDev).contains old then some (none, s)
      else some (some q, s.setCore d { c with flows := Table.put c.flows k q })
    | none => some (some q, s.setCore d { c with flows := Table.put c.flows k q })

/-! ### Arbitration (R99, R114, R115) -/

/-- Cells at the output of a crossbar port, in order of arrival. -/
def Core.outCells (c : Core) (out : Nat) : List Cell := c.cells.filter (fun x => x.out == out)
/-- Queue of a cell at its output. -/
def Cell.queue (c : Cell) : Nat := c.inp * 8 + c.tc
/-- Queues with cells at an output. -/
def queuesOf (l : List Cell) : List Nat := (l.map Cell.queue).eraseDups
/-- Number of cells of a queue. -/
def countOf (l : List Cell) (v : Nat) : Nat := (l.filter (fun c => c.queue == v)).length

/-- The next ingress in round robin after the one granted last. -/
def rrPick (last : Option Nat) (inps : List Nat) : Option Nat :=
  match last with
  | some x => match (inps.filter (fun i => decide (x < i))).min? with | some i => some i | none => inps.min?
  | none => inps.min?

/-- Classes in the order of CLASS_RANK. -/
def rankOrder (rank : Nat) : List Nat := (List.range 7).map (fun k => bits rank (4 * k + 3) (4 * k))

/-- The queue whose head arrived first; ties go to the lower crossbar port, then the lower class. -/
def oldestQueue (l : List Cell) (vs : List Nat) : Option Nat :=
  let heads := vs.filterMap (fun v => (l.find? (fun c => c.queue == v)).map (fun (c : Cell) => (c.arr, v)))
  (heads.foldl (fun (a : Option (Nat × Nat)) h => match a with
    | none => some h
    | some b => if h.1 < b.1 ∨ (h.1 = b.1 ∧ h.2 < b.2) then some h else a) none).map Prod.snd

/-- The grant of one cycle among the eligible queues (R115): the queue, and whether the oldest turn was used. -/
def OutArb.decide (a : OutArb) (l : List Cell) (vs : List Nat) (rank n : Nat) (withhold : Bool) : Option (Nat × Bool) :=
  let inpsOf := fun (tc : Nat) => (vs.filter (fun v => v % 8 == tc)).map (· / 8)
  match rrPick (Table.find a.rr 0) (inpsOf 0) with
  | some i => some (i * 8, false)
  | none =>
    if withhold then none
    else
      let low := vs.filter (fun v => v % 8 != 0)
      if n ≤ a.grants + 1 then (oldestQueue l low).map (fun v => (v, true))
      else (rankOrder rank).findSome? (fun tc => (rrPick (Table.find a.rr tc) (inpsOf tc)).map (fun i => (i * 8 + tc, false)))

/-! ### What a delivered cell does -/

/-- Key of an ingress. -/
def ingressKey : Ingress → Nat
  | .flex p => p
  | .peer q => 128 + q
  | .tenantOn p _ => p

/-- Whether an ingress is there. -/
def ingressOk : Ingress → Bool
  | .flex p => decide (p < 128)
  | .peer q => decide (q < 64)
  | .tenantOn p t => decide (p < 128) && decide (t < 4096)

/-- Stores the state of an ingress. -/
def State.setIngress (s : State) (k : Nat) (g : IngressSt) : State := { s with ingress := Table.put s.ingress k g }

/-- A port withholds its credit in a class of a tenant from now on (R106). -/
def State.withhold (s : State) (d x : Nat) (pkt : Packet) : State :=
  let co := s.core d
  let l := Table.get co.bp [] x
  if l.contains (pkt.tc, pkt.tenant) then s
  else s.setCore d { co with bp := Table.put co.bp x (l ++ [(pkt.tc, pkt.tenant)]), bpAt := if l = [] then Table.put co.bpAt x s.xbCycle else co.bpAt }

/-- An ingress that stops withholds its credit from then on: of a tenant, or of all (R106, R109, R117). -/
def State.withholdAt (s : State) (i : Ingress) : State :=
  let k : Packet := { ptype := 0, tc := 2, srcDev := 0, dstDev := 0, tenant := 0, tag := 0, addr := 0 }
  match i with
  | .flex p => s.withhold (p / 16) (p % 16) k
  | .peer q => s.withhold (q / 8) (16 + q % 8) k
  | .tenantOn p t => s.withhold (p / 16) (p % 16) { k with tenant := t }

/-- QUIESCE at an ingress (R109). -/
def State.quiesceAt (s : State) (i : Ingress) : State :=
  let g := s.ingressAt (ingressKey i)
  match i with
  | .tenantOn _ t => if g.tenants.any (fun e => e.1 == t) then s else (s.setIngress (ingressKey i) { g with tenants := g.tenants ++ [(t, 1)] }).withholdAt i
  | _ => if g.st = 0 then (s.setIngress (ingressKey i) { g with st := 1 }).withholdAt i else s

/-- HALT at an ingress (R109). -/
def State.haltAt (s : State) (i : Ingress) : State :=
  (s.setIngress (ingressKey i) { s.ingressAt (ingressKey i) with st := 3 }).withholdAt (match i with | .tenantOn p _ => .flex p | i => i)
/-- The ingress that a CONTROL packet names: a port, or one tenant on it. -/
def ingressNamed (port t : Nat) : Ingress :=
  if port < 128 then (if t < 4096 then .tenantOn port t else .flex port) else .peer (port - 128)

/-- A peer device asks to be lent extents: as many FREE ones of the backing as it asks for, lent to it, or none (R121, R123, R129). -/
def State.lend (s : State) (dev backing n : Nat) : State :=
  let picked := (s.freeOf (backing / 2 ^ 32) (backing % 2 ^ 32)).take n
  let hbm := (picked.filter (fun e => decide (e < 2048))).length
  if picked.length < n ∨ s.hbmOut + hbm > s.obj 0x5000 4 then s.emit (.lendReply dev [])
  else (picked.foldl (fun (a : State) e => match Table.find a.extents e with
    | some x => a.setExt e { x with st := 2, lent := some dev }
    | none => a) s).emit (.lendReply dev picked)

/-- A CONTROL packet of a peer device that reaches the root die (R109, R110, R129, R132). -/
def State.control (s : State) (k : Packet) : State :=
  match Config.controlCmd k.addr k.data with
  | some (0, port, t) => if ingressOk (ingressNamed port t) then s.quiesceAt (ingressNamed port t) else s
  | some (2, port, t) => if ingressOk (ingressNamed port t) then s.haltAt (ingressNamed port t) else s
  | some (1, a, _) =>
    ((s.extents.filter (fun e => e.2.away == some k.srcDev && e.2.base == a % 2 ^ 55)).map Prod.fst).foldl (fun (u : State) e => u.revoke e false true) s
  | some (6, backing, n) => s.lend k.srcDev backing n
  | some (7, e, _) =>
    match Table.find s.extents e with
    | some x =>
      if x.lent = some k.srcDev ∧ x.st = 6 then s.setExt e { x with lent := none, confirm := none }
      else if x.lent = some k.srcDev ∧ (x.st = 2 ∨ x.st = 7) then s.setExt e { x with st := 3, lent := none, drainAt := s.now, notice := none }
      else s
    | none => s
  | some (8, e, _) =>
    match Table.find s.extents e with
    | some x => if x.confirm = some k.srcDev then s.setExt e { x with confirm := none, lent := none } else s
    | none => s
  | _ => s

/-- A packet of a peer device at the crossbar port it leaves by: performed at its home (R131, R149), a completion at its source, or a command to the
root die. What a packet of this device stands for is a command of its own. -/
def State.arrive (s : State) (d x : Nat) (k : Packet) : State :=
  if k.srcDev = s.devId then s
  else if k.ptype = 3 ∨ k.ptype = 5 then s.peerAnswer k
  else if k.ptype = 10 ∧ x = 62 then s.control k
  else if k.ptype = 1 ∨ k.ptype = 2 then s.homePerform d x k
  else s

/-- Delivers a granted cell that its check has passed: into a peer port's transmitter (R75), over a die-to-die link with its
stamp (R99), or to what the crossbar port is attached to. -/
def State.deliver (s : State) (d : Nat) (c : Cell) : State :=
  match xport d c.out with
  | .peer q =>
    let y := s.peerP q
    s.setPeer q { y with txq := if c.tc = 0 then y.txq.filter (fun k => k.tc == 0) ++ [c.pkt] ++ y.txq.filter (fun k => k.tc != 0)
                                else y.txq ++ [c.pkt] }
  | .link e =>
    let x := s.core d
    let n := Table.get x.sent 0 (e * 8 + c.tc)
    let s1 := s.setCore d { x with sent := Table.put x.sent (e * 8 + c.tc) (n + 1) }
    let y := s1.core e
    s1.setCore e { y with wires := y.wires ++ [(d, { c with stamp := n })] }
  | _ => (s.emit (.cell d c.out c.pkt)).arrive d c.out c.pkt

/-- A cell leaves the die: its credit goes back if it held a minimum (R106), and it is delivered or waits for its check (R113). -/
def State.cross (s : State) (d : Nat) (c : Cell) : State :=
  if c.checked then
    let s1 := s.deliver d c
    if c.shared then s1 else s1.credit d c.inp c.pkt
  else let x := s.core d; s.setCore d { x with egress := x.egress ++ [c] }

/-- Cell waits and crossings of an output: the scope a sample of VOQ_WAIT belongs to (R431). -/
def outScope (d x : Nat) : SampleScope :=
  match xport d x with
  | .flex p => { die := some d, flex := some p }
  | .peer q => { die := some d, peer := some q }
  | _ => { die := some d }

/-- The members of a die-to-die link, or the output alone. -/
def linkMembers (x : Nat) : List Nat := if 24 ≤ x ∧ x < 45 then let b := 24 + (x - 24) / 3 * 3; [b, b + 1, b + 2] else [x]

/-- Takes the head cell of a queue at an output out of the core. -/
def popCell (out v : Nat) : List Cell → Option (Cell × List Cell)
  | [] => none
  | c :: t => if c.out = out ∧ c.queue = v then some (c, t) else (popCell out v t).map (fun r => (r.1, c :: r.2))

/-- The cell that a member granted in the cycle before crosses. -/
def State.crossLast (s : State) (d x : Nat) : State :=
  let co := s.core d
  let a := Table.get co.outs {} x
  match a.last with
  | none => s
  | some v =>
    match popCell ((linkMembers x).headD x) v co.cells with
    | none => s
    | some (c, rest) => (s.setCore d { co with cells := rest }).cross d c

/-- Whether a queue may be granted in cycle `cyc`: it posted a cell in the cycle before; one that posted a single cell has no grant of the last
cycle or of this one; and no grant is void (R99, R114). `last` and `now` are the queues granted in those cycles by the output or its members. -/
def eligible (l : List Cell) (posted : Table Nat) (cyc : Nat) (last now : List Nat) (v : Nat) : Bool :=
  let p := Table.get posted 0 v
  decide (0 < p) && !(p == 1 && (last.contains v || now.contains v))
    && decide ((now.filter (· == v)).length < countOf (l.filter (fun c => decide (c.arr < cyc))) v)

/-- What the arbiters of one cycle work on: the core's output port or first member, its cells and posted counts, the cycle, and the queues granted in
the last cycle. -/
structure Turn where
  base : Nat
  cells : List Cell
  posted : Table Nat
  cyc : Nat
  last : List Nat

/-- Cells without the heads of the queues that were granted. -/
def ungranted (l : List Cell) (vs : List Nat) : List Cell :=
  vs.foldl (fun (m : List Cell) v => match m.find? (fun c => c.queue == v) with | some c => m.erase c | none => m) l

/-- One arbiter decides (R99, R114, R115), after the lower members, whose grants of this cycle it is given: it sees the cells they left. -/
def State.memberTurn (d : Nat) (w : Turn) (g : State × List Nat) (x : Nat) : State × List Nat :=
  let s := g.1
  let co := s.core d
  let a := Table.get co.outs {} x
  let recent := ((Table.get co.outs {} w.base).recent).filter (fun c => decide (w.cyc < c + 32))
  let full := decide (1 < (linkMembers x).length) && decide (75 ≤ recent.length)
  let vs := (queuesOf w.cells).filter (eligible w.cells w.posted w.cyc w.last g.2)
  let cells := ungranted w.cells g.2
  match (if full then none else a.decide cells vs (s.obj 0x4000 4) (s.obj 0x4000 1) (bit s.pw.swSpent d)) with
  | none => (s.setCore d { co with outs := Table.put co.outs x { a with last := none } }, g.2)
  | some (v, oldest) =>
    let a1 : OutArb := { a with last := some v, rr := Table.put a.rr (v % 8) (v / 8),
                                grants := if v % 8 = 0 then a.grants else if oldest then 0 else a.grants + 1 }
    let o1 := Table.put co.outs x a1
    let o2 := Table.put o1 w.base { Table.get o1 {} w.base with recent := if 1 < (linkMembers x).length then recent ++ [w.cyc] else [] }
    let t := match cells.find? (fun c => c.queue == v) with | some c => (w.cyc - c.arr) * 25 / 32 | none => 0
    ((s.setCore d { co with outs := o2 }).sample (if v % 8 = 0 then 10 else 9) t (outScope d w.base), g.2 ++ [v])

/-- One XBCLK cycle of an output (R114): the last grants cross, the arbiter, or each member of a link in ascending order, decides by the counts posted
in the cycle before, and new counts are posted. -/
def State.outCycle (s0 : State) (d x : Nat) : State :=
  let ms := linkMembers x
  let base := ms.headD x
  let a := Table.get (s0.core d).outs {} base
  let last := ms.filterMap (fun m => (Table.get (s0.core d).outs {} m).last)
  let s := ms.foldl (fun (t : State) m => t.crossLast d m) s0
  let l := (s.core d).outCells base
  let r := ms.foldl (State.memberTurn d { base := base, cells := l, posted := a.posted, cyc := a.cyc + 1, last := last }) (s, [])
  let co := r.1.core d
  let posted := (queuesOf l).foldl (fun (t : Table Nat) v => Table.put t v (Nat.min 2 (countOf l v))) []
  r.1.setCore d { co with outs := Table.put co.outs base { Table.get co.outs {} base with cyc := a.cyc + 1, posted := posted } }

/-! ### Back-pressure (R106, R117) -/

/-- Whether the ingress of a port withholds write credit of a tenant for 64 flagged stores that a source of it has waiting (R158). -/
def State.flagStop (s : State) (d x : Nat) (k : Nat × Nat) : Bool :=
  k.1 == 3 && (match xport d x with
    | .flex p => (List.range 16).any (fun l => s.ldTenant p l == some k.2 && s.flagFull p l)
    | .peer q => match (s.peerP q).peerDev with
      | some v => decide (64 ≤ (s.writes.filter (fun w => w.flag && w.src == .peer v k.2)).length)
      | none => false
    | _ => false)
/-- Whether a crossbar port can take no further cell of a class of a tenant: its ingress is stopped, it finds no room, its dedicated TC0 buffer
holds a cell that waits, or a source has its flagged stores waiting (R102, R105, R109, R158). -/
def State.blocked (s : State) (d x : Nat) (k : Nat × Nat) : Bool :=
  s.flagStop d x k ||
  !s.ingressTakes d x k.1 k.2 || (s.room d x { ptype := 0, tc := k.1, srcDev := 0, dstDev := 0, tenant := k.2, tag := 0, addr := 0 }).isNone
    || (k.1 == 0 && (s.core d).tc0Wait.any (fun c => c.inp == x))

/-- BP_CYCLES of the ports of a die counts the XBCLK cycles up to now in which a class of theirs was withheld; what has room again is withheld no
more (R117). -/
def State.countBp (s : State) (d : Nat) : State :=
  (s.core d).bp.foldl (fun (a : State) e =>
    let n := a.xbCycle - Table.get (s.core d).bpAt 0 e.1
    let a1 := match xport d e.1 with | .flex p => a.bump (0x4100 + p) 10 n | .peer q => a.bump (0x4180 + q) 10 n | _ => a
    let co := a1.core d
    let left := e.2.filter (a1.blocked d e.1)
    a1.setCore d { co with bp := if left = [] then Table.del co.bp e.1 else Table.put co.bp e.1 left, bpAt := Table.put co.bpAt e.1 a1.xbCycle }) s

/-- Whether less than 1/16 of a die's shared pool is free (R117). -/
def State.poolLow (s : State) (d : Nat) : Bool := decide (16 * s.poolFree d < s.poolCells d)
/-- SHARED_LOW at its onset on a die in service. -/
def State.noteLow (s old : State) : State := if s.diesUp.any (fun d => s.poolLow d && !old.poolLow d) then s.flag 0x4000 5 0 else s

end Sys2Proof.Machine
end

