-- ==== Sys2Proof/Machine/HostAccess.lean ====
section
/-! DEFINITION. Commands of hosts on memory and registers, atomics, flagged stores, flushes and PUBLISH_EXTENT. -/

namespace Sys2Proof.Machine

open Sys2Proof

/-- Whether a port has as many requests awaiting completion as it may (R61). -/
def State.tagsOut (s : State) (p : Nat) : Bool :=
  decide (Config.maxOutstanding ≤ (s.remote.filter (fun r => match r.src with | .host a _ => a == p | _ => false)).length
    + (s.heldAcc.filter (fun y => y.p == p && (!y.isWrite || y.atom.isSome))).length)

/-- A host's access at its meter (R346, R348). One that must wait while its class has no room at the port is not taken, and credit is withheld (R106,
R348); so is one that would be the 1,025th request of its port awaiting completion (R61). -/
def State.meter (s : State) (x : HeldAcc) : State :=
  let t := s.shape x
  if (s.heldAcc.length < t.heldAcc.length ∧ s.blocked (x.p / 16) (x.p % 16) (x.tc, x.tenant)) ∨ ((!x.isWrite ∨ x.atom.isSome) ∧ s.tagsOut x.p) then
    ({ t with heldAcc := s.heldAcc } : State).withhold (x.p / 16) (x.p % 16)
      { ptype := 0, tc := x.tc, srcDev := 0, dstDev := 0, tenant := x.tenant, tag := 0, addr := 0 }
  else t

/-- A host read (R130, R190, R126): it waits while its ingress is stopped (R109). It is metered in TC2 (R346). -/
def execHostRead (p l : Nat) (space : HostSpace) (addr len : Nat) (s : State) : Res :=
  if !s.takes p l then .next s
  else
    let x : HeldAcc := { space := space, tenant := (s.ldTenant p l).getD 0, tc := 2, cost := Nat.max 64 len, p := p, l := l, addr := addr, len := len,
                         data := [], isWrite := false }
    .next (if (s.ldTenant p l).isSome then s.meter x else s.serve x)

/-- A host write (R130, R190, R126): it waits while its ingress is stopped (R109) or withholds write credit (R158), but for one of the lease doorbell, which is TC0 (R101). It
is metered in TC3 (R346). -/
def execHostWrite (p l : Nat) (space : HostSpace) (addr : Nat) (data : Bytes) (s : State) : Res :=
  let x : HeldAcc := { space := space, tenant := (s.ldTenant p l).getD 0, tc := 3, cost := Nat.max 64 data.length, p := p, l := l, addr := addr, len := 0,
                       data := data, isWrite := true }
  if space = .bar2 ∧ addr = 0 then .next (if s.reach p l then s.serve x else s)
  else if !s.takes p l ∨ s.flagFull p l then .next s
  else .next (if (s.ldTenant p l).isSome then s.meter x else s.serve x)

/-- A write is performed at its home, here or at the peer device it went to (R151): in issue order per source and address (R157). -/
def execMemWriteApply (wid : Nat) (s : State) : Res :=
  match s.writes.find? (fun w => w.id == wid) with
  | none => .next s
  | some w =>
    let earlier := s.writes.takeWhile (fun y => y.id != wid)
    if w.flag ∨ (w.away.isSome ∧ !w.sent)
        ∨ earlier.any (fun y => y.src == w.src && y.away == w.away && overlaps y.addr y.data.length w.addr w.data.length) then .next s
    else .next (({ s with writes := s.writes.erase w }).perform w).sendReady.settlePublish

/-- The source's first write not yet applied is a flagged store: it is applied, on a peer device's home once it was sent there (R158). -/
def execFlaggedStoreApply (src : Source) (s : State) : Res :=
  match s.writes.find? (fun w => w.src == src) with
  | some w =>
    if w.flag ∧ (w.away.isNone ∨ w.sent) then
      let sc : SampleScope := match src with
        | .host p l => { flex := some p, tenant := s.ldTenant p l }
        | .peer _ t => { tenant := s.tagTenant t }
        | _ => {}
      .next ((({ s.countWaits with writes := s.writes.erase w }).perform w).sample 11 (s.now - w.at_) sc).sendReady.settlePublish
    else .next s
  | none => .next s

/-- FLAG_DATA (R159). -/
def execFlagData (p l data : Nat) (s : State) : Res :=
  if !s.takes p l ∨ s.flagFull p l then .next s
  else .next (match s.ldTenant p l with
    | some t => s.meter { space := .bar2, tenant := t, tc := 3, cost := 64, p := p, l := l, addr := 0x108, len := 0, data := leBytes 8 data, isWrite := true }
    | none => s.bar2Write p l 0x108 data)

/-- FLUSH_CTRL (R160). -/
def execFlushCtrl (p l seq : Nat) (s : State) : Res := .next (if s.takes p l then s.flushStart p l seq else s)

/-- The oldest flush of a logical device completes, in FLUSH_SEQ order, with the copies of its range discarded (R160, R161). -/
def execFlushComplete (p l : Nat) (s : State) : Res :=
  let d := s.ld p l
  match d.flushes with
  | (seq, b, n, ids) :: rest =>
    if s.flushReady ids then
      let loss := d.lostW.any (fun w => ids.contains w.1)
      let s1 := (s.setLd p l { d with flushes := rest, flushDone := seq, flushLoss := loss,
                                      lostW := d.lostW.filter (fun w => !ids.contains w.1) }).dropCopies p l b n
      .next (if loss then s1.flag 0x5100 2 2 else s1)
    else .next s
  | [] => .next s

/-- ATOMIC (R154 to R156). A host's address is a DPA, metered in TC3 (R346); any other source's is a fabric address, of the form of R118. One of a peer device
comes over an ACTIVE port and is not checked again (R131); one to another device's space goes there. Behind an earlier write of the source to the bytes it
waits among the writes (R157). -/
def execAtomic (src : Source) (op : AtomicOp) (addr size operand compare : Nat) (s : State) : Res :=
  let r : AtomReq := { src := src, op := op, addr := addr, size := size, operand := operand, compare := compare }
  let behind := fun (v : Option Nat) (a : Nat) => s.writes.any (fun w => w.src == src && w.away == v && overlaps w.addr w.data.length a size)
  let wait := fun (x : State) (v : Option Nat) (a dpa : Nat) (e : Option Nat) =>
    ({ x with writes := x.writes ++ [({ id := x.nextWid, src := src, addr := a, data := leBytes size operand, eid := e, dpa := dpa, at_ := x.now, away := v,
                                        atom := some r } : WrOut)], nextWid := x.nextWid + 1 } : State)
  match src with
  | .host p l =>
    if !s.takes p l then .next s
    else if !atomicOk src op size ∨ addr % size ≠ 0 then
      .next (match s.check p l addr size true with
        | .denied => (s.deny p l false).atomicReply r [] true
        | .readOnly => (s.deny p l true).atomicReply r [] true
        | _ => s.atomicReply r [] true)
    else
      match s.check p l addr size true, s.ldTenant p l with
      | .denied, _ => .next ((s.deny p l false).atomicReply r [] true)
      | .readOnly, _ => .next ((s.deny p l true).atomicReply r [] true)
      | .lost _, _ => .next (s.atomicReply r [] true)
      | _, none => .next s
      | c, some t =>
        let g := s.take t 3 (p / 16) (Nat.max 64 size)
        let x : HeldAcc := { tenant := t, tc := 3, cost := Nat.max 64 size, p := p, l := l, addr := addr, len := 0, data := leBytes size operand,
                             isWrite := true, atom := some r }
        if s.flagFull p l ∨ s.tagsOut p then .next s
        else if s.heldAcc.any (fun y => y.tenant == t && y.tc == 3) ∨ !g.1 then .next (s.meter x)
        else
          match c with
          | .remote e v a => .next (wait g.2 (some v) a addr (some e)).sendReady
          | .ok e a => .next (if behind none a then wait g.2 none a addr (some e) else g.2.atomicAt r a)
          | _ => .next s
  | _ =>
    let home := addr / 2 ^ 55 = s.devId ∨ !s.assigned
    let v := addr / 2 ^ 55
    let a := addr % 2 ^ 55
    let held := match src with
      | .peer dev _ => !s.reaches dev
      | .engine e ctx => faSpace addr == 3 && s.fenced e ctx
      | _ => false
    let closed := match src, s.extentOf (if home then none else some v) a with | .engine _ _, some (_, x) => x.ro || x.set.isSome | _, _ => false
    if held then .next s
    else if !atomicOk src op size ∨ addr % size ≠ 0 ∨ faSpace addr = 2 ∨ !faOk addr ∨ closed then .next (s.atomicReply r [] true)
    else if !home then
      match src with
      | .peer _ _ => .next s
      | _ => .next (if s.reaches v then (wait s (some v) a 0 none).sendReady else s.atomicReply r [] true)
    else if faSpace addr = 3 then
      if addr % 2 ^ 52 / 64 < ctlLines then .next (s.atHome (addr % 2 ^ 52 / 64) { kind := 4, atom := some r }).settleFences
      else .next (s.atomicReply r [] true)
    else if s.bytesLost a then .next (s.atomicReply r [] true)
    else .next (if behind none a then wait s none a 0 ((s.extentAt a).map Prod.fst) else s.atomicAt r a)

/-- The checks 6 and 7 of PUBLISH_EXTENT (R140, R199, R207). -/
def publishCheck (s : State) (c : Ctx) : Option (Nat × Nat × Nat) :=
  let dpa := field c.pay 8 8
  if hLen c.h ≠ 16 ∨ dpa % Config.extentBytes ≠ 0 then some (stMismatch, 0x09, 0)
  else
    match s.slotExt c.p c.l (dpa / Config.extentBytes) with
    | none => some (if s.leaseState c.p c.l = 3 then stLeaseExpired else stRevoked, 0x00, dpa / Config.extentBytes % 65536)
    | some (_, x, st, _) =>
      if st = 1 then some (if s.leaseState c.p c.l = 3 then stLeaseExpired else stRevoked, 0x00, dpa / Config.extentBytes % 65536)
      else if x.holder ≠ some (c.p, c.l) then some (stDenied, 0x0E, 0)
      else none

/-- PUBLISH_EXTENT as a built-in recipe: the slot turns read-only when INGEST admits it (R140). -/
def publishRun : Recipe.Run where
  check := publishCheck
  atAdmit := fun s c =>
    match s.slotExt c.p c.l (field c.pay 8 8 / Config.extentBytes) with
    | some (e, x, _, _) => s.setExt e { x with ro := true }
    | none => s
  start := fun s c =>
    match s.slotExt c.p c.l (field c.pay 8 8 / Config.extentBytes) with
    | some (e, _, _, _) =>
      ((s.modCmd c.ref (fun x => { x with items := [none], work := .publish e }))).settlePublish
    | none => s.modCmd c.ref (fun x => { x with items := [none] }.failItem 0 stRevoked 0 (field c.pay 8 8 / Config.extentBytes % 65536))

/-- PUBLISH_EXTENT (R140 to R142). -/
def execPublishExtent (p l r : Nat) (s : State) : Res := .next (s.ingest p l r (· == 0x30) publishRun)

end Sys2Proof.Machine
end

