-- ==== Sys2Proof/Machine/Kv.lean ====
section
/-! DEFINITION. Prefixes, pins, moves, opening and closing of sequences, tiers (R264 to R267, R284 to R300). -/

namespace Sys2Proof.Machine

open Sys2Proof

/-! ### Prefixes (R293 to R300) -/

/-- Key of the block whose tokens are given, from the key of the block before it (R293). -/
def prefixKey (dk : Bytes) (sh : Shape) (tag prev toks : Bytes) : Bytes :=
  hmac256 dk (prev ++ tag ++ leBytes 1 (sh.fmt + 4 * sh.dim) ++ zeros 1 ++ leBytes 2 sh.layers ++ leBytes 2 sh.heads ++ zeros 2 ++ toks)

/-- Keys of n blocks of tokens, in order. -/
def prefixKeys (dk : Bytes) (sh : Shape) (tag : Bytes) : Nat → Bytes → Bytes → List Bytes
  | 0, _, _ => []
  | n + 1, prev, toks => let k := prefixKey dk sh tag prev (toks.take 256); k :: prefixKeys dk sh tag n k (toks.drop 256)

/-- Steps 6 of LOOKUP_PREFIX and PUBLISH_PREFIX (R295). -/
def prefixCheck (_ : State) (c : Ctx) : Option (Nat × Nat × Nat) :=
  let n := arg c.h 0x1C 2
  if n < 1 ∨ 64 < n ∨ hLen c.h ≠ 256 * n then some (stMismatch, 0x09, 0)
  else if hResLen c.h < 8 then some (stMismatch, 0x0B, 0)
  else none

/-- Whether each page of a group can be read: here, at the device that holds it, or, where that is out of the map, from a spill copy (R296, R300). -/
def State.groupReadable (s : State) (gid members : Nat) : Bool :=
  match s.group gid with
  | some g => g.pages.all (fun y => y.2.readTier.isSome || y.2.spill)
  | none =>
    if s.members.any (fun v => v.dev == groupDev gid) then groupDev gid != s.devId && (List.range members).all (fun m => s.farGood gid m)
    else s.spillReadable gid

/-- The standing entry of a key at its home: GROUP_ID and digest (R294). Another device's answer is a free value. -/
def State.entryOf (s : State) (d : Nat) (k : Bytes) : Option (Nat × Bytes) :=
  if (s.homeOf (keyPos k)).map (fun h => h.dev) = some s.devId then
    (s.prefixes.find? (fun e => e.key == k && e.domain == d)).map (fun e => (e.gid, e.digest))
  else Config.remoteEntry k s.freeCtr

/-- A sequence links a group: the block table entry, and the group's link count (R296, R398). -/
def State.linkBlock (s : State) (x : Seq) (b gid : Nat) : Seq × State :=
  let y := { x with blocks := Table.put x.blocks b (gid, true) }
  let s1 := s.modGroup gid (fun g => { g with links := g.links + 1, linkedAt := s.now })
  (y, if groupDev gid = s.devId then s1 else s1.emit (.linkMsg (groupDev gid) gid))

/-- Result data of the two commands (R295). -/
def prefixResult (n total : Nat) : Bytes := leBytes 4 n ++ leBytes 4 total

/-- The item of LOOKUP_PREFIX (R296); without a key of its domain it is DENIED, with reason 0x0D (R337). -/
def State.lookupRun (s : State) (ref : Nat) (c : Cmd) : State :=
  let fail := fun (u : State) (st hint : Nat) => u.modCmd ref (fun y => y.failItem 0 st 0 hint)
  let fail0 := fun (u : State) (st : Nat) => u.modCmd ref (fun y => y.failItem 0 st 0x0D 0)
  match s.seqItem ref (s.tagOf c.tenant) (arg c.hdr 0x18 4) (hEpoch c.hdr) with
  | .bad st hint => fail s st hint
  | .ok x0 =>
    let s1 := s.touchSeq x0
    let x := (Table.find s1.seqs x0.key).getD x0
    match x.shape.domain with
    | none => fail s1 (if x.maxLen = 64 * x.prefixBlocks then stDenied else stMismatch) 0
    | some d =>
      if x.maxLen ≠ 64 * x.prefixBlocks then fail s1 stMismatch 0
      else
        match Table.find s1.sec.sdKeys d with
        | none => fail0 s1 stDenied
        | some dk =>
          let keys := prefixKeys dk x.shape (slice c.hdr 0x20 16) (arg c.hdr 0x1C 2) x.lastKey c.pay
          let hits := (keys.map (fun k => (k, s1.entryOf d k))).takeWhile (fun e => match e.2 with
            | some (gid, _) => s1.groupReadable gid (shapeMembers x.shape)
            | none => false)
          match hits.getLast? with
          | none => fail { s1 with freeCtr := s1.freeCtr + 1 } stPrefixMiss 0
          | some (k, _) =>
            let r := hits.zipIdx.foldl (fun (a : Seq × State) e => match e.1.2 with
              | some (gid, _) => a.2.linkBlock a.1 (x.prefixBlocks + e.2) gid
              | none => a) (x, { s1 with freeCtr := s1.freeCtr + 1 })
            let n := x.prefixBlocks + hits.length
            (r.2.setSeq { r.1 with prefixBlocks := n, lens := [], lastKey := k }).modCmd ref
              (fun y => { y.endItem 0 0 with result := prefixResult hits.length n })

/-- The digest of a group's plain pages (R294). -/
def groupDigest (g : Group) : Bytes := (sha256 (g.pages.flatMap (fun y => plainOf g y.1 y.2))).take 16

/-- Cached prefixes of a domain are evicted until n more bytes fit its quota (R299); whether they do. -/
def State.sdRoom (s : State) (d n : Nat) : Nat → Bool × State
  | 0 => (false, s)
  | fuel + 1 =>
    let q := s.objI 0x7300 7 d
    if q = 0xFFFFFFFF ∨ s.sdUsed d + n ≤ q * 2 ^ 20 then (true, s)
    else match s.coldPrefix (some d) with
      | some gid => (s.evictPrefix gid).sdRoom d n fuel
      | none => (false, s)

/-- How the publish of one block ends. -/
inductive Pub where
  | done
  | stop (st : Nat)
deriving DecidableEq, Repr

/-- One block published at its key's home, to which it is sent where that is another device (R297, R300). -/
def State.publishBlock (s0 : State) (x : Seq) (d b : Nat) (k : Bytes) : Pub × Seq × State :=
  match Table.find x.blocks b with
  | none => (.stop stMismatch, x, s0)
  | some (own, _) =>
    match s0.group own with
    | none => (.stop stMismatch, x, s0)
    | some g =>
      let dig := groupDigest g
      let s := match s0.keyAway k with | some h => s0.emit (.publishMsg h own k d dig) | none => s0
      match s.entryOf d k with
      | none =>
        let r := s.sdRoom d (g.pages.length * shapeSize g.shape) (s.groups.length + 1)
        if !r.1 then (.stop stDenied, x, r.2)
        else
          let s1 := r.2.modGroup own (fun h => { h with shared := true, domain := some d, key := k, digest := dig, links := 1, linkedAt := s.now })
          let s2 : State := if (s1.keyAway k).isNone then { s1 with prefixes := s1.prefixes ++ [{ key := k, gid := own, domain := d, digest := dig }] } else s1
          (.done, { x with blocks := Table.put x.blocks b (own, true), prefixBlocks := b + 1, lastKey := k }, s2.spillGroup own)
      | some (gid, dig2) =>
        if dig ≠ dig2 then (.stop stConflict, x, s)
        else if gid = own then (.done, { x with blocks := Table.put x.blocks b (own, true), prefixBlocks := b + 1, lastKey := k }, s)
        else
          let r := (s.dropGroup own).linkBlock x b gid
          (.done, { r.1 with prefixBlocks := b + 1, lastKey := k }, r.2)

/-- Blocks published in ascending order up to the first that is not. -/
def State.publishBlocks (s : State) (x : Seq) (d : Nat) : Nat → List Bytes → Nat × Nat × Seq × State
  | n, [] => (n, 0, x, s)
  | n, k :: t =>
    let r := s.publishBlock x d x.prefixBlocks k
    let s1 : State := { r.2.2 with freeCtr := r.2.2.freeCtr + 1 }
    match r.1 with
    | .done => s1.publishBlocks r.2.1 d (n + 1) t
    | .stop st => (n, st, r.2.1, s1)

/-- The item of PUBLISH_PREFIX (R297); without a key of its domain it is DENIED, with reason 0x0D (R337). -/
def State.publishRun (s : State) (ref : Nat) (c : Cmd) : State :=
  let fail := fun (u : State) (st hint : Nat) => u.modCmd ref (fun y => y.failItem 0 st 0 hint)
  let fail0 := fun (u : State) (st : Nat) => u.modCmd ref (fun y => y.failItem 0 st 0x0D 0)
  match s.seqItem ref (s.tagOf c.tenant) (arg c.hdr 0x18 4) (hEpoch c.hdr) with
  | .bad st hint => fail s st hint
  | .ok x0 =>
    let s1 := s.touchSeq x0
    let x := (Table.find s1.seqs x0.key).getD x0
    let n := arg c.hdr 0x1C 2
    let full := (List.range (shapeMembers x.shape)).all (fun m => decide (64 * (x.prefixBlocks + n) ≤ x.committed m))
    match x.shape.domain with
    | none => fail s1 (if full then stDenied else stMismatch) 0
    | some d =>
      if !full then fail s1 stMismatch 0
      else
        match Table.find s1.sec.sdKeys d with
        | none => fail0 s1 stDenied
        | some dk =>
          let keys := prefixKeys dk x.shape (slice c.hdr 0x20 16) n x.lastKey c.pay
          let r := s1.publishBlocks x d 0 keys
          let s2 := (r.2.2.2.setSeq r.2.2.1).modCmd ref (fun y => { y with result := prefixResult r.1 r.2.2.1.prefixBlocks })
          if r.2.1 = 0 then s2.modCmd ref (fun y => y.endItem 0 0) else fail s2 r.2.1 0

/-- Runs a command's one item. -/
def State.oneItem (s : State) (ref : Nat) (f : State → Cmd → State) : State :=
  match s.cmd ref with
  | some c =>
    let s1 := s.modCmd ref (fun x => x.start 1)
    if s1.todo ref 0 then f s1 c else s1
  | none => s

/-- LOOKUP_PREFIX. -/
def lookupRecipe : Recipe.Run where
  check := prefixCheck
  start := fun s c => s.oneItem c.ref (fun a y => a.lookupRun c.ref y)

/-- PUBLISH_PREFIX. -/
def publishPrefixRecipe : Recipe.Run where
  check := prefixCheck
  start := fun s c => s.oneItem c.ref (fun a y => a.publishRun c.ref y)

/-- LOOKUP_PREFIX (R296). -/
def execLookupPrefix (p l r : Nat) (s : State) : Res := .next (s.ingest p l r (· == 4) lookupRecipe)
/-- PUBLISH_PREFIX (R297). -/
def execPublishPrefix (p l r : Nat) (s : State) : Res := .next (s.ingest p l r (· == 5) publishPrefixRecipe)

/-! ### PIN, UNPIN, MIGRATE (R287, R288) -/

/-- Step 6 of the three commands; `migrate` says which TIER values are good. -/
def pinCheck (migrate : Bool) (_ : State) (c : Ctx) : Option (Nat × Nat × Nat) :=
  let n := arg c.h 0x1C 2
  let tier := arg c.h 0x1E 1
  if n < 1 ∨ 256 < n ∨ 4096 < arg c.h 0x1A 2 ∨ hLen c.h ≠ 16 * n ∨ (if migrate then tier ≠ 1 ∧ tier ≠ 2 ∧ tier ≠ 4 else tier ≠ 0)
  then some (stMismatch, 0x09, 0)
  else if !(List.range n).all (fun i => zeroAt c.pay (16 * i + 4) 4 && zeroAt c.pay (16 * i + 14) 2) then some (stMismatch, 0x02, 0)
  else none

/-- The pages an item selects: GROUP_ID and member (R287); none where the layers lie outside the shape. -/
def State.selected (s : State) (x : Seq) (h : Bytes) (len : Nat) : Option (List (Nat × Nat)) :=
  let first := if arg h 0x1A 2 = 0 then 0 else arg h 0x18 2
  let count := if arg h 0x1A 2 = 0 then x.shape.layers else arg h 0x1A 2
  if x.shape.layers < first + count then none
  else
    let n := if len = 0 then x.maxLen else len
    some ((List.range (count * x.shape.heads)).flatMap (fun j =>
      let m := first * x.shape.heads + j
      (x.blocks.filter (fun b => decide (64 * b.1 < n) && (s.page b.2.1 m).isSome)).map (fun b => (b.2.1, m))))

/-- Starts the move of a page to a tier, unless it is there. One that is on another move waits for its end (R332); but a page being pinned is not
demoted (R288). -/
def State.startMove (s : State) (gid m tier : Nat) (pin : Bool) : State :=
  match s.page gid m with
  | none => s
  | some y =>
    match y.moving with
    | none => if y.home tier then s else s.setOff gid m tier
    | some u =>
      if u = tier then s
      else if pin then
        if y.home 1 then s.modPage gid m (fun z => { z with moving := none, recode := none, after := none }) else s.setOff gid m 1
      else s.modPage gid m (fun z => { z with after := some tier })
/-- UNPIN of a page that has a pin: one of the sequence's own, or else of another one (R288). -/
def State.unpin (s : State) (x : Seq) (q : Nat × Nat) : State :=
  let lower := fun (y : Seq) => s.setSeq { y with pins := y.pins.erase q }
  match Table.find s.seqs x.key with
  | some y => if y.pins.contains q then lower y else
      match s.seqs.find? (fun e => e.2.pins.contains q && e.2.partnerOf.isNone) with
      | some e => lower e.2
      | none => s
  | none => s

/-- An item of PIN, UNPIN or MIGRATE: `what` is its base recipe. -/
def State.pinItem (s : State) (ref : Nat) (c : Cmd) (what i : Nat) : State :=
  let fail := fun (u : State) (st hint : Nat) => u.modCmd ref (fun y => y.failItem i st 0 hint)
  let len := field c.pay (16 * i + 8) 6
  match s.seqItem ref (s.tagOf c.tenant) (field c.pay (16 * i) 4) (hEpoch c.hdr) with
  | .bad st hint => fail s st hint
  | .ok x0 =>
    let s1 := s.touchSeq x0
    let x := (Table.find s1.seqs x0.key).getD x0
    match s1.selected x c.hdr len with
    | none => fail s1 stMismatch 0
    | some sel =>
      if 2 ^ 42 < len then fail s1 stMismatch 0
      else if what = 7 then
        (sel.foldl (fun (a : State) q => a.unpin x q) s1).modCmd ref (fun y => y.endItem i 0)
      else
        let tier := if what = 6 then 1 else arg c.hdr 0x1E 1
        let pick := fun (f : Page → Bool) => sel.filter (fun y => match s1.page y.1 y.2 with
          | some pg => (what == 6 || (pg.sealed && !s1.pinned y.1 y.2)) && f pg
          | none => false)
        let go := pick (fun pg => !pg.home tier || pg.moving.any (fun u => u != tier))
        let mv := if what = 6 then pick (fun pg => !pg.home 1) else go
        let fresh := (sel.filter (fun y => !((s1.pinsOf c.tenant).map Prod.fst).contains y)).length * shapeSize x.shape
        let size := sumNat (mv.map (fun y => match s1.page y.1 y.2 with | some pg => pg.bytes | none => 0))
        if what = 6 ∧ s1.objI 0x7300 4 c.tenant * 2 ^ 20 < s1.pinUsed c.tenant + fresh then fail s1 stDenied 0
        else if what = 8 ∧ !s1.tierRoom c.tenant tier size then fail s1 stRetryBusy 0
        else
          let s2 := if what = 6 then s1.setSeq { x with pins := x.pins ++ sel } else s1
          let s3 := go.foldl (fun (a : State) y => a.startMove y.1 y.2 tier (what == 6)) s2
          if mv.isEmpty then s3.modCmd ref (fun y => y.endItem i 0)
          else s3.modCmd ref (fun y => { y with work := .moves ((match y.work with | .moves l => l | _ => []) ++ mv.map (fun z => (i, pageId z.1 z.2))) })

/-- The stages of the three commands. -/
def State.pinStart (s : State) (ref what : Nat) : State :=
  match s.cmd ref with
  | none => s
  | some c =>
    let n := arg c.hdr 0x1C 2
    (s.modCmd ref (fun x => x.start n)).eachTodo ref n (fun a i => a.pinItem ref c what i)

/-- PIN. -/
def pinRecipe : Recipe.Run where
  check := pinCheck false
  atAdmit := State.prefetch
  start := fun s c => s.pinStart c.ref 6
/-- UNPIN. -/
def unpinRecipe : Recipe.Run where
  check := pinCheck false
  start := fun s c => s.pinStart c.ref 7
/-- MIGRATE. -/
def migrateRecipe : Recipe.Run where
  check := pinCheck true
  atAdmit := State.prefetch
  start := fun s c => s.pinStart c.ref 8

/-- PIN (R288). -/
def execPin (p l r : Nat) (s : State) : Res := .next (s.ingest p l r (· == 6) pinRecipe)
/-- UNPIN (R288). -/
def execUnpin (p l r : Nat) (s : State) : Res := .next (s.ingest p l r (· == 7) unpinRecipe)
/-- MIGRATE (R288). -/
def execMigrate (p l r : Nat) (s : State) : Res := .next (s.ingest p l r (· == 8) migrateRecipe)

/-! ### OPEN_SEQ and CLOSE_SEQ (R264 to R266) -/

/-- Step 6 of OPEN_SEQ. -/
def openCheck (_ : State) (c : Ctx) : Option (Nat × Nat × Nat) :=
  let n := arg c.h 0x18 2
  let f := fun (i : Nat) => field c.pay (16 * i + 4) 1
  let layers := fun (i : Nat) => field c.pay (16 * i + 6) 2
  let heads := fun (i : Nat) => field c.pay (16 * i + 8) 2
  if n < 1 ∨ 256 < n ∨ hLen c.h ≠ 16 * n then some (stMismatch, 0x09, 0)
  else if (List.range n).any (fun i => f i % 4 == 3 || f i / 4 % 4 == 3) then some (stMismatch, 0x0A, 0)
  else if !(List.range n).all (fun i => decide (1 ≤ layers i) && decide (layers i ≤ 4096) && decide (1 ≤ heads i) && decide (heads i ≤ 256)
      && decide (layers i * heads i ≤ 16384)) then some (stMismatch, 0x09, 0)
  else if !(List.range n).all (fun i => decide (f i < 16) && zeroAt c.pay (16 * i + 5) 1 && zeroAt c.pay (16 * i + 10) 6)
  then some (stMismatch, 0x02, 0)
  else none

/-- Sequences open at this device as their owner (R262). -/
def State.openSeqs (s : State) : Table Seq := s.seqs.filter (fun e => e.2.partnerOf.isNone && e.2.closing.isNone)
/-- Open sequences of a tenant. -/
def State.openOf (s : State) (t : Nat) : Nat := (s.openSeqs.filter (fun e => e.2.tenant == t)).length
/-- Open sequences reserved for the STRICT tenants other than t and not used (R340). -/
def State.seqHold (s : State) (t : Nat) : Nat :=
  sumNat ((s.strictTenants.filter (fun u => u != t)).map (fun u => s.tObj u 10 - s.openOf u))

/-- The shape an OPEN_SEQ entry names (R263). -/
def State.openShape (s : State) (t : Nat) (pay : Bytes) (i : Nat) : Shape :=
  let f := field pay (16 * i + 4) 1
  { fmt := f % 4, dim := f / 4 % 4, layers := field pay (16 * i + 6) 2, heads := field pay (16 * i + 8) 2, domain := s.tDomain t }

/-- A new sequence; with a partner it is MIRRORED from the start, and the partner is told of it (R265, R309). -/
def State.newSeq (s : State) (t tag id : Nat) (sh : Shape) : State :=
  let pd := (s.homeOf (seqPos tag id)).bind (fun h => h.partner)
  let x : Seq := { fabTag := tag, id := id, tenant := t, shape := sh, ownerEpoch := s.epoch, partner := pd,
                   copy := if pd.isSome then 0 else 2, lastUse := s.now, line := s.fmap.nextLine }
  let s1 := { s.setSeq x with fmap := { s.fmap with nextLine := s.fmap.nextLine + 1 } }.useSeq x
  match pd with
  | some d => s1.emit (.catchUp d (s1.image x))
  | none => s1.flag 0x7000 7 2

/-- One item of OPEN_SEQ (R265). -/
def State.openItem (s : State) (ref : Nat) (c : Cmd) (i : Nat) : State :=
  let id := field c.pay (16 * i) 4
  let tag := s.tagOf c.tenant
  let sh := s.openShape c.tenant c.pay i
  let fail := fun (st hint : Nat) => s.modCmd ref (fun y => y.failItem i st 0 hint)
  match s.seqItem ref tag id (hEpoch c.hdr) with
  | .ok x => (s.touchSeq x).modCmd ref (fun y => if x.shape = sh then y.endItem i 0 else y.failItem i stMismatch 0 0)
  | .bad st hint =>
    if st ≠ stMismatch ∨ (s.seq tag id).isSome then fail st hint
    else if s.obj 0x7000 1 ≤ s.openSeqs.length + s.seqHold c.tenant then fail stRetryBusy 0
    else if s.objI 0x7300 2 c.tenant = 0 then fail stDenied 0
    else (s.newSeq c.tenant tag id sh).modCmd ref (fun y => y.endItem i 0)

/-- Runs the items of a command with ITEMS at +0x18, in order. -/
def State.eachItem (s : State) (ref : Nat) (f : State → Cmd → Nat → State) : State :=
  match s.cmd ref with
  | none => s
  | some c =>
    let n := arg c.hdr 0x18 2
    (s.modCmd ref (fun x => { x.start n with work := (match x.work with | .ordered b => .ordered b | _ => .none) })).eachTodo ref n (fun a i => f a c i)

/-- OPEN_SEQ. -/
def openRecipe : Recipe.Run where
  check := openCheck
  start := fun s c => (s.modCmd c.ref (fun x => { x with work := .none })).eachItem c.ref (fun a y i => a.openItem c.ref y i)

/-- Step 6 of CLOSE_SEQ. -/
def closeCheck (_ : State) (c : Ctx) : Option (Nat × Nat × Nat) :=
  let n := arg c.h 0x18 2
  if n < 1 ∨ 256 < n ∨ hLen c.h ≠ 16 * n then some (stMismatch, 0x09, 0)
  else if !(List.range n).all (fun i => zeroAt c.pay (16 * i + 4) 12) then some (stMismatch, 0x02, 0)
  else none

/-- A sequence closes: unknown to later commands, its tail pages sealed, kept for the commands admitted before (R266, R279). -/
def State.closeSeq (s : State) (x : Seq) (gen : Nat) (keep : List Nat) : State :=
  let y := { x with st := 4, gen := gen, closing := some keep }
  let s1 : State := { s with seqs := Table.put (Table.del s.seqs x.key) y.key y,
                             pend := s.pend.map (fun (q : PendItem) => if q.seq = x.key then { q with seq := y.key } else q) }
  x.blocks.foldl (fun (a : State) b => match a.group b.2.1 with
    | some g => (g.pages.filter (fun e => !e.2.sealed && !e.2.pos.isEmpty)).foldl (fun (u : State) e => u.sealPage b.2.1 e.1) a
    | none => a) s1

/-- One item of CLOSE_SEQ (R266, R399): closing a sequence that is not open ends OK. -/
def State.closeItem (s : State) (ref : Nat) (c : Cmd) (i : Nat) : State :=
  let id := field c.pay (16 * i) 4
  let tag := s.tagOf c.tenant
  let keep := (s.cmds.filter (fun e => e.1 != ref && e.2.tenant == c.tenant && e.2.refused.isNone)).map Prod.fst
  let ok := fun (u : State) => u.modCmd ref (fun y => y.endItem i 0)
  let go := match s.seq tag id with
    | some x =>
      if x.partnerOf.isNone then
        let s1 := s.touchSeq x
        ok (s1.closeSeq ((Table.find s1.seqs x.key).getD x) (256 * ref + i + 1) keep)
      else ok s
    | none => ok s
  match s.seqItem ref tag id (hEpoch c.hdr) with
  | .ok _ => go
  | .bad st hint => if st = stMismatch ∨ st = stSeqLost then go else s.modCmd ref (fun y => y.failItem i st 0 hint)

/-- CLOSE_SEQ: it takes effect at admission, for the commands admitted after it (R266). -/
def closeRecipe : Recipe.Run where
  check := closeCheck
  atAdmit := fun s c => s.eachItem c.ref (fun a y i => a.closeItem c.ref y i)
  start := fun s c => s.modCmd c.ref (fun x => { x with work := .none })

/-- OPEN_SEQ (R265). -/
def execOpenSeq (p l r : Nat) (s : State) : Res := .next (s.ingest p l r (· == 0x10) openRecipe)
/-- CLOSE_SEQ (R266). -/
def execCloseSeq (p l r : Nat) (s : State) : Res := .next (s.ingest p l r (· == 0x11) closeRecipe)

/-- The last command admitted before the close has completed: pages, quota, links and the partner's copy go (R266). -/
def execSeqCloseFinal (fabTag seqId : Nat) (s : State) : Res :=
  let done := fun (x : Seq) => x.fabTag == fabTag && x.id == seqId && (match x.closing with
    | some l => l.all (fun r => (s.cmd r).isNone)
    | none => false)
  match s.seqs.find? (fun e => done e.2) with
  | some e =>
    let s1 := (s.freeSeq e.2).unlinkFar e.2
    .next (match e.2.partner with | some d => if (s1.seq fabTag seqId).isNone then s1.emit (.copyDrop d fabTag seqId) else s1 | none => s1).freshViews
  | none => .next s

/-! ### Tiers (R284, R285, R291, R292) -/

/-- Demotions of a tier begin, least recently read first, until what stays is at LOW_WATER. -/
def State.demote (s : State) (t : Nat) : Nat → State
  | 0 => s
  | n + 1 =>
    if (s.tierStored t - s.outbound t) * 100 ≤ s.obj 0x7000 6 * s.tierCap t then s
    else match s.demoteOne t with
      | some s1 => s1.demote t n
      | none => s

/-- A tier above HIGH_WATER demotes (R284). -/
def execTierDemotion (tier : Nat) (s : State) : Res :=
  .next (if (tier = 1 ∨ tier = 2) ∧ s.obj 0x7000 5 * s.tierCap tier < s.tierStored tier * 100
    then s.demote tier (2 * s.allPages.length + 1) else s)

/-- Moves that a command waits for: those of a page are over, with status 0 or a failure (R288, R292). -/
def State.settleMoves (s : State) (page st : Nat) : State :=
  { s with cmds := s.cmds.map (fun (e : Nat × Cmd) => match e.2.work with
      | .moves l =>
        let mine := (l.filter (fun z => z.2 == page)).map Prod.fst
        let rest := l.filter (fun z => z.2 != page)
        let failed := if st = 0 then e.2 else mine.foldl (fun (x : Cmd) i => x.failItem i st 0 0) e.2
        let left := rest.filter (fun z => failed.items.getD z.1 (some 0) == none)
        let ended := (List.range failed.items.length).foldl (fun (x : Cmd) i =>
          if left.any (fun z => z.1 == i) then x else x.endItem i 0) failed
        (e.1, { ended with work := if left.isEmpty then .none else .moves left })
      | _ => e) }

/-- Die that homes the sequence a page belongs to. -/
def State.dieOfGroup (s : State) (gid : Nat) : Option Nat :=
  (s.seqs.find? (fun e => e.2.blocks.any (fun b => b.2.1 == gid))).bind (fun e => (s.homeOf (seqPos e.2.fabTag e.2.id)).map (fun h => h.die))

/-- Stores a page under a generation, or raw where coding saves no granule (R319); counts what was written. -/
def State.codePage (s : State) (gid m gen : Nat) : State :=
  match s.group gid, s.page gid m with
  | some g, some y =>
    let f := s.formOf g m y gen
    let tried := gen ≠ 0 ∧ (s.slotOf g.tenant (setOf g.shape) gen).isSome
    let s1 := s.modPage gid m (fun z => { z with gen := f.1.gen, slot := f.1.slot, granules := f.1.granules, queued := false,
                                                 tried := if f.1.gen = 0 ∧ tried then gen else 0 })
    if f.1.gen ≠ 0 then (s1.bump 0x7500 6 1).bump 0x7500 8 ((f.2.filter (fun b => b.headD 0 == 0x0E#8)).length)
    else if tried then s1.bump 0x7500 7 1 else s1
  | _, _ => s

/-- Whether a page has a move, a prefetch or the Write of a spill copy under way (R284, R289, R300). -/
def State.moveLive (s : State) (page : Nat) : Bool :=
  match s.group (page / 65536), s.page (page / 65536) (page % 65536) with
  | some g, some y => y.moving.isSome || y.prefetching || g.spillLeft.contains (page % 65536)
  | _, _ => false
/-- A unit of TC6 at its meter: it goes on in its turn once it has its tokens, and waits otherwise (R346 to R348). -/
def State.payMove (s : State) (t page d cost : Nat) (f : State → State) : State :=
  let wait := if s.heldMoves.contains (t, page) then s.heldMoves else s.heldMoves ++ [(t, page)]
  let ahead := (s.heldMoves.filter (fun h => h.1 == t && s.moveLive h.2)).head?
  if ahead.any (fun h => h.2 != page) then { s.throttle t 6 0 true with heldMoves := wait }
  else
    let r := s.take t 6 d cost
    if r.1 then f { r.2 with heldMoves := s.heldMoves.filter (fun h => h != (t, page) && s.moveLive h.2) } else { r.2 with heldMoves := wait }

/-- Bytes of T0 copies on a die. -/
def State.t0Used (s : State) (d : Nat) : Nat :=
  sumNat (s.allPages.map (fun y => if y.2.2.1.t0.map PCopy.place = some d then y.2.2.1.granulesIn 0 else 0)) * Config.granule
/-- The T0 copy of a die that was placed first. -/
def State.oldestT0 (s : State) (d : Nat) : Option (Nat × Nat) :=
  (s.allPages.foldl (fun (b : Option (Nat × Nat × Nat)) y => match y.2.2.1.t0 with
    | some c =>
      if c.place ≠ d then b
      else if b.all (fun x => decide (c.since < x.2.2)) then some (y.1, y.2.1, c.since) else b
    | none => b) none).map (fun x => (x.1, x.2.1))
/-- Room for n bytes in T0 on a die: T0 copies are dropped for it, oldest first (R289). -/
def State.makeT0 (s : State) (d n : Nat) : Nat → Bool × State
  | 0 => (false, s)
  | fuel + 1 =>
    if !s.dieUp d ∨ 52 * Config.tileBuffer < n then (false, s)
    else if s.t0Used d + n ≤ 52 * Config.tileBuffer then (true, s)
    else match s.oldestT0 d with
      | some (gid, m) => (s.modPage gid m (fun z => { z with t0 := none })).makeT0 d n fuel
      | none => (false, s)

/-- A page's move is over: the one that waited for it begins, or those that wait for the page go on (R288, R332). -/
def State.endMove (s : State) (gid m : Nat) : State :=
  match s.page gid m with
  | none => s
  | some y =>
    match y.after with
    | none => s.settleMoves (pageId gid m) 0
    | some u =>
      let s1 := s.modPage gid m (fun z => { z with after := none })
      if y.home u then s1.settleMoves (pageId gid m) 0 else s1.setOff gid m u
/-- The sweep's new copy of a page is complete: its T3 copy goes, and in T4 its old place (R331). -/
def State.recoded (s : State) (gid m gen : Nat) : State :=
  match s.page gid m with
  | none => s
  | some y =>
    let s0 := if y.home 4 then s.nvmeAt 3 (pageId gid m) y.loc else s
    let loc := match y.home 4, y.t4 with | true, some c => c.place | _, _ => y.loc
    let s1 := s0.modPage gid m (fun z => { z with t3 := none, moving := none, recode := none, loc := loc })
    let s2 := (s1.codePage gid m gen).bump 0x7500 9 1
    { s2 with rel := { s2.rel with swept := s2.rel.swept + 1 } }

/-- The new copy of a page is complete (R284, R289, R300, R331). A move without TC6 tokens, out of its turn or without room at its target goes on
waiting (R346, R348). -/
def State.finishMove (s : State) (page : Nat) : State :=
  let gid := page / 65536
  let m := page % 65536
  match s.group gid, s.page gid m with
  | some g, some y =>
    let d := (s.dieOfGroup gid).getD 0
    let pay := s.payMove g.tenant page d y.bytes
    if g.spillLeft.contains m ∧ !s.nvmeWaits page then
      pay (fun a =>
        let left := g.spillLeft.erase m
        (a.modPage gid m (fun z => { z with spill := true })).modGroup gid (fun h => { h with spillLeft := left, spill := left.isEmpty }))
    else
      match y.moving, y.recode with
      | some _, some gen => pay (fun a => (a.recoded gid m gen).endMove gid m)
      | some u, none => if y.home u ∨ s.tierRoom g.tenant u y.bytes then pay (fun a => (a.moved gid m u).endMove gid m) else s
      | none, _ =>
        if !y.prefetching then s
        else
          pay (fun a =>
            let r := a.makeT0 d y.bytes (a.allPages.length + 1)
            if r.1 then r.2.modPage gid m (fun z => { z with t0 := some (y.copyAt d 0 s.now), prefetching := false })
            else if r.2.t1Room g.tenant y.bytes then (r.2.moved gid m 1).modPage gid m (fun z => { z with prefetching := false })
            else r.2)
  | _, _ => s

/-- Moves that waited for TC6 tokens are looked at again, in order (R348). -/
def State.releaseMoves (s : State) : State := s.heldMoves.foldl (fun (a : State) h => a.finishMove h.2) s

/-- A page's Write, with the Flush it needs, has completed: of its spill copy, its move or its recoding (R67, R300). One that nothing waits for any more
is deallocated. -/
def State.wrote (s : State) (page : Nat) : State :=
  let gid := page / 65536
  let m := page % 65536
  match s.group gid, s.page gid m with
  | some g, some y =>
    if g.spillLeft.contains m ∨ y.moving = some 4 then s.finishMove page
    else if y.home 4 ∨ y.spill then s
    else match y.t4 with
      | some c => (s.modPage gid m (fun z => { z with t4 := none })).nvmeAt 3 page c.place
      | none => s
  | _, _ => s

/-- PAGE_MOVE_COMPLETE (R67, R284): a page counts as moved to or from T4 only once its NVMe command has completed. -/
def execPageMoveComplete (page : Nat) (s : State) : Res := .next (if s.nvmeWaits page then s else s.finishMove page)

/-- Owners' sequences of which a page cannot be read from any copy are LOST (R399). -/
def State.losePage (s : State) (gid : Nat) : State :=
  { s with seqs := s.seqs.map (fun (e : Nat × Seq) =>
      if e.2.partnerOf.isNone ∧ e.2.blocks.any (fun b => b.2.1 == gid) ∧ !(e.2.copy == 0 && e.2.partner.isSome) ∧ e.2.closing.isNone
      then (e.1, { e.2 with st := 5 }) else e) }

/-- Whether the partner of some sequence that holds the group has a copy. -/
def State.partnerHas (s : State) (gid : Nat) : Bool :=
  s.seqs.any (fun e => e.2.blocks.any (fun b => b.2.1 == gid) && e.2.copy == 0 && e.2.partner.isSome)

/-- A page without the copy of a tier that cannot be read any more; its spill copy becomes its home (R292, R300). -/
def Page.without (y : Page) (tier : Nat) : Page :=
  if tier = 3 then { y with t3 := none, gone3 := none }
  else if tier = 0 then { y with t0 := none }
  else if tier = 4 ∧ !y.home 4 then { y with spill := false }
  else match y.spill && tier != 4, y.t4 with
    | true, some c => { y with tier := 4, loc := c.place, granules := c.granules, gen := c.gen, slot := c.slot, moving := none, recode := none, after := none }
    | _, _ => { y with bad := tier :: y.bad, spill := false }
/-- A page's copy in a tier cannot be read any more: the next copy, the spill copy or the partner's stands in (R292, R300, R399). -/
def State.copyFails (s : State) (gid m tier : Nat) : State :=
  match s.page gid m with
  | some y =>
    let z := y.without tier
    let s1 := s.modPage gid m (fun _ => z)
    if z.readTier.isSome ∨ s1.partnerHas gid then s1
    else ((s1.modPage gid m (fun w => { w with moving := none, recode := none, after := none, prefetching := false })).settleMoves (pageId gid m)
      stPoisoned).losePage gid
  | none => s

/-- A read of a page fails or is revoked: a stall, and the next copy (R291, R292). `codeError`: DECODE found it (R321). -/
def execPageReadFail (page tier : Nat) (revoked codeError : Bool) (s : State) : Res :=
  let gid := page / 65536
  let m := page % 65536
  match s.group gid, s.page gid m with
  | some g, some y =>
    if tier = 1 ∧ y.home 1 ∧ codeError ∧ !revoked then .next ((s.copyFails gid m 1).flag 0x7500 5 3)
    else if 2 ≤ tier ∧ tier ≤ 4 ∧ (y.inTier tier ∨ (tier = 3 ∧ y.gone3.isSome)) ∧ (revoked → tier = 3 ∧ !codeError) then
      let s1 := (s.stall tier (if revoked then 3 else 2) g.tenant).copyFails gid m tier
      .next (if codeError then s1.flag 0x7500 5 3 else s1)
    else .next s
  | _, _ => .next s

end Sys2Proof.Machine
end

