-- ==== Sys2Proof/Machine/Tensors.lean ====
section
/-! DEFINITION. Resident tensors and GATHER (R255 to R258). -/

namespace Sys2Proof.Machine

open Sys2Proof

/-! ### LOAD_TENSOR, FREE_TENSOR -/

/-- ARGS of LOAD_TENSOR (R255). -/
structure LoadArgs where
  id : Nat
  fmt : Nat
  seal_ : Bool
  rows : Nat
  rowBytes : Nat
  off : Nat
deriving DecidableEq, Repr

/-- The arguments of a header. -/
def loadArgs (h : Bytes) : LoadArgs :=
  { id := arg h 0x18 2, fmt := arg h 0x1A 1, seal_ := bit (arg h 0x1B 1) 0, rows := arg h 0x1C 4, rowBytes := arg h 0x20 4, off := arg h 0x28 8 }

/-- Step 6 of LOAD_TENSOR. -/
def loadCheck (_ : State) (c : Ctx) : Option (Nat × Nat × Nat) :=
  let a := loadArgs c.h
  if a.id = 0 ∨ 6 < a.fmt ∨ a.rows < 1 ∨ 2 ^ 24 < a.rows ∨ a.rowBytes < 2 ∨ 16384 < a.rowBytes ∨ a.rowBytes % elemSize a.fmt ≠ 0 ∨ a.off % 64 ≠ 0
  then some (stMismatch, 0x09, 0) else none

/-- Space a tensor reserves (R255). -/
def Tensor.size (t : Tensor) : Nat := roundUp (t.rows * t.rowBytes) Config.granule
/-- Tensor space of a tenant. -/
def State.tensorUsed (s : State) (t : Nat) : Nat := sumNat (s.tensors.map (fun x => if x.tenant = t then x.size else 0))
/-- Tensor space of the device. -/
def State.tensorAll (s : State) : Nat := sumNat (s.tensors.map (fun x => x.size))
/-- Tensor space kept for the STRICT tenants other than t (R340). -/
def State.tensorHold (s : State) (t : Nat) : Nat :=
  sumNat ((s.strictTenants.filter (fun u => u != t)).map (fun u => s.obj 0x6200 5 * 2 ^ 20 - s.tensorUsed u))

/-- The tensor that a command finds under an ID: one freed is there for the commands admitted before (R256). -/
def State.tensorFor (s : State) (ref t id : Nat) : Option Tensor :=
  s.tensors.find? (fun x => x.tenant == t && x.id == id && (!x.freed || x.keep.contains ref))

/-- Changes a tenant's tensor. -/
def State.modTensor (s : State) (t id : Nat) (f : Tensor → Tensor) : State :=
  { s with tensors := s.tensors.map (fun (x : Tensor) => if x.tenant = t ∧ x.id = id then f x else x) }

/-- Bytes written into a tensor; unlisted bytes read as zero. -/
def putBytes (t : Table Byte) : Nat → Bytes → Table Byte
  | _, [] => t
  | off, b :: r => putBytes (if b = 0 then Table.del t off else Table.put t off b) (off + 1) r

/-- A load writes its bytes, and seals the tensor where SEAL is set. -/
def State.loadInto (s : State) (t : Nat) (a : LoadArgs) (pay : Bytes) : State :=
  s.modTensor t a.id (fun x => { x with data := putBytes x.data a.off pay, resident := a.seal_ })

/-- LOAD_TENSOR once its stages run (R255). -/
def State.loadRun (s : State) (ref : Nat) (c : Cmd) : State :=
  let a := loadArgs c.hdr
  let t := c.tenant
  let new : Tensor := { tenant := t, id := a.id, fmt := a.fmt, rows := a.rows, rowBytes := a.rowBytes }
  let inside := decide (a.off + c.pay.length ≤ a.rows * a.rowBytes)
  let ok := fun (u : State) => u.modCmd ref (fun y => y.endItem 0 0)
  match s.tensors.find? (fun x => x.tenant == t && x.id == a.id) with
  | some x =>
    if x.freed ∧ !x.keep.contains ref then s.failCmd ref stRetryBusy 0
    else if x.resident then s.failCmd ref stDenied 0x0E
    else if x.fmt ≠ a.fmt ∨ x.rows ≠ a.rows ∨ x.rowBytes ≠ a.rowBytes ∨ !inside then s.failCmd ref stMismatch 0x09
    else ok (s.loadInto t a c.pay)
  | none =>
    if !inside then s.failCmd ref stMismatch 0x09
    else if s.obj 0x6200 5 * 2 ^ 20 < s.tensorUsed t + new.size then s.failCmd ref stDenied 0x0D
    else if s.obj 0x6200 4 * 2 ^ 20 < s.tensorAll + s.tensorHold t + new.size then s.failCmd ref stRetryBusy 0
    else ok ({ s with tensors := s.tensors ++ [new] }.loadInto t a c.pay)

/-- Runs a command that is one piece of work. -/
def State.oneWork (s : State) (ref : Nat) (f : State → Cmd → State) : State :=
  match s.cmd ref with
  | some c => f (s.modCmd ref (fun x => { x with work := .none, items := [none] })) c
  | none => s

/-- LOAD_TENSOR. -/
def loadRecipe : Recipe.Run where
  check := loadCheck
  start := fun s c => s.oneWork c.ref (fun a y => a.loadRun c.ref y)

/-- LOAD_TENSOR (R255). -/
def execLoadTensor (p l r : Nat) (s : State) : Res := .next (s.ingest p l r (· == 0x22) loadRecipe)

/-- Step 6 of FREE_TENSOR. -/
def freeTensorCheck (_ : State) (c : Ctx) : Option (Nat × Nat × Nat) := if hLen c.h ≠ 0 then some (stMismatch, 0x09, 0) else none

/-- FREE_TENSOR hides the tensor from the commands admitted after it, at admission (R256). -/
def State.freeTensor (s : State) (c : Ctx) : State :=
  let id := arg c.h 0x18 2
  let keep := (s.cmds.filter (fun e => e.1 != c.ref && e.2.tenant == c.tenant && e.2.refused.isNone)).map Prod.fst
  match s.tensors.find? (fun x => x.tenant == c.tenant && x.id == id && !x.freed) with
  | some _ =>
    (s.modTensor c.tenant id (fun x => { x with freed := true, keep := keep })).modCmd c.ref (fun x => { x with items := [some 0] })
  | none => s.modCmd c.ref (fun x => { x with items := [none], whole := some stMismatch, reason := 0x09 })

/-- FREE_TENSOR. -/
def freeTensorRecipe : Recipe.Run where
  check := freeTensorCheck
  atAdmit := State.freeTensor
  start := fun s c => s.modCmd c.ref (fun x => { x with work := .none })

/-- FREE_TENSOR (R256). -/
def execFreeTensor (p l r : Nat) (s : State) : Res := .next (s.ingest p l r (· == 0x23) freeTensorRecipe)

/-- The last earlier command has completed: the space is scrubbed and the ID is free (R256). -/
def execTensorScrub (tenant id : Nat) (s : State) : Res :=
  .next { s with tensors := s.tensors.filter (fun x => !(x.tenant == tenant && x.id == id && x.freed && x.keep.all (fun r => (s.cmd r).isNone))) }

/-! ### GATHER (R257, R258) -/

/-- The 28 bytes of a GATHER source. -/
structure GSource where
  source : Nat
  fmt : Nat
  tensor : Nat
  rowBytes : Nat
  dpa : Nat
  count : Nat
deriving DecidableEq, Repr

/-- A source read from its bytes. -/
def gSource (b : Bytes) : GSource :=
  { source := field b 0 1, fmt := field b 1 1, tensor := field b 2 2, rowBytes := field b 4 4, dpa := field b 8 8, count := field b 0x10 4 }

/-- Whether a source's fields are as R257 states; a row is whole elements. -/
def GSource.good (g : GSource) : Bool :=
  if g.source = 0 then g.fmt == 0 && g.rowBytes == 0
  else g.source == 1 && decide (g.fmt ≤ 8) && decide (2 ≤ g.rowBytes) && decide (g.rowBytes ≤ 16384)
    && g.rowBytes % elemSize g.fmt == 0 && g.dpa % 64 == 0

/-- Step 7 of R199 over an extent source. -/
def State.gatherFault (s : State) (p l : Nat) (g : GSource) : Option (Nat × Nat × Nat) :=
  if g.source = 0 ∨ g.count = 0 then none
  else
    let first := g.dpa / Config.extentBytes
    let last := (g.dpa + g.count * g.rowBytes - 1) / Config.extentBytes
    let bad := (List.range (Nat.min (last - first) 65536 + 1)).find? (fun i => match s.slotExt p l (first + i) with
      | some (_, _, st, _) => st == 1
      | none => true)
    bad.map (fun i => (if s.leaseState p l = 3 then stLeaseExpired else stRevoked, 0x00, (first + i) % 65536))

/-- Step 6 of GATHER_ROWS, then step 7. -/
def gatherCheck (s : State) (c : Ctx) : Option (Nat × Nat × Nat) :=
  let g := gSource (c.h.drop 0x18)
  let n := hLen c.h / 4
  let rb := if g.source = 1 then g.rowBytes else match s.tensorFor c.ref c.tenant g.tensor with | some t => t.rowBytes | none => 0
  if !g.good ∨ hLen c.h % 4 ≠ 0 ∨ n < 1 ∨ 4096 < n then some (stMismatch, 0x09, 0)
  else if hResLen c.h < n * rb then some (stMismatch, 0x0B, 0)
  else s.gatherFault c.p c.l g

/-- A copy that a station still holds of n bytes at an address (R160). -/
def State.copyOf (s : State) (a n : Nat) : Option Bytes :=
  (s.copies.find? (fun c => decide (c.addr ≤ a) && decide (a + n ≤ c.addr + c.data.length))).map (fun c => slice c.data (a - c.addr) n)
/-- n bytes of this device that a station reads: from a copy it holds, where it takes it, or from the home; none: poison (R157, R160, R377). -/
def State.stationBytes (s : State) (a n : Nat) : Option Bytes :=
  match s.copyOf a n with
  | some b => if Config.fromCopy (s.freeCtr + a) then some b else if s.poisoned a n then none else some (memRead s.mem a n)
  | none => if s.poisoned a n then none else some (memRead s.mem a n)
/-- n bytes at a DPA that a station reads for a command, slot by slot: the data, or a status with its slot (R130, R133, R143). -/
def State.readDpa (s : State) (ref p l : Nat) : Nat → Nat → Nat → Except (Nat × Nat) Bytes
  | 0, _, _ => .ok []
  | fuel + 1, dpa, n =>
    if n = 0 then .ok []
    else
      let k := Nat.min n (Config.extentBytes - dpa % Config.extentBytes)
      let put := fun (o : Option Bytes) => match o with
        | none => .error (stPoisoned, 0)
        | some b => match s.readDpa ref p l fuel (dpa + k) (n - k) with
          | .ok c => .ok (b ++ c)
          | .error e => .error e
      match s.stationCheck ref p l dpa k false with
      | .ok _ a => put (s.stationBytes a k)
      | .remote _ v a => put (if s.poisoned (v * 2 ^ 55 + a) k then none else (Config.peerData s.freeCtr a k).map (fun b => (List.range k).map (fun i => b.getD i 0)))
      | .lost _ => .error (stPoisoned, 0)
      | _ => .error (if s.leaseState p l = 3 then stLeaseExpired else stRevoked, dpa / Config.extentBytes)

/-- A stream of rows: element code, bytes a row, rows. -/
structure Rows where
  fmt : Nat
  rowBytes : Nat
  rows : List Bytes
deriving DecidableEq, Repr

/-- How a stage ends a command: status, reason, hint. -/
abbrev Stop := Nat × Nat × Nat

/-- GATHER over an index list (R258). -/
def State.gatherRows (s : State) (ref p l t : Nat) (g : GSource) (idx : List Nat) : Except Stop Rows :=
  let rec_ := fun (fmt rb count : Nat) (row : Nat → Except (Nat × Nat) Bytes) =>
    idx.foldr (fun i acc => match acc with
      | .error e => if i < count then (match row i with | .ok _ => .error e | .error (st, h) => .error (st, 0, h)) else .error (stMismatch, 0x09, 0)
      | .ok (r : Rows) =>
        if count ≤ i then .error (stMismatch, 0x09, 0)
        else match row i with
          | .ok b => .ok { r with rows := b :: r.rows }
          | .error (st, h) => .error (st, 0, h)) (Except.ok ({ fmt := fmt, rowBytes := rb, rows := [] } : Rows) : Except Stop Rows)
  if g.source = 0 then
    match s.tensorFor ref t g.tensor with
    | some x =>
      if !x.resident then .error (stMismatch, 0x09, 0)
      else rec_ x.fmt x.rowBytes x.rows (fun i => .ok ((List.range x.rowBytes).map (fun j => Table.get x.data 0 (i * x.rowBytes + j))))
    | none => .error (stMismatch, 0x09, 0)
  else rec_ g.fmt g.rowBytes g.count (fun i => s.readDpa ref p l 3 (g.dpa + i * g.rowBytes) g.rowBytes)

/-- The copies that a GATHER from an extent leaves in tile buffers and read buffers, of the rows it read at home (R160, R258). -/
def State.keepCopies (s : State) (ref p l : Nat) (g : GSource) (idx : List Nat) : State :=
  if g.source = 0 then s
  else
    let new := idx.filterMap (fun i =>
      let dpa := g.dpa + i * g.rowBytes
      match s.stationCheck ref p l dpa g.rowBytes false with
      | .ok _ a => if i < g.count ∧ (s.copyOf a g.rowBytes).isNone then some ({ addr := a, data := memRead s.mem a g.rowBytes } : DataCopy) else none
      | _ => none)
    { s with copies := s.copies ++ new.eraseDups, freeCtr := s.freeCtr + 1 }

/-- GATHER_ROWS once its stages run. -/
def State.gatherRun (s : State) (ref : Nat) (c : Cmd) : State :=
  let idx := (chunks 4 4096 c.pay).map leNat
  let g := gSource (c.hdr.drop 0x18)
  let s1 := s.keepCopies ref c.p c.l g idx
  match s.gatherRows ref c.p c.l c.tenant g idx with
  | .ok r => s1.modCmd ref (fun y => { y.endItem 0 0 with result := r.rows.flatten })
  | .error (st, reason, hint) => s1.modCmd ref (fun y => y.failItem 0 st reason hint)

/-- The range that a GATHER reads for its command (R132, R133). -/
def GSource.range (g : GSource) : List (Nat × Nat) := if g.source = 0 then [] else [(g.dpa, g.count * g.rowBytes)]
/-- GATHER_ROWS. -/
def gatherRecipe : Recipe.Run where
  check := gatherCheck
  atAdmit := fun s c => s.modCmd c.ref (fun x => { x with reads := (gSource (c.h.drop 0x18)).range })
  start := fun s c => s.oneWork c.ref (fun a y => a.gatherRun c.ref y)

/-- GATHER_ROWS (R258). -/
def execGatherRows (p l r : Nat) (s : State) : Res := .next (s.ingest p l r (· == 12) gatherRecipe)

end Sys2Proof.Machine
end

