-- ==== Sys2Proof/Machine/Palette.lean ====
section
/-! DEFINITION. Palettes: installing, freeing, coding, training, the sweep (R313 to R334). -/

namespace Sys2Proof.Machine

open Sys2Proof

/-! ### Slots and generations -/

/-- Set number of a SET byte (R323, R326). -/
def setByte (b : Nat) : Nat := b % 4 * 3 + b / 4 % 4
/-- PALETTE_MODE of a tenant (R329). -/
def State.palMode (s : State) (t : Nat) : Nat := s.objI 0x7400 2 t
/-- Slots a tenant holds. -/
def State.slotsHeld (s : State) (t : Nat) : Nat := (s.slots.filter (fun e => e.2.tenant == t)).length
/-- FREE slots. -/
def State.slotsFree (s : State) : Nat := 4096 - s.slots.length
/-- Slots kept for the STRICT tenants other than t (R340). -/
def State.slotHold (s : State) (t : Nat) : Nat :=
  sumNat ((s.strictTenants.filter (fun u => u != t)).map (fun u => s.objI 0x7400 3 u - s.slotsHeld u))
/-- Generations resident or retiring in a set. -/
def State.setGens (s : State) (t set : Nat) : List Nat := (s.slots.filter (fun e => e.2.tenant == t && e.2.set == set)).map (fun e => e.2.gen)
/-- AT_REST of a slot: the stored copies coded with it, each by its own form, in any tier (R324). -/
def State.atRest (s : State) (slot : Nat) : Nat :=
  let of := fun (c : Option PCopy) => match c with | some x => bool01 (x.gen != 0 && x.slot == slot) | none => 0
  sumNat (s.allPages.map (fun y =>
    let z := y.2.2.1
    bool01 (z.away.isNone && z.gen != 0 && z.slot == slot) + of z.t3 + (if z.spill ∧ !z.home 4 then of z.t4 else 0)))
/-- QUEUED of a slot: the copies in T0, and the coded granules that a Write has yet to store (R324). -/
def State.queuedIn (s : State) (slot : Nat) : Nat :=
  let of := fun (c : Option PCopy) => match c with | some x => bool01 (x.gen != 0 && x.slot == slot) | none => 0
  sumNat (s.allPages.map (fun y =>
    let z := y.2.2.1
    of z.t0 + (if z.spill ∨ (z.home 4 ∧ z.recode.isNone) then 0 else of z.t4)))

/-- Whether a new generation finds a slot within the tenant's limit (R327, R330, R340). -/
def State.slotRoom (s : State) (t set : Nat) : Bool :=
  decide (s.slotHold t + 1 ≤ s.slotsFree) && decide (s.slotsHeld t < s.objI 0x7400 3 t) && decide ((s.setGens t set).length < 15)

/-- The number of a set's next generation: 1 to 255 and round again, none that is resident (R323). -/
def nextGen (used : List Nat) : Nat → Nat → Nat
  | 0, g => g % 255 + 1
  | n + 1, g => if used.contains (g % 255 + 1) then nextGen used n (g + 1) else g % 255 + 1

/-- Makes a generation of a set current. -/
def State.makeCurrent (s : State) (t set gen : Nat) : State := s.setPset t set { s.pset t set with cur := gen, count := 0 }

/-- Installs a Palette in the lowest free slot: generation, slot, state (R323, R326). -/
def State.installPal (s : State) (t set : Nat) (bytes : Bytes) (trained : Bool) : Nat × Nat × State :=
  let p := s.pset t set
  let g := nextGen (s.setGens t set) 255 p.last
  let slot := ((List.range 4096).find? (fun i => (Table.find s.slots i).isNone)).getD 0
  let x : PSlot := { tenant := t, set := set, gen := g, bytes := bytes, trained := trained }
  let s1 := { s with slots := Table.put s.slots slot x }.setPset t set { p with last := g, order := g :: p.order }
  (g, slot, if s1.slotsFree < 64 then s1.flag 0x7500 5 0 else s1)

/-- A generation turns RETIRING; if it was current, the newest RESIDENT one is current then (R328). -/
def State.retireGen (s : State) (t set gen : Nat) : State :=
  match s.slotOf t set gen with
  | none => s
  | some (slot, x) =>
    let s1 : State := { s with slots := Table.put s.slots slot { x with retiring := true } }
    let p := s1.pset t set
    if p.cur = gen then
      s1.makeCurrent t set ((p.order.find? (fun g => match s1.slotOf t set g with | some (_, y) => !y.retiring | none => false)).getD 0)
    else s1

/-! ### INSTALL_PALETTE, FREE_PALETTE -/

/-- Step 6 of INSTALL_PALETTE (R327). -/
def palCheck (_ : State) (c : Ctx) : Option (Nat × Nat × Nat) :=
  let cur := bit (arg c.h 0x19 1) 0
  if (hLen c.h ≠ 0 ∧ hLen c.h ≠ 1024) ∨ (hLen c.h ≠ 0 ∧ arg c.h 0x1A 1 ≠ 0) ∨ (hLen c.h = 0 ∧ !cur) then some (stMismatch, 0x09, 0)
  else if hResLen c.h < 8 then some (stMismatch, 0x0B, 0)
  else if arg c.h 0x18 1 % 4 = 3 ∨ arg c.h 0x18 1 / 4 % 4 = 3 then some (stMismatch, 0x0A, 0)
  else none

/-- Result data of INSTALL_PALETTE. -/
def palResult (slot gen : Nat) : Bytes := leBytes 8 (slot + gen * 65536)

/-- INSTALL_PALETTE once it runs (R326, R327). -/
def State.palRun (s : State) (ref : Nat) (c : Cmd) : State :=
  let t := c.tenant
  let set := setByte (arg c.hdr 0x18 1)
  let gen := arg c.hdr 0x1A 1
  let done := fun (u : State) (slot g : Nat) => u.modCmd ref (fun y => { y.endItem 0 0 with result := palResult slot g })
  if s.palMode t = 0 then s.failCmd ref stDenied 0x0D
  else if hLen c.hdr = 0 then
    if gen = 0 then done (s.makeCurrent t set 0) 0 0
    else match s.slotOf t set gen with
      | some (slot, x) => if x.retiring then s.failCmd ref stPaletteAbsent 0 else done (s.makeCurrent t set gen) slot gen
      | none => s.failCmd ref stPaletteAbsent 0
  else if !s.slotRoom t set then s.failCmd ref stSlotsFull 0
  else
    let r := s.installPal t set c.pay false
    done (if bit (arg c.hdr 0x19 1) 0 then r.2.2.makeCurrent t set r.1 else r.2.2) r.2.1 r.1

/-- INSTALL_PALETTE. -/
def palRecipe : Recipe.Run where
  check := palCheck
  start := fun s c => s.oneWork c.ref (fun a y => a.palRun c.ref y)

/-- INSTALL_PALETTE (R326). -/
def execInstallPalette (p l r : Nat) (s : State) : Res := .next (s.ingest p l r (· == 0x20) palRecipe)

/-- Step 6 of FREE_PALETTE (R328). -/
def freePalCheck (_ : State) (c : Ctx) : Option (Nat × Nat × Nat) :=
  if hLen c.h ≠ 0 ∨ arg c.h 0x1A 1 = 0 then some (stMismatch, 0x09, 0)
  else if hResLen c.h < 8 then some (stMismatch, 0x0B, 0)
  else if arg c.h 0x18 1 % 4 = 3 ∨ arg c.h 0x18 1 / 4 % 4 = 3 then some (stMismatch, 0x0A, 0)
  else none

/-- FREE_PALETTE once it runs (R328). -/
def State.freePalRun (s : State) (ref : Nat) (c : Cmd) : State :=
  let t := c.tenant
  let set := setByte (arg c.hdr 0x18 1)
  let gen := arg c.hdr 0x1A 1
  match s.slotOf t set gen with
  | none => s.failCmd ref stPaletteAbsent 0
  | some (slot, _) =>
    (s.retireGen t set gen).modCmd ref (fun y => { y.endItem 0 0 with result := leBytes 4 (s.atRest slot) ++ leBytes 4 (s.queuedIn slot) })

/-- FREE_PALETTE. -/
def freePalRecipe : Recipe.Run where
  check := freePalCheck
  start := fun s c => s.oneWork c.ref (fun a y => a.freePalRun c.ref y)

/-- FREE_PALETTE (R328). -/
def execFreePalette (p l r : Nat) (s : State) : Res := .next (s.ingest p l r (· == 0x21) freePalRecipe)

/-- Whether a FREE_PALETTE of a slot's generation has yet to write its record (R328). -/
def State.freeing (s : State) (x : PSlot) : Bool :=
  s.cmds.any (fun e => e.2.recipe == 0x21 && e.2.tenant == x.tenant && setByte (arg e.2.hdr 0x18 1) == x.set && arg e.2.hdr 0x1A 1 == x.gen)
/-- A RETIRING slot with both counts 0 is zeroed and FREE (R325), after the record of the FREE_PALETTE that retired it (R328). -/
def execSlotFree (slot : Nat) (s : State) : Res :=
  match Table.find s.slots slot with
  | some x =>
    if x.retiring ∧ s.atRest slot = 0 ∧ s.queuedIn slot = 0 ∧ !s.freeing x then
      let p := s.pset x.tenant x.set
      .next ({ s with slots := Table.del s.slots slot }.setPset x.tenant x.set { p with order := p.order.filter (· != x.gen) })
    else .next s
  | none => .next s

/-! ### Coding pages (R314 to R320) -/

/-- The generation new coding of a set uses: its current one, 0 where the tenant's mode is OFF; none while its slot's home die is
out (R322, R329). -/
def State.codeGen (s : State) (t set : Nat) : Option Nat :=
  let g := (s.pset t set).cur
  if s.palMode t = 0 ∨ g = 0 then some 0
  else match s.slotOf t set g with
    | some (slot, _) => if s.dieUp (slot / 512) then some g else none
    | none => some 0

/-- A queued sealed page is coded with its set's current generation (R314). -/
def execSealCoding (page : Nat) (s : State) : Res :=
  let gid := page / 65536
  let m := page % 65536
  match s.group gid, s.page gid m with
  | some g, some y =>
    if y.sealed ∧ y.queued then
      match s.codeGen g.tenant (setOf g.shape) with
      | some gen => .next (if gen = 0 then s.modPage gid m (fun z => { z with queued := false }) else s.codePage gid m gen)
      | none => .next s
    else .next s
  | _, _ => .next s

/-! ### Training (R330) -/

/-- Counts a sub-vector. -/
def countIn : Table Nat → List Bytes → Table Nat
  | t, [] => t
  | t, v :: r => countIn (Table.put t (leNat v) (Table.get t 0 (leNat v) + 1)) r

/-- Inserts (value, count) by falling count, then rising value. -/
def freqInsert (a : Nat × Nat) : List (Nat × Nat) → List (Nat × Nat)
  | [] => [a]
  | b :: t => if b.2 < a.2 ∨ (a.2 = b.2 ∧ a.1 < b.1) then a :: b :: t else b :: freqInsert a t

/-- The candidate Palette of the blocks of a list of plain pages (R330). -/
def trainPalette (plains : List Bytes) : Bytes :=
  let freq := plains.foldl (fun t p => countIn t (chunks 4 p.length p)) []
  let top := (freq.foldl (fun l a => (freqInsert a l).take 256) []).map Prod.fst
  (top ++ List.replicate (256 - top.length) 0).flatMap (leBytes 4)

/-- Granules a plain page takes under a Palette, by R319. -/
def storedUnder (pal plain : Bytes) (sh : Shape) : Nat :=
  Nat.min (codedGranules (codeRecords pal plain (pageBlocks sh))) (plainGranules sh.fmt sh.dim)

/-- TRAIN_PAGES pages have sealed under the current generation in AUTO mode: a candidate is installed or kept out (R330). -/
def execPaletteTraining (tenant set : Nat) (s : State) : Res :=
  let p := s.pset tenant set
  let n := s.obj 0x7500 2
  if s.palMode tenant ≠ 2 ∨ p.count < n then .next s
  else
    let pages := (p.recent.take n).filterMap (fun e => (s.group e.1).bind (fun g =>
      (Table.find g.pages e.2).map (fun y => (g.shape, (plainOf g e.2 y).take (64 * pageBlocks g.shape)))))
    let cand := trainPalette (pages.map Prod.snd)
    let old := sumNat (pages.map (fun y => match s.slotOf tenant set p.cur with
      | some (_, x) => storedUnder x.bytes y.2 y.1
      | none => plainGranules y.1.fmt y.1.dim))
    let new := sumNat (pages.map (fun y => storedUnder cand y.2 y.1))
    let s0 := s.setPset tenant set { p with count := 0 }
    if (100 - s.obj 0x7500 3) * old < 100 * new then .next s0
    else if !s.slotRoom tenant set then .next (s0.flag 0x7500 5 1)
    else
      let r := s0.installPal tenant set cand true
      let s1 := r.2.2.makeCurrent tenant set r.1
      .next (match s1.slotOf tenant set p.cur with
        | some (_, x) => if x.trained then s1.retireGen tenant set p.cur else s1
        | none => s1)

/-! ### The sweep (R331, R332) -/

/-- Whether a page's generation is RETIRING. -/
def State.retiringPage (s : State) (t set : Nat) (y : Page) : Bool :=
  y.gen != 0 && (match s.slotOf t set y.gen with | some (_, x) => x.retiring | none => true)

/-- Pages that the sweep of a die may take, in its order: by their home, or in T4 by their spill copy (R331). -/
def State.sweepList (s : State) (die : Nat) : List (Nat × Nat) :=
  let cand := s.groups.flatMap (fun g =>
    if (s.dieOfGroup g.1).getD 0 ≠ die then []
    else
      match s.codeGen g.2.tenant (setOf g.2.shape) with
      | none => []
      | some gen =>
        let set := setOf g.2.shape
        let stale := fun (now tried : Nat) => now != gen && (gen == 0 || tried != gen)
        let free := g.2.pages.filter (fun y => y.2.sealed && !y.2.queued && y.2.moving.isNone && y.2.away.isNone && !g.2.spillLeft.contains y.1)
        (free.filter (fun y => stale y.2.gen y.2.tried)).map (fun y => (g.1, y.1, y.2.tier, s.retiringPage g.2.tenant set y.2))
          ++ free.filterMap (fun y => match y.2.t4 with
            | some c => if y.2.spill ∧ !y.2.home 4 ∧ !stale y.2.gen y.2.tried ∧ stale c.gen y.2.tried then
                some (g.1, y.1, 4, s.retiringPage g.2.tenant set { y.2 with gen := c.gen }) else none
            | none => none))
  [true, false].flatMap (fun ret => [1, 2, 4].flatMap (fun tier =>
    (cand.filter (fun c => c.2.2.2 == ret && c.2.2.1 == tier)).map (fun c => (c.1, c.2.1))))

/-- The sweep takes a page up to code it with a generation: by a Read and a Write in T4, at once elsewhere, with TC6 tokens of its tenant (R331, R346). A spill
copy is written anew. -/
def State.sweepPage (s : State) (gid m gen : Nat) (g : Group) (y : Page) : State :=
  let begin_ := s.modPage gid m (fun z => { z with moving := some y.tier, recode := some gen })
  if y.gen = gen then
    let s1 := (s.modPage gid m (fun z => { z with spill := false })).modGroup gid (fun h => { h with spill := false, spillLeft := h.spillLeft ++ [m] })
    s1.nvmeWrite gid m (s.formOf g m y gen).1
  else if y.home 4 then begin_.nvmeAt 0 (pageId gid m) y.loc
  else begin_.finishMove (pageId gid m)
/-- The sweep takes up one page of a die, at most SWEEP_RATE of the device a second (R331). -/
def execSweepRecode (die : Nat) (s : State) : Res :=
  let rate := s.obj 0x7500 4
  if rate = 0 ∨ !s.dieUp die then .next s
  else
    match s.sweepList die with
    | [] => .next s
    | (gid, m) :: _ =>
      match s.group gid, s.page gid m with
      | some g, some y =>
        let s1 := s.atTime (s.rel.sweptAt + ceilDiv 1000000000 rate)
        let s2 : State := { s1 with rel := { s1.rel with sweptAt := s1.now } }
        .next (s2.sweepPage gid m ((s2.codeGen g.tenant (setOf g.shape)).getD 0) g y)
      | _, _ => .next s

end Sys2Proof.Machine
end

