-- ==== Sys2Proof/Machine/RecipeOps.lean ====
section
/-! DEFINITION. Recipe descriptors and composed chains (R181 to R189, R198, R220, R259, R260, R282). -/

namespace Sys2Proof.Machine

open Sys2Proof

/-! ### Descriptors -/

/-- Station code of a stage entry. -/
abbrev sgStation (e : Bytes) : Nat := field e 0 1
/-- MODE of a stage entry. -/
abbrev sgMode (e : Bytes) : Nat := field e 1 1
/-- PARAMS of a stage entry. -/
abbrev sgParams (e : Bytes) : Bytes := slice e 4 28

/-- A section entry of INGEST (R198): KIND, ELEM, ROW_ELEMS and the reserved half-word. -/
structure Section where
  kind : Nat
  elem : Nat
  rowElems : Nat
  resv : Nat
deriving DecidableEq, Repr

/-- Section entry i of INGEST's PARAMS. -/
def sectionOf (ps : Bytes) (i : Nat) : Section :=
  let o := 4 + 6 * i
  { kind := field ps o 1, elem := field ps (o + 1) 1, rowElems := field ps (o + 2) 2, resv := field ps (o + 4) 2 }
/-- Sections an INGEST entry declares. -/
def sectionsOf (e : Bytes) : List Section := (List.range (field (sgParams e) 0 1)).map (sectionOf (sgParams e))
/-- Bytes of a section's row. -/
def Section.rowBytes (x : Section) : Nat := elemSize x.elem * x.rowElems

/-- Whether a section entry is allowed (R198). -/
def Section.good (x : Section) : Bool :=
  x.resv == 0 &&
    (if x.kind = 5 then decide (x.elem ≤ 6) && decide (1 ≤ x.rowElems) && decide (x.rowElems ≤ 8192)
     else if x.kind = 6 ∨ x.kind = 9 then x.elem == 7 && x.rowElems == 1
     else x.kind == 10 && x.elem == 8 && x.rowElems == 1)

/-- Whether an INGEST entry is as R198 requires. -/
def ingestGood (e : Bytes) : Bool :=
  let ps := sgParams e
  let n := field ps 0 1
  let xs := sectionsOf e
  sgMode e == 0 && decide (1 ≤ n) && decide (n ≤ 4) && zeroAt ps 1 3 && xs.all Section.good && zeroAt ps (4 + 6 * n) (24 - 6 * n)
    && (xs.map (fun x => x.kind)).eraseDups.length == n

/-- What a stage offers to later ones: stream kind, element code and bytes a row where they are known. -/
structure Offer where
  kind : Nat
  fmt : Option Nat
  rowBytes : Option Nat
deriving DecidableEq, Repr

/-- What a stage does to the streams offered so far, nearest first, and whether COLUMN can be judged; none where R187 refuses it. -/
structure Link where
  offers : List Offer
  out : List Offer

/-- Takes the nearest stream of a kind. -/
def takeKind (k : Nat) (l : List Offer) : Option (Offer × List Offer) :=
  match l.find? (fun o => o.kind == k) with
  | some o => some (o, l.erase o)
  | none => none

/-- Whether a FILTER column lies in a row, where the row is known. -/
def columnOk (o : Offer) (col : Nat) : Bool :=
  match o.fmt, o.rowBytes with
  | some f, some n => decide ((col + 1) * elemSize f ≤ n)
  | _, _ => true

/-- The rows a GATHER source gives, where that is known at install. -/
def State.gatherOffer (s : State) (t : Nat) (g : GSource) : Offer :=
  if g.source = 1 then { kind := 5, fmt := some g.fmt, rowBytes := some g.rowBytes }
  else match s.tensors.find? (fun x => x.tenant == t && x.id == g.tensor && !x.freed) with
    | some x => { kind := 5, fmt := some x.fmt, rowBytes := some x.rowBytes }
    | none => { kind := 5, fmt := none, rowBytes := none }

/-- One stage of a composed chain after INGEST (R181, R182, R187, R220, R257 to R260, R282, R313). -/
def State.linkStage (s : State) (t : Nat) (last : Bool) (e : Bytes) (l : Link) : Option Link :=
  let ps := sgParams e
  let st := sgStation e
  let plain := sgMode e == 0 && zeroAt ps 0 28
  let pass := fun (k : Nat) => match takeKind k l.offers with
    | some (o, rest) => if plain then some { offers := o :: rest, out := [o] } else none
    | none => none
  if field e 2 2 ≠ 0 then none
  else if last then (if st = 0x0D ∧ plain ∧ !l.out.isEmpty then some l else none)
  else if st = 0x04 ∨ st = 0x05 then pass 0xA
  else if st = 0x0B then pass 5
  else if st = 0x06 then
    match takeKind 6 l.offers with
    | some (_, rest) =>
      let g := gSource ps
      if sgMode e = 0 ∧ g.good ∧ zeroAt ps 0x14 8 then let o := s.gatherOffer t g; some { offers := o :: rest, out := [o] } else none
    | none => none
  else if st = 0x07 then
    match takeKind 5 l.offers with
    | some (o, rest) =>
      let idx : Offer := { kind := 6, fmt := some 7, rowBytes := some 4 }
      if sgMode e = 0 then (if plain then some { offers := o :: rest, out := [o] } else none)
      else if sgMode e = 3 then
        let out := field ps 3 1
        let float := match o.fmt with | some f => f == 0 || f == 1 || f == 2 || f == 5 | none => false
        if field ps 2 1 ≤ 5 ∧ out ≤ 1 ∧ zeroAt ps 0x0C 16 ∧ columnOk o (field ps 0 2) ∧ (!float || field ps 8 4 == 0) then
          let y := if out = 1 then idx else o
          some { offers := y :: rest, out := [y] }
        else none
      else if sgMode e = 4 then
        let out := field ps 4 1
        let k := field ps 0 2
        if 1 ≤ k ∧ k ≤ 1024 ∧ out ≤ 1 ∧ zeroAt ps 5 23 ∧ columnOk o (field ps 2 2) then
          let y := if out = 1 then idx else o
          some { offers := y :: rest, out := [y] }
        else none
      else none
    | none => none
  else none

/-- The stages after INGEST, with their indices: the first offending one, if any. -/
def State.linkAll (s : State) (t : Nat) : Nat → Link → List Bytes → Option Nat
  | _, _, [] => none
  | i, l, e :: rest => match s.linkStage t rest.isEmpty e l with
    | some l1 => s.linkAll t (i + 1) l1 rest
    | none => some i

/-- A composed chain's first offending stage (R187, R198). -/
def State.chainFault (s : State) (t : Nat) (stages : List Bytes) : Option Nat :=
  match stages with
  | [] => some 0
  | e :: rest =>
    if sgStation e ≠ 1 ∨ field e 2 2 ≠ 0 ∨ !ingestGood e then some 0
    else
      let os := (sectionsOf e).map (fun x => ({ kind := x.kind, fmt := some x.elem, rowBytes := some x.rowBytes } : Offer))
      s.linkAll t 1 { offers := os.reverse, out := os } rest

/-- Tile size granted (R189). -/
def grantTile (n : Nat) : Nat := if n = 0 then 16384 else if n < 2048 then 1024 else if n < 4096 then 2048 else if n < 8192 then 4096 else if n < 16384 then 8192 else 16384

/-- Recipes of a tenant that count against its limit (R185). -/
def State.recipesOf (s : State) (t : Nat) : Nat := (s.recipes.filter (fun x => x.tenant == t && x.removedBy.isNone)).length
/-- Recipes of the device that count against its limit. -/
def State.recipesAll (s : State) : Nat := (s.recipes.filter (fun x => x.removedBy.isNone)).length

/-- Whether the layer order of a descriptor is in range (R186, R187). -/
def layerOrderOk (h : Bytes) : Bool :=
  let first := field h 0x0C 2
  let n := field h 0x0E 2
  let w := field h 0x11 1
  let step := field h 0x10 1
  decide (1 ≤ n) && decide (n ≤ 4096) && (step == 1 || step == 255) && decide (1 ≤ w) && decide (w ≤ 8)
    && (if step = 1 then decide (first + n ≤ 65536) else decide (n ≤ first + 1))

/-- Why a descriptor is refused: reason and stage (R187). -/
def State.descFault (s : State) (t : Nat) (h : Bytes) (stages : List Bytes) : Option (Nat × Nat) :=
  let id := field h 0 2
  let n := field h 2 1
  let base := field h 6 2
  let f := field h 5 1
  let resv := stages.zipIdx.find? (fun e => field e.1 2 2 ≠ 0)
  if id < 0x100 ∨ 0xFFF < id ∨ field h 3 1 ≠ 1 ∨ field h 4 1 ≠ 0 ∨ 2 ≤ f ∨ !zeroAt h 0x12 46 then some (0x06, 0xFF)
  else if resv.isSome then some (0x06, (resv.map Prod.snd).getD 0xFF)
  else if s.recipes.any (fun x => x.tenant == t && x.id == id) then some (0x07, 0xFF)
  else if s.obj 0x6000 3 ≤ s.recipesOf t ∨ 16384 ≤ s.recipesAll then some (0x08, 0xFF)
  else if base = 0 ∧ (n < 2 ∨ 16 < n) then some (0x06, 0xFF)
  else if base = 0 ∧ (s.chainFault t stages).isSome then some (0x06, (s.chainFault t stages).getD 0xFF)
  else if base ≠ 0 ∧ (n ≠ 0 ∨ !([1, 2, 3, 6, 8].contains base)) then some (0x06, 0xFF)
  else if bit f 0 ∧ !layerOrderOk h then some (0x06, 0xFF)
  else none

/-! ### Running a composed chain -/

/-- A stream in a running chain: its tiles' data (R178, R179, R198). -/
structure Stream where
  kind : Nat
  fmt : Nat
  rowBytes : Nat
  tiles : List Bytes
deriving DecidableEq, Repr

/-- The stream of rows, cut into tiles of the granted size. -/
def rowStream (tile kind : Nat) (r : Rows) : Stream := { kind := kind, fmt := r.fmt, rowBytes := r.rowBytes, tiles := cutTiles tile r.rows.flatten }
/-- The rows of a stream, put together again from its tiles. -/
def Stream.rows (x : Stream) : Rows :=
  let b := x.tiles.flatten
  { fmt := x.fmt, rowBytes := x.rowBytes, rows := chunks x.rowBytes (b.length / Nat.max 1 x.rowBytes) b }

/-- The payload cut into its sections; none where they do not fit (R198). -/
def cutSections (tile : Nat) (h : Bytes) : Nat → List Section → Bytes → Option (List Stream)
  | _, [], _ => some []
  | i, x :: rest, b =>
    let rb := x.rowBytes
    let n := if rest.isEmpty then b.length / Nat.max 1 rb else arg h (0x18 + 4 * i) 4
    if b.length < n * rb ∨ (rest.isEmpty ∧ b.length % Nat.max 1 rb ≠ 0) then none
    else
      let here : Stream := { kind := x.kind, fmt := x.elem, rowBytes := rb, tiles := cutTiles tile (b.take (n * rb)) }
      (cutSections tile h (i + 1) rest (b.drop (n * rb))).map (fun l => here :: l)

/-- The value of a float element as fp32. -/
def elemFp32 (f x : Nat) : Nat := if f = 0 then bfTo32 x else if f = 2 then e4To32 x else if f = 5 then hfTo32 x else x
/-- Whether an element code is a float. -/
def isFloat (f : Nat) : Bool := f == 0 || f == 1 || f == 2 || f == 5
/-- The value of an integer element. -/
def elemInt (f x : Nat) : Int := if f = 3 then toSigned 32 x else if f = 4 then toSigned 8 x else if f = 6 then toSigned 64 x else (x : Int)
/-- Element `col` of a row. -/
def rowElem (f : Nat) (row : Bytes) (col : Nat) : Nat := field row (col * elemSize f) (elemSize f)

/-- Comparison CMP on an ordering (R259). -/
def cmpOk (cmp : Nat) (lt eq : Bool) : Bool :=
  match cmp with | 0 => eq | 1 => !eq | 2 => lt | 3 => lt || eq | 4 => !lt && !eq | _ => !lt

/-- The predicate of R259 on an element. -/
def predicate (f cmp const x : Nat) : Bool :=
  if isFloat f then
    let a := elemFp32 f x
    let b := const % 2 ^ 32
    if isNan32 a || isNan32 b then cmp == 1
    else
      let z := fun (v : Nat) => if v = 0x80000000 then 0 else v
      cmpOk cmp (decide (ordKey (z a) < ordKey (z b))) (z a == z b)
  else cmpOk cmp (decide (elemInt f x < toSigned 64 const)) (elemInt f x == toSigned 64 const)

/-- Whether row a ranks above row b by TOPK (R251, R260); integers rank by value. -/
def rankAbove (f : Nat) (a b : Nat × Nat) : Bool :=
  if isFloat f then candAbove (elemFp32 f a.1, a.2) (elemFp32 f b.1, b.2)
  else decide (elemInt f b.1 < elemInt f a.1) || (elemInt f a.1 == elemInt f b.1 && decide (a.2 < b.2))

/-- Inserts by rank. -/
def rankInsert (f : Nat) (a : Nat × Nat) : List (Nat × Nat) → List (Nat × Nat)
  | [] => [a]
  | b :: t => if rankAbove f a b then a :: b :: t else b :: rankInsert f a t

/-- Takes the nearest stream of a kind from those offered. -/
def takeStream (k : Nat) (l : List Stream) : Option (Stream × List Stream) :=
  match l.find? (fun x => x.kind == k) with
  | some x => some (x, l.eraseP (fun y => y.kind == k))
  | none => none

/-- The rows picked by number, or their numbers as an INDEX (R259, R260). -/
def pickRows (tile out : Nat) (r : Rows) (idx : List Nat) : Stream :=
  if out = 1 then rowStream tile 6 { fmt := 7, rowBytes := 4, rows := idx.map (leBytes 4) }
  else rowStream tile 5 { r with rows := idx.map (fun i => r.rows.getD i []) }

/-- One stage of a running chain: what is offered then, and the stage's output. -/
def State.runStage (s : State) (ref tile : Nat) (c : Cmd) (e : Bytes) (l out : List Stream) : Except Stop (List Stream × List Stream) :=
  let ps := sgParams e
  let st := sgStation e
  let pass := fun (k : Nat) => match takeStream k l with
    | some (x, rest) => Except.ok (x :: rest, [x])
    | none => Except.error (stFault, 0x20, 0)
  if st = 0x0D then .ok (l, out)
  else if st = 0x04 ∨ st = 0x05 then pass 0xA
  else if st = 0x0B then pass 5
  else if st = 0x06 then
    match takeStream 6 l with
    | some (x, rest) =>
      match s.gatherRows ref c.p c.l c.tenant (gSource ps) (x.rows.rows.map leNat) with
      | .ok r => let y := rowStream tile 5 r; .ok (y :: rest, [y])
      | .error f => .error f
    | none => .error (stFault, 0x20, 0)
  else
    match takeStream 5 l with
    | none => .error (stFault, 0x20, 0)
    | some (x, rest) =>
      let r := x.rows
      let col := if sgMode e = 3 then field ps 0 2 else field ps 2 2
      if sgMode e = 0 then .ok (x :: rest, [x])
      else if r.rowBytes < (col + 1) * elemSize r.fmt then .error (stMismatch, 0x09, 0)
      else if sgMode e = 3 then
        let keep := (r.rows.zipIdx.filter (fun y => predicate r.fmt (field ps 2 1) (field ps 4 8) (rowElem r.fmt y.1 col))).map Prod.snd
        let y := pickRows tile (field ps 3 1) r keep
        .ok (y :: rest, [y])
      else
        let best := r.rows.zipIdx.foldl (fun acc y => (rankInsert r.fmt (rowElem r.fmt y.1 col, y.2) acc).take (field ps 0 2)) []
        let y := pickRows tile (field ps 4 1) r (best.map Prod.snd)
        .ok (y :: rest, [y])

/-- What a stage leaves behind in the device: GATHER's copies (R258). -/
def State.stageKeeps (s : State) (ref : Nat) (c : Cmd) (e : Bytes) (l : List Stream) : State :=
  if sgStation e = 0x06 then
    match takeStream 6 l with
    | some (x, _) => s.keepCopies ref c.p c.l (gSource (sgParams e)) (x.rows.rows.map leNat)
    | none => s
  else s
/-- The stages after INGEST in order: the last stage's output, or how the command stops, and the state. -/
def State.runStages (s : State) (ref tile : Nat) (c : Cmd) : List Bytes → List Stream → List Stream → Except Stop (List Stream) × State
  | [], _, out => (.ok out, s)
  | e :: rest, l, out => match s.runStage ref tile c e l out with
    | .ok (l1, o1) => (s.stageKeeps ref c e l).runStages ref tile c rest l1 o1
    | .error f => (.error f, s.stageKeeps ref c e l)

/-- Bytes of the result of a composed chain where they are known at admission: rows and bytes a row. -/
def outSize (h pay : Bytes) (stages : List Bytes) (s : State) (ref t : Nat) : Option Nat :=
  match stages with
  | [] => none
  | e :: rest =>
    match cutSections 16384 h 0 (sectionsOf e) pay with
    | none => none
    | some secs =>
      let sz := fun (x : Stream) => x.rows.rows.length * x.rows.rowBytes
      let step := fun (a : Option (List (Nat × Nat × Nat)) × Option Nat) (g : Bytes) =>
        -- streams as (kind, rows, row bytes); the second part is the output's size
        match a.1 with
        | none => a
        | some l =>
          let st := sgStation g
          let find := fun (k : Nat) => l.find? (fun x => x.1 == k)
          let put := fun (k : Nat) (y : Nat × Nat × Nat) => (some (y :: l.eraseP (fun x => x.1 == k)), some (y.2.1 * y.2.2))
          if st = 0x0D then a
          else if st = 0x04 ∨ st = 0x05 then (match find 0xA with | some x => put 0xA x | none => (none, none))
          else if st = 0x06 then (match find 6 with
            | some x =>
              let gs := gSource (sgParams g)
              let rb := if gs.source = 1 then some gs.rowBytes else (s.tensorFor ref t gs.tensor).map (fun y => y.rowBytes)
              (match rb with | some n => put 6 (5, x.2.1, n) | none => (none, none))
            | none => (none, none))
          else (match find 5 with
            | some x =>
              let k := field (sgParams g) 0 2
              if st = 0x0B ∨ sgMode g = 0 then put 5 x
              else if sgMode g = 4 then
                (if field (sgParams g) 4 1 = 1 then put 5 (6, Nat.min k x.2.1, 4) else put 5 (5, Nat.min k x.2.1, x.2.2))
              else (none, none)
            | none => (none, none))
      (rest.foldl step (some (secs.reverse.map (fun x => (x.kind, x.rows.rows.length, x.rows.rowBytes))), some (sumNat (secs.map sz)))).2

end Sys2Proof.Machine
end

