-- ==== Sys2Proof/Machine/Recipes.lean ====
section
/-! DEFINITION. DESCRIBE, recipe installation and removal, composed commands, unknown recipes, tiles of peer devices (R177, R180,
R183 to R189, R198, R206, R207, R333). -/

namespace Sys2Proof.Machine

open Sys2Proof

/-- The 64 bytes of DESCRIBE (R206). -/
def State.describeBytes (s : State) (t : Nat) : Bytes :=
  let left := Nat.min (s.obj 0x6000 3 - s.recipesOf t) (16384 - s.recipesAll)
  leBytes 2 0x0100 ++ leBytes 2 16384 ++ leBytes 2 256 ++ leBytes 1 16 ++ leBytes 1 7 ++ leBytes 2 7 ++ leBytes 2 0x1F ++ leBytes 2 16
    ++ leBytes 2 left ++ leBytes 4 0x3FFE ++ leBytes 1 8 ++ leBytes 1 30 ++ zeros 42

/-- Step 6 of DESCRIBE. -/
def describeCheck (_ : State) (c : Ctx) : Option (Nat × Nat × Nat) :=
  if hLen c.h ≠ 0 then some (stMismatch, 0x09, 0) else if hResLen c.h < 64 then some (stMismatch, 0x0B, 0) else none

/-- DESCRIBE. -/
def describeRecipe : Recipe.Run where
  check := describeCheck
  start := fun s c => s.oneWork c.ref (fun a y => a.modCmd c.ref (fun x => { x.endItem 0 0 with result := a.describeBytes y.tenant }))

/-- DESCRIBE (R206). -/
def execDescribe (p l r : Nat) (s : State) : Res := .next (s.ingest p l r (· == 0xF0) describeRecipe)

/-- Step 6 of INSTALL_RECIPE (R207). -/
def installCheck (_ : State) (c : Ctx) : Option (Nat × Nat × Nat) :=
  if hLen c.h < 64 ∨ hLen c.h ≠ 64 + 32 * field c.pay 2 1 then some (stMismatch, 0x09, 0)
  else if hResLen c.h < 64 then some (stMismatch, 0x0B, 0)
  else none

/-- A descriptor is refused, or the recipe is installed with its tile size granted (R187 to R189). -/
def State.installRun (s : State) (ref : Nat) (c : Cmd) : State :=
  let h := slice c.pay 0 64
  let stages := (List.range (field h 2 1)).map (fun i => slice c.pay (64 + 32 * i) 32)
  match s.descFault c.tenant h stages with
  | some (reason, stage) => s.modCmd ref (fun x => { x with whole := some stRecipeInvalid, reason := reason, stage := stage })
  | none =>
    let g := h.take 8 ++ leBytes 4 (grantTile (field h 8 4)) ++ h.drop 12
    let x : Recipe := { tenant := c.tenant, id := field h 0 2, hdr := g, stages := stages, byCmd := ref }
    { s with recipes := s.recipes ++ [x] }.modCmd ref (fun y => { y.endItem 0 0 with result := g })

/-- INSTALL_RECIPE. -/
def installRecipeRun : Recipe.Run where
  check := installCheck
  start := fun s c => s.oneWork c.ref (fun a y => a.installRun c.ref y)

/-- INSTALL_RECIPE (R187). -/
def execInstallRecipe (p l r : Nat) (s : State) : Res := .next (s.ingest p l r (· == 0xF1) installRecipeRun)

/-- Step 6 of REMOVE_RECIPE. -/
def removeCheck (_ : State) (c : Ctx) : Option (Nat × Nat × Nat) := if hLen c.h ≠ 0 then some (stMismatch, 0x09, 0) else none

/-- The recipe is removed for the commands admitted after it (R188, R207). -/
def State.removeRun (s : State) (ref : Nat) (c : Cmd) : State :=
  let id := arg c.hdr 0x18 2
  if s.recipes.any (fun x => x.tenant == c.tenant && x.id == id && x.removedBy.isNone) then
    { s with recipes := s.recipes.map (fun (x : Recipe) =>
        if x.tenant = c.tenant ∧ x.id = id ∧ x.removedBy = none then { x with removedBy := some ref } else x) }.modCmd ref (fun y => y.endItem 0 0)
  else s.failCmd ref stRecipeInvalid 0x05

/-- REMOVE_RECIPE. -/
def removeRecipeRun : Recipe.Run where
  check := removeCheck
  start := fun s c => s.oneWork c.ref (fun a y => a.removeRun c.ref y)

/-- REMOVE_RECIPE (R188). -/
def execRemoveRecipe (p l r : Nat) (s : State) : Res := .next (s.ingest p l r (· == 0xF2) removeRecipeRun)

/-- The last command admitted under a removed recipe has completed: its ID is free (R188). -/
def execRecipeIdFree (tenant id : Nat) (s : State) : Res :=
  if s.cmds.any (fun e => e.2.tenant == tenant && e.2.rid == id && e.2.refused.isNone) then .next s
  else .next { s with recipes := s.recipes.filter (fun x => !(x.tenant == tenant && x.id == id && x.removedBy.isSome
    && (match x.removedBy with | some c => (s.cmd c).isNone | none => false))) }

/-! ### Composed commands -/

/-- GATHER stages of a chain. -/
def gatherStages (stages : List Bytes) : List GSource := (stages.filter (fun e => sgStation e == 6)).map (fun e => gSource (sgParams e))

/-- Steps 6 and 7 of a composed command (R198, R258). -/
def composedCheck (s : State) (c : Ctx) : Option (Nat × Nat × Nat) :=
  let st := match c.var with | some v => v.stages | none => []
  if (cutSections (tileGrant c.var) c.h 0 (sectionsOf (st.headD [])) c.pay).isNone then some (stMismatch, 0x09, 0)
  else if (match outSize c.h c.pay st s c.ref c.tenant with | some n => decide (hResLen c.h < n) | none => false) then some (stMismatch, 0x0B, 0)
  else (gatherStages st).findSome? (fun g => s.gatherFault c.p c.l g)

/-- A composed command runs its chain over its payload sections; it is one item (R182, R198). -/
def State.composedRun (s : State) (ref : Nat) (c : Cmd) : State :=
  match s.recipes.find? (fun x => x.tenant == c.tenant && x.id == c.rid) with
  | none => s.failCmd ref stRecipeInvalid 0x05
  | some v =>
    match v.stages with
    | [] => s.failCmd ref stRecipeInvalid 0x06
    | e :: rest =>
      let tile := tileGrant (some v)
      match cutSections tile c.hdr 0 (sectionsOf e) c.pay with
      | none => s.modCmd ref (fun y => y.failItem 0 stMismatch 0x09 0)
      | some secs =>
        let r := s.runStages ref tile c rest secs.reverse secs
        match r.1 with
        | .ok out => r.2.modCmd ref (fun y => { y.endItem 0 0 with result := out.flatMap (fun x => x.tiles.flatten) })
        | .error (st, reason, hint) => r.2.modCmd ref (fun y => y.failItem 0 st reason hint)

/-- A composed recipe. -/
def composedRecipe : Recipe.Run where
  check := composedCheck
  atAdmit := fun s c => s.modCmd c.ref (fun x =>
    { x with reads := (gatherStages (match c.var with | some v => v.stages | none => [])).flatMap GSource.range })
  start := fun s c => s.oneWork c.ref (fun a y => a.composedRun c.ref y)

/-- A command that names a composed recipe (R198). -/
def execComposedRecipe (p l r : Nat) (s : State) : Res := .next (s.ingest p l r (· == 0) composedRecipe)

/-! ### Bad headers and unknown recipes -/

/-- INGEST reads a packet whose header is invalid or whose recipe is not built in or installed: steps 1 to 3 of R199. -/
def execUnknownRecipe (p l r : Nat) (s : State) : Res :=
  match s.turn p l r with
  | none => .next s
  | some s0 =>
    let x := (s0.ld p l).ring r
    match x.peek with
    | .nothing => .next s
    | .broken => .next (s0.breakRing p l r 0x11)
    | .packet h =>
      if hRecipe h = 0 then .next s
      else
        let pay := x.read (x.head + 64) (hLen h)
        let s1 : State := { s0.consume p l r (packetBytes h) false with freeCtr := s0.freeCtr + 1 }
        match hdrFault h with
        | some reason => .next (s1.refuse p l r 0 h pay stRecipeInvalid 0 reason 0)
        | none =>
          match s0.resolve ((s0.ldTenant p l).getD 4096) (hRecipe h) with
          | some _ => .next s
          | none =>
            if (s0.ldTenant p l).isNone then .next (s1.refuse p l r 0 h pay stDenied 0 0x0C 0)
            else .next (s1.refuse p l r 0 h pay stRecipeInvalid 0 0x05 0)

/-! ### Tiles of peer devices (R177, R180, R333) -/

/-- HCRC of a tile header: CRC-32C over its first 28 bytes. -/
def tileOk (t : Tile) : Bool := hdrOk t.hdr
/-- Whether a tile fits the command it names: the tenant, a KIND and FORMAT of R178, and its own length. -/
def Cmd.takesTile (x : Cmd) (t : Tile) : Bool :=
  let h := tileHdr t.hdr
  h.good && h.tenant == x.tenant && h.length == t.data.length

/-- A tile that has passed HCRC joins its command: a coded one needs its Palette; one that derives from poisoned data ends its item POISONED; a
Palette tile is held for the command (R177, R180, R333). -/
def Cmd.tileIn (x : Cmd) (t : Tile) : Cmd :=
  let h := tileHdr t.hdr
  if h.kind = 0xA ∧ h.item = 0xFFFFFF then { x with pals := Table.put x.pals (h.key % 4096) t.data }
  else
    let y := { x with tiles := x.tiles ++ [t] }
    if h.poison then (if h.item < x.items.length then y.failItem h.item stPoisoned 0 0 else y) else y

/-- The stage of FETCH in ATTEND, which a KV_PAGE tile names (R183). -/
abbrev fetchStage : Nat := 3
/-- FETCH runs here for a peer's command: the page that a PAGE_REF tile names goes back as a KV_PAGE tile, coded as stored, behind its Palette (R180, R333). The
Palette is sent with every coded page, since how long the receiver's command holds it is not known here. A page that cannot be read goes back as poison. -/
def State.fetchFor (s : State) (dev : Nat) (h : TileHdr) : State :=
  let gid := h.key / 65536
  let m := h.key % 65536
  let base : TileHdr := { h with kind := 0, stage := fetchStage, coded := false, poison := false, slot := 0 }
  match s.group gid, s.page gid m with
  | some g, some y =>
    let r := s.readPage gid m g.tenant false
    let c := s.copyIn y (y.readTier.getD y.tier)
    if !r.1 ∨ y.away.isSome then r.2.sendTile dev { hdr := ({ base with poison := true, length := 0 } : TileHdr).bytes, data := [] }
    else
      match (if c.gen = 0 then none else Table.find s.slots c.slot) with
      | some p =>
        let b := s.streamIn g m y c.gen c.slot
        let pal : TileHdr := { h with kind := 0xA, fmt := 8, stage := fetchStage, length := 1024, item := 0xFFFFFF, key := c.slot + c.gen * 4096, slot := 0,
                                      coded := false, poison := false, last := false, no := 0 }
        (r.2.sendTile dev { hdr := pal.bytes, data := p.bytes }).sendTile dev
          { hdr := ({ base with coded := true, slot := c.slot, length := b.length } : TileHdr).bytes, data := b }
      | none =>
        let b := (plainOf g m y).take (plainBytes g.shape.fmt g.shape.dim)
        r.2.sendTile dev { hdr := ({ base with length := b.length } : TileHdr).bytes, data := b }
  | _, _ => s.sendTile dev { hdr := ({ base with poison := true, length := 0 } : TileHdr).bytes, data := [] }

/-- Whether DECODE of a coded tile fails with the Palette held for it: its generation is the Palette tile's, its blocks those of its FORMAT and of one of the head
dimensions (R321, R333). -/
def Cmd.badCode (x : Cmd) (t : Tile) : Bool :=
  let h := tileHdr t.hdr
  match (if h.coded then Table.find x.pals h.slot else none) with
  | none => false
  | some p => (List.range 3).all (fun dim => (decodeStream p (field t.data 1 1) h.slot (plainBytes h.fmt dim / 64) t.data).isNone)

/-- A tile arrives over a peer port (R180, R333). A PAGE_REF tile asks for a page of this device. One of a command of
this device whose HCRC fails ends its command with DEVICE_FAULT and sets HCRC_FAIL; so does, without the flag, one that fits neither R178 nor its command, or whose Palette is not here. A coded one that
fails DECODE is a failed read, with CODE_ERROR (R321). -/
def execTileReceive (q : Nat) (t : Tile) (s : State) : Res :=
  if (s.peerP q).st ≠ 4 then .next s
  else
    let h := tileHdr t.hdr
    let refs := (s.cmds.filter (fun e => e.1 % 2 ^ 20 == h.ref)).map Prod.fst
    let each := fun (a : State) (f : State → Nat → State) => refs.foldl f a
    if !tileOk t then .next ((each s (fun a c => a.failCmd c stFault 0x20)).flag 0x6000 6 2)
    else if h.kind = 1 then .next (match (s.peerP q).peerDev with | some d => s.fetchFor d h | none => s)
    else
      .next (each s (fun a c => match a.cmd c with
        | some x =>
          if !x.takesTile t ∨ (h.coded ∧ (Table.find x.pals h.slot).isNone) then a.failCmd c stFault 0x20
          else if x.badCode t then
            (((a.stall 2 2 x.tenant).modCmd c (fun y => { y.tileIn t with items := y.items }.failItem h.item stPoisoned 0 0))).flag 0x7500 5 3
          else a.modCmd c (fun y => y.tileIn t)
        | none => a))

end Sys2Proof.Machine
end

