-- ==== Sys2Proof/Machine/Complete.lean ====
section
/-! DEFINITION. The end of a command: its record, and the ORDER commands that waited for it (R202, R204). -/

namespace Sys2Proof.Machine

open Sys2Proof

/-- What a base does (R183); 0 is a composed chain. -/
def recipeRun (base : Nat) : Recipe.Run :=
  match base with
  | 1 => attendRecipe | 2 => bwdRecipe | 3 => appendRecipe | 4 => lookupRecipe | 5 => publishPrefixRecipe
  | 6 => pinRecipe | 7 => unpinRecipe | 8 => migrateRecipe
  | 9 => collRecipe 9 | 10 => collRecipe 10 | 11 => collRecipe 11 | 13 => collRecipe 13
  | 12 => gatherRecipe | 0x10 => openRecipe | 0x11 => closeRecipe | 0x20 => palRecipe | 0x21 => freePalRecipe
  | 0x22 => loadRecipe | 0x23 => freeTensorRecipe | 0x30 => publishRun
  | 0xF0 => describeRecipe | 0xF1 => installRecipeRun | 0xF2 => removeRecipeRun
  | _ => composedRecipe

/-- An admitted command as its stages see it. -/
def State.ctxOf (s : State) (ref : Nat) (x : Cmd) : Ctx :=
  { p := x.p, l := x.l, r := x.r, ref := ref, tenant := x.tenant, base := x.recipe, rid := x.rid, h := x.hdr, pay := x.pay,
    var := s.recipes.find? (fun y => y.tenant == x.tenant && y.id == x.rid) }

/-- Starts an ORDER command once every earlier command of its ring has its record (R204). -/
def State.startOrdered (s : State) (ref : Nat) : State :=
  match s.cmd ref with
  | none => s
  | some x =>
    match x.work with
    | .ordered before =>
      if x.whole.isNone ∧ before.all (fun b => (s.cmd b).isNone) then
        (recipeRun x.recipe).start (s.modCmd ref (fun y => { y with work := .none })) (s.ctxOf ref x)
      else s
    | _ => s

/-- Every ORDER command is looked at. -/
def State.settleOrdered (s : State) : State := (s.cmds.map Prod.fst).foldl State.startOrdered s

/-- Whether a write of a command's stations to memory of a peer device is still to be performed there (R162). -/
def State.writesLeft (s : State) (x : Cmd) : Bool :=
  s.writes.any (fun w => w.away.isSome && (match w.src with | .engine _ _ => true | _ => false) && x.reads.any (fun r => overlaps w.dpa w.data.length r.1 r.2))

/-- COMMAND_COMPLETE: an ended command writes its result data or status vector, its record and any MSI-X (R202), after its data-class writes are
applied and its control-class writes visible to every observer (R162); after a WARM reset, once its rings are served again (R444). -/
def execCommandComplete (cmd : Nat) (resultWriteOk recordWriteOk : Bool) (s : State) : Res :=
  match s.cmd cmd with
  | none => .next s
  | some x =>
    if x.ended ∧ !s.warm then
      let s1 := s.freshViews
      .next (if s1.unseen ∨ s1.writesLeft x then s1
        else (s1.writeRecord cmd x resultWriteOk recordWriteOk).settleOrdered.settleAttend.releaseParts)
    else .next s

end Sys2Proof.Machine
end

