-- ==== Sys2Proof/Machine/LinkOps.lean ====
section
/-! DEFINITION. What ports share: lanes in service, links that go down, trays, interfaces that lose their stream (R25, R58 to R68,
R122, R145, R362). -/

namespace Sys2Proof.Machine

open Sys2Proof

/-- Whether the domain at a subindex of 0x2011 is powered (R38). -/
def State.domUp (s : State) (sub : Nat) : Bool := bit s.pw.domOn (sub - 1)
/-- Whether the lanes of a lane chiplet can run: its die in service, its reference good, its domain on (R25, R38, R51). -/
def State.lanesUp (s : State) (d : Nat) : Bool := s.dieUp d && bit s.pw.lref d && s.domUp (17 + d / 2)

/-- A TDISP interface that is CONFIG_LOCKED or RUN moves to ERROR (R362). -/
def State.tdiErr (s : State) (p l : Nat) : State :=
  let d := s.ld p l
  if d.tdi = 1 ∨ d.tdi = 2 then (s.setLd p l { d with tdi := 3 }).flag 0x8000 10 2 else s

/-- The IDE streams of a port are torn down with their keys (R356, R362). -/
def State.dropIde (s : State) (p : Nat) : State :=
  (List.range 16).foldl (fun (a : State) l => a.tdiErr p l)
    { s with sec := { s.sec with ide := s.sec.ide.filter (fun e => e.1 / 8 != p) } }
/-- One IDE stream of a port is lost, with its keys: where it is link IDE or covers function 1, the locked and running interfaces of the port move
to ERROR (R356, R361, R362). -/
def State.dropStream (s : State) (p k : Nat) : State :=
  let x := Table.get s.sec.ide {} (8 * p + k)
  let s1 : State := { s with sec := { s.sec with ide := Table.del s.sec.ide (8 * p + k) } }
  if x.up ∧ (k = 0 ∨ x.function1) then (List.range 16).foldl (fun (a : State) l => a.tdiErr p l) s1 else s1
/-- The device, as requester on a tray port, draws an IDE key and establishes its stream (R65, R360): link IDE of a memory tray, a selective stream of
a flash tray. -/
def State.trayIde (s : State) (p : Nat) : State :=
  let g := s.draw 4
  let k := 8 * p + (if s.role p = 2 then 0 else 1)
  { g.2 with sec := { g.2.sec with ide := Table.put g.2.sec.ide k { keys := [(0, g.1.flatMap (leBytes 8))], up := true, function1 := true } } }
/-- The SPDM sessions of a port are torn down (R356). -/
def State.dropSpdm (s : State) (peer : Bool) (p : Nat) : State :=
  { s with sec := { s.sec with spdm := s.sec.spdm.filter (fun e => match e.1 with
      | .host a _ => peer || a != p
      | .peer q => !peer || q != p) } }

/-! ### NVMe (R66, R67) -/

/-- A page's move into or out of T4 fails: it stays where it is, and items that wait for it end DEVICE_FAULT. A spill copy of it does not stand. -/
def State.writeFails (s : State) (page : Nat) : State :=
  let s1 := s.modGroup (page / 65536) (fun g => { g with spillLeft := g.spillLeft.erase (page % 65536) })
  (s1.modPage (page / 65536) (page % 65536) (fun z =>
    { z with moving := none, recode := none, after := none, t4 := if z.home 4 ∨ z.spill then z.t4 else none })).settleMoves page stFault

/-- A FAILED command (R66, R291, R292): a Read is a FAILED stall and the next copy is read; a Write or Flush leaves its pages out of
T4. -/
def State.nvmeFail (s : State) (p : Nat) (c : NvmeCmd) : State :=
  match c.op with
  | 0 => (s.stall 4 2 (((s.group (c.page / 65536)).map (fun g => g.tenant)).getD 0)).copyFails (c.page / 65536) (c.page % 65536) 4
  | 1 => s.writeFails c.page
  | 2 =>
    let x := s.flexP p
    c.covers.foldl State.writeFails (s.setFlex p { x with unflushed := x.unflushed.filter (fun y => !c.covers.contains y) })
  | _ => s

/-- The data of a Read are here: a page that the sweep recodes is written anew (R331), any other goes on its way. -/
def State.readDone (s : State) (page : Nat) : State :=
  match s.group (page / 65536), s.page (page / 65536) (page % 65536) with
  | some g, some y => match y.home 4, y.recode with
    | true, some gen => s.nvmeWrite (page / 65536) (page % 65536) (s.formOf g (page % 65536) y gen).1
    | _, _ => s.finishMove page
  | _, _ => s
/-- A flash tray port is disabled: the I/O queues are deleted (R66). -/
def State.nvmeClose (s : State) (p : Nat) : State := if s.flashUp p then s.nvmeSubmit p 8 0 0 else s
/-- Every command of a tray fails. -/
def State.nvmeAll (s : State) (p : Nat) : State :=
  let x := s.flexP p
  let l := (x.nvme.filter (fun e => !e.2.aborting)).map Prod.snd ++ x.nvmeWait
  let s1 := l.foldl (fun (a : State) c => a.nvmeFail p c) (s.setFlex p { x with nvme := [], nvmeWait := [] })
  let y := s1.flexP p
  y.unflushed.foldl State.writeFails (s1.setFlex p { y with unflushed := [] })

/-! ### Flex links -/

/-- A flex link that is up goes to another state: tray extents become UNREACHABLE, admitted writes there are lost, streams are torn
down (R122, R145, R146, R161, R362). -/
def State.flexDown (s : State) (p st : Nat) : State :=
  let x := s.flexP p
  let s1 := s.setFlex p { x with st := st, rate := 0, width := 0, cur := 0 }
  if x.st ≠ 3 then s1
  else
    let s2 := (s1.dropIde p).nvmeAll p
    if s.role p = 2 then
      (s2.loseWrites (fun w => faSpace w.addr == 1 && faPort w.addr == p && w.away.isNone)).extentsOut (onTray p)
    else s2

/-- Lane groups that a port of a width takes (R24). -/
def laneGroups (p width : Nat) : List Nat := (List.range (ceilDiv width 4)).map (p + ·)
/-- WIDTH of a flex port. -/
def State.flexWidth (s : State) (p : Nat) : Nat := s.obj (0x3000 + 8 * p) 3

/-- A flex port trains, from its stored presets (R68). -/
def State.flexTrain (s : State) (p : Nat) (x : FlexPort) : FlexPort := { x with st := 2, start := s.blob (0x3000 + 8 * p) 7 }

/-- ENABLE = 1 of a flex port, in the order of R59. -/
def State.flexEnableOp (s : State) (p : Nat) : Nat × State :=
  let w := s.flexWidth p
  let idx := 0x3000 + 8 * p
  if s.flexOn p then (rcOK, s)
  else if s.obj idx 2 = 0 then (rcRefused, s)
  else if 4 * (p % 16) % w ≠ 0 ∧ 8 ≤ w then (rcRefused, s.flag idx 5 5)
  else if (List.range 128).any (fun q => q != p && s.flexOn q && (laneGroups q (s.flexWidth q)).any (fun g => (laneGroups p w).contains g)) then
    (rcRefused, s.flag idx 5 0)
  else
    let need := match s.obj idx 2 with | 1 => [1, 2, 3] | 2 => [1] | _ => [1, 6]
    if need.any (fun tc => s.flexMin p tc == 0) ∨ !s.poolFits (p / 16) (minSum (s.flexMin p)) then (rcRefused, s.flag 0x4000 5 1)
    else
      let k := okey idx 5
      let s1 := ((s.setObj idx 1 1).setObjK k (clearBit (s.objK k) 4)).noteLow s
      let y : FlexPort := { s1.flexP p with stuck := false, failed := false, credits := [] }
      (rcOK, s1.setFlex p (if s1.ready && s1.lanesUp (p / 16) then s1.flexTrain p y else { y with st := 1 }))

/-- ENABLE = 0 of a flex port (R94). -/
def State.flexDisableOp (s : State) (p : Nat) : Nat × State :=
  let s1 := ((s.nvmeClose p).flexDown p 0).setObj (0x3000 + 8 * p) 1 0
  (rcOK, s1.setFlex p { s1.flexP p with st := 0, stuck := false })

/-- Rates a role allows (R61), highest first. -/
def roleRates (role : Nat) : List Nat := if role = 3 then [64, 32, 16] else [64, 32]
/-- The widest width up to a limit; 0 below x2. -/
def widthBelow (n : Nat) : Nat := if 16 ≤ n then 16 else if 8 ≤ n then 8 else if 4 ≤ n then 4 else if 2 ≤ n then 2 else 0

/-- A memory tray is enumerated (R65, R121, R145): its capacity, IDE, and its extents, new or again reachable. One that is no single logical device
of CXL 2.0 or later, or has no IDE where it is required, stays unused. -/
def State.trayUp (s : State) (p : Nat) (t : FlexPartner) : State :=
  let gib := Nat.min 16384 t.trayGiB
  let open_ := s.obj (0x3000 + 8 * p) 6 == 1 && !t.trayIde
  let bad := open_ || decide (t.cxlVersion < 20) || t.logicalDevices != 1
  let s1 := s.setFlex p { s.flexP p with gib := gib, ide := t.trayIde, unused := bad }
  let s2 := if t.trayIde then s1.trayIde p else if open_ then s1.flag (0x3000 + 8 * p) 5 3 else s1
  if bad then s2
  else match Table.find s2.trays p with
  | some _ => s2.extentsBack (onTray p)
  | none =>
    let n := Nat.min (4 * gib) (2 ^ 20 - s2.nextEid)
    let new := (List.range n).map (fun i => (s2.nextEid + i, ({ base := trayAddr p (i * Config.extentBytes) } : Extent)))
    { s2 with trays := Table.put s2.trays p s2.nextEid, nextEid := s2.nextEid + n, extents := s2.extents ++ new }

/-- A flash tray comes into use with up to 16 of its namespaces; with none it can use, or with no IDE where it is required, it stays unused (R65, R66,
R94). -/
def State.flashOn (s : State) (p : Nat) (t : FlexPartner) : State :=
  let n := Nat.min 16 (t.namespaces.filter (fun b => b)).length
  let open_ := s.obj (0x3000 + 8 * p) 6 == 1 && !t.trayIde
  let s1 := s.setFlex p { s.flexP p with gib := t.trayGiB, ide := t.trayIde, spaces := n, unused := n == 0 || open_ }
  if open_ then s1.flag (0x3000 + 8 * p) 5 3 else (if t.trayIde then s1.trayIde p else s1).nvmeBringUp p

/-- Training of a flex port ends (R68). -/
def State.flexTrained (s : State) (p : Nat) (t : FlexPartner) : State :=
  let x := s.flexP p
  let idx := 0x3000 + 8 * p
  match (roleRates (s.role p)).find? (fun r => t.rates.contains r) with
  | none => (s.setFlex p { x with st := 1, stuck := true }).flag idx 5 6
  | some rate =>
    let w := widthBelow (Nat.min (s.flexWidth p) t.width)
    if w = 0 then (s.setFlex p { x with st := 1, stuck := true }).flag idx 5 2
    else
      let y : FlexPort := { x with st := 3, rate := rate, width := w, cur := w, vcache := t.volatileCache }
      let s1 := (s.setFlex p y).setBlob idx 7 t.presets
      let s2 := if w < s.flexWidth p then s1.flag idx 5 1 else s1
      if s.role p = 2 then s2.trayUp p t else if s.role p = 3 then s2.flashOn p t else s2

end Sys2Proof.Machine
end

