-- ==== Sys2Proof/Machine/PeerOps.lean ====
section
/-! DEFINITION. Peer links: life of a port, flits, credit, replay, loss and handover, time synchronisation (R69 to R93). -/

namespace Sys2Proof.Machine

open Sys2Proof

/-! ### Time synchronisation (R86 to R88) -/

/-- Order of advertisements (R86): root, hops + 1, sender. -/
def advBefore (a b : Nat × Nat × Nat) : Bool :=
  decide (a.1 < b.1 ∨ (a.1 = b.1 ∧ (a.2.1 < b.2.1 ∨ (a.2.1 = b.2.1 ∧ a.2.2 < b.2.2))))

/-- Upstream selection and the state that goes with it (R86, R88). -/
def State.syncSelect (s : State) : State :=
  let heard := s.tb.adverts.filter (fun e => (s.peerP e.1).st == 4)
  let best := heard.foldl (fun (b : Option (Nat × Nat × Nat × Nat)) e => match b with
    | some x => if advBefore e.2 x.2 then some e else some x
    | none => some e) none
  match best with
  | some (q, root, hops, _) =>
    if s.assigned ∧ s.devId ≤ root then { s with tb := { s.tb with upstream := none, root := s.devId, hops := 0, state := 2 } }
    else { s with tb := { s.tb with upstream := some q, root := root, hops := hops + 1, state := if s.tb.state = 1 ∨ s.tb.state = 4 then s.tb.state else 0 } }
  | none =>
    let st := if s.tb.state = 2 then 2 else if s.tb.state = 0 ∧ s.tb.upstream.isNone then 0 else 3
    { s with tb := { s.tb with upstream := none, root := s.devId, hops := 0, state := st } }

/-- Whether anything forbids a step of the time base: an extent, a lease or an active sequence (R88). -/
def State.timeHeld (s : State) : Bool :=
  s.extents.any (fun e => e.2.holder.isSome) || s.lds.any (fun e => e.2.expiry.isSome) || s.seqs.any (fun e => e.2.active)

/-- The measured offset of an exchange, in ps (R87). -/
def syncOffsetPs (t1 t2 t3 t4 : Nat) (asym : Int) : Int :=
  ((t2 : Int) - t1 - ((t4 : Int) - t3)) * 500 + asym * 1000

/-- A measured offset is taken: the one step, or slewing; SYNC_DEGRADED beyond 1 µs after the step (R88). -/
def State.syncCorrect (s : State) (ps : Int) : State :=
  let off := Int.tdiv ps 1000
  let s1 := { s with tb := { s.tb with offset := off } }.sample 13 off.natAbs {}
  if !s1.tb.stepped ∧ !s1.timeHeld ∧ 0 ≤ ps then
    { s1 with tb := { s1.tb with now := s1.tb.now + off.toNat, stepped := true, corr := 0, state := 1 } }
  else { s1 with tb := { s1.tb with corr := ps, state := if s1.tb.stepped ∧ 1000000 < ps.natAbs then 4 else 1 } }

/-! ### Life of a port (R80, R90 to R93) -/

/-- MAX_WIDTH of a peer port. -/
def State.peerWidth (s : State) (q : Nat) : Nat := s.obj (0x3800 + 8 * q) 2
/-- Lanes a port may run at, up to a limit: 4, 2, 1 or none. -/
def lanesBelow (n : Nat) : Nat := if 4 ≤ n then 4 else if 2 ≤ n then 2 else if 1 ≤ n then 1 else 0
/-- An event in a peer port's PORT_STATUS. -/
def State.peerFlag (s : State) (q b : Nat) : State := s.flag (0x3800 + 8 * q) 4 b

/-- Whether a packet carries SPDM (R81). -/
def isSpdm (k : Packet) : Bool := k.ptype == 10 && k.addr / 2 ^ 56 == Config.controlSubtype 4
/-- What a port keeps whatever becomes of its link: its holds and their HANDOVER, its spares and fault, and its packets but those of a session that
is over. -/
def PeerPort.kept (y : PeerPort) : PeerPort :=
  { hold := y.hold, holdDev := y.holdDev, ahead := y.ahead, symErr := y.symErr, symSeen := y.symSeen,
    handoverOwed := y.handoverOwed, spares := y.spares, faulty := y.faulty, cap := y.cap, txq := y.txq.filter (fun k => !isSpdm k) }
/-- Whether a link is in ACTIVE, or in a fast retrain out of it. -/
def PeerPort.live (y : PeerPort) : Bool := y.st == 4 || (y.st == 5 && y.back == 4)
/-- A packet of the device itself joins a port's queue in TC0: behind the other TC0 packets, ahead of the rest (R75). -/
def PeerPort.enqueue0 (y : PeerPort) (ks : List Packet) : PeerPort :=
  { y with txq := y.txq.filter (fun k => k.tc == 0) ++ ks ++ y.txq.filter (fun k => k.tc != 0) }
/-- A HANDOVER that names a failed port and the last FSEQ it delivered leaves over `via`, as a CONTROL packet (R80). -/
def State.sendHandover (s : State) (via failed last : Nat) : State :=
  let y := s.peerP via
  let k : Packet := { padPacket with ptype := 10, srcDev := s.devId, dstDev := y.peerDev.getD 0,
                                     addr := Config.controlSubtype 3 * 2 ^ 56 + Config.handoverArg failed last % 2 ^ 56 }
  (s.setPeer via (y.enqueue0 [k])).emit (.handoverMsg via failed last)
/-- A port trains: from its stored presets, a lane without one from the default preset (R90). -/
def State.peerTrain (s : State) (q : Nat) (y : PeerPort) : PeerPort :=
  let b := s.blob (0x3800 + 8 * q) 6
  { y with st := 2, start := b, dfltLanes := (List.range (s.peerWidth q)).filter (fun i => decide (b.length ≤ i)) }

/-- A port starts training, or waits in DOWN while its lanes cannot run. -/
def State.peerStart (s : State) (q : Nat) : State :=
  let y := (s.peerP q).kept
  s.setPeer q (if s.lanesUp (q / 8) && decide (5 ≤ s.pw.stage) then s.peerTrain q y else { y with st := 1 })

/-- Whether another ACTIVE port leads to the same device. -/
def State.twin (s : State) (q : Nat) : Option Nat :=
  s.activePeers.find? (fun r => r != q && (s.peerP r).peerDev == (s.peerP q).peerDev)

/-- The packets of held flits: one that began before the first of them was not delivered whole, and is among them (R73, R80). -/
def heldPkts (l : List Stored) : List Packet :=
  (((l.head?).bind (fun f => f.head)).toList ++ l.flatMap (fun f => f.pkts)).filter (fun k => k.ptype != 0)
/-- The flits a link holds when it drops: those not acknowledged, and what was still to follow of their last packet. -/
def PeerPort.toHold (y : PeerPort) : List Stored :=
  y.replay ++ (if y.cont.isSome then [{ fseq := y.txSeq, key := y.keyTx, first := 0x1FF, pkts := [], head := y.cont }] else [])

/-- The packets held longest for a lost link end at their sources and are counted (R80). -/
def State.dropHold (s : State) (q : Nat) : State :=
  let y := s.peerP q
  match y.hold with
  | [] => s
  | (_, l) :: rest =>
    let ks := heldPkts l
    ((s.setPeer q { y with hold := rest }).bump (0x3800 + 8 * q) 8 ks.length).losePackets ks

/-- A link leaves ACTIVE for another state (R80, R356): its replay buffer and FSEQ context are held, a HANDOVER goes over another port to the
device or is owed, session and keys end. A link that only authenticates again keeps its lanes. -/
def State.peerDrop (s : State) (q st : Nat) : State :=
  let y := s.peerP q
  let live := y.live
  let via := s.twin q
  let z : PeerPort := {
    y.kept with
    st := st, lanes := if st = 3 then y.lanes else 0, cur := if st = 3 then y.cur else 0,
    hold := if live then y.hold ++ [(s.now, y.toHold)] else y.hold,
    holdDev := if live then y.peerDev else y.holdDev,
    handoverOwed := if live ∧ via.isNone then some y.rxSeq else y.handoverOwed }
  let s1 := (s.setPeer q z).dropSpdm true q
  let s2 := match via with | some r => if live then s1.sendHandover r q y.rxSeq else s1 | none => s1
  if live then
    ({ s2 with tb := { s2.tb with adverts := Table.del s2.tb.adverts q, reqs := Table.del s2.tb.reqs q } }.syncSelect).notePaths
  else s2

/-- The link is lost (R80). -/
def State.peerLost (s : State) (q : Nat) : State := (s.peerDrop q 1).peerFlag q 0

/-- A link goes down, whatever it was doing (R80): LINK_LOST where it was live. -/
def State.peerGone (s : State) (q : Nat) : State := if (s.peerP q).live then s.peerLost q else s.peerDrop q 1

/-- The SPDM session of a channel. -/
def State.spdmOf (s : State) (ch : SpdmCh) : Spdm := ((s.sec.spdm.find? (fun e => e.1 == ch)).map (fun e => e.2)).getD {}

/-- A port enters ACTIVE (R76, R80, R83, R85): limits at the allotments, first keys, and the HANDOVER it owes. -/
def State.peerActive (s : State) (q dev : Nat) : State :=
  let y := s.peerP q
  let secret := Config.exportSecret (s.spdmOf (.peer q)).key
  let z : PeerPort := { y with st := 4, peerDev := some dev, authOk := false, keyTx := 1, keyRx := 1, rxNext := false, keyFlits := 0, rxFlits := 0, keyAt := s.now,
                               txKey := linkKey secret (decide (s.devId < dev)), rxKey := linkKey secret (decide (dev < s.devId)),
                               txLimit := [], txUsed := [], rxLimit := (List.range 8).map (fun tc => (tc, 8 * s.peerMin q tc)),
                               crNext := 1, handoverOwed := none }
  let s1 := (s.setPeer q z).notePaths
  match y.handoverOwed with
  | some last => s1.sendHandover q q last
  | none => s1

/-- A fast retrain, out of ACTIVE or AUTH: FSEQ, credits and keys stay, and the link goes back to the state it was in (R79, R91). -/
def State.fastRetrain (s : State) (q : Nat) : State :=
  let y := s.peerP q
  s.setPeer q { y with st := 5, streak := 0, back := if y.st = 5 then y.back else y.st }

/-- A lane fails (R91): a free spare of the lane chiplet takes its traffic, else two lanes, then one; with the last lane the link goes. -/
def State.laneFail (s : State) (q lane : Nat) : State :=
  let y := s.peerP q
  let used := s.obj 0x3A10 (q / 8 + 1)
  if y.st < 3 ∨ y.lanes ≤ lane then s
  else if used % 4 ≠ 3 then
    ((s.setObj 0x3A10 (q / 8 + 1) (setBit used (if bit used 0 then 1 else 0))).setPeer q { y with spares := y.spares + 1 }).fastRetrain q
  else if y.lanes = 1 then s.peerGone q
  else
    let n := y.lanes / 2
    ((s.setPeer q { y with lanes := n, cur := Nat.min y.cur n, faulty := true, cap := n }).peerFlag q 5).fastRetrain q

/-- The symbol errors of a received flit count on their lanes: each of its 4 codewords has 544 symbols, which go round the lanes (R69, R91). -/
def PeerPort.countSymbols (y : PeerPort) (f : Flit) : PeerPort :=
  { y with symSeen := y.symSeen + 2176 / Nat.max 1 y.lanes,
           symErr := (f.symErrs.zip (List.range y.lanes)).foldl (fun (t : Table Nat) e => Table.put t e.2 (Table.get t 0 e.2 + e.1)) y.symErr }

/-- The end of a health window at a port: each lane whose symbol error ratio in it was above 1 in 100,000 fails, and the counts start anew (R91). -/
def State.symbolWindow (s : State) (q : Nat) : State :=
  let y := s.peerP q
  let bad := (List.range y.lanes).filter (fun i => decide (y.symSeen < 100000 * Table.get y.symErr 0 i))
  bad.reverse.foldl (fun (a : State) i => a.laneFail q i) (if y.symSeen = 0 then s else s.setPeer q { y with symErr := [], symSeen := 0 })

/-- ENABLE = 1 of a peer port (R90, R104, R375). -/
def State.peerEnableOp (s : State) (q : Nat) : Nat × State :=
  if s.peerOn q then (rcOK, s)
  else if s.sec.debugOpen then (rcRefused, s)
  else if !s.poolFits (q / 8) (minSum (s.peerMin q)) then (rcRefused, s.flag 0x4000 5 1)
  else (rcOK, (((s.setObj (0x3800 + 8 * q) 1 1).noteLow s).setPeer q { s.peerP q with faulty := false, cap := 4 }).peerStart q)

/-- ENABLE = 0 of a peer port (R95). -/
def State.peerDisableOp (s : State) (q : Nat) : Nat × State :=
  (rcOK, (s.peerDrop q 0).setObj (0x3800 + 8 * q) 1 0)

/-! ### Flits (R71 to R79) -/

/-- The class after another in the round of CR_A and CR_B. -/
def crAfter (c : Nat) : Nat := if 7 ≤ c then 1 else c + 1

/-- Whether a class has credit for a packet (R76). -/
def PeerPort.hasCredit (y : PeerPort) (k : Packet) : Bool :=
  let room := (Table.get y.txLimit 0 k.tc + 4096 - Table.get y.txUsed 0 k.tc) % 4096
  decide (pktUnits k ≤ room) && decide (room < 2048)

/-- Whether a packet may go now: in AUTH one of SPDM, for which no credit is counted yet; else one whose class has credit (R76, R93). `wait` holds for
those that packets of a lost link go ahead of (R80). -/
def PeerPort.mayGo (y : PeerPort) (wait : Packet → Bool) (k : Packet) : Bool :=
  if y.st = 3 then isSpdm k else y.hasCredit k && (y.ahead.contains k || !wait k)
/-- What waits at a port, in order of arbitration: TC0 first, and packets of a HANDOVER ahead of newer ones (R75, R80). -/
def PeerPort.waiting (y : PeerPort) : List Packet :=
  let zero := fun (k : Packet) => k.tc == 0
  y.ahead.filter zero ++ y.txq.filter zero ++ y.ahead.filter (fun k => !zero k) ++ y.txq.filter (fun k => !zero k)
/-- A packet that goes leaves its queue. -/
def PeerPort.leave (y : PeerPort) (k : Packet) : PeerPort :=
  if y.ahead.contains k then { y with ahead := y.ahead.erase k } else { y with txq := y.txq.erase k }
/-- The next packet to send: the first that may go, none of its class passed over. -/
def PeerPort.nextPkt (y : PeerPort) (wait : Packet → Bool) (blocked : List Nat) : List Packet → Option Packet
  | [] => none
  | k :: t => if !blocked.contains k.tc && y.mayGo wait k then some k else y.nextPkt wait (k.tc :: blocked) t

/-- Fills a payload packet by packet from byte `used` on (R73, R75): the packets that start in it, the port, the bytes used. -/
def PeerPort.fill (y : PeerPort) (wait : Packet → Bool) (used : Nat) : Nat → List Packet × PeerPort × Nat
  | 0 => ([], y, used)
  | n + 1 =>
    if 2528 ≤ used then ([], y, used)
    else
      match y.nextPkt wait [] y.waiting with
      | none => ([], y, used)
      | some k =>
        let y1 := { y.leave k with
                           txUsed := if y.st = 3 then y.txUsed else Table.put y.txUsed k.tc ((Table.get y.txUsed 0 k.tc + pktUnits k) % 4096) }
        let r := y1.fill wait (used + packetSize k) n
        (k :: r.1, r.2.1, r.2.2)

/-- A flit as it is sent: its header with the acknowledgement and credit fields of now, which take the NAK owed and two classes of the round, its
packets, and its 2,560 bytes. -/
def PeerPort.flit (y : PeerPort) (ftype fseq key first : Nat) (pkts : List Packet) (payload tag : Bytes) : Flit × Bytes × PeerPort :=
  let b := crAfter y.crNext
  let w0 := flitWord0 ftype fseq y.rxSeq y.nakOwed key first (Table.get y.rxLimit 0 0)
  let w1 := flitWord1 y.crNext (Table.get y.rxLimit 0 y.crNext) b (Table.get y.rxLimit 0 b)
  ({ w0 := w0, w1 := w1, pkts := pkts }, flitImage w0 w1 payload tag, { y with nakOwed := false, crNext := crAfter b })
/-- An IDLE or a LINK flit: no packet, a payload and a tag of zeros (R71, R72). -/
def PeerPort.bare (y : PeerPort) (ftype : Nat) : Flit × Bytes × PeerPort := y.flit ftype y.txSeq 0 0x1FF [] (zeros payloadBytes) (zeros 12)
/-- A DATA flit of the replay buffer, as stored (R79). -/
def PeerPort.again (y : PeerPort) (f : Stored) : Flit × Bytes × PeerPort := y.flit 1 f.fseq f.key f.first f.pkts f.payload f.tag

/-- Whether a packet is SYNC_REQ (0) or SYNC_RESP (1) (R74, R87). -/
def isSync (k : Packet) (sub : Nat) : Bool := k.ptype == 12 && k.addr / 2 ^ 56 == Config.syncSubtype sub
/-- A SYNC packet takes the time at the start of its flit: t1 of a request, t3 of a response (R87). -/
def syncStamp (now : Nat) (k : Packet) : Packet :=
  if isSync k 0 then { k with data := leBytes 8 now } else if isSync k 1 then { k with data := k.data.take 16 ++ leBytes 8 now ++ k.data.drop 24 } else k

/-- The next DATA flit (R73 to R75, R83, R87): what goes on of a packet, the packets that may go, a PAD for the rest; plaintext in AUTH, sealed after.
None where there is nothing to send. -/
def PeerPort.dataNext (y : PeerPort) (wait : Packet → Bool) (now : Nat) : Option (Stored × PeerPort) :=
  let g0 := y.fill wait y.carry.length 160
  let g := (g0.1.map (syncStamp now), g0.2)
  if y.carry.isEmpty ∧ g.1.isEmpty then none
  else
    let bytes := y.carry ++ g.1.flatMap packetWire
    let pkts := g.1 ++ (if bytes.length + 16 ≤ payloadBytes then [padPacket] else [])
    let first := if pkts.isEmpty then 0x1FF else y.carry.length / 8
    let key := if y.st = 3 then 0 else y.keyTx
    let plain := padTo payloadBytes (bytes.take payloadBytes)
    let e := if y.st = 3 then (plain, zeros 12) else sealFlit y.txKey y.keyFlits y.txSeq key first plain
    let f : Stored := { fseq := y.txSeq, key := key, first := first, pkts := pkts, head := y.cont, payload := e.1, tag := e.2 }
    some (f, { g.2.1 with carry := bytes.drop payloadBytes, cont := if payloadBytes < bytes.length then g.1.getLast? else none,
                          txSeq := (y.txSeq + 1) % 4096, replay := y.replay ++ [f], keyFlits := if y.st = 3 then y.keyFlits else y.keyFlits + 1,
                          ackAt := if y.replay.isEmpty then now else y.ackAt })

/-- The next flit of a port (R75, R79, R93), and whether it is a replayed one: LINK while training; a DATA flit of the replay buffer, a new one, or
IDLE. -/
def PeerPort.transmit (y : PeerPort) (wait : Packet → Bool) (now : Nat) : Option ((Flit × Bytes × PeerPort) × Bool) :=
  if y.st = 2 ∨ y.st = 5 then some (y.bare 2, false)
  else if y.st ≠ 3 ∧ y.st ≠ 4 then none
  else
    match y.replay[y.replay.length - y.resend]? with
    | some f => some ({ y with resend := y.resend - 1 }.again f, true)
    | none =>
      if 64 ≤ y.replay.length then some (y.bare 0, false)
      else match y.dataNext wait now with
        | some (f, y1) => some (y1.again f, false)
        | none => some (y.bare 0, false)

/-- Packets that go behind the packets of a lost link: those of their class for their destination, or for the device that the lost link led to
(R80). -/
def State.waitsFor (s : State) (q : Nat) (k : Packet) : Bool :=
  s.peer.any (fun e => e.2.hold.any (fun h => (heldPkts h.2).any (fun x =>
    x.tc == k.tc && (x.dstDev == k.dstDev || e.2.holdDev == (s.peerP q).peerDev))))

/-- A replay starts from the oldest flit not acknowledged; after four in a row without an advance of ACK_SEQ, a fast retrain (R79). -/
def State.replayFrom (s : State) (q : Nat) : State :=
  let y := s.peerP q
  if y.replay.isEmpty then s
  else if 4 ≤ y.streak then s.fastRetrain q
  else s.setPeer q { y with resend := y.replay.length, streak := y.streak + 1, ackAt := s.now }

/-- The acknowledgement and credit fields of a good flit (R76, R79). -/
def State.flitFields (s : State) (q : Nat) (f : Flit) : State :=
  let y := s.peerP q
  let ack := bits f.w0 47 36
  let hit := y.replay.any (fun x => x.fseq == ack)
  let left := if hit then (y.replay.dropWhile (fun x => x.fseq != ack)).drop 1 else y.replay
  let put := fun (t : Table Nat) (c v : Nat) => if c = 0 then t else Table.put t c v
  let l1 := put (put (Table.put y.txLimit 0 (bits f.w0 23 12)) (bits f.w1 63 61) (bits f.w1 60 49)) (bits f.w1 48 46) (bits f.w1 45 34)
  let s1 := s.setPeer q { y with replay := left, resend := Nat.min y.resend left.length, txLimit := l1,
                                 streak := if hit then 0 else y.streak, ackAt := if hit then s.now else y.ackAt }
  if bit f.w0 35 then s1.replayFrom q else s1

/-- An error event: one NAK, until a flit is accepted again (R78). -/
def State.badFlit (s : State) (q : Nat) : State :=
  let y := s.peerP q
  if y.nakOpen then s else s.setPeer q { y with nakOwed := true, nakOpen := true }

/-- The bytes that the packets of a received flit stand for: what a packet begun before still lacked, and those that start in it (R73). -/
def PeerPort.rxBytes (y : PeerPort) (f : Flit) : Bytes := y.rxCarry ++ f.pkts.flatMap packetWire
/-- Whether the tag of a received DATA flit is that of its packets under its key, with the count of those accepted under that key (R83): the key in use,
or the one that a KEY_UPDATE brings (R85). -/
def PeerPort.opens (y : PeerPort) (f : Flit) : Bool :=
  let key := bits f.w0 34 33
  let old := key == y.keyRx
  f.tag == (sealFlit (if old then y.rxKey else Config.updatedKey y.rxKey) (if old then y.rxFlits else 0) (bits f.w0 59 48) key (bits f.w0 32 24)
    (padTo payloadBytes ((y.rxBytes f).take payloadBytes))).2

/-- Packets of an accepted flit (R73, R74): one that began before ends here, the last may go on; malformed ones are discarded, with
their credit. Before ACTIVE only SPDM is taken (R93). -/
def State.takePackets (s : State) (q : Nat) (f : Flit) : State :=
  let y := s.peerP q
  let bytes := y.rxBytes f
  let cont := decide (payloadBytes < bytes.length)
  let whole := y.rxPart.toList ++ (if cont then f.pkts.dropLast else f.pkts)
  let s1 := s.setPeer q { y with rxPart := if cont then f.pkts.getLast? else none, rxCarry := bytes.drop payloadBytes }
  whole.foldl (fun (a : State) k =>
    if k.ptype = 0 ∧ k.tc = 0 then a
    else if malformed k then (if y.st = 4 then a.credit (q / 8) (16 + q % 8) k else a).peerFlag q 7
    else if y.st = 4 ∨ isSpdm k then a.emit (.accepted q k)
    else a) s1

/-- A received DATA flit in its place (R78, R82, R84, R85). -/
def State.dataFlit (s : State) (q : Nat) (f : Flit) : State :=
  let y := s.peerP q
  let fseq := bits f.w0 59 48
  let key := bits f.w0 34 33
  let next := y.keyRx % 3 + 1
  if fseq ≠ (y.rxSeq + 1) % 4096 then (if (fseq + 4096 - (y.rxSeq + 1) % 4096) % 4096 < 2048 then s.badFlit q else s)
  else if y.st = 4 ∧ key ≠ y.keyRx ∧ !(y.rxNext ∧ key = next) then s.badFlit q
  else if y.st = 4 ∧ !y.opens f then (s.peerDrop q 3).peerFlag q 2
  else
    let y1 := { y with rxSeq := fseq, nakOpen := false, rxFlits := if y.st = 4 then y.rxFlits + 1 else y.rxFlits }
    let y2 := if y.st = 4 ∧ key ≠ y.keyRx then { y1 with keyRx := next, rxKey := Config.updatedKey y.rxKey, rxNext := false, rxFlits := 1 } else y1
    (s.setPeer q y2).takePackets q f

/-- Whether a received flit is bad (R78, R82). -/
def PeerPort.bad (y : PeerPort) (f : Flit) : Bool :=
  let t := f.w0 / 2 ^ 60
  let key := bits f.w0 34 33
  !f.fecOk || !f.crcOk || decide (2 < t) || (t != 1 && key != 0) || (t == 1 && (if y.st = 4 then key == 0 else key != 0))

end Sys2Proof.Machine
end

