-- ==== Sys2Proof/Machine/SecOps.lean ====
section
/-! DEFINITION. Identity: the security state, certificate chains, measurements, SPDM sessions (R356 to R363). -/

namespace Sys2Proof.Machine

open Sys2Proof

/-- SECURITY_STATE (R376). -/
def State.securityState (s : State) : Nat :=
  bool01 s.pw.dbgEn + 2 * bool01 s.sec.debugOpening + 4 * bool01 s.sec.debugOpen + 8 * bool01 s.sec.claim.isSome
    + 16 * s.obj 0x8000 6 + 32 * s.obj 0x8000 7 + 64 * s.obj 0x8000 8
    + 128 * bool01 (!(s.blob 0x8000 2).isEmpty) + 256 * bool01 (!(s.blob 0x8000 4).isEmpty)

/-- Slot 1 is presented when it is installed (R359). -/
def State.slot1On (s : State) : Bool := !(s.blob 0x8000 2).isEmpty
/-- The chain the device presents now (R359). -/
def State.shownChain (s : State) : Bytes := s.chainOf s.slot1On

/-- A measurement record: index, DMTF specification, type and value (R363). -/
def dmtfRecord (idx ty : Nat) (v : Bytes) : Bytes :=
  leBytes 1 idx ++ leBytes 1 1 ++ leBytes 2 (3 + v.length) ++ leBytes 1 ty ++ leBytes 2 v.length ++ v

/-- Measurement block `i` (R363); none for an index outside 1 to 6. -/
def State.measureBlock (s : State) (i : Nat) : Option Bytes :=
  if i = 1 then some (dmtfRecord 1 0x00 (measured 1 s.sec.fwLoaded))
  else if i = 2 ∨ i = 3 ∨ i = 4 then some (dmtfRecord i 0x01 (measured i s.sec.fwLoaded))
  else if i = 5 then some (dmtfRecord 5 0x85 (leBytes 4 s.securityState))
  else if i = 6 then some (dmtfRecord 6 0x03 (sha384 (s.blob 0x8000 4) ++ sha384 (s.blob 0x8000 2)))
  else none

/-- The records GET_MEASUREMENTS returns for an index: 0 their number, 0xFF all, else one. -/
def State.measurements (s : State) (i : Nat) : Option Bytes :=
  if i = 0 then some (leBytes 1 6)
  else if i = 0xFF then some ((List.range 6).flatMap (fun k => (s.measureBlock (k + 1)).getD []))
  else s.measureBlock i

/-! ### SPDM sessions (R81, R360) -/

/-- SPDM messages that are given in full. -/
abbrev spdmError : Nat := 0x7F

/-- Stores the session of a channel; one that has not begun leaves nothing listed. -/
def State.setSpdm (s : State) (ch : SpdmCh) (x : Spdm) : State :=
  let l := s.sec.spdm.filter (fun e => e.1 != ch)
  { s with sec := { s.sec with spdm := if x.stage = 0 ∧ x.asked = 0 then l else l ++ [(ch, x)] } }
/-- Whether SPDM runs on a channel: a host port that is up, or a peer port in AUTH, and in ACTIVE for the session it made. -/
def State.spdmOn (s : State) : SpdmCh → Bool
  | .host p _ => decide (p < 128) && s.hostUp p
  | .peer q => decide (q < 64) && ((s.peerP q).st == 3 || (s.peerP q).st == 4)
/-- Sessions of the same host port that stand beside a channel (R360). -/
def State.spdmBeside (s : State) (ch : SpdmCh) : Nat :=
  match ch with
  | .host p _ => (s.sec.spdm.filter (fun e => decide (5 ≤ e.2.stage) && e.1 != ch && (match e.1 with | .host a _ => a == p | .peer _ => false))).length
  | .peer _ => 0
/-- An SPDM message leaves on a channel; on a peer link it travels in CONTROL packets of subtype SPDM, ahead of all but other TC0 packets
(R75, R81). -/
def State.sendSpdm (s : State) (ch : SpdmCh) (msg : Nat) (data : Bytes) : State :=
  let s1 := s.emit (.spdm ch msg data)
  match ch with
  | .host _ _ => s1
  | .peer q =>
    let y := s1.peerP q
    let b := leBytes 1 msg ++ data
    let ks := (chunks 256 (ceilDiv b.length 256) b).map (fun d =>
      { padPacket with ptype := 10, srcDev := s.devId, dstDev := y.peerDev.getD 0, addr := Config.controlSubtype 4 * 2 ^ 56, data := d })
    s1.setPeer q (y.enqueue0 ks)

/-- The algorithms of R81 as SPDM codes them: ECDSA P-384, SHA-384, ECDHE P-384, AES-256-GCM. -/
def spdmSuite : Bytes := leBytes 4 0x80 ++ leBytes 4 0x02 ++ leBytes 2 0x10 ++ leBytes 2 0x02
/-- The device's capabilities as SPDM codes them: certificates, signed measurements, encryption, mutual authentication, key exchange and update. -/
def spdmCaps : Bytes := leBytes 4 0x43D2

/-- The device sends a request of its own on a channel (R81). -/
def State.spdmAsk (s : State) (ch : SpdmCh) (msg : Nat) (data : Bytes) : State :=
  (s.setSpdm ch { s.spdmOf ch with asked := msg }).sendSpdm ch msg data
/-- An SPDM answer arrives on a peer link, and the next request of the device's own exchange goes out (R81): version, capabilities, algorithms, the
far end's chain in portions of 1,024 bytes, key exchange and finish; then its 0x1000.05 value. -/
def State.spdmNext (s : State) (q : Nat) (b : Bytes) : State :=
  let ch : SpdmCh := .peer q
  let x := s.spdmOf ch
  match field b 0 1, x.asked with
  | 0x04, 0x84 => s.spdmAsk ch 0xE1 spdmCaps
  | 0x61, 0xE1 => s.spdmAsk ch 0xE3 spdmSuite
  | 0x63, 0xE3 => s.spdmAsk ch 0x82 (leBytes 2 0 ++ leBytes 2 1024)
  | 0x02, 0x82 =>
    let got := x.got + field b 2 2
    if field b 4 2 = 0 then s.spdmAsk ch 0xE4 x.chain
    else (s.setSpdm ch { x with got := got }).spdmAsk ch 0x82 (leBytes 2 got ++ leBytes 2 1024)
  | 0x64, 0xE4 => s.spdmAsk ch 0xE5 []
  | 0x65, 0xE5 => s.spdmAsk ch 0xFE (leBytes 2 (s.obj 0x1000 5))
  | _, _ => s

/-- A packet that a peer link delivered, where it is of SPDM. -/
def State.spdmIn (s : State) (q : Nat) (k : Packet) : State := if isSpdm k then s.spdmNext q k.data else s

/-- A peer port begins to authenticate (R81, R359): anchor and chain are those of this moment, and the device sends its first request. -/
def State.authStart (s : State) (q : Nat) : State :=
  let x : Spdm := { slot1 := s.slot1On, chain := s.shownChain, asked := 0x84 }
  ((s.setPeer q { s.peerP q with anchor := s.blob 0x8000 4 }).setSpdm (.peer q) x).sendSpdm (.peer q) 0x84 []

/-- One SPDM request: where `ok` holds for the channel's stage it is answered with `msg` and `data` and the stage becomes `nxt`; else it
is answered with an error code. -/
def State.spdmAnswer (s : State) (ch : SpdmCh) (ok : Bool) (err nxt : Nat) (msg : Nat) (data : Bytes) : State :=
  if !s.spdmOn ch then s
  else if ok then (s.setSpdm ch { s.spdmOf ch with stage := nxt }).sendSpdm ch msg data
  else s.sendSpdm ch spdmError (leBytes 1 err)

end Sys2Proof.Machine
end

