-- ==== Sys2Proof/Machine/TenantOps.lean ====
section
/-! DEFINITION. Tenants: enable, STRICT reservations, removal, shapers, logical devices (R335 to R353). -/

namespace Sys2Proof.Machine

open Sys2Proof

/-! ### STRICT reservations (R340 to R342) -/

/-- Engines of a die that could join a partition: in service and in none. -/
def State.common (s : State) (d : Nat) : List Nat :=
  (s.rel.engines.filter (fun e => e.1 / 52 == d && inService e.2.st && e.2.part.isNone)).map Prod.fst
/-- STRICT_ENGINES_USED (R355). -/
def State.strictEngines (s : State) : Nat := sumNat (s.strictTenants.map (fun t => s.tObj t 7))
/-- Whether another tenant's logical device is enabled on a port of one of this tenant's. -/
def State.sharesPort (s : State) (t : Nat) : Bool :=
  (List.range 128).any (fun p => (List.range 16).any (fun l => s.ldOn p l && s.ldTenant p l == some t)
    && (List.range 16).any (fun l => s.ldOn p l && (s.ldTenant p l).isSome && s.ldTenant p l != some t))

/-- Whether every reservation of a tenant about to be enabled fits (R341). A tenant still being disabled holds its own already. -/
def State.strictFits (s : State) (t : Nat) : Bool :=
  let n := s.tObj t 7
  let others := s.strictTenants.filter (fun u => u != t)
  let sum := fun (f : Nat → Nat) => sumNat (others.map f) + f t
  let held := s.tStrict t
  let quota := s.objI 0x7300 2 t
  decide (2 ≤ n ∧ n ≤ 40 ∧ sum (fun u => s.tObj u 7) ≤ 40) && decide (s.obj 0x2000 7 ≠ 0) && decide (quota ≠ 0xFFFFFFFF) && !s.sharesPort t
    && (held || s.diesUp.all (fun d => decide (n ≤ (s.common d).length) && decide (4 * s.tObj t 8 ≤ s.poolFree d)))
    && (List.range 8).all (fun d => s.poolFits d (if held then 0 else s.tObj t 8))
    && decide (sum (fun u => s.tObj u 9 * 2 ^ 20) ≤ s.tierCap 1) && s.t1Room t (s.tObj t 9 * 2 ^ 20 - s.t1Of t)
    && decide (sum (fun u => s.objI 0x7300 2 u * 2 ^ 20) ≤ s.tierCap 1 + s.tierCap 2 + s.tierCap 4) && s.kvRoom t (quota * 2 ^ 20 - s.kvUsed t)
    && decide (sum (fun _ => s.obj 0x6200 3) ≤ s.obj 0x6200 2)
    && decide (s.staged + s.stagingHold (s.tObj t 4) + (s.obj 0x6200 3 * 2 ^ 20 - s.stagedBy (s.tObj t 4)) ≤ s.obj 0x6200 2 * 2 ^ 20)
    && decide (sum (fun _ => s.obj 0x6200 5) ≤ s.obj 0x6200 4)
    && decide (s.tensorAll + s.tensorHold t + (s.obj 0x6200 5 * 2 ^ 20 - s.tensorUsed t) ≤ s.obj 0x6200 4 * 2 ^ 20)
    && decide (sum (fun u => s.objI 0x7400 3 u) ≤ 4096) && decide (s.slotHold t + (s.objI 0x7400 3 t - s.slotsHeld t) ≤ s.slotsFree)
    && decide (sum (fun u => s.tObj u 10) ≤ s.obj 0x7000 1)
    && decide (s.openSeqs.length + s.seqHold t + (s.tObj t 10 - s.openOf t) ≤ s.obj 0x7000 1)

/-- The engines of a new partition: the lowest-numbered free ones of every die in service (R342). -/
def State.takeParts (s : State) (t : Nat) : State :=
  let pick := s.diesUp.flatMap (fun d => (s.common d).take (s.tObj t 7))
  { s with rel := { s.rel with engines := s.rel.engines.map (fun e => if pick.contains e.1 then (e.1, { e.2 with part := some t }) else e) } }

/-- A tenant's memory key, drawn where it has none (R365). -/
def State.giveKey (s : State) (t : Nat) : State :=
  match Table.find s.sec.tenantKeys t with
  | some _ => s
  | none =>
    let g := s.draw 8
    { g.2 with sec := { g.2.sec with tenantKeys := Table.put g.2.sec.tenantKeys t (g.1.flatMap (leBytes 8)) } }

/-! ### TDISP interfaces (R362) -/

/-- A configuration write that concerns a logical device moves its locked or running interface to ERROR. -/
def State.touchLd (s : State) (p l : Nat) : State := s.tdiErr p l
/-- The same for every logical device bound to a tenant. -/
def State.touchTenant (s : State) (t : Nat) : State :=
  (s.lds.map Prod.fst).foldl (fun (a : State) k => if a.ldTenant (k / 16) (k % 16) = some t then a.tdiErr (k / 16) (k % 16) else a) s

/-! ### Enable, disable, remove (R335 to R341) -/

/-- TENANT_ENABLE = 1 (R336, R341, R365, R375). -/
def State.tenantEnableOp (s : State) (t : Nat) : Nat × State :=
  if s.tOn t then (rcOK, s.touchTenant t)
  else if s.sec.debugOpen ∨ s.tObj t 4 = 0 then (rcRefused, s)
  else if s.tObj t 3 = 1 ∧ !s.strictFits t then (rcRefused, s.flag 0x4420 1 0)
  else
    let fresh := s.tObj t 3 == 1 && !s.tStrict t
    let s1 := ((s.touchTenant t).setObjI 0x4400 2 t 1).giveKey t
    (rcOK, if fresh then (s1.takeParts t).noteLow s else s1)

/-- TENANT_ENABLE = 0 (R338): admission stops; reservations go once the last command is done (R335). -/
def State.tenantDisableOp (s : State) (t : Nat) : Nat × State :=
  (rcOK, ((s.touchTenant t).setObjI 0x4400 2 t 0).releaseParts)

/-- Every open sequence of a tenant closes, and what it holds goes (R266, R339). -/
def State.closeTenant (s : State) (t : Nat) : State :=
  let mine := s.seqs.filter (fun e => e.2.tenant == t && e.2.partnerOf.isNone)
  mine.foldl (fun (a : State) e =>
    let b := (a.freeSeq e.2).unlinkFar e.2
    match e.2.partner with | some d => b.emit (.copyDrop d e.2.fabTag e.2.id) | none => b) s |>.freshViews

/-- TENANT_REMOVE (R339). -/
def State.tenantRemoveOp (s : State) (v : Nat) : Nat × State :=
  let t := v % 4096
  let bound := (List.range 128).any (fun p => (List.range 16).any (fun l => s.ldTenant p l == some t))
  if s.tOn t || s.tBusy t || bound then (rcRefused, s)
  else
    let s1 := s.closeTenant t
    let s2 : State := { s1 with
      recipes := s1.recipes.filter (fun (x : Recipe) => x.tenant != t),
      tensors := s1.tensors.filter (fun (x : Tensor) => x.tenant != t),
      colls := s1.colls.filter (fun (x : CollRec) => x.tenant != t),
      slots := s1.slots.map (fun e => if e.2.tenant = t then (e.1, { e.2 with retiring := true }) else e),
      psets := s1.psets.map (fun e => if e.1 / 9 = t then (e.1, { e.2 with cur := 0 }) else e),
      sec := { s1.sec with tenantKeys := Table.del s1.sec.tenantKeys t },
      buckets := s1.buckets.filter (fun e => e.1 / 8 != t),
      reports := Table.del s1.reports t }
    let s3 := s2.dropObjs (fun k _ => decide (k / 2 ^ 24 = t + 1) && (k % 2 ^ 24 / 256 == 0x4400 || k % 2 ^ 24 / 256 == 0x4410))
    (rcOK, s3.restored 8 9 5 t)

/-! ### Shapers (R347, R350) -/

/-- A bucket at a µs boundary. -/
def Bucket.refill (b : Bucket) (at_ rate burst : Nat) : Bucket :=
  match b.zeroAt with
  | some z => if z ≤ at_ then { tokens := 0, zeroAt := b.later.filter (fun n => decide (at_ < n)) } else { b with tokens := min (b.tokens + rate) (burst : Int) }
  | none => { b with tokens := min (b.tokens + rate) (burst : Int) }

/-- Buckets that count: a tenant and class with a RATE of its own, or a bucket that a write has yet to empty. -/
def State.shapedKeys (s : State) : List Nat :=
  let rates := (s.objs.filter (fun e => e.1 % 2 ^ 24 / 256 == 0x4410 && decide (1 ≤ e.1 % 256) && decide (e.1 % 256 ≤ 5) && decide (2 ^ 24 ≤ e.1))).map
    (fun e => bktKey (e.1 / 2 ^ 24 - 1) (e.1 % 256 + 1))
  (rates ++ (s.buckets.filter (fun e => e.2.zeroAt.isSome)).map Prod.fst).eraseDups

/-- Every bucket refilled at a boundary. An unshaped one counts no tokens. -/
def State.refillAll (s : State) (at_ : Nat) : State :=
  { s with buckets := s.shapedKeys.foldl (fun (b : Table Bucket) k =>
      let rate := s.shapeRate (k / 8) (k % 8)
      let x := Table.get b {} k
      Table.put b k (if rate = 0xFFFFFFFF then (match x.zeroAt with | some z => if z ≤ at_ then { zeroAt := x.later.filter (fun n => decide (at_ < n)) } else x | none => x)
                     else x.refill at_ rate (s.shapeBurst (k / 8) (k % 8)))) s.buckets }

/-- A write of RATE or BURST at subindex `sub` of 0x4410 (R350). -/
def State.shapeOp (s : State) (t sub v : Nat) : Nat × State :=
  let tc := if sub ≤ 5 then sub + 1 else sub - 4
  let s1 := s.setObjI 0x4410 sub t v
  let b := s1.bucket t tc
  let at_ := (s.now / 1000 + 1) * 1000
  (rcOK, { s1 with buckets := Table.put s1.buckets (bktKey t tc) { b with zeroAt := some (match b.zeroAt with | some z => Nat.min z at_ | none => at_),
                                                                          later := b.zeroAt.bind (fun z => if z < at_ then some at_ else none) } })

/-- SHARED_FREE of a die, KiB: its free shared cells (R431). -/
def State.sharedFree (s : State) (d : Nat) : Nat := s.poolFree d / 4
/-- The sample of monitor 16 in its scope (R431). -/
def State.sampleFree (s : State) : State :=
  let v := s.obj 0xA110 1
  if v % 16 = 0 then s.sample 16 (sumNat (s.diesUp.map s.sharedFree)) {}
  else
    let d := bits v 27 16
    if s.dieUp d then s.sample 16 (s.sharedFree d) { die := some d } else s

/-! ### Reports (R352, R353) -/

/-- ISOLATION of a tenant (R352). -/
def State.isoReg (s : State) (t : Nat) : Nat :=
  (match s.tDomain t with | some d => 2 * d | none => 2048) + s.tObj t 3
/-- KV_CHARGE of a tenant (R352). -/
def State.chargeReg (s : State) (t : Nat) : Nat := s.objI 0x7300 2 t * 2 ^ 32 + ceilDiv (s.kvUsed t) (2 ^ 20)

/-- A tenant's registers at a window's end (R352, R353). -/
def State.closeReport (s : State) (t at_ : Nat) : Report :=
  let r := Table.get s.reports {} t
  { time := at_, iso := s.isoReg t, charge := s.chargeReg t,
    thr := (List.range 5).map (fun i => (r.thr.getD i 0 / 2 ^ 32 + bool01 (r.hit.getD i false)) % 2 ^ 32 * 2 ^ 32
      + Nat.min (r.bytes.getD i 0 / 1024) (2 ^ 32 - 1)) }

/-! ### Logical devices (R148, R344, R375) -/

/-- Whether the enable of a logical device would mix a STRICT tenant with another on its port (R344). -/
def State.mixesStrict (s : State) (p l : Nat) : Bool :=
  let strict := fun (o : Option Nat) => match o with | some t => s.tObj t 3 == 1 | none => false
  let mine := s.ldTenant p l
  (List.range 16).any (fun k => k != l && s.ldOn p k && s.ldTenant p k != mine && (strict mine && (s.ldTenant p k).isSome || strict (s.ldTenant p k) && mine.isSome))

/-- LD_ENABLE = 1. -/
def State.ldEnableOp (s : State) (p l : Nat) : Nat × State :=
  if s.ldOn p l then (rcOK, s.touchLd p l)
  else if s.sec.debugOpen then (rcRefused, s)
  else if s.mixesStrict p l then (rcRefused, s.flag 0x4420 1 1)
  else (rcOK, (s.touchLd p l).setObj (0x5400 + p) (8 * l + 1) 1)

/-- LD_ENABLE = 0: extents are revoked, offers withdrawn, the lease ends (R125, R148). -/
def State.ldDisableOp (s : State) (p l : Nat) : Nat × State :=
  if !s.ldOn p l then (rcOK, s.touchLd p l)
  else
    let s1 := ((s.touchLd p l).revokeAll p l false true).setObj (0x5400 + p) (8 * l + 1) 0
    (rcOK, s1.setLd p l { s1.ld p l with lease := 0, expiry := none, graced := false, offline := false })

end Sys2Proof.Machine
end

