-- ==== Sys2Proof/Machine/SecAct.lean ====
section
/-! DEFINITION. What the security objects do: managers, anchors, sharing-domain keys, locks, the claim window, interface reports (R358
to R375). -/

namespace Sys2Proof.Machine

open Sys2Proof

/-! ### Managers (R367 to R372) -/

/-- The certificate in MANAGER_CERT slot i, 1 to 16; empty where none is enrolled. -/
def State.manager (s : State) (i : Nat) : Bytes := if 1 ≤ i ∧ i ≤ 16 then s.blob 0x8100 i else []
/-- Slots that hold a certificate. -/
def State.managers (s : State) : List Nat := ((List.range 16).map (· + 1)).filter (fun i => !(s.manager i).isEmpty)
/-- MANAGERS_ENROLLED. -/
def State.enrolled (s : State) : Nat := s.managers.length
/-- QUORUM_K, never 0 (R371). -/
def State.quorumNow (s : State) : Nat := Nat.max 1 (s.obj 0x8100 18)
/-- The slot of the enrolled certificate with a SHA-384 digest (R367). -/
def State.managerOf (s : State) (der : Bytes) : Option Nat := s.managers.find? (fun i => sha384 (s.manager i) == sha384 der)
/-- LOCK_DEBUG, LOCK_ANCHOR, LOCK_MANAGERS. -/
def State.locked (s : State) (sub : Nat) : Bool := s.obj 0x8000 sub == 1

/-- ENROLL (R371). -/
def State.enrollOp (s : State) (b : Bytes) : Nat × State :=
  if s.locked 8 then (rcLocked, s)
  else if b.isEmpty ∨ !Config.isP384Cert b then (rcBadValue, s)
  else if s.managers.any (fun i => s.manager i == b) then (rcRefused, s)
  else
    match ((List.range 16).map (· + 1)).find? (fun i => (s.manager i).isEmpty) with
    | none => (rcRefused, s)
    | some i => (rcOK, s.setBlob 0x8100 i b)

/-- UNENROLL (R370, R371): the signer no longer counts toward any open nonce. -/
def State.unenrollOp (s : State) (v : Nat) : Nat × State :=
  if s.locked 8 then (rcLocked, s)
  else if v < 1 ∨ 16 < v then (rcBadValue, s)
  else if (s.manager v).isEmpty ∨ s.enrolled - 1 < s.quorumNow then (rcRefused, s)
  else
    let drop := fun (n : Nonce) => { n with signers := n.signers.filter (fun i => i != v), must := n.must.map (fun i => if i = v then 0 else i) }
    let s1 := s.setBlob 0x8100 v []
    (rcOK, { s1 with sec := { s1.sec with nonces := s1.sec.nonces.map drop } })

/-- QUORUM_K, signed or by the claim session (R368, R371). -/
def State.quorumKOp (s : State) (v : Nat) (claim : Bool) : Nat × State :=
  if s.locked 8 then (rcLocked, s)
  else if v < 1 ∨ 16 < v then (rcBadValue, s)
  else if !claim ∧ s.enrolled < v then (rcRefused, s)
  else (rcOK, s.setObj 0x8100 18 v)

/-- CERT_SLOT1 (R358, R372). -/
def State.certSlot1Op (s : State) (b : Bytes) : Nat × State :=
  if s.locked 7 then (rcLocked, s)
  else if !Config.leafIsSlot1 b then (rcRefused, s)
  else (rcOK, s.setBlob 0x8000 2 b)

/-- FABRIC_ANCHOR: 48 bytes (R359, R372, R376). -/
def State.fabricAnchorOp (s : State) (b : Bytes) : Nat × State :=
  if s.locked 7 then (rcLocked, s)
  else if b.length ≠ 48 then (rcBadValue, s)
  else (rcOK, s.setBlob 0x8000 4 b)

/-- SD_KEY of the domain selected (R366, R375). -/
def State.sdKeyOp (s : State) (b : Bytes) : Nat × State :=
  let d := s.obj 0x8200 1 % 1024
  if b.length ≠ 96 then (rcBadValue, s)
  else if s.sec.debugOpen ∨ (Table.find s.sec.sdKeys d).isSome then (rcRefused, s)
  else (rcOK, { s with sec := { s.sec with sdKeys := Table.put s.sec.sdKeys d (b.take 32),
                                            tenantKeys := Table.put s.sec.tenantKeys (4096 + d) (b.drop 32) } })

/-- SD_KEY_CHECK (R366). -/
def State.sdKeyCheck (s : State) (d : Nat) : Nat :=
  match Table.find s.sec.sdKeys d with
  | some k => field (hmac256 k (ascii "nsx-kcv")) 0 4
  | none => 0

/-- SD_KEY_CLEAR (R366): prefix entries and cached groups of the domain go, then its keys. -/
def State.sdKeyClearOp (s : State) (v : Nat) : Nat × State :=
  let d := v % 1024
  let mine := fun (g : Group) => g.shared && g.domain == some d
  if (s.tenantsOn ++ s.cmds.map (fun e => e.2.tenant)).any (fun t => (s.tOn t || s.tBusy t) && s.tDomain t == some d)
      || s.groups.any (fun e => mine e.2 && decide (1 ≤ e.2.links)) then (rcRefused, s)
  else (rcOK, { s with prefixes := s.prefixes.filter (fun (e : PEntry) => e.domain != d), groups := s.groups.filter (fun e => !mine e.2),
                       sec := { s.sec with sdKeys := Table.del s.sec.sdKeys d, tenantKeys := Table.del s.sec.tenantKeys (4096 + d) } })

/-- A write of a lock-once object (R372). -/
def State.lockOp (s : State) (sub v : Nat) : Nat × State :=
  if s.locked sub then (rcLocked, s) else if v ≠ 1 then (rcBadValue, s) else (rcOK, s.setObj 0x8000 sub 1)

/-! ### The claim window (R368) -/

/-- A management session ends: its stages of pieces, its relays and its shadows go (R403, R409). -/
def State.endSess (s : State) (sid : Nat) : State :=
  match Table.find s.sess sid with
  | none => s
  | some _ => { s with sess := Table.del s.sess sid, pieces := s.pieces.filter (fun (y : Piece) => y.sid != sid),
                       relays := s.relays.filter (fun (y : Relay) => y.sid != sid) }.emit (.dtlsClose sid)

/-- The window closes: QUORUM_K becomes the lesser of its value and the number enrolled, at least 1. -/
def State.closeClaim (s : State) : State :=
  let s1 := s.setObj 0x8100 18 (Nat.max 1 (Nat.min s.quorumNow s.enrolled))
  { s1 with sec := { s1.sec with claim := none } }

/-- With the window closed the claim session ends. -/
def State.endClaim (s : State) : State :=
  if s.sec.claim.isSome then s
  else ((s.sess.filter (fun e => e.2.claim)).map Prod.fst).foldl State.endSess s

/-- CLAIM_DONE by the session `sid` (R368, R458). -/
def State.claimDoneOp (s : State) (sid v : Nat) : Nat × State :=
  let mine := match Table.find s.sess sid with | some x => x.claim | none => false
  if !mine then (rcNotPermitted, s)
  else if v ≠ 1 then (rcBadValue, s)
  else if s.sec.claim.isNone then (rcRefused, s)
  else (rcOK, s.closeClaim)

/-- CLAIM_REMAIN, s. -/
def State.claimRemain (s : State) : Nat :=
  match s.sec.claim with | some t => ceilDiv (t + 600000000000 - s.now) 1000000000 | none => 0

/-- A window opens at start-up after POR where no manager is enrolled and LOCK_MANAGERS is 0 (R368, R372). -/
def State.openClaim (s : State) : State :=
  if s.enrolled = 0 ∧ !s.locked 8 then { s with sec := { s.sec with claim := some s.now, claimSid := none } } else s

/-! ### TDISP (R360 to R364) -/

/-- Whether TDISP messages reach the device: a host port that is up with a session of SPDM made. -/
def State.tdispOn (s : State) (p l : Nat) : Bool :=
  decide (p < 128) && decide (l < 16) && s.hostUp p
    && s.sec.spdm.any (fun e => e.2.stage == 6 && (match e.1 with | .host a _ => a == p | .peer _ => false))
/-- An IDE stream of a port is established. -/
def State.ideUp (s : State) (p k : Nat) : Bool := (Table.get s.sec.ide {} (8 * p + k)).up
/-- Link IDE and a selective stream that covers function 1 stand (R361). -/
def State.idePair (s : State) (p : Nat) : Bool :=
  s.ideUp p 0 && [1, 2, 3, 4].any (fun k => s.ideUp p k && (Table.get s.sec.ide {} (8 * p + k)).function1)

/-- What R361 asks of a lock. -/
def State.lockable (s : State) (p l : Nat) : Bool :=
  s.ldOn p l && s.idePair p && !s.sec.debugOpen && !s.sec.debugOpening
    && (match s.ldTenant p l with
      | some t => s.tOn t && (s.tObj t 3 == 1 || s.obj 0x8000 9 == 0)
      | none => false)

/-- Inserts by a key, ascending. -/
def insertOn {α : Type} (f : α → Nat) (a : α) : List α → List α
  | [] => [a]
  | b :: t => if f a ≤ f b then a :: b :: t else b :: insertOn f a t
/-- A list in ascending order of a key. -/
def sortOn {α : Type} (f : α → Nat) (l : List α) : List α := l.foldr (insertOn f) []

/-- A manifest entry (R364). -/
def manifestEntry (ty flags id b4 b5 n : Nat) (digest : Bytes) : Bytes :=
  leBytes 1 ty ++ leBytes 1 flags ++ leBytes 2 id ++ leBytes 1 b4 ++ leBytes 1 b5 ++ zeros 2 ++ leBytes 8 n ++ digest

/-- A resident tensor's bytes. -/
def Tensor.bytes (x : Tensor) : Bytes := (List.range (x.rows * x.rowBytes)).map (fun i => Table.get x.data 0 i)
/-- The manifest of a tenant: Palettes, resident tensors, installed recipes (R364). -/
def State.manifest (s : State) (t : Nat) : List Bytes :=
  let pals := sortOn Prod.fst (s.slots.filter (fun e => e.2.tenant == t))
  let tens := sortOn (fun (x : Tensor) => x.id) (s.tensors.filter (fun (x : Tensor) => x.tenant == t && x.resident && !x.freed))
  let recs := sortOn (fun (x : Recipe) => x.id) (s.recipes.filter (fun (x : Recipe) => x.tenant == t && x.removedBy.isNone))
  pals.map (fun e => manifestEntry 1 (bool01 e.2.trained + 2 * bool01 e.2.retiring) e.1 e.2.set e.2.gen 1024 (sha384 e.2.bytes))
    ++ tens.map (fun (x : Tensor) => manifestEntry 2 0 x.id x.fmt 0 (x.rows * x.rowBytes) (sha384 x.bytes))
    ++ recs.map (fun (x : Recipe) => let d := x.hdr ++ x.stages.flatten; manifestEntry 3 0 x.id 0 0 d.length (sha384 d))

/-- The device-specific area of an interface report (R364). -/
def State.reportArea (s : State) (t : Nat) : Bytes :=
  let m := s.manifest t
  let n := Nat.min 1000 m.length
  leBytes 4 m.length ++ leBytes 4 n ++ sha384 m.flatten ++ leBytes 4 (s.tObj t 4)
    ++ leBytes 1 (bool01 (s.tObj t 3 == 1) + 2 * bool01 (decide (1000 < m.length))) ++ zeros 3 ++ (m.take n).flatten

end Sys2Proof.Machine
end

