-- ==== Sys2Proof/Machine/RelOps.lean ====
section
/-! DEFINITION. Engines, spares, memory repair, loss and return of a die (R25, R311, R377 to R392, R449). -/

namespace Sys2Proof.Machine

open Sys2Proof

/-! ### Engines (R379 to R389) -/

/-- An engine; e is 52 times its die plus its number there. -/
def State.engine (s : State) (e : Nat) : Engine := Table.get s.rel.engines {} e
/-- Stores an engine. -/
def State.setEngine (s : State) (e : Nat) (x : Engine) : State := { s with rel := { s.rel with engines := Table.put s.rel.engines e x } }
/-- Whether an engine works: on a die in service and itself IN_SERVICE or SUSPECT. -/
def State.engineOn (s : State) (e : Nat) : Bool := s.dieUp (e / 52) && inService (s.engine e).st
/-- Engines in service of a die. -/
def State.dieEngines (s : State) (d : Nat) : Nat :=
  if s.dieUp d then (s.rel.engines.filter (fun e => e.1 / 52 == d && inService e.2.st)).length else 0
/-- ENGINES_ACTIVE. -/
def State.enginesActive (s : State) : Nat := sumNat ((List.range 8).map s.dieEngines)
/-- Free spare engines of a die, ascending. -/
def State.freeSpares (s : State) (d : Nat) : List Nat := (s.rel.engines.filter (fun e => e.1 / 52 == d && e.2.st == 0)).map Prod.fst

/-- A free spare of the die starts its test for engine e, for a STRICT partition if one lost an engine (R386, R388); SPARE_LOW where
it is the last (R401). -/
def State.bringSpare (s : State) (e : Nat) (part : Option Nat) : Option State :=
  match (s.freeSpares (e / 52)).head? with
  | none => none
  | some x =>
    let s1 := s.setEngine x { s.engine x with st := 5, was := 1, spareFor := some e, part := part }
    some (if (s1.freeSpares (e / 52)).isEmpty then s1.flag 0x9000 8 0 else s1)

/-- What a partition takes for a retired engine that no spare stands in for: an engine of the common set while eight are left there, else
it shrinks (R342). -/
def State.refillPart (s : State) (d t : Nat) : State :=
  match s.common d with
  | x :: rest => if 8 ≤ rest.length then s.setEngine x { s.engine x with part := some t } else s.flag 0x4420 1 2
  | [] => s.flag 0x4420 1 2

/-- An engine is RETIRED (R386, R388, R389). A spare already tested or under test for it, or else a fresh one, takes its place and its
partition. -/
def State.retireEngine (s : State) (e : Nat) : State :=
  let t := (s.engine e).part
  let s1 := (s.setEngine e { s.engine e with st := 4, part := none, spareFor := none }).flag 0x9000 8 3
  match s1.rel.engines.find? (fun x => x.2.spareFor == some e && (x.2.st == 5 || inService x.2.st)) with
  | some x => if t.isSome then s1.setEngine x.1 { x.2 with part := t } else s1
  | none =>
    match s1.bringSpare e t with
    | some s2 => s2
    | none => match t with | some u => s1.refillPart (e / 52) u | none => s1

/-- Whether a stage instance of an item is on an engine: the common set's engines run the SHARED tenants, a partition's its own. -/
def State.onEngine (s : State) (e ref : Nat) (x : Cmd) (i : Nat) : Bool :=
  Config.stageOn ref i e && ((s.engine e).part == (if s.tStrict x.tenant then some x.tenant else none))

/-- An ENGINE reset (R386, R442, R444): the engine's items end, and it is tested; passing takes it to state `was`. -/
def State.resetEngine (s : State) (e was : Nat) : State :=
  let s1 := s.cutItems (fun ref x i => s.onEngine e ref x i) stFault 0x20
  let s2 := s1.setEngine e { s1.engine e with st := 5, was := was, spareFor := none }
  let r : ResetRun := { kind := 5, unit := e, at_ := s2.now }
  { s2 with resets := s2.resets ++ [r] }.restored 5 8 4 (e / 52 * 256 + e % 52)

/-- A hard event (R385, R386): the engine is reset and comes back SUSPECT, and a spare is brought in. -/
def State.hardEvent (s : State) (e : Nat) : State :=
  if !s.engineOn e && !(s.dieUp (e / 52) && (s.engine e).st == 3) then s
  else
    let s1 := s.resetEngine e 2
    match s1.bringSpare e none with | some s2 => s2 | none => s1

/-- One mismatch of an engine (R381, R385, R388, R389). -/
def State.mismatch (s : State) (e : Nat) : State :=
  let x := s.engine e
  if !inService x.st then s
  else
    let y := { x with mism := x.mism + 1, clean := 0, newly := true }
    let s1 := s.setEngine e y
    let d := e / 52
    if s.obj 0x9000 5 ≤ y.mism then s1.retireEngine e
    else if s.obj 0x9000 3 < (s.freeSpares d).length ∧ Table.get s.rel.retired 0 d < s.obj 0x9000 4 then
      let s2 := s1.setEngine e { y with st := 3 }
      { s2 with rel := { s2.rel with retired := Table.put s2.rel.retired d (Table.get s2.rel.retired 0 d + 1) } }
    else (s1.setEngine e { y with st := 2 }).flag 0x9000 8 1

/-- Whether an engine may shadow another (R380): in service and not SUSPECT, of the same partition, and on a die out of `dies` where one
such engine is. -/
def State.mayShadow (s : State) (e x : Nat) (dies : List Nat) (must : Bool) : Bool :=
  let ok := fun (v : Nat) => v != e && s.engineOn v && (s.engine v).st == 1 && (s.engine v).part == (s.engine e).part
  ok x && (!dies.contains (x / 52)
    || !must && !s.rel.engines.any (fun v => ok v.1 && !dies.contains (v.1 / 52)))

/-- Holds an item back for a vote, or lets it go. -/
def State.holdItem (s : State) (ref i : Nat) (on : Bool) : State :=
  s.modCmd ref (fun y => { y with heldItems := if on then i :: y.heldItems.filter (fun j => j != i) else y.heldItems.filter (fun j => j != i) })

/-- The self-test of an engine ends (R386). -/
def State.engineTested (s : State) (e : Nat) (ok : Bool) : State :=
  let x := s.engine e
  if x.st ≠ 5 then s
  else
    let s0 : State := { s with resets := s.resets.filter (fun (r : ResetRun) => !(r.kind == 5 && r.unit == e)) }
    match x.spareFor with
    | some v =>
      if ok then s0.setEngine e { x with st := 1, mism := 0, clean := 0, newly := false }
      else
        let s1 := (s0.setEngine e { x with st := 4, part := none, spareFor := none }).flag 0x9000 8 3
        match s1.bringSpare v x.part with
        | some s2 => s2
        | none => match x.part with | some t => s1.refillPart (e / 52) t | none => s1
    | none => if ok then s0.setEngine e { x with st := x.was, clean := 0, newly := x.was == 2 } else s0.retireEngine e

/-! ### Spares and repair of memory and wires (R383, R384, R387) -/

/-- Number of an SRAM kind. -/
def sramNum : SramKind → Nat
  | .tileBuffer => 0 | .packetBuffer => 1 | .controlCache => 2 | .paletteStore => 3

/-- Counts one error of this window at a unit's key; the count it reaches. -/
def State.countErr (s : State) (k : Nat) : Nat × State :=
  let n := Table.get s.rel.errs 0 k + 1
  (n, { s with rel := { s.rel with errs := Table.put s.rel.errs k n } })
/-- A row that is replaced starts with no errors. -/
def State.dropErr (s : State) (k : Nat) : State := { s with rel := { s.rel with errs := Table.del s.rel.errs k } }

/-! ### Loss and return of a die (R25, R311, R351, R145, R449) -/

/-- Buckets that move start with no tokens, and a die out of service holds no advance. -/
def State.moveBuckets (s : State) (old new : Nat) : State :=
  { s with buckets := s.buckets.map (fun e =>
      if bucketHome old (e.1 / 8) = bucketHome new (e.1 / 8) then (e.1, { e.2 with advances := e.2.advances.filter (fun (a : Nat × Nat) => bit new a.1) })
      else (e.1, { e.2 with tokens := 0, advances := [] })) }

/-- What a switch core held is lost with it, on its links too; their stamps start anew on both sides (R99, R107, R444). -/
def State.dropCore (s : State) (d : Nat) : State :=
  let own := (s.core d).held ++ (s.core d).tc0Wait ++ (s.core d).wires.map Prod.snd
  let wire := (List.range 8).flatMap (fun e => ((s.core e).wires.filter (fun w => w.1 == d)).map Prod.snd)
  let s1 := (List.range 8).foldl (fun (a : State) e =>
    let c := a.core e
    let fresh := fun (t : Table Nat) => t.filter (fun (k : Nat × Nat) => k.1 / 8 != d)
    a.setCore e { c with sent := fresh c.sent, expect := fresh c.expect, wires := c.wires.filter (fun w => w.1 != d) }) s
  (s1.setCore d {}).losePackets ((own ++ wire).map (fun c => c.pkt))

/-- The caching agents of a die are gone: their lines are written back where `save`, else lost with them (R153, R167). -/
def State.dropAgents (s : State) (d : Nat) (save : Bool) : State :=
  let mine := fun (a : Nat) => a != 416 && a / 52 == d
  let dirty := s.caches.filter (fun c => mine c.agent && c.st == 3)
  let s1 : State := { s with
    caches := s.caches.filter (fun (c : CLine) => !mine c.agent),
    msgs := s.msgs.filter (fun (m : CohMsg) => !mine m.agent),
    lines := s.lines.map (fun e =>
      let h := e.2
      let v := if save then (match dirty.find? (fun c => c.line == e.1) with | some c => c.val | none => h.val) else h.val
      let t := h.txn.map (fun (t : Txn) => { t with waitAgents := t.waitAgents.filter (fun a => !mine a), wbWait := t.wbWait.filter (fun a => !mine a) })
      (e.1, { h with val := v, owner := if h.owner.any mine then none else h.owner,
                     sharers := h.sharers.filter (fun b => !(b != 64 && b / 8 == d)), txn := t,
                     queue := h.queue.filter (fun (t : Txn) => !(mine t.agent && t.atom.isNone && t.view.isNone && t.kind ≤ 3)) })) }
  ((s1.lines.filter (fun e => e.2.txn.isSome)).map Prod.fst).foldl (fun (a : State) o => a.runLine o 16) s1

/-- Items of sequences that are homed on a die of this device. -/
def State.homedOn (s : State) (d : Nat) (x : Cmd) (i : Nat) : Bool :=
  match x.itemSeq i with
  | some id => (match s.homeOf (seqPos (s.tObj x.tenant 4) id) with | some h => h.dev == s.devId && h.die == d | none => false)
  | none => false

/-- A die leaves service (R25, R311), but for the map and its switch core. `save` holds where its control lines are written back. The ports of its
lane chiplet go down, what is homed there is out of reach, its items before COMMIT end. -/
def State.dieGone (s : State) (d : Nat) (save : Bool) : State :=
  if !s.dieUp d then s
  else
    let s1 := (s.cutItems (fun _ x i => s.homedOn d x i) stPhaseAborted 0).dropAgents d save
    let dies := clearBit s1.rel.dies d
    let s2 := { (s1.moveBuckets s1.rel.dies dies) with rel := { s1.rel with dies := dies } }
    let s3 := (List.range 16).foldl (fun (a : State) i =>
      if (a.flexP (16 * d + i)).st = 0 then a else a.flexDown (16 * d + i) 1) s2
    let s4 := (List.range 8).foldl (fun (a : State) i =>
      if (a.peerP (8 * d + i)).st = 0 then a else a.peerGone (8 * d + i)) s3
    let s5 := (s4.loseWrites (fun w => faSpace w.addr == 0 && faDie w.addr == d && w.away.isNone)).extentsOut (onDie d)
    let s6 : State := { s5 with groups := s5.groups.map (fun e =>
      (e.1, { e.2 with pages := e.2.pages.map (fun y => if y.2.t0.map PCopy.place = some d then (y.1, { y.2 with t0 := none }) else y) })) }
    s6.notePaths.settleAttend.settleFences

/-- A die leaves service with what its switch core held, and its points are withdrawn (R107, R304, R311). -/
def State.dieOut (s : State) (d : Nat) (save : Bool) : State :=
  if s.dieUp d then ((s.dieGone d save).dropCore d).proposeDies else s

/-- A die is retired as failed: what is backed there becomes FAILED (R145). -/
def State.dieRetire (s : State) (d : Nat) : State :=
  let s1 := s.dieOut d false
  let s2 : State := { s1 with rel := { s1.rel with retiredDies := setBit s1.rel.retiredDies d } }
  ((s2.extents.filter (fun e => onDie d e.2)).map Prod.fst).foldl State.failExt s2

/-- Copies of ranges that this device does not own under the adopted map are discarded (R449). -/
def State.discardForeign (s : State) : State :=
  if !s.fmap.member then s
  else
    let keep := fun (x : Seq) => match s.homeOf (seqPos x.fabTag x.id) with
      | some h => h.dev == s.devId || (x.partnerOf.isSome && h.partner == some s.devId)
      | none => true
    let s1 := (s.seqs.filter (fun e => e.2.closing.isNone && !keep e.2)).foldl (fun (a : State) e => a.freeSeq e.2) s
    { s1 with prefixes := s1.prefixes.filter (fun (e : PEntry) => match s.homeOf (keyPos e.key) with
        | some h => h.dev == s.devId
        | none => true) }

/-- The enabled ports of a lane chiplet start again. -/
def State.portsUp (s : State) (d : Nat) : State :=
  let s1 := (List.range 16).foldl (fun (a : State) i =>
    let p := 16 * d + i
    let x := a.flexP p
    if a.role p ≠ 0 ∧ x.st = 1 ∧ !x.stuck ∧ a.ready ∧ a.lanesUp d then a.setFlex p (a.flexTrain p x) else a) s
  (List.range 8).foldl (fun (a : State) i =>
    let q := 8 * d + i
    if a.peerOn q ∧ (a.peerP q).st ≤ 1 then a.peerStart q else a) s1

/-- Floors of the domains by subindex, 0.1 W (R38). -/
def domFloor : List Nat := List.replicate 8 240 ++ List.replicate 8 0 ++ List.replicate 4 200
/-- Domains power up: each has its floor at once, and its first arbiter epoch is to come (R42, R46). -/
def Power.powerUp (p : Power) (mask : Nat) : Power :=
  { p with domOn := p.domOn ||| mask, fresh := p.fresh ||| mask,
           grants := (List.range 20).map (fun k => if bit mask k then domFloor.getD k 0 else p.grants.getD k 0) }
/-- The domains of a die, as a mask. -/
def dieDomains (d : Nat) : Nat := 2 ^ d + 2 ^ (8 + d)

/-- The partitions of STRICT tenants on a die that comes back: what each lacks of STRICT_ENGINES there, from the common set (R340, R342). -/
def State.fillParts (s : State) (d : Nat) : State :=
  s.strictTenants.foldl (fun (a : State) t =>
    let have_ := (a.rel.engines.filter (fun e => e.1 / 52 == d && e.2.part == some t)).length
    let pick := (a.common d).take (a.tObj t 7 - have_)
    let s1 := pick.foldl (fun (b : State) e => b.setEngine e { b.engine e with part := some t }) a
    if have_ + pick.length < a.tObj t 7 then s1.flag 0x4420 1 2 else s1) s

/-- Whether the switched domains may have power: MOD_EN high, the input there, no thermal trip (R34, R37, R55). -/
def Power.powerAllowed (p : Power) : Bool := p.modEn && p.input && !p.tripped

/-- A die comes back into service with its memory kept (R145, R351, R449), its domains powered up (R42); its points are proposed at the next step
boundary. It does not while the switched domains may have no power (R34, R55). -/
def State.dieBack (s : State) (d : Nat) : State :=
  if s.dieUp d ∨ bit s.rel.retiredDies d ∨ !s.pw.powerAllowed then s
  else
    let dies := setBit s.rel.dies d
    let s1 := { (s.moveBuckets s.rel.dies dies) with rel := { s.rel with dies := dies }, pw := s.pw.powerUp (dieDomains d) }
    ((((s1.fillParts d).extentsBack (fun x => x.isHbm && faDie x.base == d)).portsUp d).discardForeign).noteLow s

end Sys2Proof.Machine
end

