-- ==== Sys2Proof/Machine/Arbiter.lean ====
section
/-! DEFINITION. The power arbiter, thermal limits and reference clocks (R35 to R57, R92). -/

namespace Sys2Proof.Machine

open Sys2Proof

/-! ### Domains (R38): lists are in order of the subindex, 1 first -/

/-- Load-side maxima, 0.1 W. -/
def domMax : List Nat := List.replicate 8 720 ++ List.replicate 4 408 ++ List.replicate 4 407 ++ List.replicate 4 1000
/-- A per-domain list with 0 for the domains that are off. -/
def onlyOn (on : Nat) (l : List Nat) : List Nat := (l.zip (List.range 20)).map (fun x => if bit on x.2 then x.1 else 0)

/-! ### The budget (R36, R40, R45, R54) -/

/-- The limit of 57.5 A below 20 V, mW (R36); none at 20 V and above. -/
def inputLimit (mv : Nat) : Option Nat := if mv < 20000 then some (575 * mv / 10) else none
/-- The reduction of B by heat, mW: 2 % of the set budget a degree above the threshold, up to a multiple of 0.1 W (R54). -/
def heatCut (setW temp th : Nat) : Nat := roundUp (20 * setW * (temp - th)) 100
/-- The effective budget B, mW. -/
def effBudget (setW mv temp th : Nat) : Nat :=
  let b := match inputLimit mv with | some l => Nat.min (1000 * setW) l | none => 1000 * setW
  if 105 ≤ temp then 300000 else if temp ≤ th then b else Nat.max 300000 (b - heatCut setW temp th)
/-- η, clamped (R40). -/
def effEta (measured old : Nat) : Nat := if measured = 0 then old else Nat.max 8800 (Nat.min 9500 measured)

/-! ### The division of R41 -/

/-- The proportional shares. -/
def shares (ex : List Nat) (left : Nat) : List Nat := let sum := sumNat ex; ex.map (fun e => e * left / sum)
/-- One unit each to the domains with excess demand, ascending, while units are left. -/
def remainder : List Nat → List Nat → Nat → List Nat
  | a :: as, e :: es, n => if 0 < n ∧ 0 < e then (a + 1) :: remainder as es (n - 1) else a :: remainder as es n
  | as, _, _ => as
/-- What the excess demands get of what is left. -/
def divide (ex : List Nat) (left : Nat) : List Nat :=
  if sumNat ex ≤ left then ex else let a := shares ex left; remainder a ex (left - sumNat a)
/-- Two lists added. -/
def addList (a b : List Nat) : List Nat := (a.zip b).map (fun x => x.1 + x.2)

/-! ### The STRICT reserve (R44, R345) -/

/-- Engines of STRICT partitions in service on a die whose engine domain is on; of one tenant where `t` names it. -/
def State.strictOn (s : State) (d : Nat) (t : Option Nat) : Nat :=
  if s.dieUp d && bit s.pw.domOn (8 + d) then
    (s.rel.engines.filter (fun e => e.1 / 52 == d && inService e.2.st && (match t with | some _ => e.2.part == t | none => e.2.part.isSome))).length
  else 0
/-- The reserve in force, 0.1 W, were it taken. -/
def State.reserve (s : State) : Nat := Nat.min (10 * s.obj 0x2000 7) (5 * s.obj 0x2000 1)
/-- The shares of PD-EN0 to PD-EN7 in a reserve of r. -/
def strictShares (n : List Nat) (r : Nat) : List Nat :=
  if sumNat n = 0 then List.replicate 8 0 else let a := shares n r; remainder a n (r - sumNat a)
/-- STRICT_POWER of a tenant: its part, by engines in service, of what the reserve grants (R345). -/
def State.strictPower (s : State) (t : Nat) : Nat :=
  let all := sumNat ((List.range 8).map (fun d => s.strictOn d none))
  let mine := sumNat ((List.range 8).map (fun d => s.strictOn d (some t)))
  if all = 0 then 0 else sumNat s.pw.strictShare * mine / all

/-! ### One epoch -/

/-- Lanes idle for the whole epoch narrow where their domain lowers its draw, or the device is in D1 (R43, R447). -/
def State.narrow (s : State) (short : Nat → Bool) (flex peer : List Nat) : State :=
  let s1 := flex.foldl (fun (a : State) p =>
    let x := a.flexP p
    if x.st = 3 ∧ short (p / 32) then a.setFlex p { x with cur := Nat.min x.cur 2 } else a) s
  peer.foldl (fun (a : State) q =>
    let y := a.peerP q
    if y.st = 4 ∧ short (q / 16) then a.setPeer q { y with cur := Nat.min y.cur 1 } else a) s1

/-- An arbiter epoch (R39 to R46). -/
def State.arbitrate (s : State) (i : ArbInput) : State :=
  let setW := s.obj 0x2000 1
  let th := s.obj 0x2000 8
  let b := effBudget setW i.mv i.temp th
  let eta := effEta i.eta s.pw.eta
  let g := b * eta / 1000000 - i.pAon - i.retention
  let maxs := onlyOn s.pw.domOn domMax
  let floors := onlyOn s.pw.domOn domFloor
  let dem := onlyOn s.pw.domOn (((List.range 20).map (fun k => if bit s.pw.fresh k then domMax.getD k 0 else i.demands.getD k 0)))
  let ex := (List.range 20).map (fun k => Nat.min (dem.getD k 0) (maxs.getD k 0) - floors.getD k 0)
  let nStrict := (List.range 8).map (fun d => s.strictOn d none)
  let r0 := if sumNat nStrict = 0 then 0 else s.reserve
  let want := sumNat floors + r0 + sumNat ex
  let newFloors := sumNat ((List.range 20).map (fun k => if bit s.pw.fresh k then floors.getD k 0 else 0))
  let ramp := s.pw.total + 10 * s.obj 0x2000 2 + newFloors
  let peakOn := s.obj 0x2000 3 == 1
  let cap := 800 * b
  let refill := if peakOn then s.pw.store + 100 * (s.pw.budget - i.inputMw) else s.pw.store
  let store := Nat.min cap refill
  let rise := if peakOn then Nat.min (Nat.min want ramp - g) (Nat.min (8 * b * eta / 100000000) (store * eta / 100000000)) else 0
  let total := Nat.min (g + rise) ramp
  let above := total - sumNat floors
  let r := Nat.min r0 above
  let left := above - r
  let share := strictShares nStrict r
  let grants := addList (addList floors (divide ex left)) (List.replicate 8 0 ++ share ++ List.replicate 4 0)
  let p1 : Power := { s.pw with
    mv := i.mv, inputMw := i.inputMw, temp := i.temp, eta := eta, budget := b, grants := grants, demands := dem, strictShare := share,
    total := sumNat grants, store := store - ceilDiv (rise * 100000000) eta, fresh := 0, enSpent := 0,
    strictSpent := [], swSpent := 0, uvWarn := s.pw.uvWarn && decide (i.mv ≤ 19500) }
  let s1 := ({ s with pw := p1 }.narrow (fun n => decide (grants.getD (16 + n) 0 < dem.getD (16 + n) 0) || s.pw.pstate == 1) i.idleFlex i.idlePeer)
  let s2 := s1.condition (decide (left < sumNat ex)) 0 0x2000 6 0
  let s3 := s2.condition (decide (ramp < Nat.min (g + rise) want)) 1 0x2000 6 1
  let s4 := s3.condition (decide (0 < rise)) 2 0x2000 6 2
  let s5 := s4.condition (decide (th ≤ i.temp)) 3 0x2000 6 3
  let s6 := s5.condition (decide (g + rise - sumNat floors < r0) || decide (5 * setW < 10 * s.obj 0x2000 7)) 4 0x2000 6 4
  let s7 := s6.condition (match inputLimit i.mv with | some l => decide (l < 1000 * setW) | none => false) 8 0x2000 10 0
  s7.sample 17 (i.inputMw / 1000) {}

/-- ARBITER_EPOCH: at the next 10 µs boundary (R39). -/
def execArbiterEpoch (inp : ArbInput) (s : State) : Res :=
  let b := (s.pw.epochAt / 10000 + 1) * 10000
  let s1 := s.atTime b
  .next ({ s1 with pw := { s1.pw with epochAt := b } }.arbitrate inp)

/-- Whether power stops an engine from issuing MAC and vector operations in this epoch: an engine of a STRICT partition gates only on its
tenant's share of the reserve on its die, another only on the rest of the grant (R43, R44, R345). -/
def State.gated (s : State) (e : Nat) : Bool :=
  match (Table.get s.rel.engines {} e).part with
  | some t => s.pw.strictSpent.contains (e / 52 * 4096 + t)
  | none => bit s.pw.enSpent (e / 52)

/-- EN_GRANT_SPENT (R43, R44, R345): the die's engines of one STRICT tenant's partition, or its others, stop issuing until the next epoch. -/
def execEnGrantSpent (g : SpentGrant) (s : State) : Res :=
  .next (if g.die < 8 ∧ bit s.pw.domOn (8 + g.die) then
      (match g.tenant with
       | some t => { s with pw := { s.pw with strictSpent := s.pw.strictSpent ++ [g.die * 4096 + t] } }
       | none => { s with pw := { s.pw with enSpent := setBit s.pw.enSpent g.die } })
    else s)

/-- SW_GRANT_SPENT (R43): the die's switch core grants only TC0 until the next epoch. -/
def execSwGrantSpent (d : Nat) (s : State) : Res :=
  .next (if d < 8 ∧ bit s.pw.domOn d then { s with pw := { s.pw with swSpent := setBit s.pw.swSpent d } } else s)

/-- LINK_WIDEN (R43, R92): to the width or the lanes it trained. -/
def execLinkWiden (isPeer : Bool) (port : Nat) (s : State) : Res :=
  .next (if isPeer then
      (if (s.peerP port).st = 4 then s.setPeer port { s.peerP port with cur := (s.peerP port).lanes } else s)
    else if (s.flexP port).st = 3 then s.setFlex port { s.flexP port with cur := (s.flexP port).width } else s)

/-- THERMAL_DERATE (R54): the hottest junction; the budget follows at the next epoch. -/
def execThermalDerate (temp : Nat) (s : State) : Res :=
  .next ({ s with pw := { s.pw with temp := temp } }.condition (decide (s.obj 0x2000 8 ≤ temp)) 3 0x2000 6 3)

/-- UNDER_VOLTAGE_WARNING (R35): V24_IN falls to 19.5 V. -/
def execUnderVoltageWarning (mv : Nat) (s : State) : Res :=
  .next (if s.pw.input ∧ 18000 < mv ∧ mv ≤ 19500 then ({ s with pw := { s.pw with mv := mv, uvWarn := true } }).flag 0x2000 10 1 else s)

/-- REFCLK_LOSS: 0 to 7 are LREFCLK0 to LREFCLK7, 8 is ROOTCLK (R51, R56). -/
def execRefclkLoss (clk : Nat) (s : State) : Res :=
  if clk = 8 then .next { s with pw := { s.pw with rootOk := false, lostClk := setBit s.pw.lostClk 8 } }
  else if 8 < clk then .next s
  else
    let s1 := (List.range 16).foldl (fun (a : State) i =>
      if (a.flexP (16 * clk + i)).st = 0 then a else a.flexDown (16 * clk + i) 1)
      { s with pw := { s.pw with lref := clearBit s.pw.lref clk, lostClk := setBit s.pw.lostClk clk } }
    .next ((List.range 8).foldl (fun (a : State) i =>
      if (a.peerP (8 * clk + i)).st = 0 then a else a.peerGone (8 * clk + i)) s1)

/-- REFCLK_RESTORED (R51): the ports of the lane chiplet may start again. Before the root die has left reset nothing shows it (R453). -/
def execRefclkRestored (clk : Nat) (s : State) : Res :=
  if 8 < clk then .next s
  else
    let s1 : State := { s with pw := { s.pw with lostClk := clearBit s.pw.lostClk clk } }
    if s.pw.stage = 0 then .next s1
    else if clk = 8 then .next { s1 with pw := { s1.pw with rootOk := true } }
    else .next ({ s1 with pw := { s1.pw with lref := setBit s1.pw.lref clk } }.portsUp clk)

end Sys2Proof.Machine
end

