-- ==== Sys2Proof/Machine/FabricMap.lean ====
section
/-! DEFINITION. Commands of the fabric map: gossip, loss, handoff, catch-up, links (R301 to R311, R393, R398). -/

namespace Sys2Proof.Machine

open Sys2Proof

/-- Every 1 ms: the epoch and proposer of the map on every ACTIVE peer port, with any RESETTING deadline (R303, R446). -/
def execMapGossipTimer (s : State) : Res :=
  match s.fmap.map with
  | some m => .next (s.emits (s.activePeers.map (fun q => .gossip q m.epoch m.proposer s.fmap.resetting)))
  | none => .next s

/-- Gossip heard on an ACTIVE port (R303): a higher epoch, or a lower proposer at the same epoch, is fetched, adopted and forwarded;
a RESETTING deadline holds back a proposal for the loss of its sender (R446). -/
def execMapGossip (q : Nat) (m : FMap) (resetting : Option Nat) (s : State) : Res :=
  if (s.peerP q).st ≠ 4 then .next s
  else
    let s1 : State := match (s.peerP q).peerDev, resetting with
      | some d, some t => { s with fmap := { s.fmap with holds := Table.put s.fmap.holds d t } }
      | _, _ => s
    let better : Bool := match s.fmap.map with
      | some o => decide (o.epoch < m.epoch ∨ (o.epoch = m.epoch ∧ m.proposer < o.proposer))
      | none => true
    .next (if better then (s1.emit (.mapFetch q)).adopt m else s1)

/-- MAP_LOSS has passed with no path to a member, and no RESETTING deadline of its stands: a map without it (R304, R446). -/
def execMapLossTimeout (dev : Nat) (s : State) : Res :=
  match Table.find s.fmap.lostAt dev with
  | some t =>
    if s.fmap.member ∧ s.members.any (fun v => v.dev == dev) ∧ dev ≠ s.devId ∧ !s.reaches dev then
      let due := Nat.max (t + s.obj 0x7200 5 * 1000000) (Table.get s.fmap.holds 0 dev)
      .next ((s.atTime due).proposeWithout dev none)
    else .next s
  | none => .next s

/-- Sequences INCOMING from a device whose partner is not yet up to date. -/
def State.incomingOpen (s : State) (src : Nat) : Bool :=
  s.seqs.any (fun e => e.2.incoming == some src && e.2.st == 3 && e.2.copy == 1)

/-- Handoff metadata, or a catch-up for a partner (R306, R309): sequences whose range the map gives this device become INCOMING and
its own partner is brought up to date; those it is the partner of are kept as copies. -/
def execHandoffReceive (src : Nat) (seqs : List SeqImage) (entries : List PrefixImage) (s : State) : Res :=
  if !s.fmap.member then .next s
  else
    let mine := fun (pos : Nat) => (s.homeOf pos).map (fun h => h.dev) == some s.devId
    let one := fun (a : State) (im : SeqImage) =>
      match a.homeOf (seqPos im.fabTag im.seqId) with
      | none => a
      | some h =>
        if h.dev = a.devId then
          let keep := match a.seq im.fabTag im.seqId with | some x => x.partnerOf.isNone && x.st != 3 | none => false
          if keep then a
          else
            let a1 := a.storeImage im (if im.missing = 0 then 3 else 5) none (some src)
            match a1.seq im.fabTag im.seqId with | some y => a1.claim y h | none => a1
        else if h.dev = src ∧ h.partner = some a.devId then a.storeImage im 1 (some src) none
        else a
    let s1 := seqs.foldl one s
    let new := (entries.filter (fun e => mine (keyPos e.key) && !s1.prefixes.any (fun y => y.key == e.key))).map
      (fun e => ({ key := e.key, gid := e.gid, domain := e.domain, digest := e.digest } : PEntry))
    let s2 : State := { s1 with prefixes := s1.prefixes ++ new }
    let took := seqs.any (fun im => mine (seqPos im.fabTag im.seqId)) || !new.isEmpty
    .next ((if took ∧ !s2.incomingOpen src then s2.emit (.handoffAck src) else s2).retryMirrors.freshViews)

/-- HANDOFF_ACK (R306). At the old owner: its metadata goes. At the new owner: its INCOMING sequences are OPEN. -/
def execHandoffAck (src : Nat) (s : State) : Res :=
  match s.fmap.handoffs.find? (fun h => h.dev == src) with
  | some h =>
    let s1 := h.seqs.foldl (fun (a : State) k => match Table.find a.seqs k with
      | some x => if x.partnerOf.isNone ∧ (x.st = 2 ∨ x.st = 5) then a.dropMeta x else a
      | none => a) s
    let away := fun (e : PEntry) => (s1.homeOf (keyPos e.key)).map (fun y => y.dev) == some src
    .next (({ s1 with prefixes := s1.prefixes.filter (fun e => !away e),
                      fmap := { s1.fmap with handoffs := s1.fmap.handoffs.filter (fun (y : Handoff) => y.dev != src) } }).emit (.handoffDrop src)).freshViews
  | none =>
    .next ({ s with seqs := s.seqs.map (fun (e : Nat × Seq) =>
      if e.2.incoming = some src ∧ e.2.st = 3 then (e.1, { e.2 with st := 1, incoming := none, ownerEpoch := s.epoch }) else e) } : State).freshViews

/-- The ranges of a handoff with sequences still MOVING, as overrides that return them (R307). -/
def State.movingBack (s : State) (h : Handoff) : List (Nat × Nat × Nat) :=
  let held := h.seqs.filterMap (fun k => (Table.find s.seqs k).bind (fun x => if x.st = 2 then some (seqPos x.fabTag x.id) else none))
  (h.ranges.filter (fun r => held.any (fun x => decide (r.1 ≤ x) && decide (x ≤ r.2)))).map (fun r => (r.1, r.2, s.devId))
/-- No HANDOFF_ACK within HANDOFF_WAIT of adopting epoch e: map e + 2, or the next one where other maps came since, returns the ranges still MOVING, of
every handoff that is late by then (R307). -/
def execHandoffTimeout (s : State) : Res :=
  match s.fmap.handoffs, s.fmap.map with
  | h :: t, some m =>
    let wait := s.obj 0x7200 8 * 1000000
    let s1 := s.atTime (t.foldl (fun (n : Nat) (y : Handoff) => Nat.min n y.at_) h.at_ + wait)
    let late := (h :: t).filter (fun y => decide (y.at_ + wait ≤ s1.now))
    let back := late.flatMap s1.movingBack
    if back.isEmpty then .next { s1 with fmap := { s1.fmap with handoffs := s1.fmap.handoffs.filter (fun y => !late.contains y) } }
    else .next ((s1.propose (Nat.max (m.epoch + 1) ((late.map (fun y => y.epoch + 2)).foldl Nat.max 0)) m.members (back ++ m.overrides)
      m.lastExpel).flag 0x7200 7 2)
  | _, _ => .next s

/-- A new partner holds every page of a sequence: MIRRORED; a HANDOFF_ACK is sent once every INCOMING sequence is (R306, R309). -/
def execCatchUpComplete (fabTag seqId : Nat) (s : State) : Res :=
  match s.seq fabTag seqId with
  | some x =>
    if x.partnerOf.isNone ∧ x.copy = 1 then
      let s1 := (s.setSeq { x with copy := 0 }).freshViews
      match x.incoming with
      | some d => .next (if x.st = 3 ∧ !s1.incomingOpen d then s1.emit (.handoffAck d) else s1)
      | none => .next s1
    else .next s
  | none => .next s

/-- A message about a group (R266, R296 to R299, R398). Where a hold of a group that is not shared ends, its pages are freed here, unless a sequence of this
device has it (R306). A publish is serialised here, at its key's home: the first one stands. -/
def execLinkMessage (k : GroupLink) (s : State) : Res :=
  match k.op with
  | .link => .next (s.modGroup k.group (fun g => if g.shared then { g with links := g.links + 1, linkedAt := s.now } else g))
  | .unlink =>
    .next (match s.group k.group with
      | some g =>
        if g.shared then s.modGroup k.group (fun g => { g with links := g.links - 1 })
        else if s.seqs.any (fun e => e.2.blocks.any (fun b => b.2.1 == k.group)) then s
        else (s.dropGroup k.group).settlePress
      | none => s)
  | .publish key domain digest =>
    let dev := groupDev k.group
    if !s.fmap.member ∨ (s.homeOf (keyPos key)).map (fun h => h.dev) ≠ some s.devId then .next s
    else .next (match s.prefixes.find? (fun e => e.key == key && e.domain == domain) with
      | some e => s.emit (.publishReply dev k.group e.gid (e.digest == digest))
      | none => (({ s with prefixes := s.prefixes ++ [{ key := key, gid := k.group, domain := domain, digest := digest }] } : State).emit
          (.publishReply dev k.group k.group true)).freshViews)
  | .evict key => .next ({ s with prefixes := s.prefixes.filter (fun e => !(e.key == key && e.gid == k.group)) } : State).freshViews

/-- A MIRROR reaches a partner (R308). -/
def execMirror (m : Mirror) (s : State) : Res := .next (s.mirrorIn m).freshViews

end Sys2Proof.Machine
end

