-- ==== Sys2Proof/Machine/Flex.lean ====
section
/-! DEFINITION. Commands of the flex ports and of the trays behind them (R58 to R68, R94). -/

namespace Sys2Proof.Machine

open Sys2Proof

/-- FLEX_PORT_ENABLE (R59). -/
def execFlexPortEnable (sid p : Nat) (s : State) : Res :=
  .next (if p < 128 then s.sessionWrite sid (0x3000 + 8 * p) 1 false (fun t => t.flexEnableOp p) else s)

/-- FLEX_PORT_DISABLE (R94). -/
def execFlexPortDisable (sid p : Nat) (s : State) : Res :=
  .next (if p < 128 then s.sessionWrite sid (0x3000 + 8 * p) 1 false (fun t => t.flexDisableOp p) else s)

/-- FLEX_LINK_TRAINED (R65, R68): of an enabled port that trains or waits to. -/
def execFlexLinkTrained (p : Nat) (partner : FlexPartner) (s : State) : Res :=
  let x := s.flexP p
  .next (if s.role p ≠ 0 ∧ s.lanesUp (p / 16) ∧ s.ready ∧ !x.stuck ∧ (x.st = 1 ∨ x.st = 2) ∧ !s.scopeBusy (.flex p) then s.flexTrained p partner else s)

/-- FLEX_LANE_FAILURE (R68): what the lanes left allow; below x2 the port stays down. -/
def execFlexLaneFailure (p width : Nat) (s : State) : Res :=
  let x := s.flexP p
  let w := widthBelow (Nat.min width x.width)
  if x.st ≠ 3 ∨ x.width ≤ width then .next s
  else if w = 0 then
    let s1 := s.flexDown p 1
    .next ((s1.setFlex p { s1.flexP p with stuck := true }).flag (0x3000 + 8 * p) 5 2)
  else
    let s1 := s.setFlex p { x with width := w, cur := Nat.min x.cur w }
    .next (if w < s.flexWidth p then s1.flag (0x3000 + 8 * p) 5 1 else s1)

/-- FLEX_LINK_DOWN (R122, R146). -/
def execFlexLinkDown (p : Nat) (s : State) : Res := .next (if (s.flexP p).st = 3 then s.flexDown p 1 else s)

/-- NVME_COMMAND_COMPLETE (R67): a Read is sampled and its move goes on; a Write counts once no volatile cache stands before it, else
once a Flush that was issued after it has completed. -/
def execNvmeCommandComplete (p cid : Nat) (ok : Bool) (s : State) : Res :=
  let x := s.flexP p
  match Table.find x.nvme cid with
  | none => .next s
  | some c =>
    let s1 := (s.setFlex p { x with nvme := Table.del x.nvme cid }).nvmeNext p
    if c.aborting then .next s1
    else if !ok then .next (s1.nvmeFail p c)
    else
      match c.op with
      | 0 => .next ((s1.sample 6 (s.now - c.issued) { flex := some p }).readDone c.page)
      | 1 =>
        if x.vcache then .next ((s1.setFlex p { s1.flexP p with unflushed := x.unflushed ++ [c.page] }).nvmeSubmit p 2 0 0)
        else .next (s1.wrote c.page)
      | 2 =>
        let done := x.unflushed.filter (fun y => c.covers.contains y)
        .next (done.foldl State.wrote (s1.setFlex p { s1.flexP p with unflushed := x.unflushed.filter (fun y => !c.covers.contains y) }))
      | _ => .next s1

/-- NVME_COMMAND_TIMEOUT (R66): 500 ms after it was issued a command counts as FAILED and is aborted. -/
def execNvmeCommandTimeout (p cid : Nat) (s : State) : Res :=
  let x := s.flexP p
  match Table.find x.nvme cid with
  | none => .next s
  | some c =>
    if c.aborting then .next s
    else
      let s1 := (s.atTime (c.issued + 500000000)).setFlex p { x with nvme := Table.put x.nvme cid { c with aborting := true } }
      .next ((s1.emit (.nvmeAbort p cid)).nvmeFail p c)

/-- NVME_ABORT_TIMEOUT (R66): a further 500 ms later the controller is reset; the third reset of a health window takes the tray out
of the pool. -/
def execNvmeAbortTimeout (p cid : Nat) (s : State) : Res :=
  let x := s.flexP p
  match Table.find x.nvme cid with
  | none => .next s
  | some c =>
    if !c.aborting then .next s
    else
      let s1 := ((s.atTime (c.issued + 1000000000)).nvmeAll p).emit (.nvmeReset p)
      let s2 := s1.setFlex p { s1.flexP p with resets := x.resets + 1 }
      .next (if 3 ≤ x.resets + 1 then s2.trayFail p else s2)

end Sys2Proof.Machine
end

