-- ==== Sys2Proof/Machine/Reliability.lean ====
section
/-! DEFINITION. Commands of reliability, admission and expulsion (R377 to R400). -/

namespace Sys2Proof.Machine

open Sys2Proof

/-! ### Shadow execution -/

/-- SHADOW_COMPARE (R379 to R381): a sampled tile of an item; equal outputs pass on, others go to a vote where a third engine is there,
or end the item. -/
def execShadowCompare (engine shadow third cmd item : Nat) (thirdAvailable equal : Bool) (s : State) : Res :=
  let d := engine / 52
  if !s.engineOn engine || !s.mayShadow engine shadow [d] false
      || (!equal && thirdAvailable && !s.mayShadow engine third [d, shadow / 52] true) then .next s
  else
    let g := (s.bump 0x9000 9 1).drawNs
    let s1 := g.2.sample 15 g.1 { die := some d }
    if equal then .next (s1.holdItem cmd item false)
    else
      let s2 := (s1.bump 0x9000 10 1).flag 0x9000 8 2
      if thirdAvailable then
        let v : Vote := { cmd := cmd, item := item, e1 := engine, e2 := shadow, e3 := third }
        .next ({ s2 with rel := { s2.rel with votes := s2.rel.votes ++ [v] } }.holdItem cmd item true)
      else .next (((s2.cutItem cmd item stFault 0x20).mismatch engine).mismatch shadow)

/-- SHADOW_VOTE (R381): `minority` is the place, 0 to 2, of the engine the other two disagree with; none where all three differ. -/
def execShadowVote (cmd item : Nat) (minority : Option Nat) (s : State) : Res :=
  match s.rel.votes.find? (fun v => v.cmd == cmd && v.item == item) with
  | none => .next s
  | some v =>
    let es := [v.e1, v.e2, v.e3]
    let s1 := ({ s with rel := { s.rel with votes := s.rel.votes.erase v } }).holdItem cmd item false
    match minority with
    | some m => .next (match es[m]? with | some e => s1.mismatch e | none => s)
    | none => .next (es.foldl State.mismatch (s1.cutItem cmd item stFault 0x20))

/-! ### Engines -/

/-- ENGINE_HARD_EVENT (R385, R386). -/
def execEngineHardEvent (e : Nat) (s : State) : Res := .next (if e < 416 then s.hardEvent e else s)

/-- ENGINE_WATCHDOG (R385): a hard event too. -/
def execEngineWatchdog (e : Nat) (s : State) : Res := .next (if e < 416 then s.hardEvent e else s)

/-- ENGINE_SELFTEST_DONE (R386). -/
def execEngineSelftestDone (e : Nat) (ok : Bool) (s : State) : Res := .next (if e < 416 then s.engineTested e ok else s)

/-- ENGINE_DRAINED (R388). -/
def execEngineDrained (e : Nat) (s : State) : Res := .next (if (s.engine e).st = 3 then s.retireEngine e else s)

/-- What a health window's end reports of other chapters: TIER_PRESSURE, DIR_RECALL_HIGH, SWEEP_BEHIND (R171, R312, R331). The sweep
could have reached a RETIRING page where it recoded fewer pages in the window than SWEEP_RATE allows. -/
def State.windowFlags (s : State) : State :=
  let r := s.rel
  let behind := decide (r.swept < s.obj 0x7500 4) && (List.range 8).any (fun d => (s.sweepList d).any (fun x =>
    match s.group x.1, s.page x.1 x.2 with | some g, some y => s.retiringPage g.tenant (setOf g.shape) y | _, _ => false))
  let s1 := if r.above.any (fun t => s.highTier t) then s.flag 0x7000 7 1 else s
  let s2 := if r.txns < 100 * r.recalls then s1.flag 0x5100 2 1 else s1
  let s3 := if behind then s2.flag 0x7500 5 2 else s2
  { s3 with rel := { s3.rel with above := (List.range 5).filter (fun t => s3.highTier t), swept := 0, txns := 0, recalls := 0 } }

/-- HEALTH_WINDOW_END (R91, R382, R388): lanes with too many symbol errors fail; counts return to 0; a SUSPECT engine with enough clean windows is IN_SERVICE again. -/
def execHealthWindowEnd (s : State) : Res :=
  let b := (s.rel.windowAt / 1000000000 + 1) * 1000000000
  let s1 := s.atTime b
  let step := fun (x : Engine) =>
    let c := if x.st = 2 ∧ x.mism = 0 ∧ !x.newly then x.clean + 1 else x.clean
    if x.st = 2 ∧ s.obj 0x9000 6 ≤ c then { x with st := 1, mism := 0, clean := 0, newly := false }
    else { x with mism := 0, clean := c, newly := false }
  let s2 : State := { s1 with
    rel := { s1.rel with windowAt := b, engines := s1.rel.engines.map (fun e => (e.1, step e.2)), retired := [], errs := [] },
    flex := s1.flex.map (fun e => (e.1, { e.2 with resets := 0 })) }
  .next ((List.range 64).foldl State.symbolWindow (s2.setObj 0x9000 11 0)).windowFlags

/-! ### Memory and wires -/

/-- A corrected error is counted and notified (R377, R422). Unit kinds are numbered as R383 lists the SRAM kinds, then HBM, then tray. -/
def State.corrected (s : State) (die kind : Nat) : State :=
  let n := (s.obj 0x9000 11 + 1) % 2 ^ 32
  (s.setObj 0x9000 11 n).notify 0x0007 (leBytes 1 die ++ leBytes 1 kind ++ zeros 2 ++ leBytes 4 n)

/-- An SRAM row is remapped to a spare of its bank; without one its bank goes out of use, and with a control-cache bank its die (R383,
R384). -/
def State.sramRow (s : State) (die : Nat) (k : SramKind) (bank : Nat) : State :=
  let key := spareKey 2 ((die * 4 + sramNum k) * 65536 + bank)
  let used := s.spareUsed key
  if used < 4 then s.setSpare key (used + 1)
  else if used = 4 then
    let out := spareKey 5 (die * 4 + sramNum k)
    let s1 := ((s.setSpare key 5).setSpare out (s.spareUsed out + 1)).noteLow s
    match k with | .controlCache => s1.dieRetire die | _ => s1
  else s

/-- An uncorrected error of data-class memory poisons the 64 bytes it hits (R65, R143, R377). -/
def State.poisonAt (s : State) (a : Nat) : State :=
  let r := (a / 64 * 64, 64)
  if s.poison.contains r then s else { s with poison := s.poison ++ [r] }

/-- A row of a stack that has no spare for it stays unrepaired: the extents there become FAILED (R384). -/
def State.rowFails (s : State) (die channel row addr : Nat) : State :=
  let s1 : State := { s with rel := { s.rel with badRows := s.rel.badRows ++ [(die, channel, row, addr)] } }
  ((s1.extents.filter (fun e => e.2.isHbm && decide (e.2.base ≤ addr) && decide (addr < e.2.base + Config.extentBytes))).map Prod.fst).foldl
    State.failExt s1

/-- MEMORY_ERROR (R65, R377, R383, R384, R387). -/
def execMemoryError (u : MemUnit) (corrected : Bool) (s : State) : Res :=
  match u with
  | .sram die k bank row =>
    let key := ((die * 4 + sramNum k) * 65536 + bank) * 65536 + row
    if corrected then
      let g := (s.corrected die (sramNum k)).countErr key
      .next (if 4 ≤ g.1 then (g.2.dropErr key).sramRow die k bank else g.2)
    else .next ((s.dropErr key).sramRow die k bank)
  | .hbm die channel bank row addr =>
    let at_ := ((die * 64 + channel) * 65536 + bank) * 2 ^ 20 + row
    let soft := 2 ^ 52 + at_
    let bad := 2 ^ 56 + at_
    if corrected then
      let g := (s.corrected die 4).countErr soft
      .next (if 8 ≤ g.1 then (g.2.dropErr soft).hbmRow die at_ else g.2)
    else
      let s0 := if faSpace addr = 0 ∧ faDie addr = die then s.poisonAt addr else s
      let s1 := (s0.countErr bad).2
      let rows := (s1.rel.errs.filter (fun e => decide (2 ^ 56 ≤ e.1) && (e.1 - 2 ^ 56) / 2 ^ 36 == die * 64 + channel)).length
      let s2 := if 4 < rows then s1.hbmChannel die channel else (s1.dropErr soft).hbmRow die at_
      let mended := s2.rel.spare != s1.rel.spare || s1.rel.moving.contains (die, channel)
      .next (if mended then s2 else s2.rowFails die channel at_ addr)
  | .channelUnreadable die channel =>
    let key := spareKey 4 die
    .next (if s.spareUsed key < 2 then
        let s1 := s.setSpare key (s.spareUsed key + 1)
        { s1 with rel := { s1.rel with moving := s1.rel.moving.erase (die, channel) } }
      else s)
  | .tray p addr =>
    .next (if corrected then s.corrected (p / 16) 5 else if faSpace addr = 1 ∧ faPort addr = p then s.poisonAt addr else s)

/-- HBM_CHANNEL_MOVE_DONE (R387). -/
def execHbmChannelMoveDone (die channel : Nat) (s : State) : Res :=
  .next { s with rel := { s.rel with moving := s.rel.moving.filter (fun m => m != (die, channel)) } }

/-- D2D_WIRE_FAULT (R383, R384): a wire from die A toward die B. -/
def execD2dWireFault (dieA dieB member : Nat) (s : State) : Res :=
  if 8 ≤ dieA ∨ 8 ≤ dieB ∨ dieA = dieB ∨ 3 ≤ member then .next s
  else
    let key := spareKey 1 ((dieA * 8 + dieB) * 4 + member)
    if s.spareUsed key < 2 then .next (s.setSpare key (s.spareUsed key + 1))
    else
      let lo := Nat.min dieA dieB
      let hi := Nat.max dieA dieB
      let out := spareKey 6 (lo * 8 + hi)
      let m := setBit (s.spareUsed out) member
      .next (if m % 8 = 7 then (s.setSpare out m).dieRetire hi else s.setSpare out m)

/-! ### Dies -/

/-- DIE_LOSS (R25, R311, R377). -/
def execDieLoss (die : Nat) (s : State) : Res := .next (if die < 8 then s.dieOut die false else s)

/-- DIE_RETURN (R449): of a die that is neither parked nor in a reset, while the switched domains have power. -/
def execDieReturn (die : Nat) (s : State) : Res :=
  .next (if die < 8 ∧ s.pw.domOn ≠ 0 ∧ !bit s.pw.parked die ∧ !s.resets.any (fun r => r.kind == 3 && r.unit == die) then s.dieBack die else s)

/-! ### Self-test and admission (R390, R396, R397, R398, R454) -/

/-- SELFTEST (R390): 1 engines in turn, 2 the full test, refused while a tenant is enabled. -/
def State.selftestOp (s : State) (v : Nat) : Nat × State :=
  if v < 1 ∨ 2 < v then (rcBadValue, s)
  else if v = 2 ∧ (s.tenantsOn ++ s.cmds.map (fun e => e.2.tenant)).any (fun t => s.tOn t || s.tBusy t) then (rcRefused, s)
  else (rcOK, { s with rel := { s.rel with selftest := some v } }.setObj 0x9000 13 1)

/-- SELFTEST. -/
def execSelftest (sid value : Nat) (s : State) : Res := .next (s.sessionWrite sid 0x9000 12 false (fun u => u.selftestOp value))

/-- ADMIT (R397). -/
def State.admitOp (s : State) (v : Nat) : Nat × State :=
  if v = 0 then (rcOK, s)
  else (rcOK, { s with rel := { s.rel with admission := 1, loaded := false, selftest := some 3 } }.setObj 0x9000 13 1)

/-- Whether a member may be reached for loading: an authenticated peer link is ACTIVE (R81, R397). -/
def State.canLoad (s : State) : Bool := !s.activePeers.isEmpty

/-- LOADING begins; with nothing reachable it is over at once (R397). -/
def State.startLoading (s : State) : State :=
  { s with rel := { s.rel with admission := if s.assigned && !s.canLoad then 4 else 3 } }

/-- SELFTEST_COMPLETE (R390, R397): the result, and an admission's next state. -/
def execSelftestComplete (failDie : Option Nat) (s : State) : Res :=
  match s.rel.selftest with
  | none => .next s
  | some k =>
    let v := match failDie with | some d => 3 + 256 * (d % 256) | none => 2 + 256 * 0xFF
    let s1 := { s with rel := { s.rel with selftest := none } }.setObj 0x9000 13 v
    if k ≠ 3 then .next s1
    else if failDie.isSome then .next ({ s1 with rel := { s1.rel with admission := 6 } }.flag 0x9000 8 6)
    else if s1.rel.admission = 1 then .next ({ s1 with rel := { s1.rel with admission := 2, selftest := some 3 } }.setObj 0x9000 13 1)
    else .next s1.startLoading

/-- A prefix group of this device's ID found in a spill area: its record is restored with no links (R300, R398). -/
def State.relink (s : State) (gid : Nat) : State :=
  match s.group gid with
  | some _ => s.modGroup gid (fun g => { g with links := 0, spill := true })
  | none =>
    let g : Group := { gid := gid, tenant := 0, domain := none, shape := { fmt := 0, dim := 0, layers := 0, heads := 0, domain := none },
                       block := 0, shared := true, spill := true }
    { s with groups := Table.put s.groups gid g }

/-- ADMIT_LOADED (R397, R398): with the groups whose spill copies its flash trays hold, and whether each can be read. -/
def execAdmitLoaded (spillGroups : List (Nat × Bool)) (s : State) : Res :=
  if s.rel.admission ≠ 3 ∨ !s.assigned then .next s
  else
    let mine := spillGroups.filter (fun g => groupDev g.1 == s.devId)
    let lost := (mine.filter (fun g => !g.2)).map Prod.fst
    let s1 := (mine.filter (fun g => g.2)).foldl (fun (a : State) g => a.relink g.1) s
    let s2 : State := { s1 with
      rel := { s1.rel with admission := 4, loaded := true },
      seqs := s1.seqs.map (fun e => if e.2.partnerOf.isNone && e.2.blocks.any (fun b => b.2.2 && lost.contains b.2.1) then (e.1, { e.2 with st := 5 }) else e) }
    .next ((s2.setObj 0x9200 8 (mine.length - lost.length)).setObj 0x9200 9 lost.length)

/-- This device as a map's member. -/
def State.asMember (s : State) : FMember := { dev := s.devId, group := s.failureGroup, dies := s.rel.dies }

/-- STEP_BOUNDARY (R304, R396, R397, R447, R454): a READY device proposes the map with itself added; a member proposes its dies where the
map has others. -/
def execStepBoundary (s : State) : Res :=
  let g := s.obj 0x9200 1 * 1000000
  let s1 := s.atTime (ceilDiv s.now g * g)
  if s1.rel.admission = 4 ∧ s1.assigned then
    let s2 : State := { s1 with rel := { s1.rel with admission := 5 } }
    match s2.fmap.map with
    | some m => .next (s2.propose (m.epoch + 1) (m.members.filter (fun v => v.dev != s2.devId) ++ [s2.asMember]) m.overrides m.lastExpel)
    | none => .next (s2.propose 1 [s2.asMember] [] none)
  else if s1.fmap.member ∧ s1.members.any (fun v => v.dev == s1.devId && v.dies != s1.rel.dies) then .next s1.proposeDies
  else .next s1

/-- EXPEL (R400): refused by the floor or the rate unless every enrolled manager signed. -/
def State.expelOp (s : State) (v : Nat) (all : Bool) : Nat × State :=
  let d := v % 512
  match s.fmap.map with
  | none => (rcRefused, s)
  | some m =>
    if !s.fmap.member ∨ d = s.devId ∨ !m.members.any (fun x => x.dev == d) then (rcRefused, s)
    else
      let few := decide (m.members.length - 1 < s.obj 0x9200 2)
      let soon := match m.lastExpel with | some t => decide (s.now < t + s.obj 0x9200 3 * 1000000000) | none => false
      if !all && (few || soon) then (rcRefused, s.flag 0x9000 8 4)
      else
        let s1 : State := { s with fmap := { s.fmap with expelling := some (d, m.epoch + 1) } }
        (rcOK, s1.proposeWithout d (some s1.now))

end Sys2Proof.Machine
end

