-- ==== Sys2Proof/Machine/SnapOps.lean ====
section
/-! DEFINITION. What becomes of snapshots (R436 to R440). -/

namespace Sys2Proof.Machine

open Sys2Proof

/-- SNAPSHOT_DROPPED of a snapshot that no READ has reached (R440). -/
def State.snapDropped (s : State) (x : Snap) (st : Nat) : State :=
  if x.read then s else (s.notify 0x01F1 (leBytes 4 x.id ++ leBytes 8 x.t ++ leBytes 1 st)).flag 0xA000 4 1

/-- A reset cancels every pending snapshot and drops every shadow (R438). -/
def State.dropSnaps (s : State) : State :=
  let gone := s.snaps.filter (fun (x : Snap) => x.st == 0 || x.st == 1)
  let s1 := gone.foldl (fun (a : State) x => a.snapDropped x (if x.st = 0 then 3 else 2)) s
  { s1 with snaps := s1.snaps.map (fun (x : Snap) => if x.st = 0 then { x with st := 3 } else if x.st = 1 then { x with st := 2, mons := [], counters := [], out := [] } else x) }

end Sys2Proof.Machine
end

