-- ==== Sys2Proof/Machine/ResetOps.lean ====
section
/-! DEFINITION. Resets, power states, loss of power and start-up (R34, R37, R55, R373, R374, R442 to R456). -/

namespace Sys2Proof.Machine

open Sys2Proof

/-! ### What every device-wide reset does (R444, R451) -/

/-- Every admitted command on a host port that is up completes with DEVICE_FAULT, reason 0x20; a refused one with its own record. -/
def State.finishAll (s : State) : State :=
  s.cmds.foldl (fun (a : State) e =>
    if !a.hostUp e.2.p then a
    else a.writeRecord e.1 (if e.2.refused.isSome then e.2 else { e.2 with whole := some stFault, reason := 0x20, stage := 0xFF }) true true) s

/-- Every management session ends (R403). -/
def State.endSessions (s : State) : State := (s.sess.map Prod.fst).foldl State.endSess s

/-- The memory of what a reset scrubs: all of HBM, and the tray extents that leave their holders; other tray bytes stay (R374, R443). -/
def State.scrubMem (s : State) : State :=
  let kept := s.extents.filter (fun e => !e.2.isHbm && (e.2.st == 4 || e.2.st == 6))
  { s with mem := s.mem.filter (fun c => faSpace c.1 == 1 && kept.any (fun e => decide (e.2.base ≤ c.1) && decide (c.1 < e.2.base + Config.extentBytes))),
           poison := [] }

/-- The extents when HBM contents are lost: none has a holder, and those of dies retired for good are FAILED (R145, R451). -/
def State.lostExtents (s : State) : Table Extent :=
  hbmExtents.map (fun e => if bit s.rel.retiredDies (faDie e.2.base) then (e.1, { e.2 with st := 6 }) else e)

/-- A MODULE reset's or a debug opening's losses: class M, W and V objects, HBM contents, grants, leases, rings, sequences, sessions and
keys (R356, R451). Lock-once objects stay through a debug opening (R372). -/
def State.wipe (s : State) (debug : Bool) : State :=
  let drop := fun (k : Nat) (c : Cls) => (c != .p) && !(debug && decide (okey 0x8000 6 ≤ k) && decide (k ≤ okey 0x8000 8))
  let s1 := s.dropSnaps.endSessions.dropObjs drop
  let ext := fun (e : Nat × Extent) => if e.2.st = 4 ∨ e.2.st = 6 then (e.1, { e.2 with holder := none, maps := [] }) else (e.1, e.2.freed)
  let up := fun (e : Nat × Engine) => (e.1, { e.2 with st := if e.2.st = 0 ∨ e.2.st = 4 then e.2.st else 1, mism := 0, clean := 0, newly := false })
  let m := s1.scrubMem
  { m with
    mem := if debug then m.mem else [],
    cores := [], ingress := [], extents := if debug then (s1.extents.filter (fun e => e.2.away.isNone)).map ext else s.lostExtents,
    trays := if debug then s1.trays else [], nextEid := if debug then s1.nextEid else 2048,
    sets := s1.sets.map (fun e => (e.1, { e.2 with versions := [], top := 0 })),
    heldMoves := [], lds := [], rrLd := [], writes := [], heldAcc := [], remote := [], heldTiles := [], lines := [], caches := [], msgs := [], fences := [], copies := [],
    recipes := [], tensors := [], cmds := [], pend := [], colls := [], seqs := [], groups := [], prefixes := [],
    fmap := { nextGroup := s1.fmap.nextGroup, nextLine := s1.fmap.nextLine }, slots := [], psets := [], buckets := [], reports := [],
    sec := { s1.sec with tenantKeys := [], sdKeys := [], nonces := [], ide := [], spdm := [], debugOpening := false,
                         fwImage := if s1.sec.fwCommitted then s1.sec.fwImage else [] },
    pieces := [], relays := [], shadows := [], mons := [],
    rel := { s1.rel with engines := s1.rel.engines.map up, votes := [], retired := [], errs := [], moving := [], selftest := none, admission := 0,
                         loaded := false },
    resets := [] }

/-- Every port of the device down: enabled ones wait to train again. -/
def State.portsDown (s : State) : State :=
  { s with flex := (List.range 128).filterMap (fun p => if s.flexOn p then some (p, ({ st := 1 } : FlexPort)) else none),
           peer := (List.range 64).filterMap (fun q => if s.peerOn q then some (q, ({ st := 1 } : PeerPort)) else none) }

/-- Power with nothing of the switched domains left but what AON keeps; POWERING begins where the module may power up (R450, R453). -/
def State.repower (s : State) : State :=
  let go := s.pw.rootOk && s.pw.modEn && s.pw.input && !s.pw.tripped && decide (2 ≤ s.pw.stage)
  let on := if go then 2 ^ 20 - 1 else 0
  let b := 1000 * s.obj 0x2000 1
  let p : Power := { mv := s.pw.mv, input := s.pw.input, modEn := s.pw.modEn, tripped := s.pw.tripped, uvWarn := s.pw.uvWarn, dbgEn := s.pw.dbgEn,
                     store := 800 * b, budget := b, epochAt := s.pw.epochAt, temp := s.pw.temp,
                     rootOk := s.pw.rootOk, lref := s.pw.lref, inputMw := s.pw.inputMw, spread := s.obj 0x2020 1,
                     stage := if go then 3 else Nat.min 2 s.pw.stage, porStart := s.pw.porStart && decide (s.pw.stage < 2), powAt := s.now,
                     modrstHigh := s.pw.modrstHigh, shortPulses := s.pw.shortPulses, lostClk := s.pw.lostClk }
  { s with pw := p.powerUp on, rel := { s.rel with dies := (List.range 8).foldl (fun m d => if bit s.rel.retiredDies d then clearBit m d else m) 0xFF } }

/-- A MODULE reset (R443, R450). -/
def State.moduleReset (s : State) : State :=
  let s1 := (((s.finishAll.wipe false).portsDown).repower).flag 0x1010 5 1
  let r : ResetRun := { kind := 1, unit := 0, at_ := s.now }
  { s1 with resets := [r] }.restored 1 14 0 0

/-- POR: everything but what R452 keeps starts from nothing; the model's own queue, record and counters go on. -/
def State.porReset (s : State) (mv straps : Nat) (dbg : Bool) : State :=
  let z := State.reset
  let n := if s.sec.fwCommitted then s.sec.fwLoaded + 1 else s.sec.fwLoaded
  { z with
    pending := s.pending, out := s.out,
    objs := (let o := s.objs.filter (fun e => nonvolatile e.1); if straps % 16 = 0 then o else Table.put o (okey 0x1000 6) (straps % 16)),
    blobs := s.blobs.filter (fun e => nonvolatile e.1),
    pw := { z.pw with mv := mv, modEn := s.pw.modEn, dbgEn := dbg, spread := s.obj 0x2020 1, shortPulses := s.pw.shortPulses, lostClk := s.pw.lostClk },
    sets := s.sets.map (fun e => (e.1, { e.2 with versions := [], top := 0 })),
    fmap := { nextGroup := s.fmap.nextGroup },
    sec := { z.sec with drbg := s.sec.drbg, nextNonce := s.sec.nextNonce, fwLoaded := n, aliasKey := aliasKeyOf deviceIdKey n false,
                        aliasCert := Config.issuedCert deviceIdKey (aliasKeyOf deviceIdKey n false) s.sec.drbg false },
    nextSid := s.nextSid, nextCmd := s.nextCmd, nextWid := s.nextWid, rel := { z.rel with hard := s.rel.hard }, freeCtr := s.freeCtr }

/-- The input is off (R37): nothing runs until it returns, and recovery is a POR. -/
def State.powerOff (s : State) (mv : Nat) : State :=
  let s1 := s.endSessions.porReset mv 0 false
  { s1 with pw := { s1.pw with input := false } }

/-- The 20 switched domains go off with no quiesce (R34, R55): ports down, cores empty, a debug opening or another reset over. -/
def State.domainsOff (s : State) : State :=
  let s1 := (List.range 128).foldl (fun (a : State) p => if (a.flexP p).st = 0 then a else a.flexDown p 1) s
  let s2 := (List.range 64).foldl (fun (a : State) q =>
    if (a.peerP q).st = 0 then a else a.peerGone q) s1
  { s2 with
    cores := [], resets := [], sec := { s2.sec with debugOpening := false },
    pw := { s2.pw with domOn := 0, fresh := 0, grants := List.replicate 20 0, demands := List.replicate 20 0, strictShare := List.replicate 8 0,
                       total := 0, pwrOk := false, trans := none, stage := Nat.min 2 s2.pw.stage } }

/-! ### Start-up (R453) -/

/-- The points of the timeline, in order, each at its time. -/
def State.startup (s : State) (testOk : Bool) : State :=
  let ms := 1000000
  let goTo := fun (u : State) (k : Nat) => { u with pw := { u.pw with stage := k } }
  if !s.pw.input then s
  else match s.pw.stage with
  | 0 => goTo { s with pw := { s.pw with rootOk := !bit s.pw.lostClk 8, lref := 0xFF - s.pw.lostClk % 256 } } 1
  | 1 =>
    let s1 := goTo (s.atTime (42 * ms)) 2
    if s.pw.porStart then s1.openClaim else s1
  | 2 =>
    if s.pw.modEn ∧ s.pw.rootOk ∧ !s.pw.tripped then
      let s1 := if s.pw.porStart then s.atTime (47 * ms) else s
      goTo { s1 with pw := { s1.pw.powerUp (2 ^ 20 - 1) with powAt := s1.now } } 3
    else s
  | 3 => let s1 := s.atTime (s.pw.powAt + 12 * ms); goTo { s1 with pw := { s1.pw with pwrOk := true } } 4
  | 4 =>
    let s1 := goTo (s.atTime (s.pw.powAt + 100 * ms)) 5
    (List.range 64).foldl (fun (a : State) q => if a.peerOn q then a.peerStart q else a) s1
  | 5 =>
    let s0 := if s.resets.any (fun (r : ResetRun) => r.kind == 1) then s.atTime s.pw.modrstHigh else s
    let s1 : State := { s0 with resets := s0.resets.filter (fun (r : ResetRun) => r.kind != 1) }
    if testOk then
      let s2 := goTo (if s1.sec.debugOpen then s1 else s1.tenantsOn.foldl State.giveKey s1) 6
      (List.range 8).foldl (fun (a : State) d => if a.dieUp d then a.portsUp d else a) s2
    else goTo s1 7
  | _ => s

/-! ### Resets of parts (R442 to R446) -/

/-- A logical device's rings and BAR2 registers return to reset; its lease stays (R451). -/
def Ld.dropRegs (d : Ld) : Ld :=
  { expiry := d.expiry, lease := d.lease, graced := d.graced, offline := d.offline, viewCut := d.viewCut, lostW := d.lostW, tdi := d.tdi }

/-- Class V objects and monitors in a reset's scope return to their defaults (R425, R432). -/
def State.dropScope (s : State) (r : ResetRun) (classW : Bool) : State :=
  let s1 := s.dropObjs (fun k c => (c == .v || (classW && c == .w)) && r.covers (objScope k))
  let mine := fun (m : Nat) =>
    let v := s.obj (0xA100 + m) 1
    match v % 16 with
    | 1 => r.covers (.die (bits v 27 16))
    | 2 => r.covers (.flex (bits v 27 16))
    | 3 => r.covers (.peer (bits v 27 16))
    | _ => false
  { s1 with mons := s1.mons.filter (fun e => !mine e.1) }

/-- The rings of a port taken down end with no record (R444), its BAR2 registers and donors go. -/
def State.dropPortRings (s : State) (p : Nat) : State :=
  let gone := (s.cmds.filter (fun e => e.2.p == p)).map Prod.fst
  let s1 : State := { s with cmds := s.cmds.filter (fun e => e.2.p != p), pend := s.pend.filter (fun (q : PendItem) => !gone.contains q.cmd) }
  let s2 := if s.role p = 1 then s1.dropDonors p else s1
  { s2 with lds := s2.lds.map (fun e => if e.1 / 16 = p then (e.1, e.2.dropRegs) else e) }

/-- Whether a power transition or a parked die covers a die (R445, R448). -/
def State.parkedDie (s : State) (d : Nat) : Bool :=
  bit s.pw.parked d || (match s.pw.trans with | some (t, m) => (t == 2 || t == 3) && bit m d | none => false)

/-- Rank of a reset kind, widest first (R445). -/
def resetRank (k : Nat) : Nat := if k = 6 then 0 else k
/-- Whether the scopes of two resets meet. -/
def ResetRun.meets (r n : ResetRun) : Bool :=
  match n.kind with
  | 1 => true
  | 6 => true
  | 2 => r.kind ≤ 3 || r.kind == 5 || r.kind == 6 || (r.kind == 4 && decide (256 ≤ r.unit))
  | 3 => (r.kind == 2) || r.covers (.die n.unit) || n.covers (
      match r.kind with | 4 => (if 256 ≤ r.unit then .peer (r.unit - 256) else .flex r.unit) | 5 => .engine r.unit | _ => .device)
  | 4 => r.covers (if 256 ≤ n.unit then .peer (n.unit - 256) else .flex n.unit)
  | _ => r.covers (.engine n.unit)

/-- Starts a reset: the narrower ones that run in its scope end as part of it (R445). -/
def State.beginReset (s : State) (r : ResetRun) : State :=
  { s with resets := s.resets.filter (fun x => !(decide (resetRank r.kind < resetRank x.kind) && x.meets r)) ++ [r] }

/-- A DIE reset (R443, R444): the rings of the ports on its lane chiplet go, the die leaves service with its stack's contents kept. -/
def State.dieReset (s : State) (d : Nat) : State :=
  let r : ResetRun := { kind := 3, unit := d, at_ := s.now }
  let s1 := (s.beginReset r).dieOut d true
  let s2 := (List.range 16).foldl (fun (a : State) i => a.dropPortRings (16 * d + i)) s1
  (s2.dropScope r true).restored 3 12 1 d

/-- A PORT reset (R443): held cells, sessions, rings. -/
def State.portReset (s : State) (isPeer : Bool) (port : Nat) : State :=
  let r : ResetRun := { kind := 4, unit := if isPeer then port + 256 else port, at_ := s.now }
  let s0 := s.beginReset r
  let d := if isPeer then port / 8 else port / 16
  let x := if isPeer then 16 + port % 8 else port % 16
  let co := s0.core d
  let gone := (co.held ++ co.tc0Wait).filter (fun c => c.inp == x)
  let s1 := (s0.setCore d { co with cells := co.cells.filter (fun c => c.inp != x), egress := co.egress.filter (fun c => c.inp != x),
                                      tc0Wait := co.tc0Wait.filter (fun c => c.inp != x) }).losePackets (gone.map (fun c => c.pkt))
  let s2 : State := { s1 with ingress := Table.del s1.ingress (if isPeer then 128 + port else port),
                              heldAcc := s1.heldAcc.filter (fun h => isPeer || h.p != port) }
  let s3 := if isPeer then (if s2.peerOn port then s2.peerDrop port 1 else s2)
    else ((if s2.flexOn port then s2.flexDown port 1 else s2).dropSpdm false port).dropPortRings port
  (s3.dropScope r false).restored 4 8 (if isPeer then 3 else 2) port

/-- A WARM reset (R443, R444, R446): RESETTING is gossiped, admitted work ends with PHASE_ABORTED, cells and records go, links authenticate
again. -/
def State.warmReset (s : State) : State :=
  let until_ := s.now + s.obj 0xB000 3 * 1000000
  let g := s.activePeers.map (fun q => Output.gossip q s.epoch (match s.fmap.map with | some m => m.proposer | none => 0) (some until_))
  let r : ResetRun := { kind := 2, unit := 0, at_ := s.now }
  let s0 : State := { s with fmap := { s.fmap with resetting := some until_ } }
  let s1 := (s0.dropSnaps.emits g).beginReset r
  let s2 := (s1.abortPend (fun _ => true)).cmds.foldl (fun (a : State) e => if e.2.refused.isSome then a else a.failCmd e.1 stPhaseAborted 0)
    (s1.abortPend (fun _ => true))
  let s3 := (s2.colls.filter (fun r => r.abortedAt.isNone)).foldl (fun (a : State) r => a.abortRec r) s2
  let s4 := (List.range 8).foldl (fun (a : State) d => (a.dropAgents d true).dropCore d) s3
  let s5 := (s4.activePeers).foldl (fun (a : State) q => (a.peerDrop q 3).authStart q) s4
  let s6 := s5.dropObjs (fun _ c => c == .v || c == .w)
  { s6 with buckets := [], ingress := [], mons := [], shadows := [], copies := [] }.restored 2 12 0 0

/-- The end of a WARM reset: leases move later by its duration (R446). -/
def State.warmDone (s : State) (since : Nat) : State :=
  { s with lds := s.lds.map (fun e => (e.1, e.2.moveExpiry (s.now - since) s.now)) }

/-! ### Debug opening (R373 to R375) -/

/-- Steps 1 to 3 of R374. -/
def State.debugStart (s : State) : State :=
  let s0 := s.notify 0x0006 []
  let s1 := ((s0.beginReset { kind := 6, unit := 0, at_ := s.now })).finishAll
  let s2 : State := { s1 with
    cmds := [], pend := [], sec := { s1.sec with debugOpening := true, nonces := [] },
    ingress := (List.range 192).map (fun k => (k, ({ st := 1 } : IngressSt))) }
  let s3 := (s2.lds.map Prod.fst).foldl (fun (a : State) k => a.tdiErr (k / 16) (k % 16)) s2
  (s3.extents.map Prod.fst).foldl (fun (a : State) e => a.revoke e false true) s3

/-- Steps 4 to 7 of R374. Trays that are up get new IDE keys (DESIGN CHOICE). -/
def State.debugFinish (s : State) : State :=
  let s1 := match s.fmap.map with
    | some m => if s.fmap.member then s.propose (m.epoch + 1) (m.members.map (fun (v : FMember) => if v.dev = s.devId then { v with dies := 0 } else v))
        m.overrides m.lastExpel else s
    | none => s
  let later := s1.resets.any (fun r => r.kind == 1)
  let s2 := s1.wipe true
  let s3 := (List.range 64).foldl (fun (a : State) q => a.setObj (0x3800 + 8 * q) 1 0) { s2 with peer := [] }
  let k := aliasKeyOf s3.sec.deviceKey s3.sec.fwLoaded true
  let cert := Config.issuedCert s3.sec.deviceKey k s3.sec.drbg true
  let s4 := ({ s3 with sec := { s3.sec with debugOpen := true, aliasKey := k, aliasCert := cert } }).flag 0x1010 5 2
  let s5 := (((List.range 128).filter (fun p => (s4.flexP p).st == 3 && (s4.flexP p).ide)).foldl State.trayIde s4).restored 6 14 0 0
  if later then s5.moduleReset else s5

/-! ### RESET_REQUEST (R442, R445, R456) -/

/-- What a reset request names. -/
def resetOf (v : Nat) (now : Nat) : ResetRun :=
  let k := v % 16
  { kind := k, at_ := now,
    unit := if k = 3 then bits v 10 8 else if k = 4 then bits v 22 16 + (if bit v 23 then 256 else 0) else if k = 5 then 52 * bits v 10 8 + bits v 22 16 else 0 }

/-- Whether a request's fields are in range. -/
def resetForm (v : Nat) : Bool :=
  let k := v % 16
  decide (1 ≤ k) && decide (k ≤ 6) && decide (v ||| 0x00FF070F = 0x00FF070F)
    && (k != 5 || decide (bits v 22 16 < 52)) && (k != 4 || !bit v 23 || decide (bits v 22 16 < 64))

/-- Whether a request's write needs a quorum (R417). -/
def resetSigned (v : Nat) : Bool := [1, 2, 3, 6].contains (v % 16)

/-- A RESET_REQUEST that has what quorum it needs. -/
def State.resetOp (s : State) (v : Nat) : Nat × State :=
  let r := resetOf v s.now
  let die := if r.kind = 3 then r.unit else if r.kind = 5 then r.unit / 52 else if 256 ≤ r.unit then (r.unit - 256) / 8 else r.unit / 16
  if !resetForm v then (rcBadValue, s)
  else if r.kind ≠ 1 ∧ !s.pw.powerAllowed then (rcRefused, s.flag 0xB000 4 0)
  else if r.kind = 6 ∧ s.locked 6 then (rcLocked, s)
  else if r.kind = 5 ∧ s.resets.any (fun x => x.kind == 5 && x.unit == r.unit) then (rcOK, s)
  else if s.resets.any (fun x => decide (resetRank x.kind ≤ resetRank r.kind) && x.meets r) then (rcBusy, s)
  else if r.kind = 6 ∧ !s.pw.dbgEn ∨ (r.kind = 3 ∨ r.kind = 4 ∨ r.kind = 5) ∧ s.parkedDie die
      ∨ r.kind = 3 ∧ (!s.dieUp ((die + 4) % 8) ∨ s.parkedDie ((die + 4) % 8)) then (rcRefused, s.flag 0xB000 4 0)
  else
    match r.kind with
    | 1 => (rcOK, s.moduleReset)
    | 2 => (rcOK, s.warmReset)
    | 3 => (rcOK, s.dieReset r.unit)
    | 4 => (rcOK, s.portReset (bit v 23) (bits v 22 16))
    | 5 => (rcOK, s.resetEngine r.unit (s.engine r.unit).st)
    | _ => (rcOK, s.debugStart)

/-- A reset in progress ends. -/
def State.resetEnd (s : State) (r : ResetRun) : State :=
  let s1 : State := { s with resets := s.resets.filter (fun x => x != r) }
  match r.kind with
  | 1 => if s.pw.stage = 6 ∨ s.pw.stage = 7 then s1 else s
  | 2 => s1.warmDone r.at_
  | 3 =>
    let s2 : State := { s1 with rel := { s1.rel with engines := s1.rel.engines.map (fun e =>
      if e.1 / 52 = r.unit ∧ e.2.st ≠ 0 ∧ e.2.st ≠ 4 then (e.1, { e.2 with st := 1, mism := 0, clean := 0, newly := false }) else e) } }
    s2.dieBack r.unit
  | 4 =>
    if 256 ≤ r.unit then (if s1.peerOn (r.unit - 256) then s1.peerStart (r.unit - 256) else s1)
    else
      let x := s1.flexP r.unit
      if s1.role r.unit ≠ 0 ∧ x.st = 1 ∧ !x.stuck ∧ s1.ready ∧ s1.lanesUp (r.unit / 16) then s1.setFlex r.unit (s1.flexTrain r.unit x) else s1
  | 5 => s.engineTested r.unit true
  | _ => s.debugFinish

/-! ### Power states (R447 to R449) -/

/-- A power request is refused, with STATE_REFUSED. -/
def State.stateRefused (s : State) : Nat × State := (rcRefused, s.flag 0xB000 4 1)

/-- POWER_REQUEST for D0. -/
def State.powerD0Op (s : State) : Nat × State :=
  if !s.resets.isEmpty ∨ s.pw.trans.isSome then (rcBusy, s)
  else if s.pw.pstate = 3 ∨ s.pw.parked ≠ 0 then (rcOK, { s with pw := { s.pw with trans := some (0, 0) } })
  else (rcOK, { s with pw := { s.pw with pstate := 0 } })

/-- POWER_REQUEST for D1. -/
def State.powerD1Op (s : State) : Nat × State :=
  if !s.resets.isEmpty ∨ s.pw.trans.isSome then (rcBusy, s)
  else if s.pw.pstate = 3 ∨ s.pw.parked ≠ 0 then s.stateRefused
  else (rcOK, { s with pw := { s.pw with pstate := 1 } })

/-- POWER_REQUEST for D2 with the dies parked after it. -/
def State.powerD2Op (s : State) (mask : Nat) : Nat × State :=
  let bad := (List.range 8).any (fun d => bit mask d && (bit mask ((d + 4) % 8) || (!s.dieUp d && !bit s.pw.parked d)))
  if !s.resets.isEmpty ∨ s.pw.trans.isSome then (rcBusy, s)
  else if s.pw.pstate ≠ 0 ∨ mask = 0 ∨ bad then s.stateRefused
  else
    let out := (List.range 8).filter (fun d => bit mask d && s.dieUp d)
    let s1 := (out.foldl (fun (a : State) d => a.dieGone d true) s)
    let s2 := if out.isEmpty then s1 else s1.proposeDies
    (rcOK, { s2 with pw := { s2.pw with trans := some (2, mask) } })

/-- POWER_REQUEST for D3: admission stops, ingresses quiesce, the device's points are withdrawn, lease timers stand. -/
def State.powerD3Op (s : State) : Nat × State :=
  if !s.resets.isEmpty ∨ s.pw.trans.isSome then (rcBusy, s)
  else if s.pw.pstate = 3 then s.stateRefused
  else
    let s1 : State := { s with ingress := (List.range 192).map (fun k => (k, { s.ingressAt k with st := Nat.max 1 (s.ingressAt k).st })),
                               pw := { s.pw with trans := some (3, 0xFF), d3At := some s.now } }
    match s1.fmap.map with
    | some m => (rcOK, if s1.fmap.member then s1.propose (m.epoch + 1) (m.members.map (fun (v : FMember) => if v.dev = s1.devId then { v with dies := 0 } else v))
        m.overrides m.lastExpel else s1)
    | none => (rcOK, s1)

/-- POWER_REQUEST as a value (R456); D2 and D3 need a quorum (R417). -/
def State.powerOp (s : State) (v : Nat) : Nat × State :=
  if v ||| 0xFF03 ≠ 0xFF03 then (rcBadValue, s)
  else match v % 4 with
    | 0 => s.powerD0Op
    | 1 => s.powerD1Op
    | 2 => s.powerD2Op (v / 256)
    | _ => s.powerD3Op
/-- Whether a power request needs a quorum. -/
def powerSigned (v : Nat) : Bool := decide (2 ≤ v % 4)

/-- A die's domains go off, and what its switch core still held is lost: the class V objects of its scope go, its class W ones are saved (R447, R451). -/
def State.dieOff (s : State) (d : Nat) : State :=
  let r : ResetRun := { kind := 3, unit := d, at_ := s.now }
  let s1 := (List.range 16).foldl (fun (a : State) i => a.dropPortRings (16 * d + i)) s
  let s2 := ((s1.dropScope r false).restored 7 8 1 d).dropCore d
  { s2 with pw := { s2.pw with domOn := clearBit (clearBit s2.pw.domOn d) (8 + d), fresh := clearBit (clearBit s2.pw.fresh d) (8 + d),
                                grants := (s2.pw.grants.set d 0).set (8 + d) 0, demands := (s2.pw.demands.set d 0).set (8 + d) 0 } }

/-- A die's domains go on, it passes its engines' test and enters service. -/
def State.dieOn (s : State) (d : Nat) : State :=
  let s1 : State := { s with pw := { s.pw.powerUp (dieDomains d) with parked := clearBit s.pw.parked d } }
  s1.dieBack d

/-- The end of an entry or an exit (R447, R449); nothing powers up while MOD_EN is low, the input is off or a trip stands (R34, R37, R55). -/
def State.transEnd (s : State) : State :=
  if !s.pw.powerAllowed then s
  else match s.pw.trans with
  | none => s
  | some (2, mask) =>
    let back := (List.range 8).filter (fun d => bit s.pw.parked d && !bit mask d)
    let s1 := ((List.range 8).filter (fun d => bit mask d && !bit s.pw.parked d)).foldl State.dieOff s
    let s2 := back.foldl State.dieOn { s1 with pw := { s1.pw with parked := mask, trans := none } }
    { s2 with pw := { s2.pw with parked := mask } }
  | some (3, _) =>
    if !s.cmds.isEmpty then s
    else
      let s1 := s.diesUp.foldl (fun (a : State) d => a.dieGone d true) s
      let s2 := (List.range 8).foldl State.dieOff s1
      let s3 := s2.dropObjs (fun k c => c == .v && objScope k != .device)
      { s3 with pw := { s3.pw with
                  domOn := 0, fresh := 0, grants := List.replicate 20 0, demands := List.replicate 20 0, total := 0, pstate := 3, parked := 0xFF,
                  trans := none, pwrOk := false },
                buckets := [], mons := s3.mons.filter (fun e => s3.obj (0xA100 + e.1) 1 % 16 == 0) }.restored 7 8 0 0
  | some _ =>
    let lanes := if s.pw.pstate = 3 then 0xF0000 else 0
    let s0 : State := { s with pw := { s.pw.powerUp lanes with trans := none, pstate := 0, pwrOk := true } }
    let s1 := ((List.range 8).filter (fun d => bit s.pw.parked d)).foldl State.dieOn s0
    if s.pw.pstate = 3 then
      let d := match s.pw.d3At with | some t => s.now - t | none => 0
      { s1 with ingress := [], pw := { s1.pw with d3At := none },
                lds := s1.lds.map (fun e => (e.1, e.2.moveExpiry d s1.now)) }
    else s1

end Sys2Proof.Machine
end

