-- ==== Sys2Proof/Machine/Tenants.lean ====
section
/-! DEFINITION. Commands of tenants, shapers, reports and logical devices (R335 to R353). -/

namespace Sys2Proof.Machine

open Sys2Proof

/-- The tenant that TENANT_SELECT names (R355). -/
def State.tenantSel (s : State) : Nat := s.obj 0x4400 1 % 4096

/-- TENANT_ENABLE (R341). -/
def execTenantEnable (sid : Nat) (s : State) : Res :=
  .next (s.sessionWrite sid 0x4400 2 false (fun u => u.tenantEnableOp u.tenantSel))

/-- TENANT_DISABLE (R338). -/
def execTenantDisable (sid : Nat) (s : State) : Res :=
  .next (s.sessionWrite sid 0x4400 2 false (fun u => u.tenantDisableOp u.tenantSel))

/-- SHAPER_REFILL (R347, R348): the next µs boundary; what has its tokens now goes on in arrival order. -/
def execShaperRefill (s : State) : Res :=
  let b := (s.refillAt / 1000 + 1) * 1000
  let s1 := ({ s.atTime b with refillAt := b }).refillAll b
  .next s1.releaseHeld.releaseTiles.releaseMoves.sampleFree

/-- SHAPE_WRITE (R350): of the tenant selected. -/
def execShapeWrite (sid sub value : Nat) (s : State) : Res :=
  .next (if sub < 1 ∨ 10 < sub then s
    else s.sessionWrite sid 0x4410 sub false (fun u =>
      match objRow 0x4410 sub with
      | some r => if r.vals.ok value then u.shapeOp u.tenantSel sub value else (rcBadValue, u)
      | none => (rcNoObject, u)))

/-- REPORT_WINDOW_END (R353). -/
def execReportWindowEnd (s : State) : Res :=
  let b := (s.reportAt / 10000000 + 1) * 10000000
  let s1 := { s.atTime b with reportAt := b }
  .next { s1 with reports := (List.range 4096).map (fun t => (t, s1.closeReport t b)) }

/-- LD_ENABLE (R344). -/
def execLdEnable (sid p l : Nat) (s : State) : Res :=
  .next (if p < 128 ∧ l < 16 then s.sessionWrite sid (0x5400 + p) (8 * l + 1) false (fun u => u.ldEnableOp p l) else s)

/-- LD_DISABLE (R148). -/
def execLdDisable (sid p l : Nat) (s : State) : Res :=
  .next (if p < 128 ∧ l < 16 then s.sessionWrite sid (0x5400 + p) (8 * l + 1) false (fun u => u.ldDisableOp p l) else s)

end Sys2Proof.Machine
end

