-- ==== Sys2Proof/Machine/Dict.lean ====
section
/-! DEFINITION. What the objects of the dictionary read: every object is stored, or computed from the state it reports (R26, R57, R94 to
R96, R117, R147, R148, R171, R208, R239, R261, R312, R334, R355, R376, R401, R427, R441, R456). -/

namespace Sys2Proof.Machine

open Sys2Proof

/-! ### Selectors and blocks -/

/-- The instance that a selector names. -/
def State.instOf (s : State) : Sel → Nat
  | .tenant => s.obj 0x4400 1 % 4096
  | .kvTenant => s.obj 0x7300 1 % 4096
  | .domain => s.obj 0x7300 6 % 1024
  | .palTenant => s.obj 0x7400 1 % 4096
  | .sdKey => s.obj 0x8200 1 % 1024
  | .tkTenant => s.obj 0x8300 1 % 4096
  | .tdi => s.obj 0x8400 1 % 2048
  | .block => s.objI 0x1010 1 0
  | .none => 0

/-- The key under which the object a selector names is stored. -/
def State.keyOf (s : State) (r : ORow) (idx sub : Nat) : Nat :=
  match r.sel with | .none => okey idx sub | x => ikey (okey idx sub) (s.instOf x)

/-- The block that owns an RWD object (R26, R94, R95, R117, R148, R335, R312): 0 the peer links together, then the flex ports, the peer
ports, the logical devices, the tenants. Block numbers are the model's. -/
def State.blockOf (s : State) (idx sub : Nat) : Nat :=
  if 0x3000 ≤ idx ∧ idx < 0x3400 then 1 + (idx - 0x3000) / 8
  else if 0x3800 ≤ idx ∧ idx < 0x3A00 then 129 + (idx - 0x3800) / 8
  else if 0x4100 ≤ idx ∧ idx < 0x4180 then 1 + (idx - 0x4100)
  else if 0x4180 ≤ idx ∧ idx < 0x41C0 then 129 + (idx - 0x4180)
  else if 0x5400 ≤ idx ∧ idx < 0x5480 then 193 + ldKey (idx - 0x5400) ((sub - 1) / 8)
  else if idx = 0x4400 then 2241 + s.tenantSel
  else 0

/-- Whether a block counts as enabled (R413). -/
def State.blockOn (s : State) (b : Nat) : Bool :=
  if b = 0 then (List.range 64).any (fun q => s.peerOn q)
  else if b < 129 then s.flexOn (b - 1)
  else if b < 193 then s.peerOn (b - 129)
  else if b < 2241 then s.ldOn ((b - 193) / 16) ((b - 193) % 16)
  else s.tOn (b - 2241) || s.tBusy (b - 2241)

/-! ### Numbers -/

/-- SYNC_STATUS (R96). -/
def TimeBase.syncReg (t : TimeBase) : Nat :=
  t.root * 2 ^ 23 + t.hops * 2 ^ 18 + (match t.upstream with | some q => q * 2 ^ 12 + 2 ^ 11 | none => 0) + t.state
/-- LINK_STATUS of a flex port (R94); a link that is not up has no rate or width. -/
def FlexPort.linkReg (x : FlexPort) : Nat := if x.st = 3 then x.rate * 2 ^ 24 + x.width * 2 ^ 16 + 3 else x.st
/-- LINK_STATUS of a peer port (R95). -/
def PeerPort.linkReg (y : PeerPort) : Nat :=
  let held := y.st == 3 || y.st == 4 || y.st == 5
  (if held then (match y.peerDev with | some d => d * 2 ^ 23 | none => 0) + y.cur * 2 ^ 20 else 0) + y.spares * 2 ^ 18 + y.st
/-- STARTUP_STATE of a stage (R453, R456). -/
def startupState (stage : Nat) : Nat := if stage ≤ 2 then 0 else stage - 2
/-- POWER_STATE: D2 while any die is parked (R447). -/
def State.powerState (s : State) : Nat := if s.pw.pstate = 3 then 3 else if s.pw.parked ≠ 0 then 2 else s.pw.pstate
/-- The kind of the widest reset in progress, 0 for none (R456). -/
def State.resetKind (s : State) : Nat :=
  match sortOn (fun (r : ResetRun) => resetRank r.kind) s.resets with | r :: _ => r.kind | [] => 0
/-- ENGINE_STATE (R401). -/
def Engine.reg (e : Engine) : Nat := e.st + (match e.part with | some t => 8 + t * 16 | none => 0)
/-- Whether some view on a flex port is cut (R170). -/
def State.viewCutOn (s : State) (p : Nat) : Bool := s.lds.any (fun e => e.1 / 16 == p && e.2.viewCut)

/-- The management ports are up from their point of the start-up timeline on (R402, R453). -/
def State.mgmtUp (s : State) : Bool := s.pw.input && decide (2 ≤ s.pw.stage)

/-- Power, clocks, identity. -/
def State.numA (s : State) (idx sub : Nat) : Option Nat :=
  match idx with
  | 0x1000 =>
    if sub = 1 then some (Config.vendorId % 65536) else if sub = 4 then some (Config.serial % 2 ^ 64)
    else if sub = 8 then some s.rel.dies else if sub = 10 then some s.enginesActive else none
  | 0x2000 =>
    if sub = 4 then some (s.pw.inputMw % 2 ^ 32) else if sub = 5 then some (s.pw.mv % 65536) else if sub = 9 then some (s.pw.temp % 256) else none
  | 0x2010 => some (domMax.getD (sub - 1) 0)
  | 0x2011 => some (s.pw.grants.getD (sub - 1) 0)
  | 0x2012 => some (s.pw.demands.getD (sub - 1) 0)
  | 0x2020 =>
    if sub = 2 then some s.pw.spread else if sub = 3 then some (if s.pw.rootOk then 3 else 0) else if sub = 4 then some s.pw.lref else none
  | 0x3A00 => if sub = 1 then some s.tb.syncReg else if sub = 2 then some (ofSigned 32 s.tb.offset) else none
  | 0x3C00 => if sub = 4 then some (if s.mgmtUp then 3 else 0) else if sub = 5 then some s.sess.length else none
  | _ =>
    if 0x3000 ≤ idx ∧ idx < 0x3400 ∧ sub = 4 then some (s.flexP ((idx - 0x3000) / 8)).linkReg
    else if 0x3800 ≤ idx ∧ idx < 0x3A00 ∧ sub = 3 then some (s.peerP ((idx - 0x3800) / 8)).linkReg
    else none

/-- Switch, tenants, pool, coherence. -/
def State.numB (s : State) (idx sub i : Nat) : Option Nat :=
  match idx with
  | 0x4010 => some (if s.dieUp (sub - 1) then s.sharedFree (sub - 1) else 0)
  | 0x4400 => if sub = 11 then some (s.strictPower i) else none
  | 0x4410 => if 11 ≤ sub ∧ sub ≤ 15 then some (ofSigned 32 (s.bucket i (sub - 9)).tokens) else none
  | 0x4420 => if sub = 2 then some s.tenantsOn.length else if sub = 3 then some s.strictEngines else none
  | 0x5000 =>
    let n := fun (k : Nat) => (s.extents.filter (fun e => e.2.st == k)).length
    if sub = 5 then some (n 0) else if sub = 6 then some (n 5) else if sub = 7 then some (n 4) else none
  | 0x5030 => if sub = 2 then some (sumNat (s.lds.map (fun e => sumNat (e.2.donors.map (fun d => if d.st = 1 then d.len else 0))))) else none
  | 0x5100 =>
    if sub = 3 then some ((List.range 64).foldl (fun v m => if s.viewCutOn (2 * m) || s.viewCutOn (2 * m + 1) then setBit v m else v) 0)
    else if sub = 7 then some (s.countWaits.obj 0x5100 7 * 32 / 25 % 2 ^ 64)
    else none
  | _ =>
    if 0x4100 ≤ idx ∧ idx < 0x41C0 then (if sub = 11 then some (s.ingressAt (idx - 0x4100)).shown
      else if sub = 10 then some (((List.range 8).foldl State.countBp s).obj idx 10) else none)
    else if 0x5400 ≤ idx ∧ idx < 0x5480 then
      let p := idx - 0x5400
      let l := (sub - 1) / 8
      let k := (sub - 1) % 8 + 1
      if k = 5 then some (s.heldCount p l)
      else if k = 6 then some (match (s.ld p l).expiry with | some e => Nat.min ((e - s.now) / 1000) (2 ^ 32 - 1) | none => 0)
      else none
    else none

/-- Streams, store, map, Palettes. -/
def State.numC (s : State) (idx sub i : Nat) : Option Nat :=
  match idx with
  | 0x6000 => if sub = 2 then some (16384 - s.recipesAll) else if sub = 9 then some (s.cmds.filter (fun e => e.2.refused.isNone)).length else none
  | 0x6010 => some (s.dieEngines (sub - 1))
  | 0x6200 => if sub = 8 then some (ceilDiv s.staged 1024) else if sub = 9 then some (ceilDiv s.tensorAll 1024) else none
  | 0x7000 => if sub = 2 then some s.openSeqs.length else if sub = 3 then some (s.seqs.filter (fun e => e.2.active)).length else none
  | 0x7010 => some (s.tierCap (sub - 1))
  | 0x7011 => some (s.tierStored (sub - 1))
  | 0x7012 => some (s.tierPlain (sub - 1))
  | 0x7200 =>
    if sub = 1 then some s.epoch else if sub = 2 then some s.failureGroup else if sub = 3 then some s.members.length
    else if sub = 6 then some (s.seqs.filter (fun e => e.2.st == 2 || e.2.st == 3)).length else none
  | 0x7300 => if sub = 3 then some (s.kvUsed i) else if sub = 5 then some (s.pinUsed i) else if sub = 8 then some (s.sdUsed i) else none
  | 0x7400 => if sub = 4 then some (s.slotsHeld i) else none
  | 0x7500 => if sub = 1 then some s.slotsFree else none
  | _ => none

/-- Security, reliability, monitors, resets. -/
def State.numD (s : State) (idx sub i : Nat) : Option Nat :=
  match idx with
  | 0x8000 => if sub = 5 then some s.securityState else none
  | 0x8100 => if sub = 17 then some s.enrolled else if sub = 21 then some s.claimRemain else none
  | 0x8200 => if sub = 3 then some (s.sdKeyCheck i) else none
  | 0x8300 => if sub = 2 then some (bool01 (Table.find s.sec.tenantKeys i).isSome) else none
  | 0x8400 => if sub = 2 then some (s.ld (i / 16) (i % 16)).tdi else none
  | 0x9200 => if sub = 10 then some s.rel.admission else none
  | 0xA000 => if sub = 2 then some (s.snaps.filter (fun (x : Snap) => x.st == 0)).length else none
  | 0xB000 => if sub = 2 then some s.resetKind else none
  | 0xB010 => if sub = 1 then some s.powerState else if sub = 3 then some s.pw.parked else none
  | 0xB020 => some (startupState s.pw.stage)
  | _ =>
    if 0x9100 ≤ idx ∧ idx < 0x9108 then some (s.engine ((idx - 0x9100) * 52 + (sub - 1))).reg
    else if 0xA100 ≤ idx ∧ idx < 0xA112 then
      let m := s.mon (idx - 0xA100)
      if sub = 4 then some m.min else if sub = 5 then some m.max else if sub = 6 then some m.count else if sub = 7 then some m.sum else none
    else none

/-- What an object of a fixed-size type reads. -/
def State.readNum (s : State) (r : ORow) (idx sub : Nat) : Nat :=
  let i := s.instOf r.sel
  let v := if idx < 0x4000 then s.numA idx sub else if idx < 0x6000 then s.numB idx sub i else if idx < 0x8000 then s.numC idx sub i else s.numD idx sub i
  v.getD (s.objK (s.keyOf r idx sub))

/-! ### Byte strings -/

/-- EXTENT_INFO (R457). -/
def State.extentInfo (s : State) (e : Nat) : Bytes :=
  match Table.find s.extents e with
  | none => []
  | some x =>
    let at_ := if x.holder.isSome then x.holder.map (fun h => (h.1, h.2, x.slot)) else x.mapped.head?
    let here := match x.lent, at_ with | none, some (p, l, slot) => leBytes 1 l ++ leBytes 2 p ++ leBytes 4 slot | _, _ => List.replicate 7 0xFF#8
    let set := match x.set with | some (g, v) => leBytes 4 g ++ leBytes 4 v | none => List.replicate 8 0xFF#8
    let dev := match x.lent with | some d => 0x8000 + d | none => if at_.isSome then s.devId else 0xFFFF
    leBytes 1 x.st ++ here ++ leBytes 8 (x.away.getD s.devId * 2 ^ 55 + x.base % 2 ^ 55) ++ set ++ leBytes 2 dev ++ zeros 6

/-- PAL_CURRENT of a tenant: the nine sets' slot and generation (R334). -/
def State.palCurrent (s : State) (t : Nat) : Bytes :=
  (List.range 9).flatMap (fun i =>
    let g := (s.pset t i).cur
    match s.slotOf t i g with | some (k, _) => if g = 0 then zeros 4 else leBytes 4 (k + g * 65536) | none => leBytes 4 (g * 65536))

/-- SLOT_INFO (R334). -/
def State.slotInfo (s : State) (k : Nat) : Bytes :=
  match Table.find s.slots k with
  | none => zeros 16
  | some x => leBytes 4 ((if x.retiring then 2 else 1) + x.tenant * 256 + x.set * 2 ^ 20 + x.gen * 2 ^ 24) ++ leBytes 4 (s.atRest k)
      ++ leBytes 4 (s.queuedIn k) ++ zeros 4

/-- DIE_SPARES (R383, R401): spares are four engines, two wires to a member's direction, two HBM channels, and four rows to each of the
4,096 banks of 32 KiB that the die's 128 MiB of SRAM make (R14). -/
def State.dieSpares (s : State) (d : Nat) : Bytes :=
  let ends := ((List.range 8).filter (fun b => b != d)).flatMap (fun b => [d * 8 + b, b * 8 + d])
  let wires := ends.flatMap (fun x => (List.range 3).map (fun m => 2 - Nat.min 2 (s.spareUsed (spareKey 1 (x * 4 + m)))))
  let rows := sumNat ((s.rel.spare.filter (fun e => e.1 / 2 ^ 32 == 2 && e.1 % 2 ^ 32 / 65536 / 4 == d)).map (fun e => Nat.min 4 e.2))
  leBytes 1 (s.freeSpares d).length ++ leBytes 1 (wires.foldl Nat.min 2) ++ leBytes 1 (2 - Nat.min 2 (s.spareUsed (spareKey 4 d))) ++ zeros 1
    ++ leBytes 4 (16384 - rows) ++ leBytes 4 (s.spareUsed (spareKey 3 d)) ++ zeros 4

/-- MGMT_IF_ID: SERIAL with bit 57 inverted, and with bit 0 inverted as well, each in network order (R402). -/
def ifIds : Bytes :=
  let a := (Config.serial % 2 ^ 64) ^^^ 2 ^ 57
  beBytes 8 a ++ beBytes 8 (a ^^^ 1)

/-- MON_HIST (R441). -/
def Mon.histBytes (m : Mon) : Bytes := m.hist.flatMap (leBytes 8)

/-- What a BLOB or STR reads. -/
def State.readBlob (s : State) (r : ORow) (idx sub : Nat) : Bytes :=
  let i := s.instOf r.sel
  match idx with
  | 0x1000 => ascii "NSX825"
  | 0x3C00 => if sub = 3 then ifIds else if sub = 6 then s.sess.flatMap (fun e => leBytes 1 (if e.2.claim then 0 else e.2.slot)) else s.blob idx sub
  | 0x5010 => s.extentInfo (s.obj 0x5010 3)
  | 0x6000 => Config.stationSet
  | 0x7400 => s.palCurrent i
  | 0x7500 => s.slotInfo (s.obj 0x7500 10 % 4096)
  | 0x8000 => if sub = 1 then s.chainOf false else if sub = 3 then Config.certRequest s.sec.slot1Key else s.blob idx sub
  | 0x9010 => s.dieSpares (sub - 1)
  | _ => if 0xA100 ≤ idx ∧ idx < 0xA112 then (s.mon (idx - 0xA100)).histBytes else s.blob idx sub

/-! ### One GET entry (R406, R411, R426, R458) -/

/-- The code of reading an object, and its value as bytes. -/
def State.readObj (s : State) (idx sub : Nat) : Nat × OTy × Bytes :=
  if 0xF000 ≤ idx then (if s.sec.debugOpen then rcNoObject else rcLocked, .u8, [])
  else match objRow idx sub with
    | none => (rcNoObject, .u8, [])
    | some r =>
      if r.acc = .wo then (rcWriteOnly, r.ty, [])
      else if r.ty = .blob ∨ r.ty = .str then (rcOK, r.ty, s.readBlob r idx sub)
      else (rcOK, r.ty, leBytes r.ty.size (s.readNum r idx sub))

/-- A response entry (R406). -/
def respEntry (idx sub rc ty : Nat) (val : Bytes) (total : Nat) : Bytes :=
  leBytes 2 idx ++ leBytes 1 sub ++ leBytes 1 rc ++ leBytes 1 ty ++ zeros 1 ++ leBytes 2 val.length ++ leBytes 4 total
    ++ padTo (roundUp val.length 4) val

/-- The response entry of a GET entry, where `used` bytes of the message are taken: a BLOB or STR gives what still fits (R404, R406). -/
def State.getEntry (s : State) (used : Nat) (e : GetEntry) : Bytes :=
  let r := s.readObj e.idx e.sub
  if r.1 ≠ rcOK then respEntry e.idx e.sub r.1 (if r.1 = rcNoObject then 0 else r.2.1.code) [] 0
  else if r.2.1 = .blob ∨ r.2.1 = .str then
    if r.2.2.length < e.off then respEntry e.idx e.sub rcBadValue r.2.1.code [] r.2.2.length
    else respEntry e.idx e.sub rcOK r.2.1.code ((r.2.2.drop e.off).take (1200 - 12 - used)) r.2.2.length
  else if e.off ≠ 0 then respEntry e.idx e.sub rcBadValue r.2.1.code [] 0
  else respEntry e.idx e.sub rcOK r.2.1.code r.2.2 r.2.2.length

/-- The body of a GET's response: its entries in order (R407). -/
def State.getBody (s : State) (l : List GetEntry) : Bytes :=
  l.foldl (fun b e => b ++ s.getEntry (16 + b.length) e) []

end Sys2Proof.Machine
end

