-- ==== Sys2Proof/Machine/DictWrite.lean ====
section
/-! DEFINITION. What a write of an object does: the checks in their order, and the effect of every writable object (R362, R372, R408 to
R413, R417, R420, R432, R458). -/

namespace Sys2Proof.Machine

open Sys2Proof

/-- Who writes: the session, whether it is the claim session, whether a quorum signed the value and whether every manager did. -/
structure WCtx where
  sid : Nat
  claim : Bool := false
  signed : Bool := false
  all : Bool := false

/-- Whether a write of a value is disruptive (R417). -/
def disruptive (idx sub v : Nat) : Bool :=
  (idx == 0x8000 && (sub == 2 || sub == 4)) || (idx == 0x8100 && (sub == 18 || sub == 19 || sub == 20)) || (idx == 0x8200 && sub == 4)
    || (idx == 0x4400 && sub == 12) || (idx == 0x9200 && (sub == 4 || sub == 5)) || (idx == 0x1020 && sub == 3)
    || (idx == 0xB000 && sub == 1 && resetSigned v) || (idx == 0xB010 && sub == 2 && powerSigned v)

/-- Whether some value of the object is written on the quorum path. -/
def mayDisrupt (idx sub : Nat) : Bool := disruptive idx sub 3 || disruptive idx sub 1

/-- The objects a claim session writes without signatures (R368). -/
def claimObj (idx sub : Nat) : Bool := idx == 0x8100 && (sub == 18 || sub == 19 || sub == 22)

/-- A lock in force on a write (R372). -/
def State.lockFor (s : State) (idx sub v : Nat) : Bool :=
  (idx == 0x8000 && (sub == 6 || sub == 7 || sub == 8) && s.locked sub) || (idx == 0x8000 && (sub == 2 || sub == 4) && s.locked 7)
    || (idx == 0x8100 && (sub == 18 || sub == 19 || sub == 20) && s.locked 8) || (idx == 0xB000 && sub == 1 && v % 16 == 6 && s.locked 6)

/-- Checks 1 to 5 of R458 on a write. -/
def State.accessCheck (s : State) (c : WCtx) (idx sub v : Nat) : Option Nat :=
  if c.claim && !claimObj idx sub || !c.claim && idx == 0x8100 && sub == 22 then some rcNotPermitted
  else if 0xF000 ≤ idx then some (if s.sec.debugOpen then rcNoObject else rcLocked)
  else match objRow idx sub with
    | none => some rcNoObject
    | some r =>
      if r.acc = .ro then some rcReadOnly
      else if s.lockFor idx sub v then some rcLocked
      else if disruptive idx sub v && !c.signed && !c.claim then some rcQuorum
      else none

/-- CLASS_RANK: the classes 1 to 7 in some order (R117). -/
def rankOk (v : Nat) : Bool := (List.range 7).all (fun k => (List.range 7).any (fun i => v / 16 ^ i % 16 == k + 1))
/-- MON_SCOPE of monitor m: a scope R431 lists, with a die, port or tenant that exists. -/
def scopeOk (m v : Nat) : Bool :=
  (monScopes m).contains (v % 16)
    && (match v % 16 with | 1 => decide (bits v 27 16 < 8) | 2 => decide (bits v 27 16 < 128) | 3 => decide (bits v 27 16 < 64) | _ => true)
/-- BLOCK_SELECT names an RWD object (R413). -/
def blockOk (v : Nat) : Bool :=
  decide (v < 2 ^ 24) && (match objRow (v / 256) (v % 256) with | some r => r.acc == .rwd | none => false)
/-- A management address: empty, or address, prefix length, reserved byte and gateway (R427). -/
def addrOk (b : Bytes) : Bool := b.isEmpty || (b.length == 34 && decide (field b 16 1 ≤ 128) && field b 17 1 == 0)

/-- What check 6 of R458 asks of one object's value beyond its row's range. -/
def State.valueOk (s : State) (idx sub : Nat) (val : Bytes) : Bool :=
  let v := leNat val
  match idx with
  | 0x1010 => sub != 1 || blockOk v
  | 0x1020 => sub != 1 || decide (val.length ≤ 2 ^ 24)
  | 0x3C00 => !(sub == 1 || sub == 2) || addrOk val
  | 0x4000 => sub != 4 || rankOk v
  | 0x5010 => if sub = 1 then allocForm val else if sub = 3 then (Table.find s.extents v).isSome else true
  | 0x8000 => sub != 4 || val.length == 48
  | 0x8100 => if sub = 18 then decide (1 ≤ v ∧ v ≤ 16) else if sub = 19 then !val.isEmpty && Config.isP384Cert val else true
  | 0x8200 => sub != 2 || val.length == 96
  | 0xB000 => sub != 1 || resetForm v
  | _ => if 0xA100 ≤ idx ∧ idx < 0xA112 ∧ sub = 1 then scopeOk (idx - 0xA100) v else true

/-- Check 6 of R458: BAD_TYPE, then BAD_VALUE. -/
def State.formCheck (s : State) (idx sub : Nat) (val : Bytes) : Option Nat :=
  match objRow idx sub with
  | none => some rcNoObject
  | some r =>
    if r.ty = .blob ∨ r.ty = .str then (if s.valueOk idx sub val then none else some rcBadValue)
    else if val.length ≠ r.ty.size then some rcBadType
    else if r.vals.ok (leNat val) && s.valueOk idx sub val then none else some rcBadValue

/-! ### Effects -/

/-- A monitor is cleared at the next TIMECLK edge (R433). -/
def State.monClear (s : State) (m : Nat) : State := { s with mons := Table.put s.mons m { s.mon m with clearAt := some ((s.now / 10 + 1) * 10) } }

/-- FW_STAGE with a whole image (R420). -/
def State.fwStageOp (s : State) (b : Bytes) : Nat × State :=
  let s1 : State := { s with sec := { s.sec with fwImage := b } }
  if Config.imageSigned b then (rcOK, s1.setObj 0x1020 2 1) else (rcOK, (s1.setObj 0x1020 2 2).flag 0x1010 4 1)

/-- FW_COMMIT (R420). -/
def State.fwCommitOp (s : State) : Nat × State :=
  if s.obj 0x1020 2 = 1 then (rcOK, { s with sec := { s.sec with fwCommitted := true } }.setObj 0x1020 2 3) else (rcRefused, s)

/-- A management port's address: sessions on its old one end (R402). -/
def State.mgmtAddrOp (s : State) (sub : Nat) (b : Bytes) : Nat × State :=
  let s1 := { s with dupAddr := s.dupAddr.filter (fun d => d != (sub - 1, true)) }.setBlob 0x3C00 sub b
  if b = s.blob 0x3C00 sub then (rcOK, s1)
  else (rcOK, ((s1.sess.filter (fun e => e.2.port == sub - 1 && e.2.conf)).map Prod.fst).foldl State.endSess s1)

/-- A plain store. -/
def State.storeOp (s : State) (r : ORow) (idx sub v : Nat) : Nat × State := (rcOK, s.setObjK (s.keyOf r idx sub) v)
/-- A store that a state rule may refuse. -/
def State.storeIf (s : State) (ok : Bool) (r : ORow) (idx sub v : Nat) : Nat × State := if ok then s.storeOp r idx sub v else (rcRefused, s)

/-- Identity, dictionary, power. -/
def State.writeA (s : State) (r : ORow) (idx sub v : Nat) (val : Bytes) : Nat × State :=
  match idx, sub with
  | 0x1010, 1 => (rcOK, (s.setObj 0x1010 1 v).setObjI 0x1010 1 0 (s.blockOf (v / 256) (v % 256) + 1))
  | 0x1020, 1 => s.fwStageOp val
  | 0x1020, 3 => s.fwCommitOp
  | 0x2000, 7 => s.storeIf (decide (2 * v ≤ s.obj 0x2000 1)) r idx sub v
  | _, _ => s.storeOp r idx sub v

/-- Ports, switch, tenants, pool. -/
def State.writeB (s : State) (r : ORow) (idx sub v : Nat) (val : Bytes) : Nat × State :=
  if 0x3000 ≤ idx ∧ idx < 0x3400 ∧ sub = 1 then
    (if v = 1 then s.flexEnableOp ((idx - 0x3000) / 8) else s.flexDisableOp ((idx - 0x3000) / 8))
  else if 0x3800 ≤ idx ∧ idx < 0x3A00 ∧ sub = 1 then
    (if v = 1 then s.peerEnableOp ((idx - 0x3800) / 8) else s.peerDisableOp ((idx - 0x3800) / 8))
  else if 0x4100 ≤ idx ∧ idx < 0x41C0 ∧ sub = 9 then s.storeOp r idx sub (clearBit v 0)
  else if 0x4200 ≤ idx ∧ idx < 0x4208 then ((s.storeOp r idx sub v).1, (s.storeOp r idx sub v).2.notePaths)
  else if 0x5400 ≤ idx ∧ idx < 0x5480 ∧ sub % 8 = 1 then
    (if v = 1 then s.ldEnableOp (idx - 0x5400) (sub / 8) else s.ldDisableOp (idx - 0x5400) (sub / 8))
  else match idx, sub with
  | 0x3C00, 1 => s.mgmtAddrOp 1 val
  | 0x3C00, 2 => s.mgmtAddrOp 2 val
  | 0x4400, 2 => if v = 1 then s.tenantEnableOp s.tenantSel else s.tenantDisableOp s.tenantSel
  | 0x4400, 4 =>
    if v ≠ 0 ∧ (s.objs.any (fun e => e.1 % 2 ^ 24 == okey 0x4400 4 && e.2 == v && e.1 != ikey (okey 0x4400 4) s.tenantSel)) then
      (rcRefused, s.flag 0x4420 1 3)
    else s.storeOp r idx sub v
  | 0x4400, 12 => s.tenantRemoveOp v
  | 0x4410, k => s.shapeOp s.tenantSel k v
  | 0x5000, 4 => s.storeIf (decide (s.hbmOut ≤ v)) r idx sub v
  | 0x5010, 1 => s.allocOp val
  | 0x5010, 2 => s.revokeOp v
  | 0x5010, 5 => s.repairOp v
  | 0x5100, 5 => s.viewRestoreOp v
  | _, _ => s.storeOp r idx sub v

/-- Streams, store, security. -/
def State.writeC (s : State) (c : WCtx) (r : ORow) (idx sub v : Nat) (val : Bytes) : Nat × State :=
  match idx, sub with
  | 0x6200, 2 => s.storeIf (decide (s.staged ≤ v * 2 ^ 20)) r idx sub v
  | 0x6200, 4 => s.storeIf (decide (s.tensorAll ≤ v * 2 ^ 20)) r idx sub v
  | 0x7000, 5 => s.storeIf (decide (s.obj 0x7000 6 < v)) r idx sub v
  | 0x7000, 6 => s.storeIf (decide (v < s.obj 0x7000 5)) r idx sub v
  | 0x7200, 2 => (rcOK, { s with objs := Table.put s.objs (okey 0x7200 2) v })
  | 0x8000, 2 => s.certSlot1Op val
  | 0x8000, 4 => s.fabricAnchorOp val
  | 0x8000, 6 => s.lockOp 6 v
  | 0x8000, 7 => s.lockOp 7 v
  | 0x8000, 8 => s.lockOp 8 v
  | 0x8100, 18 => s.quorumKOp v c.claim
  | 0x8100, 19 => s.enrollOp val
  | 0x8100, 20 => s.unenrollOp v
  | 0x8100, 22 => let x := s.claimDoneOp c.sid v; (x.1, if x.1 = rcOK then x.2.endClaim else x.2)
  | 0x8200, 2 => s.sdKeyOp val
  | 0x8200, 4 => s.sdKeyClearOp v
  | _, _ => s.storeOp r idx sub v

/-- Reliability, monitors, resets. -/
def State.writeD (s : State) (c : WCtx) (r : ORow) (idx sub v : Nat) : Nat × State :=
  if 0xA100 ≤ idx ∧ idx < 0xA112 ∧ sub = 1 then (rcOK, (s.storeOp r idx sub v).2.monClear (idx - 0xA100))
  else if 0xA100 ≤ idx ∧ idx < 0xA112 ∧ sub = 2 then (rcOK, if v = 1 then s.monClear (idx - 0xA100) else s)
  else match idx, sub with
  | 0x9000, 12 => s.selftestOp v
  | 0x9200, 4 => s.expelOp v c.all
  | 0x9200, 5 => s.admitOp v
  | 0xB000, 1 => s.resetOp v
  | 0xB010, 2 => s.powerOp v
  | _, _ => s.storeOp r idx sub v

/-- The effect of a write, with its code of the checks 9 and 10 of R458. -/
def State.writeOp (s : State) (c : WCtx) (r : ORow) (idx sub : Nat) (val : Bytes) : Nat × State :=
  let v := leNat val
  if r.acc = .wsq then s.wsqWrite (s.keyOf r idx sub) v
  else if idx < 0x3000 then s.writeA r idx sub v val
  else if idx < 0x6000 then s.writeB r idx sub v val
  else if idx < 0x9000 then s.writeC c r idx sub v val
  else s.writeD c r idx sub v

/-- An RWD write while its block is enabled: IGNORED, with the block's flag and count (R413). -/
def State.ignoreWrite (s : State) (idx sub : Nat) : State :=
  let b := s.blockOf idx sub + 1
  let k := ikey (okey 0x1010 2) b
  let s1 := s.flagOnly k 0
  let s2 := s1.notify 0x0001 (statusFields k (s1.objK k) ++ leBytes 2 idx ++ leBytes 1 sub)
  (s2.setObjI 0x1010 3 b ((s2.objI 0x1010 3 b + 1) % 2 ^ 32)).flag 0x1010 4 0

/-- The writes that move a locked or running interface to ERROR, whether applied or ignored (R362); LD_ENABLE and TENANT_ENABLE do it in
their own operations. -/
def State.touchFor (s : State) (idx sub : Nat) : State :=
  if 0x5400 ≤ idx ∧ idx < 0x5480 ∧ (sub % 8 = 2 ∨ sub % 8 = 4) then s.touchLd (idx - 0x5400) (sub / 8)
  else if idx = 0x4400 ∧ 3 ≤ sub ∧ sub ≤ 6 then s.touchTenant s.tenantSel
  else s

/-- One whole write of one object (R458). -/
def State.writeObj (s : State) (c : WCtx) (idx sub : Nat) (val : Bytes) : Nat × State :=
  match s.accessCheck c idx sub (leNat val), s.formCheck idx sub val, objRow idx sub with
  | some rc, _, _ => (rc, s)
  | none, some rc, _ => (rc, s)
  | none, none, none => (rcNoObject, s)
  | none, none, some r =>
    if s.scopeBusy (scopeOf idx sub) then (rcBusy, s)
    else if r.acc = .rwd ∧ s.blockOn (s.blockOf idx sub) then (rcIgnored, (s.touchFor idx sub).ignoreWrite idx sub)
    else (s.touchFor idx sub).writeOp c r idx sub val

/-- One write by a session, with its response ahead of its effect. -/
def State.sessWrite (s : State) (sid idx sub : Nat) (val : Bytes) : State :=
  match Table.find s.sess sid with
  | none => s
  | some x =>
    let c : WCtx := { sid := sid, claim := x.claim }
    ((s.respond sid idx sub (s.writeObj c idx sub val).1).writeObj c idx sub val).2

/-- The bytes of a number written to an object of a fixed-size type. -/
def numBytes (idx sub v : Nat) : Bytes := match objRow idx sub with | some r => leBytes r.ty.size v | none => []

end Sys2Proof.Machine
end

