-- ==== Sys2Proof/Machine/MgmtOps.lean ====
section
/-! DEFINITION. Sessions, requests, pieces, the quorum, relays (R367 to R371, R403 to R424). -/

namespace Sys2Proof.Machine

open Sys2Proof

/-! ### Requests and their kept responses (R404, R410) -/

/-- A response kept for a session: its last 32. -/
def State.keep (s : State) (sid reqId ty : Nat) (body : Bytes) : State :=
  match Table.find s.sess sid with
  | some x => { s with sess := Table.put s.sess sid { x with kept := lastN 32 (x.kept ++ [(reqId, s.now, ty, body)]) } }
  | none => s

/-- The body of a response that is a code only. -/
def codeBody (rc : Nat) : Bytes := respEntry 0 0 rc 0 [] 0

/-- Whether a message fits one record of 1,200 bytes (R404). -/
def msgFits (body : Nat) : Bool := decide (16 + body ≤ 1200)

/-- A request of a session. One that repeats a REQ_ID of its last 32, within 5 s, is answered from the store; one the claim session may not
send is answered NOT_PERMITTED (R368, R410). The response leaves before the effect. -/
def State.request (s : State) (sid reqId ty : Nat) (claimMay : Bool) (op : State → Bytes × State) : State :=
  match Table.find s.sess sid with
  | none => s
  | some x =>
    let s1 : State := { s with sess := Table.put s.sess sid { x with lastRx := s.now } }
    match x.kept.find? (fun k => k.1 == reqId && decide (s.now < k.2.1 + 5000000000)) with
    | some k => s1.emit (.resp sid reqId k.2.2.1 k.2.2.2)
    | none =>
      let deny := x.claim && !claimMay
      let body := if deny then codeBody rcNotPermitted else (op s1).1
      let s2 := (s1.keep sid reqId (ty + 0x80) body).emit (.resp sid reqId (ty + 0x80) body)
      if deny then s2 else (op s2).2

/-- Who a session writes as. -/
def State.wctxOf (s : State) (sid : Nat) : WCtx :=
  { sid := sid, claim := match Table.find s.sess sid with | some x => x.claim | none => false }

/-! ### Pieces (R409) -/

/-- Bytes staged for a (session, object). -/
def State.stagedFor (s : State) (sid key : Nat) (prop : Bool) : Bytes :=
  match s.pieces.find? (fun (y : Piece) => y.sid == sid && y.key == key && y.isProp == prop) with | some y => y.data | none => []
/-- Stores the stage of a (session, object); empty leaves none. -/
def State.setStage (s : State) (sid key : Nat) (prop : Bool) (b : Bytes) : State :=
  let l := s.pieces.filter (fun (y : Piece) => !(y.sid == sid && y.key == key && y.isProp == prop))
  { s with pieces := if b.isEmpty then l else l ++ [⟨sid, key, prop, b⟩] }
/-- Most a stage holds: 64 KiB, 16 MiB for FW_STAGE. -/
def stageMax (key : Nat) : Nat := if key = okey 0x1020 1 then 2 ^ 24 else 65536
/-- One piece: a broken stage is discarded with BAD_VALUE (none); a last piece gives the whole value. -/
def State.takePiece (s : State) (sid key : Nat) (prop final : Bool) (off : Nat) (val : Bytes) : Option (Option Bytes) × State :=
  let had := s.stagedFor sid key prop
  let whole := had ++ val
  if off ≠ had.length ∨ stageMax key < whole.length then (none, s.setStage sid key prop [])
  else if final then (some (some whole), s.setStage sid key prop [])
  else (some none, s.setStage sid key prop whole)

/-- One SET entry (R406, R409). -/
def State.setEntry (s : State) (c : WCtx) (e : SetEntry) : Nat × State :=
  match objRow e.idx e.sub with
  | none => s.writeObj c e.idx e.sub e.val
  | some r =>
    if r.ty = .blob ∨ r.ty = .str then
      match s.accessCheck c e.idx e.sub (leNat e.val) with
      | some rc => (rc, s)
      | none =>
        match s.takePiece c.sid (okey e.idx e.sub) false e.final e.off e.val with
        | (none, s1) => (rcBadValue, s1)
        | (some none, s1) => (rcOK, s1)
        | (some (some b), s1) => s1.writeObj c e.idx e.sub b
    else if e.off = 0 then s.writeObj c e.idx e.sub e.val
    else match s.accessCheck c e.idx e.sub (leNat e.val) with
      | some rc => (rc, s)
      | none => (if e.val.length ≠ r.ty.size then rcBadType else rcBadValue, s)

/-- The TYPE of an object in a response entry; 0 where there is none. -/
def typeCode (idx sub : Nat) : Nat := match objRow idx sub with | some r => r.ty.code | none => 0

/-- The entries of a SET in order, each on its own (R407). -/
def State.setAll (s : State) (c : WCtx) (l : List SetEntry) : Bytes × State :=
  l.foldl (fun (a : Bytes × State) e =>
    let r := a.2.setEntry c e
    (a.1 ++ respEntry e.idx e.sub r.1 (typeCode e.idx e.sub) [] 0, r.2)) ([], s)

/-! ### Notifications to one session -/

/-- A notification to one session (R421, R423). -/
def State.noteTo (s : State) (sid code : Nat) (f : Bytes) : State :=
  match Table.find s.sess sid with
  | none => s
  | some x =>
    let r := x.note sid s.now (s.obj 0x3C00 8) code f
    let s1 := ({ s with sess := Table.put s.sess sid r.1 }).emits r.2.1
    if r.2.2 then s1.flag 0x1010 4 4 else s1

/-! ### Sessions (R367, R368, R403, R424) -/

/-- Whether a management port takes a handshake on its link-local or its configured address. -/
def State.mgmtOn (s : State) (port : Nat) (conf : Bool) : Bool :=
  decide (port < 2) && s.mgmtUp && !s.dupAddr.contains (port, conf)
    && (!conf || !(s.blob 0x3C00 (port + 1)).isEmpty)

/-- A session opens; it is first told of every device-wide restoration that RESTORE_STATUS still shows. -/
def State.openSess (s : State) (port : Nat) (conf : Bool) (slot : Nat) (der : Bytes) (claim : Bool) : State :=
  let sid := s.nextSid
  let x : Sess := { port := port, conf := conf, slot := slot, digest := sha384 der, key := Config.dtlsKey sid, lastRx := s.now, claim := claim }
  let s1 := ({ s with sess := Table.put s.sess sid x, nextSid := sid + 1 }).emit (.dtlsOpen port sid s.shownChain)
  let told := fun (a : State) (b kind classes : Nat) =>
    if bit (s.obj 0x1010 5) b then a.noteTo sid 0x0002 (leBytes 1 kind ++ leBytes 1 classes ++ zeros 6) else a
  told (told (told s1 0 0 15) 1 1 14) 2 6 14

/-- Whether a handshake offers TLS_AES_256_GCM_SHA384, secp384r1 and ecdsa_secp384r1_sha384 (R367). -/
def suiteOk (c : ClientCert) : Bool := c.suites.contains 0x1302 && c.groups.contains 0x0018 && c.schemes.contains 0x0503

/-- A DTLS handshake. -/
def State.handshake (s : State) (port : Nat) (conf : Bool) (c : ClientCert) : State :=
  let der := c.der
  if !s.mgmtOn port conf then s
  else if !suiteOk c then s.emit (.dtlsAlert port)
  else if 8 ≤ s.sess.length then (s.emit (.dtlsAlert port)).flag 0x1010 4 3
  else
    match s.managerOf der with
    | some i => s.openSess port conf i der false
    | none =>
      if s.sec.claim.isSome ∧ s.sec.claimSid.isNone then
        let s1 : State := { s with sec := { s.sec with claimSid := some s.nextSid } }
        s1.openSess port conf 0 der true
      else s.emit (.dtlsAlert port)

/-! ### The quorum (R369 to R371, R417 to R419) -/

/-- The digest managers sign (R369). -/
def State.quorumDigest (s : State) (nonce : Bytes) (idx sub : Nat) (val : Bytes) : Bytes :=
  sha384 (leBytes 8 (Config.serial % 2 ^ 64) ++ leBytes 2 (s.obj 0x1000 5) ++ nonce ++ leBytes 2 idx ++ leBytes 1 sub ++ leBytes 4 val.length ++ val)

/-- Whether a nonce's deadline has come: 5 s from its issue. -/
def Nonce.expired (n : Nonce) (now : Nat) : Bool := decide (n.issued + 5000000000 ≤ now)

/-- Whether the signers counted complete a nonce. -/
def Nonce.done (n : Nonce) : Bool :=
  if n.all then !n.must.isEmpty && n.must.all (fun i => n.signers.contains i) else decide (1 ≤ n.need) && decide (n.need ≤ n.signers.length)

/-- The last piece of a proposal: the code, and the nonce's fields where one is issued (R418). -/
def State.issue (s : State) (idx sub : Nat) (all : Bool) (val : Bytes) : Nat × Bytes × State :=
  if !disruptive idx sub (leNat val) then (rcNotPermitted, [], s)
  else match s.accessCheck { sid := 0, signed := true } idx sub (leNat val), s.formCheck idx sub val with
    | some rc, _ => (rc, [], s)
    | none, some rc => (rc, [], s)
    | none, none =>
      if 4 ≤ (s.sec.nonces.filter (fun (n : Nonce) => !n.expired s.now)).length then (rcBusy, [], s)
      else
        let g := s.draw 2
        let nv := g.1.flatMap (leBytes 8)
        let every := all || (idx == 0xB000 && leNat val % 16 == 6)
        let need := if every then s.enrolled else s.quorumNow
        let n : Nonce := { id := s.sec.nextNonce, val := nv, idx := idx, sub := sub, value := val, all := every, need := need,
                           must := s.managers, signers := [], issued := s.now }
        let s1 : State := { g.2 with sec := { g.2.sec with nonces := g.2.sec.nonces ++ [n], nextNonce := n.id + 1 } }
        (rcOK, nv ++ s.quorumDigest nv idx sub val ++ leBytes 8 (s.now + 5000000000) ++ leBytes 1 need, s1)

/-- A PROPOSE of a session that may propose. -/
def State.proposeOp (s : State) (sid idx sub flags off : Nat) (val : Bytes) : Bytes × State :=
  let ans := fun (rc : Nat) (more : Bytes) => respEntry idx sub rc (typeCode idx sub) [] 0 ++ more
  let early := if (objRow idx sub).isSome ∧ !mayDisrupt idx sub then some rcNotPermitted
    else s.accessCheck { sid := sid, signed := true } idx sub 0
  match early with
  | some rc => (ans rc [], s)
  | none =>
    if 4 ≤ flags then (ans rcBadValue [], s.setStage sid (okey idx sub) true [])
    else match s.takePiece sid (okey idx sub) true (bit flags 0) off val with
      | (none, s1) => (ans rcBadValue [], s1)
      | (some none, s1) => (ans rcOK [], s1)
      | (some (some b), s1) =>
        let r := s1.issue idx sub (bit flags 1) b
        (ans r.1 r.2.1, r.2.2)

/-- A signature is judged: its code, and the nonce with it counted; OK where it completes the quorum (R369, R370, R419). -/
def State.judge (s : State) (id slot : Nat) (sig : Bytes) : Nat × Option Nonce :=
  match s.sec.nonces.find? (fun (n : Nonce) => n.id == id) with
  | none => (rcBadNonce, none)
  | some n =>
    if n.expired s.now then (rcBadNonce, none)
    else if (s.manager slot).isEmpty ∨ n.signers.contains slot
        ∨ !Config.sigOk (s.manager slot) (s.quorumDigest n.val n.idx n.sub n.value) sig then (rcBadSignature, none)
    else
      let n1 : Nonce := { n with signers := n.signers.filter (fun i => !(s.manager i).isEmpty) ++ [slot] }
      (if n1.done then rcOK else rcPending, some n1)

/-- QUORUM_RESULT (R422). -/
def Nonce.result (n : Nonce) (rc : Nat) : Bytes := n.val ++ leBytes 2 n.idx ++ leBytes 1 n.sub ++ leBytes 1 rc

/-- A signature takes effect. `reply` sends the code and the count, for the object signed, ahead of the write's own effect. -/
def State.signOp (s : State) (id slot : Nat) (sig : Bytes) (reply : State → Nat → Nat → Nat → Nat → State) : State :=
  match s.judge id slot sig with
  | (rc, none) =>
    let o := match s.sec.nonces.find? (fun (n : Nonce) => n.id == id) with | some n => (n.idx, n.sub) | none => (0, 0)
    reply s o.1 o.2 rc 0
  | (rc, some n) =>
    let rest := s.sec.nonces.filter (fun (y : Nonce) => y.id != id)
    if rc = rcPending then
      reply { s with sec := { s.sec with nonces := s.sec.nonces.map (fun (y : Nonce) => if y.id = id then n else y) } } n.idx n.sub rc n.signers.length
    else
      let s1 : State := { s with sec := { s.sec with nonces := rest } }
      let c : WCtx := { sid := 0, signed := true, all := n.all }
      let code := (s1.writeObj c n.idx n.sub n.value).1
      (((reply s1 n.idx n.sub code n.signers.length).notify 0x0004 (n.result code)).writeObj c n.idx n.sub n.value).2

/-- The body of a SIGN's response: a response entry, and the count. -/
def signBody (idx sub rc count : Nat) : Bytes := respEntry idx sub rc (typeCode idx sub) [] 0 ++ leBytes 4 count

/-- A SIGN of a session: the response is kept and sent, then the effect. -/
def State.signMsg (s : State) (sid reqId nonce slot : Nat) (sig : Bytes) : State :=
  match Table.find s.sess sid with
  | none => s
  | some x =>
    let s1 : State := { s with sess := Table.put s.sess sid { x with lastRx := s.now } }
    match x.kept.find? (fun k => k.1 == reqId && decide (s.now < k.2.1 + 5000000000)) with
    | some k => s1.emit (.resp sid reqId k.2.2.1 k.2.2.2)
    | none =>
      let send := fun (a : State) (body : Bytes) => (a.keep sid reqId 0x84 body).emit (.resp sid reqId 0x84 body)
      if x.claim then send s1 (codeBody rcNotPermitted)
      else s1.signOp nonce slot sig (fun a idx sub rc n => send a (signBody idx sub rc n))

/-- A row that is one disruptive write: the signature that completes the quorum of a nonce over that object and, where `okv` says so, over
such a value; or a session's unsigned write. A signature over another operation's nonce is none of this row. -/
def State.quorumRow (s : State) (sid idx sub : Nat) (okv : Nat → Bool) (q : QSrc) : State :=
  match q with
  | .claim v => if okv (leNat v) then s.sessWrite sid idx sub v else s
  | .signed nonce slot sig =>
    match Table.find s.sess sid with
    | none => s
    | some x =>
      let other := s.sec.nonces.any (fun (n : Nonce) => n.id == nonce && !(n.idx == idx && n.sub == sub && okv (leNat n.value)))
      if other then s
      else if x.claim then s.respond sid idx sub rcNotPermitted
      else ({ s with sess := Table.put s.sess sid { x with lastRx := s.now } }).signOp nonce slot sig (fun a _ _ rc _ => a.respond sid idx sub rc)

/-! ### Word reads (R414 to R416) -/

/-- Word `w` of an object's value from an offset on, for a requester with its own shadows: the code, the word, and the state. -/
def State.readWordOp (s : State) (who idx sub off w : Nat) : Nat × Nat × State :=
  let r := s.readObj idx sub
  let key := okey idx sub
  if r.1 ≠ rcOK then (r.1, 0, s)
  else if r.2.1 = .blob ∨ r.2.1 = .str then
    (if r.2.2.length ≤ off + 4 * w ∧ ¬ (w = 0 ∧ off ≤ r.2.2.length) then (rcBadValue, 0, s) else (rcOK, leNat ((r.2.2.drop (off + 4 * w)).take 4), s))
  else if off ≠ 0 then (rcBadValue, 0, s)
  else
    let v := leNat r.2.2
    let clean := s.shadows.filter (fun x => !(x.1 == who && x.2.1 == key))
    if w = 0 then (rcOK, v % 2 ^ 32, if r.2.1 = .u64 then { s with shadows := clean ++ [(who, key, v / 2 ^ 32)] } else s)
    else if w = 1 ∧ r.2.1 = .u64 then
      (rcOK, (match s.shadows.find? (fun x => x.1 == who && x.2.1 == key) with | some x => x.2.2 | none => v / 2 ^ 32), { s with shadows := clean })
    else (rcBadValue, 0, s)

/-- Requesters of word reads: an I3C controller's dynamic address, or a device and its session. -/
def i3cWho (ctrl : Nat) : Nat := 2 * ctrl
/-- See `i3cWho`. -/
def relayWho (dev origin : Nat) : Nat := 2 * (origin * 512 + dev) + 1

/-- The objects of the sideband (R416). -/
def i3cObj (idx sub : Nat) : Bool :=
  (idx == 0x1000 && decide (1 ≤ sub) && decide (sub ≤ 10)) || (idx == 0x2000 && [4, 5, 6, 9, 10].contains sub)
    || (idx == 0x2011 && decide (1 ≤ sub) && decide (sub ≤ 20)) || (idx == 0x2020 && (sub == 3 || sub == 4))
    || (idx == 0x3C00 && (sub == 4 || sub == 5)) || (idx == 0x9000 && (sub == 8 || sub == 11))

end Sys2Proof.Machine
end

