-- ==== Sys2Proof/Machine/Mgmt.lean ====
section
/-! DEFINITION. Management sessions and messages, relays, the sideband, and the writes that have a row of their own (R366 to R373, R397,
R400 to R424). -/

namespace Sys2Proof.Machine

open Sys2Proof

/-! ### Sessions -/

/-- DTLS_HANDSHAKE (R367, R368, R403). -/
def execDtlsHandshake (port : Nat) (configured : Bool) (cert : ClientCert) (s : State) : Res :=
  .next (s.handshake port configured cert)

/-- SESSION_IDLE_TIMEOUT (R403). -/
def execSessionIdleTimeout (sid : Nat) (s : State) : Res :=
  .next (match Table.find s.sess sid with
    | some x => (s.atTime (x.lastRx + s.obj 0x3C00 7 * 1000000000)).endSess sid
    | none => s)

/-! ### Messages -/

/-- GET (R406, R407). -/
def execGet (sid reqId : Nat) (entries : List GetEntry) (s : State) : Res :=
  .next (if msgFits (8 * entries.length) then s.request sid reqId 1 true (fun a => (a.getBody entries, a)) else s)

/-- Body bytes of a SET (R406). -/
def setLen (l : List SetEntry) : Nat := sumNat (l.map (fun e => 12 + roundUp e.val.length 4))

/-- SET (R406 to R409). -/
def execSet (sid reqId : Nat) (entries : List SetEntry) (s : State) : Res :=
  .next (if msgFits (setLen entries) then s.request sid reqId 2 true (fun a => a.setAll (a.wctxOf sid) entries) else s)

/-- PROPOSE (R418). -/
def execPropose (sid reqId idx sub flags off : Nat) (val : Bytes) (s : State) : Res :=
  .next (if msgFits (12 + roundUp val.length 4) then s.request sid reqId 3 false (fun a => a.proposeOp sid idx sub flags off val) else s)

/-- SIGN (R419). -/
def execSign (sid reqId nonce slot : Nat) (sig : Bytes) (s : State) : Res := .next (s.signMsg sid reqId nonce slot sig)

/-- The mask of a session becomes `mask` (R405). -/
def State.setMask (s : State) (sid mask : Nat) : State :=
  match Table.find s.sess sid with
  | some x => { s with sess := Table.put s.sess sid { x with mask := mask % 2 ^ 32 } }
  | none => s

/-- SUBSCRIBE (R405). -/
def execSubscribe (sid reqId mask : Nat) (s : State) : Res :=
  .next (s.request sid reqId 5 true (fun a => (codeBody rcOK, a.setMask sid mask)))

/-- KEEPALIVE (R403). -/
def execKeepalive (sid reqId : Nat) (s : State) : Res := .next (s.request sid reqId 6 true (fun a => (codeBody rcOK, a)))

/-- The first moment at which a session's rate allows another notification (R423). -/
def Sess.freeAt (x : Sess) (rate : Nat) : Nat := match x.sentAt.drop (rate - 1) with | t :: _ => t + 1000000000 | [] => 0

/-- The DROPPED notification of a session that owes one (R423). -/
def State.sendDropped (s : State) (sid : Nat) (x : Sess) : State :=
  let t := max s.now (x.freeAt (s.obj 0x3C00 8))
  let y : Sess := { x with seq := (x.seq + 1) % 2 ^ 32, sentAt := t :: x.sentAt.filter (fun u => decide (t < u + 1000000000)), dropped := 0 }
  ({ (s.atTime t) with sess := Table.put s.sess sid y }).emit (.notify sid y.seq t 0x0003 (leBytes 4 x.dropped))

/-- DROPPED (R423). -/
def execDropped (sid : Nat) (s : State) : Res :=
  .next (match Table.find s.sess sid with
    | some x => if x.dropped = 0 then s else s.sendDropped sid x
    | none => s)

/-! ### Relay (R414, R415) -/

/-- A relayed request by its own session: refused at once, or sent to its target. -/
def State.relayAsk (s : State) (sid reqId ty target : Nat) (e : GetEntry) : State :=
  match Table.find s.sess sid with
  | none => s
  | some x =>
    let s1 : State := { s with sess := Table.put s.sess sid { x with lastRx := s.now } }
    match x.kept.find? (fun k => k.1 == reqId && decide (s.now < k.2.1 + 5000000000)) with
    | some k => s1.emit (.resp sid reqId k.2.2.1 k.2.2.2)
    | none =>
      if s.relays.any (fun (y : Relay) => y.sid == sid && y.reqId == reqId) then s1
      else if ty ≠ 1 then (s1.keep sid reqId (ty + 0x80) (codeBody rcNotPermitted)).emit (.resp sid reqId (ty + 0x80) (codeBody rcNotPermitted))
      else if !s.reaches target then (s1.keep sid reqId 0x81 (codeBody rcNoRoute)).emit (.resp sid reqId 0x81 (codeBody rcNoRoute))
      else
        let y : Relay := { sid := sid, reqId := reqId, idx := e.idx, sub := e.sub, at_ := s.now }
        let s2 : State := { s1 with relays := s1.relays ++ [y] }
        s2.emit (.relayReq target sid reqId e.idx e.sub e.off 0)

/-- A relayed word read that another device sends. -/
def State.relayServe (s : State) (dev origin : Nat) (digest : Bytes) (e : GetEntry) (word : Nat) : State :=
  if !s.managers.any (fun i => sha384 (s.manager i) == digest) then s.emit (.relayResp dev origin rcNotPermitted 0)
  else
    let r := s.readWordOp (relayWho dev origin) e.idx e.sub e.off word
    r.2.2.emit (.relayResp dev origin r.1 r.2.1)

/-- The end of a relayed request: its words, or the code that its target or the 50 ms gave. -/
def State.relayEnd (s : State) (y : Relay) (rc len : Nat) (words : List Nat) : State :=
  let val := if rc = rcOK then (words.flatMap (leBytes 4)).take len else []
  let body := respEntry y.idx y.sub rc (typeCode y.idx y.sub) val val.length
  (({ s with relays := s.relays.filter (fun (z : Relay) => z != y) }).keep y.sid y.reqId 0x81 body).emit (.resp y.sid y.reqId 0x81 body)

/-- RELAY_GET (R414, R415): a session asks, this device serves another's request, or the answer to its own arrives. -/
def execRelayGet (r : RelayMsg) (s : State) : Res :=
  .next (match r with
    | .ask sid reqId ty target e => s.relayAsk sid reqId ty target e
    | .serve dev origin digest e word => s.relayServe dev origin digest e word
    | .answer sid reqId rc len words =>
      match s.relays.find? (fun (y : Relay) => y.sid == sid && y.reqId == reqId) with
      | some y => s.relayEnd y rc len words
      | none => s)

/-- RELAY_TIMEOUT (R414). -/
def execRelayTimeout (sid reqId : Nat) (s : State) : Res :=
  .next (match s.relays.find? (fun (y : Relay) => y.sid == sid && y.reqId == reqId) with
    | some y => (s.atTime (y.at_ + 50000000)).relayEnd y rcTimeout 0 []
    | none => s)

/-! ### Sideband (R415, R416) -/

/-- READ_WORD. -/
def execReadWord (ctrl cmd idx sub word : Nat) (s : State) : Res :=
  .next (if !s.pw.input || s.pw.stage == 0 then s
    else if cmd ≠ 1 ∨ !i3cObj idx sub then s.emit (.i3c ctrl rcNotPermitted 0)
    else
      let r := s.readWordOp (i3cWho ctrl) idx sub 0 word
      r.2.2.emit (.i3c ctrl r.1 r.2.1))

/-! ### Addresses (R402) -/

/-- ADDR_DUP: the address stays unused. -/
def execAddrDup (port : Nat) (configured : Bool) (s : State) : Res :=
  .next (if s.mgmtOn port configured then ({ s with dupAddr := s.dupAddr ++ [(port, configured)] }).flag 0x1010 4 2 else s)

/-- MGMT_ADDR_WRITE. -/
def execMgmtAddrWrite (sid port : Nat) (blob : Bytes) (s : State) : Res :=
  .next (if port < 2 then s.sessWrite sid 0x3C00 (port + 1) blob else s)

/-! ### Writes with a row of their own -/

/-- WSQ_ACK (R412). -/
def execWsqAck (sid idx sub value : Nat) (s : State) : Res :=
  .next (match objRow idx sub with
    | some r => if r.acc = .wsq then s.sessWrite sid idx sub (numBytes idx sub value) else s
    | none => s)

/-- BLOCK_SELECT (R413). -/
def execBlockSelect (sid value : Nat) (s : State) : Res := .next (s.sessWrite sid 0x1010 1 (numBytes 0x1010 1 value))

/-- FW_STAGE: the FINAL piece of an image (R409, R420). -/
def execFwStage (sid off : Nat) (piece : Bytes) (s : State) : Res :=
  .next (match Table.find s.sess sid with
    | none => s
    | some _ =>
      let e : SetEntry := { idx := 0x1020, sub := 1, off := off, val := piece }
      ((s.respond sid 0x1020 1 (s.setEntry (s.wctxOf sid) e).1).setEntry (s.wctxOf sid) e).2)

/-- FW_COMMIT (R420). -/
def execFwCommit (sid : Nat) (q : QSrc) (s : State) : Res := .next (s.quorumRow sid 0x1020 3 (fun _ => true) q)

/-- TENANT_REMOVE (R339). -/
def execTenantRemove (sid : Nat) (q : QSrc) (s : State) : Res := .next (s.quorumRow sid 0x4400 12 (fun _ => true) q)

/-- ENROLL (R368, R371). -/
def execEnroll (sid : Nat) (q : QSrc) (s : State) : Res := .next (s.quorumRow sid 0x8100 19 (fun _ => true) q)

/-- UNENROLL (R371). -/
def execUnenroll (sid : Nat) (q : QSrc) (s : State) : Res := .next (s.quorumRow sid 0x8100 20 (fun _ => true) q)

/-- QUORUM_K (R368, R371). -/
def execQuorumK (sid : Nat) (q : QSrc) (s : State) : Res := .next (s.quorumRow sid 0x8100 18 (fun _ => true) q)

/-- CLAIM_DONE (R368). -/
def execClaimDone (sid value : Nat) (s : State) : Res := .next (s.sessWrite sid 0x8100 22 (numBytes 0x8100 22 value))

/-- CLAIM_WINDOW_EXPIRY (R368). -/
def execClaimWindowExpiry (s : State) : Res :=
  .next (match s.sec.claim with
    | some t => ((s.atTime (t + 600000000000)).closeClaim).endClaim
    | none => s)

/-- CERT_SLOT1 (R358, R371). -/
def execCertSlot1 (sid : Nat) (q : QSrc) (s : State) : Res := .next (s.quorumRow sid 0x8000 2 (fun _ => true) q)

/-- FABRIC_ANCHOR (R359, R371). -/
def execFabricAnchor (sid : Nat) (q : QSrc) (s : State) : Res := .next (s.quorumRow sid 0x8000 4 (fun _ => true) q)

/-- SD_KEY (R366). -/
def execSdKey (sid : Nat) (blob : Bytes) (s : State) : Res := .next (s.sessWrite sid 0x8200 2 blob)

/-- SD_KEY_CLEAR (R366, R371). -/
def execSdKeyClear (sid : Nat) (q : QSrc) (s : State) : Res := .next (s.quorumRow sid 0x8200 4 (fun _ => true) q)

/-- LOCK_WRITE: LOCK_DEBUG, LOCK_ANCHOR or LOCK_MANAGERS (R372). -/
def execLockWrite (sid sub value : Nat) (s : State) : Res :=
  .next (if sub = 6 ∨ sub = 7 ∨ sub = 8 then s.sessWrite sid 0x8000 sub (numBytes 0x8000 sub value) else s)

/-- DEBUG_OPEN (R373, R374): its signatures; RESET_DONE of its kind ends it. -/
def execDebugOpen (sid : Nat) (q : QSrc) (s : State) : Res := .next (s.quorumRow sid 0xB000 1 (fun v => v % 16 == 6) q)

/-- NONCE_EXPIRY (R370). -/
def execNonceExpiry (nonce : Nat) (s : State) : Res :=
  .next (match s.sec.nonces.find? (fun (n : Nonce) => n.id == nonce) with
    | some n =>
      let s1 := s.atTime (n.issued + 5000000000)
      ({ s1 with sec := { s1.sec with nonces := s1.sec.nonces.filter (fun (y : Nonce) => y.id != nonce) } }).flag 0x8000 10 0
    | none => s)

/-- ADMIT (R397). -/
def execAdmitDevice (sid : Nat) (q : QSrc) (s : State) : Res := .next (s.quorumRow sid 0x9200 5 (fun _ => true) q)

/-- EXPEL (R400). -/
def execExpel (sid : Nat) (q : QSrc) (s : State) : Res := .next (s.quorumRow sid 0x9200 4 (fun _ => true) q)

end Sys2Proof.Machine
end

