-- ==== Sys2Proof/Machine/Peer.lean ====
section
/-! DEFINITION. Commands of the peer ports and of time synchronisation (R69 to R93, R95). -/

namespace Sys2Proof.Machine

open Sys2Proof

/-! ### Flits -/

/-- SYNC packets of a flit that leaves: t1 of a request is the time of its flit (R87). -/
def State.syncSent (s : State) (q : Nat) (f : Flit) : State :=
  f.pkts.foldl (fun (a : State) k =>
    let w := fun (i : Nat) => field k.data (8 * i) 8
    if isSync k 0 then { a with tb := { a.tb with reqs := Table.put a.tb.reqs q (w 0) } }.emit (.syncMsg q true (w 0) 0 0 0 0 0)
    else if isSync k 1 then a.emit (.syncMsg q false (w 0) (w 1) (w 2) (w 3) (w 4) (w 5))
    else a) s
/-- An exchange whose request was replayed is discarded (R87). -/
def State.syncReplayed (s : State) (q : Nat) (f : Flit) : State :=
  if f.pkts.any (fun k => isSync k 0) then { s with tb := { s.tb with reqs := Table.del s.tb.reqs q } } else s

/-- FLIT_TRANSMIT (R75, R79). -/
def execFlitTransmit (q : Nat) (s : State) : Res :=
  match (s.peerP q).transmit (s.waitsFor q) s.now with
  | none => .next s
  | some ((f, img, y), replayed) =>
    let s1 := (s.setPeer q y).emit (.flit q f img)
    .next (if replayed then (s1.bump (0x3800 + 8 * q) 7 1).syncReplayed q f else s1.syncSent q f)

/-- FLIT_RECEIVE (R78, R82, R91): nothing is received in DISABLED and DOWN; before AUTH and in RETRAIN only LINK flits are. The SPDM packets that an
accepted flit completes are answers to the device's own requests where it asked (R81). -/
def execFlitReceive (q : Nat) (f : Flit) (s : State) : Res :=
  let y := s.peerP q
  if y.st ≠ 3 ∧ y.st ≠ 4 then .next s
  else
    let s0 := s.setPeer q (y.countSymbols f)
    if y.bad f then .next (s0.badFlit q)
    else
      let s1 := if f.w0 / 2 ^ 60 ≠ 2 then s0.flitFields q f else s0
      let s2 := if f.w0 / 2 ^ 60 = 1 then s1.dataFlit q f else s1
      .next (if (s2.peerP q).st ≠ y.st then (if (s2.peerP q).st = 3 then s2.authStart q else s2)
        else if (s2.peerP q).rxSeq ≠ y.rxSeq then (y.rxPart.toList ++ f.pkts).foldl (fun (a : State) k => a.spdmIn q k) s2
        else s2)

/-- REPLAY_TIMEOUT (R79): in ACTIVE, and in AUTH for the flits of its SPDM exchange. -/
def execReplayTimeout (q : Nat) (s : State) : Res :=
  let y := s.peerP q
  .next (if (y.st = 3 ∨ y.st = 4) ∧ !y.replay.isEmpty then (s.atTime (y.ackAt + 2000)).replayFrom q else s)

/-! ### Life of a port -/

/-- PEER_PORT_ENABLE (R90, R95). -/
def execPeerPortEnable (sid q : Nat) (s : State) : Res :=
  .next (if q < 64 then s.sessionWrite sid (0x3800 + 8 * q) 1 false (fun t => t.peerEnableOp q) else s)

/-- PEER_PORT_DISABLE (R95). -/
def execPeerPortDisable (sid q : Nat) (s : State) : Res :=
  .next (if q < 64 then s.sessionWrite sid (0x3800 + 8 * q) 1 false (fun t => t.peerDisableOp q) else s)

/-- PEER_SIGNAL_DETECT: DOWN waits for a signal (R93). -/
def execPeerSignalDetect (q : Nat) (s : State) : Res :=
  .next (if s.peerOn q ∧ (s.peerP q).st = 1 ∧ s.lanesUp (q / 8) ∧ 5 ≤ s.pw.stage then s.setPeer q (s.peerTrain q (s.peerP q)) else s)

/-- PRESET_TIMEOUT (R90): the lane trains from the default preset. -/
def execPresetTimeout (q lane : Nat) (s : State) : Res :=
  let y := s.peerP q
  .next (if y.st = 2 ∧ lane < s.peerWidth q ∧ !y.dfltLanes.contains lane then s.setPeer q { y with dfltLanes := y.dfltLanes ++ [lane] } else s)

/-- PEER_TRAINING_DONE (R90): the presets are stored, and authentication begins, with the device's first request (R81). A port narrowed by a fault stays
so (R92). -/
def execPeerTrainingDone (q lanes : Nat) (presets : Bytes) (s : State) : Res :=
  let y := s.peerP q
  let n := lanesBelow (Nat.min lanes (Nat.min y.cap (s.peerWidth q)))
  if y.st ≠ 2 ∨ n = 0 then .next s
  else
    let slow := decide (n < s.peerWidth q)
    let s1 := (s.setPeer q { y with st := 3, lanes := n, cur := n, faulty := slow, cap := if slow then n else y.cap, dfltLanes := [] }).setBlob
      (0x3800 + 8 * q) 6 presets
    let s2 := if n < s.peerWidth q then s1.peerFlag q 5 else s1
    .next (s2.authStart q)

/-- PEER_AUTHENTICATED (R81, R82, R359): the flags of every case established; or ACTIVE, once the far end's exchange as requester is through
too. -/
def execPeerAuthenticated (q : Nat) (chain : Bytes) (peerIdObj peerSerial : Nat) (s : State) : Res :=
  let anchor := (s.peerP q).anchor
  let noId := !s.assigned
  let fail := anchor.isEmpty || Config.chainRootDigest chain != anchor
  let dup := !noId && !fail && decide (peerIdObj % 512 = s.devId)
  let loop := decide (peerSerial = Config.serial)
  if (s.peerP q).st ≠ 3 then .next s
  else
    let s1 := if fail then s else s.setPeer q { s.peerP q with peerDev := some (peerIdObj % 512) }
    let s2 := if anchor.isEmpty then s1.flag 0x8000 10 1 else s1
    let s3 := if noId then s2.peerFlag q 1 else s2
    let s4 := if fail then s3.peerFlag q 2 else s3
    let s5 := if dup then s4.peerFlag q 3 else s4
    let s6 := if loop then s5.peerFlag q 4 else s5
    .next (if noId || fail || dup || loop then s6
      else if (s6.spdmOf (.peer q)).stage = 6 then s6.peerActive q (peerIdObj % 512)
      else s6.setPeer q { s6.peerP q with authOk := true })

/-- PEER_LANE_FAILURE (R91): a lane loses lock, or more than 1 in 100,000 of its symbols in a window. -/
def execPeerLaneFailure (q lane : Nat) (s : State) : Res := .next (s.laneFail q lane)

/-- FAST_RETRAIN_DONE (R91, R93): back to ACTIVE, or to AUTH where it began there (R82). -/
def execFastRetrainDone (q : Nat) (s : State) : Res :=
  .next (if (s.peerP q).st = 5 then (s.setPeer q { s.peerP q with st := (s.peerP q).back, ackAt := s.now }).peerFlag q 6 else s)

/-- PEER_LINK_LOSS (R80): out of ACTIVE or RETRAIN; a link still training or authenticating goes back to wait for a signal. -/
def execPeerLinkLoss (q : Nat) (s : State) : Res :=
  .next (if 2 ≤ (s.peerP q).st then s.peerGone q else s)

/-- Held flits after the last one delivered. -/
def heldAfter (l : List Stored) (last : Nat) : List Stored :=
  if l.any (fun f => f.fseq == last) then (l.dropWhile (fun f => f.fseq != last)).drop 1 else l

/-- HANDOVER (R80): the held packets after the last delivered one go over the link that carried it, ahead of what waits there and at the
failed port. What another HANDOVER brought there goes first. -/
def execHandover (via q lastFseq : Nat) (s : State) : Res :=
  let y := s.peerP q
  match y.hold with
  | [] => .next s
  | (_, l) :: rest =>
    if (s.peerP via).st ≠ 4 then .next s
    else
      let ks := heldPkts (heldAfter l lastFseq)
      let s1 := s.setPeer q (if via = q then { y with hold := rest } else { y with hold := rest, ahead := [], txq := [] })
      let v := s1.peerP via
      .next ((s1.setPeer via (if via = q then { v with ahead := ks ++ v.ahead } else { v with ahead := v.ahead ++ ks ++ y.ahead, txq := y.txq ++ v.txq })).emit
        (.resent via ks))

/-- LINK_HOLD_EXPIRY (R80, R391). -/
def execLinkHoldExpiry (q : Nat) (s : State) : Res :=
  match (s.peerP q).hold with
  | [] => .next s
  | (t, _) :: _ => .next ((s.atTime (t + 10000000)).dropHold q)

/-! ### Time synchronisation -/

/-- SYNC_TIMER (R87): 1 ms after the last exchange began, a SYNC_REQ is queued; it takes its time as its flit starts. -/
def execSyncTimer (s : State) : Res :=
  match s.tb.upstream with
  | none => .next s
  | some q =>
    let s1 := s.atTime (s.tb.syncAt + 1000000)
    let k : Packet := { padPacket with ptype := 12, srcDev := s.devId, dstDev := (s1.peerP q).peerDev.getD 0, addr := Config.syncSubtype 0 * 2 ^ 56 }
    .next ({ s1 with tb := { s1.tb with syncAt := s1.now, reqs := Table.del s1.tb.reqs q } }.setPeer q ((s1.peerP q).enqueue0 [k]))

/-- SYNC_REQ (R86, R87), as its flit arrives: a SYNC_RESP is queued with the times so far, the root, the hops to it and this device's ID. -/
def execSyncReq (q t1 : Nat) (s : State) : Res :=
  let root := if s.tb.upstream.isNone then s.devId else s.tb.root
  let hops := if s.tb.upstream.isNone then 0 else s.tb.hops
  let y := s.peerP q
  let k : Packet := { padPacket with ptype := 12, srcDev := s.devId, dstDev := y.peerDev.getD 0, addr := Config.syncSubtype 1 * 2 ^ 56,
                                     data := leBytes 8 t1 ++ leBytes 8 s.now ++ zeros 8 ++ leBytes 8 root ++ leBytes 8 hops ++ leBytes 8 s.devId }
  .next (if y.st = 4 then s.setPeer q (y.enqueue0 [k]) else s)

/-- SYNC_RESP (R86 to R88): the advertisement, and the offset where the upstream answers the request that is out. -/
def execSyncResp (q t1 t2 t3 t4 root hops sender : Nat) (replayed : Bool) (s : State) : Res :=
  if (s.peerP q).st ≠ 4 then .next s
  else
    let s1 := { s with tb := { s.tb with adverts := Table.put s.tb.adverts q (root, hops, sender) } }.syncSelect
    let mine := decide (s.tb.upstream = some q) && decide (s1.tb.upstream = some q) && decide (Table.find s.tb.reqs q = some t1)
    let s2 := { s1 with tb := { s1.tb with reqs := Table.del s1.tb.reqs q } }
    .next (if mine && !replayed then s2.syncCorrect (syncOffsetPs t1 t2 t3 t4 (toSigned 32 (s.obj (0x3800 + 8 * q) 5))) else s2)

end Sys2Proof.Machine
end

