-- ==== Sys2Proof/Machine/Resets.lean ====
section
/-! DEFINITION. Power input, start-up, resets and power states (R31 to R37, R55, R442 to R456). -/

namespace Sys2Proof.Machine

open Sys2Proof

/-! ### Input power, start-up, module pins -/

/-- POR: input power returns within 19.0 to 28.0 V (R37). -/
def execPor (mv straps : Nat) (dbgEn : Bool) (s : State) : Res :=
  .next (if 19000 ≤ mv ∧ mv ≤ 28000 then s.endSessions.porReset mv straps dbgEn else s)

/-- STARTUP_PHASE (R453). -/
def execStartupPhase (selfTestOk : Bool) (s : State) : Res := .next (s.startup selfTestOk)

/-- What domains that lose power without a quiesce lose: HBM contents and all tenant work and state in them (R55, R450). -/
def State.darkLoss (s : State) : State :=
  { s with
    mem := s.mem.filter (fun c => faSpace c.1 == 1), poison := [], writes := [], heldAcc := [], heldTiles := [], lines := [], caches := [],
    msgs := [], fences := [], copies := [], remote := [], recipes := [], tensors := [], cmds := [], pend := [], colls := [], seqs := [], groups := [], prefixes := [],
    slots := [], psets := [], buckets := [], lds := [], extents := s.lostExtents, trays := [], nextEid := 2048,
    sets := s.sets.map (fun e => (e.1, { e.2 with versions := [], top := 0 })), sec := { s.sec with tenantKeys := [], sdKeys := [] } }

/-- MOD_EN_FALL (R34). -/
def execModEnFall (s : State) : Res :=
  .next (if s.pw.modEn then { s with pw := { s.pw with modEn := false } }.domainsOff.darkLoss else s)

/-- MOD_EN_RISE: a power-up that counts as a MODULE reset (R450); before POWERING's point it only lets the module power up (R453). -/
def execModEnRise (s : State) : Res :=
  .next (
    let s1 : State := { s with pw := { s.pw with modEn := true } }
    if s.pw.modEn then s
    else if 2 ≤ s.pw.stage ∧ s.pw.input ∧ !s.pw.tripped then s1.moduleReset
    else s1)

/-- A MODRST_N reset (R34, R445): it waits for the end of a debug opening. -/
def State.modrst (s : State) : State :=
  if s.resets.any (fun (r : ResetRun) => r.kind == 6) then
    (if s.resets.any (fun (r : ResetRun) => r.kind == 1) then s
     else { s with resets := s.resets ++ [({ kind := 1, unit := 0, at_ := s.now } : ResetRun)] })
  else if s.resets.any (fun (r : ResetRun) => r.kind == 1) then s
  else s.moduleReset

/-- A low pulse of MODRST_N that begins now and is taken: it acts at its rising edge, and a MODULE reset that runs already does not complete
before that edge (R34). -/
def State.modrstLow (s : State) (ns : Nat) : State :=
  let s1 : State := { s with pw := { s.pw with modrstHigh := s.now + ns } }
  if s.resets.any (fun (r : ResetRun) => r.kind == 1) then s1 else (s1.atTime (s.now + ns)).modrst

/-- MODRST_N_PULSE (R34): MODRST_N goes low for `ns`. A pulse below 50 ns is discarded, one of 1 µs is taken; what lies between is free. -/
def execModrstNPulse (ns : Nat) (s : State) : Res :=
  .next (
    if !s.pw.powerAllowed || decide (ns < 50) then s
    else if 1000 ≤ ns then s.modrstLow ns
    else
      let s1 : State := { s with pw := { s.pw with shortPulses := s.pw.shortPulses + 1 } }
      if Config.shortPulseTaken s.pw.shortPulses then s1.modrstLow ns else s1)

/-- OVER_VOLTAGE_SHUTDOWN (R37). -/
def execOverVoltageShutdown (mv : Nat) (s : State) : Res := .next (if 29000 ≤ mv ∧ s.pw.input then s.powerOff mv else s)

/-- UNDER_VOLTAGE_LOCKOUT (R37). -/
def execUnderVoltageLockout (mv : Nat) (s : State) : Res := .next (if mv ≤ 18000 ∧ s.pw.input then s.powerOff mv else s)

/-- THERMAL_TRIP (R55): the switched domains go off until POR. -/
def execThermalTrip (s : State) : Res :=
  .next (if s.pw.tripped || !s.pw.input then s
    else
      let s1 := s.domainsOff.darkLoss
      { s1 with pw := { s1.pw with tripped := true, temp := Nat.max 115 s1.pw.temp } })

/-! ### Reset requests -/

/-- RESET_MODULE (R442). -/
def execResetModule (sid : Nat) (q : QSrc) (s : State) : Res := .next (s.quorumRow sid 0xB000 1 (fun v => v % 16 == 1) q)
/-- RESET_WARM (R442, R446). -/
def execResetWarm (sid : Nat) (q : QSrc) (s : State) : Res := .next (s.quorumRow sid 0xB000 1 (fun v => v % 16 == 2) q)
/-- RESET_DIE (R442, R445). -/
def execResetDie (sid : Nat) (q : QSrc) (s : State) : Res := .next (s.quorumRow sid 0xB000 1 (fun v => v % 16 == 3) q)

/-- The RESET_REQUEST of a port or an engine. -/
def portRequest (isPeer : Bool) (port : Nat) : Nat := 4 + port * 2 ^ 16 + (if isPeer then 2 ^ 23 else 0)
/-- See `portRequest`. -/
def engineRequest (e : Nat) : Nat := 5 + (e / 52) * 256 + (e % 52) * 2 ^ 16

/-- RESET_PORT: by a session, or by the device under R134. -/
def execResetPort (sid : Option Nat) (isPeer : Bool) (port : Nat) (s : State) : Res :=
  .next (
    if decide (port < (if isPeer then 64 else 128)) then
      match sid with
      | some i => s.sessWrite i 0xB000 1 (leBytes 4 (portRequest isPeer port))
      | none => (s.resetOp (portRequest isPeer port)).2
    else s)

/-- RESET_ENGINE: by a session, or by the device under R386. -/
def execResetEngine (sid : Option Nat) (e : Nat) (s : State) : Res :=
  .next (
    if e < 416 then
      match sid with
      | some i => s.sessWrite i 0xB000 1 (leBytes 4 (engineRequest e))
      | none => (s.resetOp (engineRequest e)).2
    else s)

/-- RESET_DONE (R442 to R445): unit is the die, the port (256 more for a peer port) or the engine. -/
def execResetDone (kind unit : Nat) (s : State) : Res :=
  .next (match s.resets.find? (fun (r : ResetRun) => r.kind == kind && r.unit == unit) with
    | some r => s.resetEnd r
    | none => s)

/-- WARM_HOLD_EXPIRY (R446). -/
def execWarmHoldExpiry (s : State) : Res :=
  .next (match s.fmap.resetting with
    | none => s
    | some t =>
      let s1 := s.atTime t
      let late := (List.range 64).any (fun q => s1.peerOn q && (s1.peerP q).st != 4 && (s1.peerP q).st != 5)
      let s2 : State := { s1 with fmap := { s1.fmap with resetting := none } }
      if late then s2.flag 0xB000 4 2 else s2)

/-! ### Power requests -/

/-- POWER_D0 (R447). -/
def execPowerD0 (sid : Nat) (s : State) : Res := .next (s.sessWrite sid 0xB010 2 (leBytes 2 0))
/-- POWER_D1 (R447). -/
def execPowerD1 (sid : Nat) (s : State) : Res := .next (s.sessWrite sid 0xB010 2 (leBytes 2 1))
/-- POWER_D2 (R447, R448). -/
def execPowerD2 (sid : Nat) (q : QSrc) (s : State) : Res := .next (s.quorumRow sid 0xB010 2 (fun v => v % 4 == 2) q)
/-- POWER_D3 (R447). -/
def execPowerD3 (sid : Nat) (q : QSrc) (s : State) : Res := .next (s.quorumRow sid 0xB010 2 (fun v => v % 4 == 3) q)
/-- POWER_TRANSITION_DONE (R447, R449). -/
def execPowerTransitionDone (s : State) : Res := .next s.transEnd

end Sys2Proof.Machine
end

