-- ==== Sys2Proof/Machine/Spdm.lean ====
section
/-! DEFINITION. The SPDM requests the device answers (R81, R359, R360, R363). -/

namespace Sys2Proof.Machine

open Sys2Proof

/-- GET_VERSION: 1.2 and 1.3; it begins the exchange anew, with the chain of that moment; a peer port that authenticates keeps the one it began
with (R359). -/
def execGetVersion (ch : SpdmCh) (s : State) : Res :=
  let auth := match ch with | .peer q => (s.peerP q).st == 3 | .host _ _ => false
  let x := s.spdmOf ch
  let y : Spdm := { stage := 1, slot1 := if auth then x.slot1 else s.slot1On, chain := if auth then x.chain else s.shownChain, asked := x.asked, got := x.got }
  .next (if s.spdmOn ch then (s.setSpdm ch y).sendSpdm ch 0x04 (leBytes 1 0x12 ++ leBytes 1 0x13) else s)

/-- GET_CAPABILITIES. -/
def execGetCapabilities (ch : SpdmCh) (s : State) : Res :=
  .next (s.spdmAnswer ch (decide (1 ≤ (s.spdmOf ch).stage)) 0x04 2 0x61 spdmCaps)

/-- NEGOTIATE_ALGORITHMS: P-384, SHA-384 and AES-256-GCM, or an error where the requester offers no such suite (R81). -/
def execNegotiateAlgorithms (ch : SpdmCh) (offersSuite : Bool) (s : State) : Res :=
  .next (s.spdmAnswer ch (decide ((s.spdmOf ch).stage = 2) && offersSuite) 0x04 3 0x63 spdmSuite)

/-- GET_CERTIFICATE: a portion of the chain that this authentication shows, and what remains (R359). -/
def execGetCertificate (ch : SpdmCh) (off len : Nat) (s : State) : Res :=
  let x := s.spdmOf ch
  let c := x.chain
  let part := (c.drop off).take len
  let left := c.length - off - part.length
  .next (s.spdmAnswer ch (decide (3 ≤ x.stage) && decide (off < c.length)) 0x01 (Nat.max 4 x.stage) 0x02
    (leBytes 1 (bool01 x.slot1) ++ leBytes 2 part.length ++ leBytes 2 left ++ part))

/-- KEY_EXCHANGE: with mutual authentication on a peer port (R81); a fifth session of a host port is refused (R360). The session has its key (R356). -/
def execKeyExchange (ch : SpdmCh) (chain : Bytes) (valid : Bool) (s : State) : Res :=
  let x := s.spdmOf ch
  if x.stage < 3 then .next (s.spdmAnswer ch false 0x04 0 0 [])
  else if 4 ≤ s.spdmBeside ch then .next (s.spdmAnswer ch false 0x0A 0 0 [])
  else
    let ok := valid && (match ch with | .host _ _ => true | .peer _ => !chain.isEmpty)
    let s1 := s.spdmAnswer ch ok 0x06 5 0x64 []
    .next (if s.spdmOn ch ∧ ok then { s1.setSpdm ch { s1.spdmOf ch with key := Config.spdmKey s.freeCtr } with freeCtr := s.freeCtr + 1 } else s1)

/-- FINISH: the session stands, and on a peer port the device sends its 0x1000.05 value in a vendor-defined message; with its own check of the far end
passed, the port is ACTIVE (R81, R82). -/
def execFinish (ch : SpdmCh) (valid : Bool) (s : State) : Res :=
  let s1 := s.spdmAnswer ch (decide ((s.spdmOf ch).stage = 5) && valid) 0x06 6 0x65 []
  let made := s.spdmOn ch ∧ (s.spdmOf ch).stage = 5 ∧ valid
  .next (match ch with
    | .peer q =>
      if made then
        let s2 := s1.sendSpdm ch 0x7E (leBytes 2 (s.obj 0x1000 5))
        if (s2.peerP q).st = 3 ∧ (s2.peerP q).authOk then s2.peerActive q ((s2.peerP q).peerDev.getD 0) else s2
      else s1
    | .host _ _ => s1)

/-- GET_MEASUREMENTS: the blocks, signed with the Alias key that the device has (R363, R374). -/
def execGetMeasurements (ch : SpdmCh) (idx : Nat) (s : State) : Res :=
  let st := (s.spdmOf ch).stage
  match s.measurements idx with
  | some b => .next (s.spdmAnswer ch (decide (3 ≤ st)) 0x04 st 0x60 (b ++ Config.keySign s.sec.aliasKey b))
  | none => .next (s.spdmAnswer ch false 0x01 0 0 [])

/-- KEY_UPDATE from the far end of a peer link: its next flits may carry the next KEY_ID (R85). -/
def execKeyUpdate (q : Nat) (s : State) : Res :=
  let y := s.peerP q
  .next (if y.st = 4 then (s.setPeer q { y with rxNext := true }).sendSpdm (.peer q) 0x69 [] else s)

/-- KEY_LIFE_EXPIRY: after 2^32 DATA flits, or KEY_LIFE hours after the key came into use, the transmit key takes the next KEY_ID
(R85). -/
def execKeyLifeExpiry (q : Nat) (s : State) : Res :=
  let y := s.peerP q
  if y.st ≠ 4 then .next s
  else
    let s1 := if 2 ^ 32 ≤ y.keyFlits then s else s.atTime (y.keyAt + s.obj 0x3A00 3 * 3600000000000)
    .next ((s1.setPeer q { y with keyTx := y.keyTx % 3 + 1, txKey := Config.updatedKey y.txKey, keyFlits := 0, keyAt := s1.now }).sendSpdm
      (.peer q) 0xE9 [])

end Sys2Proof.Machine
end

