-- ==== Sys2Proof/Machine/Switch.lean ====
section
/-! DEFINITION. Commands of the switch cores (R97 to R116). -/

namespace Sys2Proof.Machine

open Sys2Proof

/-- An admitted cell of a packet on its way to an output, and on the far die to the port given. -/
def cellOf (d x : Nat) (pkt : Packet) (out : Nat) (fin : Option Nat) : Cell :=
  { inp := x, tc := pkt.tc, out := out, arr := 0, pkt := pkt, fin := fin, org := d * 63 + x }

/-- Stores an admitted cell, with the credit of one that found shared room (R106), and SHARED_LOW at its onset (R117). The credit of a cell that awaits
its check follows the check: its flit may come again. Where its class can take no further cell, credit is withheld from then on. -/
def State.storeCell (s : State) (d : Nat) (c : Cell) (r : Bool × Option Nat) (checked : Bool) : State :=
  let co := s.core d
  let a := Table.get co.outs {} c.out
  let s1 := (s.setCore d { co with cells := co.cells ++ [{ c with arr := a.cyc + 1, shared := r.1, part := r.2, checked := checked }] }).noteLow s
  let s2 := if r.1 ∧ checked then s1.credit d c.inp c.pkt else s1
  if s2.blocked d c.inp (c.tc, c.pkt.tenant) then s2.withhold d c.inp c.pkt else s2

/-- Whether a class of a port is cut through (R112). -/
def State.cutThrough (s : State) (d x tc : Nat) : Bool :=
  match xport d x with
  | .flex p => tc != 0 && bit (s.obj (0x4100 + p) 9) tc
  | .peer q => tc != 0 && bit (s.obj (0x4180 + q) 9) tc
  | _ => false

/-- Cells of the dedicated TC0 buffers whose time has come go on, one for each port (R102). -/
def State.releaseTc0 (s : State) (d : Nat) : State :=
  let go := fun (a : State) (x : Nat) =>
    match (a.core d).tc0Wait.find? (fun c => c.inp == x) with
    | some c =>
      if a.tc0Due d x ≤ a.xbCycle then
        let co := a.core d
        ((a.setCore d { co with tc0Wait := co.tc0Wait.erase c }).storeCell d c (false, none) true).tc0Note d x
      else a
    | none => a
  (List.range 16).foldl go s

/-- A packet at an ingress that has its output: admitted where it finds room, else its credit is withheld. A host's TC0 cell that comes sooner than
TC0_HOST_RATE allows waits in its port's dedicated buffer (R102). -/
def State.admitCell (s : State) (d : Nat) (c : Cell) : State :=
  let host0 : Bool := c.tc == 0 && (match xport d c.inp with | .flex p => s.role p == 1 | _ => false)
  match s.room d c.inp c.pkt with
  | none => s.withhold d c.inp c.pkt
  | some r =>
    if host0 then
      if s.xbCycle < s.tc0Due d c.inp ∨ (s.core d).tc0Wait.any (fun y => y.inp == c.inp) then
        let co := s.core d
        (s.setCore d { co with tc0Wait := co.tc0Wait ++ [c] }).withhold d c.inp c.pkt
      else (s.storeCell d c r true).tc0Note d c.inp
    else s.storeCell d c r (!s.cutThrough d c.inp c.tc)

/-- Takes the first cell of a class off the wires of a link: the one whose stamp is next (R99). -/
def takeWire (e tc stamp : Nat) (pkt : Packet) : List (Nat × Cell) → Option (Cell × List (Nat × Cell))
  | [] => none
  | w :: t =>
    if w.1 = e ∧ w.2.tc = tc ∧ w.2.stamp = stamp ∧ w.2.pkt = pkt then some (w.2, t) else (takeWire e tc stamp pkt t).map (fun r => (r.1, w :: r.2))

/-- A cell off a die-to-die link (R99): in stamp order, to the port its address or route named when it came in, else to the one its station names here;
never over a second link (R15). -/
def State.linkAdmit (s : State) (d x e : Nat) (pkt : Packet) (outPort : Nat) : State :=
  let co := s.core d
  let n := Table.get co.expect 0 (e * 8 + pkt.tc)
  match takeWire e pkt.tc n pkt co.wires with
  | none => s
  | some (w, rest) =>
    let out := w.fin.getD outPort
    if 24 ≤ out ∧ out < 45 then s
    else
      match s.room d x pkt with
      | none => s.withhold d x pkt
      | some r =>
        (s.setCore d { co with wires := rest, expect := Table.put co.expect (e * 8 + pkt.tc) (n + 1) }).storeCell d { w with inp := x, out := out } r true

/-- A request refused at its ingress (R118, R130): its credit goes back; a read or an atomic has a poisoned completion there, a write is discarded. -/
def State.refuseCell (s : State) (d x : Nat) (pkt : Packet) : State :=
  let s1 := s.credit d x pkt
  if pkt.ptype = 2 then s1
  else
    let k := { replyTo pkt [] true with ptype := if pkt.ptype = 1 then 3 else 5 }
    s1.emit (match xport d x with | .peer _ => .toCore d x k | _ => .cell d x k)
/-- A packet for this device at an ingress: to the port of its address (R119), else to the output given, which its station names. One whose address
has not the form of R118 is refused, and one for a die out of service waits. -/
def State.homeAdmit (s : State) (d x : Nat) (pkt : Packet) (outPort : Nat) : State :=
  if (pkt.ptype = 1 ∨ pkt.ptype = 2 ∨ pkt.ptype = 4) ∧ !faOk pkt.addr then s.refuseCell d x pkt
  else
    match addrPort pkt with
    | some (e, y) =>
      if e = d then s.admitCell d (cellOf d x pkt y none)
      else if s.dieUp e then s.admitCell d (cellOf d x pkt (linkOut d e) (some y))
      else s.withhold d x pkt
    | none => s.admitCell d (cellOf d x pkt ((linkMembers outPort).headD outPort) none)

/-- A packet for another device at an ingress: by its route; refused without one (R100). -/
def State.awayAdmit (s : State) (d x : Nat) (pkt : Packet) : State :=
  match s.routeFlow d x pkt with
  | none =>
    let s1 := s.flag 0x4000 5 2
    let s2 := s1.credit d x pkt
    match xport d x with | .flex p => (if s.role p = 1 then s2.emit (.unsupported p) else s2) | _ => s2
  | some (none, s1) => s1.withhold d x pkt
  | some (some q, s1) => s1.admitCell d (cellOf d x pkt (peerOut d q) (if q / 8 = d then none else some (16 + q % 8)))

/-- CELL_ADMIT (R97 to R107): a packet at a crossbar ingress. -/
def execCellAdmit (die inPort : Nat) (pkt : Packet) (outPort : Nat) (s0 : State) : Res :=
  if die ≥ 8 ∨ inPort ≥ 63 ∨ outPort ≥ 63 ∨ !s0.coreRuns die ∨ !s0.portClass die inPort pkt then .next s0
  else
    let s := (s0.countBp die).releaseTc0 die
    if !s.ingressTakes die inPort pkt.tc pkt.tenant ∨ (pkt.ptype = 2 ∧ s.flagStop die inPort (pkt.tc, pkt.tenant)) then .next (s.withhold die inPort pkt)
    else
      match xport die inPort with
      | .link e => .next (s.linkAdmit die inPort e pkt outPort)
      | _ => .next (if pkt.dstDev = s.devId ∨ !s.assigned then s.homeAdmit die inPort pkt outPort else s.awayAdmit die inPort pkt)

/-- CELL_CROSS (R113 to R116): one cycle of an output, which for a die-to-die link is that of its three members (R99). -/
def execCellCross (die outPort : Nat) (s : State) : Res :=
  .next (if die < 8 ∧ outPort < 63 ∧ s.coreRuns die then (((s.countBp die).releaseTc0 die).outCycle die outPort).countBp die else s)

/-- CUT_THROUGH_CHECK_RESULT (R113): the cells of an ingress that await their check. Those that pass go on, with the credit of shared room; those that
fail are discarded, and their flit comes again. -/
def execCutThroughCheckResult (die inPort : Nat) (ok : Bool) (s : State) : Res :=
  let co := s.core die
  let mine := fun (c : Cell) => c.inp == inPort && !c.checked
  if ok then
    let out := co.egress.filter mine
    let all := (co.cells ++ co.egress).filter (fun c => mine c && c.shared)
    let s1 := s.setCore die { co with cells := co.cells.map (fun (c : Cell) => if mine c then { c with checked := true } else c),
                                      egress := co.egress.filter (fun c => !mine c) }
    let s2 := all.foldl (fun (a : State) (c : Cell) => a.credit die c.inp c.pkt) s1
    .next (out.foldl (fun (a : State) c => a.cross die { c with checked := true }) s2)
  else .next (s.setCore die { co with cells := co.cells.filter (fun c => !mine c), egress := co.egress.filter (fun c => !mine c) })

/-- ROUTE_MEMBER_MOVE (R100): a flow with nothing left on its old member moves to the one it hashes to. -/
def execRouteMemberMove (die inPort tc tenant dev : Nat) (s : State) : Res :=
  let co := s.core die
  let k := flowKey tenant tc die inPort dev
  match Table.find co.flows k, s.routeMember tenant tc die inPort dev with
  | some old, some q =>
    if old ≠ q ∧ !s.flowOut tenant tc die inPort dev old then .next (s.setCore die { co with flows := Table.put co.flows k q }) else .next s
  | _, _ => .next s

/-- Die and crossbar port of an ingress. -/
def ingressPort (i : Ingress) : Nat × Nat :=
  match i with
  | .flex p => (p / 16, p % 16)
  | .peer q => (q / 8, 16 + q % 8)
  | .tenantOn p _ => (p / 16, p % 16)

/-- No admitted cell of TC2 to TC7, wherever in the device it is, and no request of the source is left (R109). -/
def State.drained (s : State) (i : Ingress) : Bool :=
  let x := ingressPort i
  let mine := fun (c : Cell) => c.org == x.1 * 63 + x.2 && decide (2 ≤ c.tc) && (match i with | .tenantOn _ t => c.pkt.tenant == t | _ => true)
  let from_ := fun (p l : Nat) => match i with
    | .flex a => p == a
    | .tenantOn a u => p == a && s.ldTenant p l == some u
    | _ => false
  let src := fun (u : Source) => match u with
    | .host p l => from_ p l
    | .peer v _ => (match i with | .peer q => (s.peerP q).peerDev == some v | _ => false)
    | _ => false
  let view := fun (t : Txn) => (match t.view with | some v => from_ v.1 v.2 | none => false) || (match t.atom with | some r => src r.src | none => false)
    || (match t.pkt with | some k => src (.peer k.srcDev k.tenant) | none => false)
  !(List.range 8).any (fun d => (s.core d).held.any mine || (s.core d).wires.any (fun w => mine w.2))
    && !s.writes.any (fun w => src w.src) && !s.remote.any (fun r => src r.src) 
    && !s.lines.any (fun e => (match e.2.txn with | some t => view t | none => false) || e.2.queue.any view)

/-- QUIESCE (R109). -/
def execQuiesce (at_ : Ingress) (s : State) : Res := .next (if ingressOk at_ then s.quiesceAt at_ else s)

/-- QUIESCED (R109). -/
def execQuiesced (at_ : Ingress) (s : State) : Res :=
  let g := s.ingressAt (ingressKey at_)
  if !s.drained at_ then .next s
  else
    match at_ with
    | .tenantOn _ t => .next (if g.tenants.contains (t, 1) then
        s.setIngress (ingressKey at_) { g with tenants := g.tenants.map (fun e => if e = (t, 1) then (t, 2) else e) } else s)
    | _ => .next (if g.st = 1 then s.setIngress (ingressKey at_) { g with st := 2 } else s)

/-- REVOKE (R109, R132): the extent leaves the check of every ingress. -/
def execRevoke (eid : Nat) (s : State) : Res := .next (s.revoke eid false true)

/-- HALT (R109): it holds for the whole port, whichever tenant a command names. -/
def execHalt (at_ : Ingress) (s : State) : Res :=
  .next (if ingressOk at_ then s.haltAt at_ else s)

end Sys2Proof.Machine
end

