-- ==== Sys2Proof/Machine/Tdisp.lean ====
section
/-! DEFINITION. TDISP and IDE_KM messages of the host ports (R360 to R364). -/

namespace Sys2Proof.Machine

open Sys2Proof

/-- A TDISP answer where messages reach the device. -/
def State.tdispSay (s : State) (p l msg : Nat) (data : Bytes) : State := if s.tdispOn p l then s.emit (.tdisp p l msg data) else s
/-- A TDISP error. -/
def State.tdispErr (s : State) (p l code : Nat) : State := s.tdispSay p l 0x7F (leBytes 4 code)

/-- GET_TDISP_VERSION: 1.0. -/
def execGetTdispVersion (p l : Nat) (s : State) : Res := .next (s.tdispSay p l 0x01 (leBytes 1 0x10))

/-- GET_TDISP_CAPABILITIES: the requests of R360, codes 0x81 to 0x87. -/
def execGetTdispCapabilities (p l : Nat) (s : State) : Res := .next (s.tdispSay p l 0x02 (leBytes 4 0 ++ leBytes 16 0xFE))

/-- LOCK_INTERFACE_REQUEST (R361): with the nonce that a START names. -/
def execLockInterfaceRequest (p l : Nat) (s : State) : Res :=
  let d := s.ld p l
  if !s.tdispOn p l then .next s
  else if d.tdi ≠ 0 then .next (s.tdispErr p l 0x0004)
  else if !s.lockable p l then .next (s.tdispErr p l 0x0104)
  else
    let g := s.draw 4
    .next ((g.2.setLd p l { g.2.ld p l with tdi := 1 }).tdispSay p l 0x03 (g.1.flatMap (leBytes 8)))

/-- GET_DEVICE_INTERFACE_REPORT (R364): of a locked or running interface. -/
def execGetDeviceInterfaceReport (p l : Nat) (s : State) : Res :=
  let d := s.ld p l
  match s.ldTenant p l with
  | some t => .next (if d.tdi = 1 ∨ d.tdi = 2 then s.tdispSay p l 0x04 (s.reportArea t) else s.tdispErr p l 0x0004)
  | none => .next (s.tdispErr p l 0x0004)

/-- GET_DEVICE_INTERFACE_STATE. -/
def execGetDeviceInterfaceState (p l : Nat) (s : State) : Res := .next (s.tdispSay p l 0x05 (leBytes 1 (s.ld p l).tdi))

/-- START_INTERFACE_REQUEST: CONFIG_LOCKED to RUN. -/
def execStartInterfaceRequest (p l : Nat) (s : State) : Res :=
  let d := s.ld p l
  if !s.tdispOn p l then .next s
  else if d.tdi = 1 then .next ((s.setLd p l { d with tdi := 2 }).tdispSay p l 0x06 [])
  else .next (s.tdispErr p l 0x0004)

/-- STOP_INTERFACE_REQUEST (R362): back to CONFIG_UNLOCKED. -/
def execStopInterfaceRequest (p l : Nat) (s : State) : Res :=
  if !s.tdispOn p l then .next s
  else .next ((s.setLd p l { s.ld p l with tdi := 0 }).tdispSay p l 0x07 [])

/-- TDI_ERROR (R362): what moves a locked or running interface to ERROR has happened; a stream that is lost goes down with its keys, and takes every
such interface of its port with it. -/
def execTdiError (p : Nat) (what : TdiCause) (s : State) : Res :=
  .next (match what with
    | .iface l => if p < 128 ∧ l < 16 then s.tdiErr p l else s
    | .stream k => if p < 128 ∧ k ≤ 4 then s.dropStream p k else s)

/-- IDE_KM_KEY_PROG (R360): the host programs a key set of link IDE (stream 0) or of one of four selective streams. -/
def execIdeKmKeyProg (p stream keySet : Nat) (key : IdeKey) (s : State) : Res :=
  let k := 8 * p + stream
  let x := Table.get s.sec.ide {} k
  .next (if s.tdispOn p 0 ∧ stream ≤ 4 ∧ keySet < 2 then
      { s with sec := { s.sec with ide := Table.put s.sec.ide k { x with keys := Table.put x.keys keySet key.bytes, function1 := key.function1 } } }
    else s)

/-- K_SET_GO (R360): the stream is established on its programmed key set, or goes on with the alternate one. -/
def execKSetGo (p stream : Nat) (s : State) : Res :=
  let k := 8 * p + stream
  let x := Table.get s.sec.ide {} k
  let sel := if x.up then 1 - x.keySet else if (Table.find x.keys 0).isSome then 0 else 1
  .next (if s.tdispOn p 0 ∧ stream ≤ 4 ∧ (Table.find x.keys sel).isSome then
      { s with sec := { s.sec with ide := Table.put s.sec.ide k { x with up := true, keySet := sel } } }.emit (.kSet p stream sel)
    else s)

end Sys2Proof.Machine
end

