-- ==== Sys2Proof/Machine/Telemetry.lean ====
section
/-! DEFINITION. Fixative snapshots and the clearing of monitors (R432 to R441). -/

namespace Sys2Proof.Machine

open Sys2Proof

/-- The response of a TAKE: a code, and where it is OK the SNAP_ID and T (R434). -/
def takeBody (rc id t : Nat) : Bytes := if rc = rcOK then codeBody rc ++ leBytes 4 id ++ leBytes 8 t else codeBody rc

/-- The SNAP_ID after one (R435). -/
def nextSnapId (id : Nat) : Nat := if id = 0xFFFFFFFF then 1 else id + 1

/-- TAKE (R435). -/
def State.snapTake (s : State) (sid t : Nat) (clear : Bool) : Bytes × State :=
  if t % 10 ≠ 0 ∨ t < s.now + 20000 then (takeBody rcBadValue 0 t, s)
  else match s.snaps.find? (fun (x : Snap) => x.st == 0 && x.t == t) with
    | some x =>
      let y : Snap := { x with clear := x.clear || clear, sids := if x.sids.contains sid then x.sids else x.sids ++ [sid] }
      (takeBody rcOK x.id t, { s with snaps := s.snaps.map (fun (z : Snap) => if z.id = x.id then y else z) })
    | none =>
      if 4 ≤ (s.snaps.filter (fun (x : Snap) => x.st == 0)).length then (takeBody rcBusy 0 t, s)
      else
        let x : Snap := { id := s.nextSnap, t := t, clear := clear, sids := [sid] }
        (takeBody rcOK x.id t, { s with snaps := s.snaps.filter (fun (z : Snap) => z.id != x.id) ++ [x], nextSnap := nextSnapId s.nextSnap })

/-- SNAPSHOT_TAKE. -/
def execSnapshotTake (sid reqId t : Nat) (clear : Bool) (s : State) : Res :=
  .next (s.request sid reqId 7 false (fun a => a.snapTake sid t clear))

/-- Whether an object is a counter: RO, U64, class V. -/
def isCounter (idx sub : Nat) : Bool := match objRow idx sub with | some r => r.acc == .ro && r.ty == .u64 && r.cls == .v | none => false

/-- A monitor's field at its subindex (R441). -/
def Mon.fieldBytes (m : Mon) (sub : Nat) : Bytes :=
  match sub with | 4 => leBytes 8 m.min | 5 => leBytes 8 m.max | 6 => leBytes 8 m.count | 7 => leBytes 8 m.sum | _ => m.histBytes

/-- The code and value of an entry of a TAKEN snapshot (R437). -/
def State.snapValue (s : State) (x : Snap) (e : GetEntry) : Nat × Bytes :=
  let isMon := decide (0xA100 ≤ e.idx) && decide (e.idx < 0xA112)
  if isMon && !(decide (4 ≤ e.sub) && decide (e.sub ≤ 8)) || !isMon && !isCounter e.idx e.sub then (rcNoObject, [])
  else if e.off ≠ 0 then (rcBadValue, [])
  else if isMon then (match Table.find x.mons (e.idx - 0xA100) with | some m => (rcOK, m.fieldBytes e.sub) | none => (rcBusy, []))
  else match objRow e.idx e.sub with
    | none => (rcNoObject, [])
    | some r =>
      let k := s.keyOf r e.idx e.sub
      if x.out.any (fun (o : ResetRun) => o.covers (objScope k)) then (rcBusy, []) else (rcOK, leBytes 8 (Table.get x.counters (objDefault k) k))

/-- A READ's entries: values of a TAKEN snapshot, else REFUSED. -/
def State.snapEntries (s : State) (x : Option Snap) (l : List GetEntry) : Bytes :=
  l.foldl (fun (b : Bytes) e =>
    let r := match x with | some y => s.snapValue y e | none => (rcRefused, [])
    b ++ respEntry e.idx e.sub r.1 (if r.1 = rcNoObject then 0 else typeCode e.idx e.sub) (r.2.take (1200 - 12 - 20 - b.length)) r.2.length) []

/-- READ (R437). -/
def State.snapRead (s : State) (id : Nat) (l : List GetEntry) : Bytes × State :=
  let x := s.snaps.find? (fun (y : Snap) => y.id == id)
  let st := match x with | some y => y.st | none => 4
  (leBytes 1 st ++ zeros 3 ++ s.snapEntries (if st = 1 then x else none) l,
    { s with snaps := s.snaps.map (fun (y : Snap) => if y.id = id then { y with read := true } else y) })

/-- SNAPSHOT_READ. -/
def execSnapshotRead (sid reqId id : Nat) (entries : List GetEntry) (s : State) : Res :=
  .next (if msgFits (8 + 8 * entries.length) then s.request sid reqId 7 false (fun a => a.snapRead id entries) else s)

/-- CANCEL (R438). -/
def State.snapCancel (s : State) (id : Nat) : Bytes × State :=
  if s.snaps.any (fun (x : Snap) => x.id == id && x.st == 0) then
    (codeBody rcOK, { s with snaps := s.snaps.map (fun (x : Snap) => if x.id = id then { x with st := 3 } else x) })
  else (codeBody rcRefused, s)

/-- SNAPSHOT_CANCEL. -/
def execSnapshotCancel (sid reqId id : Nat) (s : State) : Res := .next (s.request sid reqId 7 false (fun a => a.snapCancel id))

/-- The counters that are computed from other state. -/
def derivedCounters : List (Nat × Nat) :=
  [(0x5030, 2), (0x5100, 3), (0x5100, 7)] ++ [0x7010, 0x7011, 0x7012].flatMap (fun i => (List.range 5).map (fun k => (i, k + 1)))

/-- Every counter at this moment. -/
def State.allCounters (s : State) : Table Nat :=
  let kept := s.objs.filter (fun e => isCounter (e.1 % 2 ^ 24 / 256) (e.1 % 256))
  derivedCounters.foldl (fun (t : Table Nat) e =>
    match objRow e.1 e.2 with | some r => Table.put t (okey e.1 e.2) (s.readNum r e.1 e.2) | none => t) kept

/-- What is in reset, or without power, at this moment: a die without power counts as one in reset (R437). -/
def State.outNow (s : State) : List ResetRun :=
  s.resets ++ ((List.range 8).filter (fun d => !bit s.pw.domOn d)).map (fun d => ({ kind := 3, unit := d, at_ := s.now } : ResetRun))

/-- The scope a MON_SCOPE value names. -/
def monScope (v : Nat) : OScope :=
  match v % 16 with
  | 1 => .die (bits v 27 16)
  | 2 => .flex (bits v 27 16)
  | 3 => .peer (bits v 27 16)
  | 4 => .tenant (bits v 27 16)
  | _ => .device

/-- The copy at T: monitors with the samples stamped before T, those whose scope is out left out; a written clear of the same edge
follows it (R433, R436). -/
def State.copyMons (s : State) (t : Nat) : Table Mon :=
  let out := s.outNow
  ((List.range 18).filter (fun m => !out.any (fun (r : ResetRun) => r.covers (monScope (s.obj (0xA100 + m) 1))))).map
    (fun m => (m, (Table.get s.mons {} m).settle (t - 1)))

/-- Clears every monitor at a snapshot's edge. -/
def State.clearMons (s : State) : State :=
  { s with mons := s.mons.map (fun e => (e.1, { e.2.clear with clearAt := e.2.clearAt })) }

/-- The oldest TAKEN snapshot beyond two is REPLACED (R436, R440). -/
def State.replaceOld (s : State) : State :=
  let taken := sortOn (fun (x : Snap) => x.t) (s.snaps.filter (fun (x : Snap) => x.st == 1))
  match taken with
  | x :: _ :: _ :: _ =>
    let s1 := s.snapDropped x 2
    { s1 with snaps := s1.snaps.map (fun (y : Snap) => if y.id = x.id then { y with st := 2, mons := [], counters := [], out := [] } else y) }
  | _ => s

/-- The edge of a pending snapshot (R436). -/
def State.snapEdge (s0 : State) (x : Snap) : State :=
  let s := s0.atTime x.t
  let y : Snap := { x with st := 1, mons := s.copyMons x.t, counters := s.allCounters, out := s.outNow }
  let s1 : State := { s with snaps := s.snaps.map (fun (z : Snap) => if z.id = x.id then y else z) }
  let s2 := ((if x.clear then s1.clearMons else s1).setObj 0xA000 3 x.id).replaceOld
  x.sids.foldl (fun (a : State) sid => a.noteTo sid 0x01F0 (leBytes 4 x.id ++ leBytes 8 x.t)) s2

/-- SNAPSHOT_EDGE. -/
def execSnapshotEdge (id : Nat) (s : State) : Res :=
  .next (match s.snaps.find? (fun (x : Snap) => x.id == id && x.st == 0) with
    | some x => s.snapEdge x
    | none => s)

/-- MON_CTRL_CLEAR (R432, R433). -/
def execMonCtrlClear (sid m : Nat) (s : State) : Res :=
  .next (if m < 18 then s.sessWrite sid (0xA100 + m) 2 (leBytes 1 1) else s)

/-- MON_SCOPE_WRITE (R431 to R433). -/
def execMonScopeWrite (sid m value : Nat) (s : State) : Res :=
  .next (if m < 18 then s.sessWrite sid (0xA100 + m) 1 (leBytes 4 value) else s)

end Sys2Proof.Machine
end

