-- ==== Sys2Proof/Machine/Dispatch.lean ====
section
/-! DEFINITION. Dispatch: one arm per command, each one direct call of its meaning. -/

namespace Sys2Proof.Machine

open Sys2Proof

/-- The effect of a command on everything but the queue of waiting commands. -/
def exec (i : Instr) (s : State) : Host.Outcome State Fault Refusal :=
  match i with
  | .por mv straps dbgEn => Sys2Proof.Machine.execPor mv straps dbgEn s
  | .startupPhase selfTestOk => Sys2Proof.Machine.execStartupPhase selfTestOk s
  | .modrstNPulse ns => Sys2Proof.Machine.execModrstNPulse ns s
  | .overVoltageShutdown mv => Sys2Proof.Machine.execOverVoltageShutdown mv s
  | .underVoltageLockout mv => Sys2Proof.Machine.execUnderVoltageLockout mv s
  | .underVoltageWarning mv => Sys2Proof.Machine.execUnderVoltageWarning mv s
  | .arbiterEpoch inp => Sys2Proof.Machine.execArbiterEpoch inp s
  | .enGrantSpent g => Sys2Proof.Machine.execEnGrantSpent g s
  | .swGrantSpent d => Sys2Proof.Machine.execSwGrantSpent d s
  | .linkWiden isPeer port => Sys2Proof.Machine.execLinkWiden isPeer port s
  | .thermalDerate temp => Sys2Proof.Machine.execThermalDerate temp s
  | .refclkLoss clk => Sys2Proof.Machine.execRefclkLoss clk s
  | .flexPortEnable sid p => Sys2Proof.Machine.execFlexPortEnable sid p s
  | .flexPortDisable sid p => Sys2Proof.Machine.execFlexPortDisable sid p s
  | .flexLinkTrained p partner => Sys2Proof.Machine.execFlexLinkTrained p partner s
  | .flexLaneFailure p width => Sys2Proof.Machine.execFlexLaneFailure p width s
  | .nvmeCommandComplete p cid ok => Sys2Proof.Machine.execNvmeCommandComplete p cid ok s
  | .nvmeCommandTimeout p cid => Sys2Proof.Machine.execNvmeCommandTimeout p cid s
  | .nvmeAbortTimeout p cid => Sys2Proof.Machine.execNvmeAbortTimeout p cid s
  | .flitTransmit q => Sys2Proof.Machine.execFlitTransmit q s
  | .flitReceive q f => Sys2Proof.Machine.execFlitReceive q f s
  | .replayTimeout q => Sys2Proof.Machine.execReplayTimeout q s
  | .peerLaneFailure q lane => Sys2Proof.Machine.execPeerLaneFailure q lane s
  | .peerLinkLoss q => Sys2Proof.Machine.execPeerLinkLoss q s
  | .handover via q lastFseq => Sys2Proof.Machine.execHandover via q lastFseq s
  | .linkHoldExpiry q => Sys2Proof.Machine.execLinkHoldExpiry q s
  | .peerPortEnable sid q => Sys2Proof.Machine.execPeerPortEnable sid q s
  | .presetTimeout q lane => Sys2Proof.Machine.execPresetTimeout q lane s
  | .peerTrainingDone q lanes presets => Sys2Proof.Machine.execPeerTrainingDone q lanes presets s
  | .peerAuthenticated q chain peerIdObj peerSerial => Sys2Proof.Machine.execPeerAuthenticated q chain peerIdObj peerSerial s
  | .getVersion ch => Sys2Proof.Machine.execGetVersion ch s
  | .getCapabilities ch => Sys2Proof.Machine.execGetCapabilities ch s
  | .negotiateAlgorithms ch offersSuite => Sys2Proof.Machine.execNegotiateAlgorithms ch offersSuite s
  | .getCertificate ch off len => Sys2Proof.Machine.execGetCertificate ch off len s
  | .keyExchange ch chain valid => Sys2Proof.Machine.execKeyExchange ch chain valid s
  | .finish ch valid => Sys2Proof.Machine.execFinish ch valid s
  | .getMeasurements ch idx => Sys2Proof.Machine.execGetMeasurements ch idx s
  | .keyUpdate q => Sys2Proof.Machine.execKeyUpdate q s
  | .keyLifeExpiry q => Sys2Proof.Machine.execKeyLifeExpiry q s
  | .syncReq q t1 => Sys2Proof.Machine.execSyncReq q t1 s
  | .syncResp q t1 t2 t3 t4 root hops sender replayed => Sys2Proof.Machine.execSyncResp q t1 t2 t3 t4 root hops sender replayed s
  | .cellAdmit die inPort pkt outPort => Sys2Proof.Machine.execCellAdmit die inPort pkt outPort s
  | .cellCross die outPort => Sys2Proof.Machine.execCellCross die outPort s
  | .cutThroughCheckResult die inPort ok => Sys2Proof.Machine.execCutThroughCheckResult die inPort ok s
  | .routeMemberMove die inPort tc tenant dev => Sys2Proof.Machine.execRouteMemberMove die inPort tc tenant dev s
  | .quiesce at_ => Sys2Proof.Machine.execQuiesce at_ s
  | .quiesced at_ => Sys2Proof.Machine.execQuiesced at_ s
  | .revoke eid => Sys2Proof.Machine.execRevoke eid s
  | .halt at_ => Sys2Proof.Machine.execHalt at_ s
  | .alloc sid blob => Sys2Proof.Machine.execAlloc sid blob s
  | .extentAccept p l slot => Sys2Proof.Machine.execExtentAccept p l slot s
  | .offerTimeout eid => Sys2Proof.Machine.execOfferTimeout eid s
  | .releaseDynamicCapacity p l slot => Sys2Proof.Machine.execReleaseDynamicCapacity p l slot s
  | .revokeExtent sid eid => Sys2Proof.Machine.execRevokeExtent sid eid s
  | .drainComplete eid => Sys2Proof.Machine.execDrainComplete eid s
  | .drainTimeout eid => Sys2Proof.Machine.execDrainTimeout eid s
  | .quarantineRelease eid => Sys2Proof.Machine.execQuarantineRelease eid s
  | .scrubComplete eid => Sys2Proof.Machine.execScrubComplete eid s
  | .leaseDoorbell p l value size => Sys2Proof.Machine.execLeaseDoorbell p l value size s
  | .leaseGrace p l => Sys2Proof.Machine.execLeaseGrace p l s
  | .leaseExpired p l => Sys2Proof.Machine.execLeaseExpired p l s
  | .lentPathLoss eid => Sys2Proof.Machine.execLentPathLoss eid s
  | .hostRead p l space addr len => Sys2Proof.Machine.execHostRead p l space addr len s
  | .hostWrite p l space addr data => Sys2Proof.Machine.execHostWrite p l space addr data s
  | .hdmDbWrite p l addr => Sys2Proof.Machine.execHdmDbWrite p l addr s
  | .memWriteApply wid => Sys2Proof.Machine.execMemWriteApply wid s
  | .atomic src op addr size operand compare => Sys2Proof.Machine.execAtomic src op addr size operand compare s
  | .donorOffer p l k => Sys2Proof.Machine.execDonorOffer p l k s
  | .donorRevoke p l k => Sys2Proof.Machine.execDonorRevoke p l k s
  | .donorReleased p l k => Sys2Proof.Machine.execDonorReleased p l k s
  | .donorPortDown p => Sys2Proof.Machine.execDonorPortDown p s
  | .publishExtent p l r => Sys2Proof.Machine.execPublishExtent p l r s
  | .backingFailure b => Sys2Proof.Machine.execBackingFailure b s
  | .ctlCopyLoss p l second => Sys2Proof.Machine.execCtlCopyLoss p l second s
  | .repairBacking sid value => Sys2Proof.Machine.execRepairBacking sid value s
  | .repairTestComplete eid ok => Sys2Proof.Machine.execRepairTestComplete eid ok s
  | .flagData p l data => Sys2Proof.Machine.execFlagData p l data s
  | .flaggedStoreApply src => Sys2Proof.Machine.execFlaggedStoreApply src s
  | .flushCtrl p l seq => Sys2Proof.Machine.execFlushCtrl p l seq s
  | .flushComplete p l => Sys2Proof.Machine.execFlushComplete p l s
  | .rdShared a r => Sys2Proof.Machine.execRdShared a r s
  | .rdOwn a r => Sys2Proof.Machine.execRdOwn a r s
  | .upgrade a r => Sys2Proof.Machine.execUpgrade a r s
  | .wb a r => Sys2Proof.Machine.execWb a r s
  | .snpInv a line => Sys2Proof.Machine.execSnpInv a line s
  | .snpData a line => Sys2Proof.Machine.execSnpData a line s
  | .snoopResponse a line rsp => Sys2Proof.Machine.execSnoopResponse a line rsp s
  | .wbPending a line => Sys2Proof.Machine.execWbPending a line s
  | .dataCmp a line => Sys2Proof.Machine.execDataCmp a line s
  | .wbAck a line => Sys2Proof.Machine.execWbAck a line s
  | .birsp p l line => Sys2Proof.Machine.execBirsp p l line s
  | .biTimeout p l line => Sys2Proof.Machine.execBiTimeout p l line s
  | .viewRead p l line => Sys2Proof.Machine.execViewRead p l line s
  | .viewRestore sid value => Sys2Proof.Machine.execViewRestore sid value s
  | .fence src scope => Sys2Proof.Machine.execFence src scope s
  | .sqTail p l r value => Sys2Proof.Machine.execSqTail p l r value s
  | .sqEnable p l r => Sys2Proof.Machine.execSqEnable p l r s
  | .sqDisable p l r => Sys2Proof.Machine.execSqDisable p l r s
  | .sqDrained p l r => Sys2Proof.Machine.execSqDrained p l r s
  | .cqCfg p l r value => Sys2Proof.Machine.execCqCfg p l r value s
  | .cqHead p l r value => Sys2Proof.Machine.execCqHead p l r value s
  | .eqHead p l value => Sys2Proof.Machine.execEqHead p l value s
  | .cqWriteFail p l r => Sys2Proof.Machine.execCqWriteFail p l r s
  | .pad p l r => Sys2Proof.Machine.execPad p l r s
  | .attend p l r => Sys2Proof.Machine.execAttend p l r s
  | .attendBwd p l r => Sys2Proof.Machine.execAttendBwd p l r s
  | .append p l r => Sys2Proof.Machine.execAppend p l r s
  | .mirror m => Sys2Proof.Machine.execMirror m s
  | .mirrorAck cmd item page => Sys2Proof.Machine.execMirrorAck cmd item page s
  | .mirrorTimeout cmd item => Sys2Proof.Machine.execMirrorTimeout cmd item s
  | .lookupPrefix p l r => Sys2Proof.Machine.execLookupPrefix p l r s
  | .publishPrefix p l r => Sys2Proof.Machine.execPublishPrefix p l r s
  | .pin p l r => Sys2Proof.Machine.execPin p l r s
  | .unpin p l r => Sys2Proof.Machine.execUnpin p l r s
  | .migrate p l r => Sys2Proof.Machine.execMigrate p l r s
  | .openSeq p l r => Sys2Proof.Machine.execOpenSeq p l r s
  | .closeSeq p l r => Sys2Proof.Machine.execCloseSeq p l r s
  | .seqCloseFinal fabTag seqId => Sys2Proof.Machine.execSeqCloseFinal fabTag seqId s
  | .allreduce p l r => Sys2Proof.Machine.execAllreduce p l r s
  | .reduceScatter p l r => Sys2Proof.Machine.execReduceScatter p l r s
  | .allgather p l r => Sys2Proof.Machine.execAllgather p l r s
  | .filterTopk p l r => Sys2Proof.Machine.execFilterTopk p l r s
  | .collContribution c => Sys2Proof.Machine.execCollContribution c s
  | .collBlockPartial key par block timeoutMs b hdrs => Sys2Proof.Machine.execCollBlockPartial key par block timeoutMs b hdrs s
  | .collResult key a hdrs => Sys2Proof.Machine.execCollResult key a hdrs s
  | .collRecordTimeout key isTop => Sys2Proof.Machine.execCollRecordTimeout key isTop s
  | .collRankTimeout cmd => Sys2Proof.Machine.execCollRankTimeout cmd s
  | .gatherRows p l r => Sys2Proof.Machine.execGatherRows p l r s
  | .loadTensor p l r => Sys2Proof.Machine.execLoadTensor p l r s
  | .freeTensor p l r => Sys2Proof.Machine.execFreeTensor p l r s
  | .tensorScrub tenant id => Sys2Proof.Machine.execTensorScrub tenant id s
  | .installPalette p l r => Sys2Proof.Machine.execInstallPalette p l r s
  | .freePalette p l r => Sys2Proof.Machine.execFreePalette p l r s
  | .describe p l r => Sys2Proof.Machine.execDescribe p l r s
  | .installRecipe p l r => Sys2Proof.Machine.execInstallRecipe p l r s
  | .removeRecipe p l r => Sys2Proof.Machine.execRemoveRecipe p l r s
  | .recipeIdFree tenant id => Sys2Proof.Machine.execRecipeIdFree tenant id s
  | .composedRecipe p l r => Sys2Proof.Machine.execComposedRecipe p l r s
  | .tileReceive q t => Sys2Proof.Machine.execTileReceive q t s
  | .commandComplete cmd resultWriteOk recordWriteOk => Sys2Proof.Machine.execCommandComplete cmd resultWriteOk recordWriteOk s
  | .tierDemotion tier => Sys2Proof.Machine.execTierDemotion tier s
  | .pageMoveComplete page => Sys2Proof.Machine.execPageMoveComplete page s
  | .pageReadFail page tier revoked codeError => Sys2Proof.Machine.execPageReadFail page tier revoked codeError s
  | .sealCoding page => Sys2Proof.Machine.execSealCoding page s
  | .paletteTraining tenant set => Sys2Proof.Machine.execPaletteTraining tenant set s
  | .sweepRecode die => Sys2Proof.Machine.execSweepRecode die s
  | .slotFree slot => Sys2Proof.Machine.execSlotFree slot s
  | .mapGossip q m resetting => Sys2Proof.Machine.execMapGossip q m resetting s
  | .mapLossTimeout dev => Sys2Proof.Machine.execMapLossTimeout dev s
  | .handoffReceive src seqs entries => Sys2Proof.Machine.execHandoffReceive src seqs entries s
  | .handoffAck src => Sys2Proof.Machine.execHandoffAck src s
  | .catchUpComplete fabTag seqId => Sys2Proof.Machine.execCatchUpComplete fabTag seqId s
  | .linkMessage k => Sys2Proof.Machine.execLinkMessage k s
  | .tenantEnable sid => Sys2Proof.Machine.execTenantEnable sid s
  | .tenantDisable sid => Sys2Proof.Machine.execTenantDisable sid s
  | .tenantRemove sid q => Sys2Proof.Machine.execTenantRemove sid q s
  | .shapeWrite sid sub value => Sys2Proof.Machine.execShapeWrite sid sub value s
  | .ldEnable sid p l => Sys2Proof.Machine.execLdEnable sid p l s
  | .ldDisable sid p l => Sys2Proof.Machine.execLdDisable sid p l s
  | .getTdispVersion p l => Sys2Proof.Machine.execGetTdispVersion p l s
  | .getTdispCapabilities p l => Sys2Proof.Machine.execGetTdispCapabilities p l s
  | .lockInterfaceRequest p l => Sys2Proof.Machine.execLockInterfaceRequest p l s
  | .getDeviceInterfaceReport p l => Sys2Proof.Machine.execGetDeviceInterfaceReport p l s
  | .getDeviceInterfaceState p l => Sys2Proof.Machine.execGetDeviceInterfaceState p l s
  | .startInterfaceRequest p l => Sys2Proof.Machine.execStartInterfaceRequest p l s
  | .stopInterfaceRequest p l => Sys2Proof.Machine.execStopInterfaceRequest p l s
  | .tdiError p what => Sys2Proof.Machine.execTdiError p what s
  | .ideKmKeyProg p stream keySet key => Sys2Proof.Machine.execIdeKmKeyProg p stream keySet key s
  | .kSetGo p stream => Sys2Proof.Machine.execKSetGo p stream s
  | .enroll sid q => Sys2Proof.Machine.execEnroll sid q s
  | .unenroll sid q => Sys2Proof.Machine.execUnenroll sid q s
  | .quorumK sid q => Sys2Proof.Machine.execQuorumK sid q s
  | .claimDone sid value => Sys2Proof.Machine.execClaimDone sid value s
  | .certSlot1 sid q => Sys2Proof.Machine.execCertSlot1 sid q s
  | .fabricAnchor sid q => Sys2Proof.Machine.execFabricAnchor sid q s
  | .sdKey sid blob => Sys2Proof.Machine.execSdKey sid blob s
  | .sdKeyClear sid q => Sys2Proof.Machine.execSdKeyClear sid q s
  | .lockWrite sid sub value => Sys2Proof.Machine.execLockWrite sid sub value s
  | .debugOpen sid q => Sys2Proof.Machine.execDebugOpen sid q s
  | .nonceExpiry nonce => Sys2Proof.Machine.execNonceExpiry nonce s
  | .shadowCompare engine shadow third cmd item thirdAvailable equal => Sys2Proof.Machine.execShadowCompare engine shadow third cmd item thirdAvailable equal s
  | .shadowVote cmd item minority => Sys2Proof.Machine.execShadowVote cmd item minority s
  | .engineHardEvent e => Sys2Proof.Machine.execEngineHardEvent e s
  | .engineWatchdog e => Sys2Proof.Machine.execEngineWatchdog e s
  | .engineSelftestDone e ok => Sys2Proof.Machine.execEngineSelftestDone e ok s
  | .engineDrained e => Sys2Proof.Machine.execEngineDrained e s
  | .memoryError u corrected => Sys2Proof.Machine.execMemoryError u corrected s
  | .hbmChannelMoveDone die channel => Sys2Proof.Machine.execHbmChannelMoveDone die channel s
  | .d2dWireFault dieA dieB member => Sys2Proof.Machine.execD2dWireFault dieA dieB member s
  | .dieLoss die => Sys2Proof.Machine.execDieLoss die s
  | .dieReturn die => Sys2Proof.Machine.execDieReturn die s
  | .selftest sid value => Sys2Proof.Machine.execSelftest sid value s
  | .selftestComplete failDie => Sys2Proof.Machine.execSelftestComplete failDie s
  | .admitDevice sid q => Sys2Proof.Machine.execAdmitDevice sid q s
  | .admitLoaded spillGroups => Sys2Proof.Machine.execAdmitLoaded spillGroups s
  | .expel sid q => Sys2Proof.Machine.execExpel sid q s
  | .dtlsHandshake port configured cert => Sys2Proof.Machine.execDtlsHandshake port configured cert s
  | .sessionIdleTimeout sid => Sys2Proof.Machine.execSessionIdleTimeout sid s
  | .get sid reqId entries => Sys2Proof.Machine.execGet sid reqId entries s
  | .set sid reqId entries => Sys2Proof.Machine.execSet sid reqId entries s
  | .propose sid reqId idx sub flags off val => Sys2Proof.Machine.execPropose sid reqId idx sub flags off val s
  | .sign sid reqId nonce slot sig => Sys2Proof.Machine.execSign sid reqId nonce slot sig s
  | .subscribe sid reqId mask => Sys2Proof.Machine.execSubscribe sid reqId mask s
  | .keepalive sid reqId => Sys2Proof.Machine.execKeepalive sid reqId s
  | .dropped sid => Sys2Proof.Machine.execDropped sid s
  | .relayGet r => Sys2Proof.Machine.execRelayGet r s
  | .relayTimeout sid reqId => Sys2Proof.Machine.execRelayTimeout sid reqId s
  | .readWord ctrl cmd idx sub word => Sys2Proof.Machine.execReadWord ctrl cmd idx sub word s
  | .addrDup port configured => Sys2Proof.Machine.execAddrDup port configured s
  | .mgmtAddrWrite sid port blob => Sys2Proof.Machine.execMgmtAddrWrite sid port blob s
  | .wsqAck sid idx sub value => Sys2Proof.Machine.execWsqAck sid idx sub value s
  | .blockSelect sid value => Sys2Proof.Machine.execBlockSelect sid value s
  | .fwStage sid off piece => Sys2Proof.Machine.execFwStage sid off piece s
  | .fwCommit sid q => Sys2Proof.Machine.execFwCommit sid q s
  | .snapshotTake sid reqId t clear => Sys2Proof.Machine.execSnapshotTake sid reqId t clear s
  | .snapshotRead sid reqId id entries => Sys2Proof.Machine.execSnapshotRead sid reqId id entries s
  | .snapshotCancel sid reqId id => Sys2Proof.Machine.execSnapshotCancel sid reqId id s
  | .snapshotEdge id => Sys2Proof.Machine.execSnapshotEdge id s
  | .monCtrlClear sid m => Sys2Proof.Machine.execMonCtrlClear sid m s
  | .monScopeWrite sid m value => Sys2Proof.Machine.execMonScopeWrite sid m value s
  | .resetModule sid q => Sys2Proof.Machine.execResetModule sid q s
  | .resetWarm sid q => Sys2Proof.Machine.execResetWarm sid q s
  | .resetDie sid q => Sys2Proof.Machine.execResetDie sid q s
  | .resetPort sid isPeer port => Sys2Proof.Machine.execResetPort sid isPeer port s
  | .resetEngine sid e => Sys2Proof.Machine.execResetEngine sid e s
  | .resetDone kind unit => Sys2Proof.Machine.execResetDone kind unit s
  | .powerD0 sid => Sys2Proof.Machine.execPowerD0 sid s
  | .powerD1 sid => Sys2Proof.Machine.execPowerD1 sid s
  | .powerD2 sid q => Sys2Proof.Machine.execPowerD2 sid q s
  | .powerD3 sid q => Sys2Proof.Machine.execPowerD3 sid q s
  | .refclkRestored clk => Sys2Proof.Machine.execRefclkRestored clk s
  | .peerSignalDetect q => Sys2Proof.Machine.execPeerSignalDetect q s
  | .fastRetrainDone q => Sys2Proof.Machine.execFastRetrainDone q s
  | .peerPortDisable sid q => Sys2Proof.Machine.execPeerPortDisable sid q s
  | .flexLinkDown p => Sys2Proof.Machine.execFlexLinkDown p s
  | .collChunkAbort k => Sys2Proof.Machine.execCollChunkAbort k s
  | .unknownRecipe p l r => Sys2Proof.Machine.execUnknownRecipe p l r s
  | .modEnFall => Sys2Proof.Machine.execModEnFall s
  | .modEnRise => Sys2Proof.Machine.execModEnRise s
  | .thermalTrip => Sys2Proof.Machine.execThermalTrip s
  | .syncTimer => Sys2Proof.Machine.execSyncTimer s
  | .mapGossipTimer => Sys2Proof.Machine.execMapGossipTimer s
  | .handoffTimeout => Sys2Proof.Machine.execHandoffTimeout s
  | .shaperRefill => Sys2Proof.Machine.execShaperRefill s
  | .reportWindowEnd => Sys2Proof.Machine.execReportWindowEnd s
  | .claimWindowExpiry => Sys2Proof.Machine.execClaimWindowExpiry s
  | .healthWindowEnd => Sys2Proof.Machine.execHealthWindowEnd s
  | .stepBoundary => Sys2Proof.Machine.execStepBoundary s
  | .warmHoldExpiry => Sys2Proof.Machine.execWarmHoldExpiry s
  | .powerTransitionDone => Sys2Proof.Machine.execPowerTransitionDone s

end Sys2Proof.Machine
end

