-- ==== Sys2Proof/WellFormed.lean ====
section
/-! DEFINITION. Well-formed commands: every operand lies in the range its field or its unit has. `exec` itself takes any operands. -/

namespace Sys2Proof

/-! ### Widths and unit numbers -/

/-- 8 bits. -/
def u8 (v : Nat) : Bool := decide (v < 2 ^ 8)
/-- 16 bits. -/
def u16 (v : Nat) : Bool := decide (v < 2 ^ 16)
/-- 32 bits. -/
def u32 (v : Nat) : Bool := decide (v < 2 ^ 32)
/-- 64 bits. -/
def u64 (v : Nat) : Bool := decide (v < 2 ^ 64)
/-- A flex port (R24). -/
def flexOk (p : Nat) : Bool := decide (p < 128)
/-- A logical device of a flex port (R62). -/
def ldOk (p l : Nat) : Bool := flexOk p && decide (l < 16)
/-- A ring of a logical device (R190). -/
def ringOk (p l r : Nat) : Bool := ldOk p l && decide (r < 64)
/-- A peer port (R24). -/
def peerOk (q : Nat) : Bool := decide (q < 64)
/-- A flex or a peer port. -/
def portOk (isPeer : Bool) (n : Nat) : Bool := if isPeer then peerOk n else flexOk n
/-- A management port (R402). -/
def mgmtOk (n : Nat) : Bool := decide (n < 2)
/-- A fabric die (R13). -/
def dieOk (d : Nat) : Bool := decide (d < 8)
/-- An engine, 52 to a die (R13). -/
def engineOk (e : Nat) : Bool := decide (e < 416)
/-- A crossbar port of a switch core (R97). -/
def xbarOk (n : Nat) : Bool := decide (n < 63)
/-- A tenant (R335). -/
def tenantOk (t : Nat) : Bool := decide (t < 4096)
/-- A device of the fabric domain (R71). -/
def devOk (d : Nat) : Bool := decide (d < 512)
/-- A monitor (R431). -/
def monOk (m : Nat) : Bool := decide (m < 18)
/-- An optional unit number below a bound. -/
def optOk (n : Nat) : Option Nat → Bool
  | some v => decide (v < n)
  | none => true

/-! ### Operand types -/

/-- A quorum source: a signature is 96 bytes over a slot that a byte names (R419). -/
def QSrc.wf : QSrc → Bool
  | .signed _ slot sig => u8 slot && sig.length == 96
  | .claim _ => true
/-- A packet's header fields (R73). -/
def Packet.wf (k : Packet) : Bool :=
  decide (k.ptype < 16) && decide (k.tc < 8) && devOk k.srcDev && devOk k.dstDev && tenantOk k.tenant && u16 k.tag && u64 k.addr
    && decide (k.data.length ≤ 256)
/-- A flit's header words (R72). -/
def Flit.wf (f : Flit) : Bool := u64 f.w0 && u64 f.w1 && f.pkts.all Packet.wf
/-- What names an ingress. -/
def Ingress.wf : Ingress → Bool
  | .flex p => flexOk p
  | .peer q => peerOk q
  | .tenantOn p t => flexOk p && tenantOk t
/-- A source of accesses; an engine has 16 thread contexts (R16). -/
def Source.wf : Source → Bool
  | .host p l => ldOk p l
  | .peer dev tenant => devOk dev && tenantOk tenant
  | .engine e ctx => engineOk e && decide (ctx < 16)
  | .root => true
/-- The arbiter's input: one demand to a domain (R39). -/
def ArbInput.wf (i : ArbInput) : Bool := i.demands.length == 20 && i.idleFlex.all flexOk && i.idlePeer.all peerOk
/-- A trained partner: a preset to a lane (R68). -/
def FlexPartner.wf (x : FlexPartner) : Bool := [1, 2, 4, 8, 16].contains x.width && x.presets.length == 16
/-- A map's members and owners (R301). -/
def FMap.wf (m : FMap) : Bool := m.members.all (fun v => devOk v.dev && u8 v.group && u8 v.dies) && u32 m.epoch && devOk m.proposer
/-- A collective chunk's identity (R240). -/
def CollKey.wf (k : CollKey) : Bool := u16 k.fabTag && u32 k.group && u32 k.opSeq && u16 k.chunk
/-- A tile has its 32 header bytes (R177). -/
def Tile.wf (t : Tile) : Bool := t.hdr.length == 32
/-- A GET entry (R406). -/
def GetEntry.wf (e : GetEntry) : Bool := u16 e.idx && u8 e.sub && u32 e.off
/-- A SET entry (R406). -/
def SetEntry.wf (e : SetEntry) : Bool := u16 e.idx && u8 e.sub && u32 e.off && u16 e.val.length
/-- An SPDM channel. -/
def SpdmCh.wf : SpdmCh → Bool
  | .host p _ => flexOk p
  | .peer q => peerOk q
/-- What fails. -/
def Backing.wf : Backing → Bool
  | .tray p => flexOk p
  | .hbm e => decide (e < 2048)
  | .lent e => u16 e
/-- Where an error is found. -/
def MemUnit.wf : MemUnit → Bool
  | .sram d _ _ _ => dieOk d
  | .hbm d _ _ _ addr => dieOk d && u64 addr
  | .channelUnreadable d _ => dieOk d
  | .tray p addr => flexOk p && u64 addr
/-- An agent (R153). -/
def Agent.wf : Agent → Bool
  | .engine d e => dieOk d && decide (e < 52)
  | .root => true

/-! ### Commands -/

/-- A store lies within its 64-byte line (R152). -/
def storeOk (d : LineStore) : Bool := match d with | some (o, b) => decide (o + b.length ≤ 64) | none => true

/-- A well-formed command. -/
def Instr.wf : Instr → Bool
  | .por _ _ _ => true
  | .startupPhase _ => true
  | .modEnFall => true
  | .modEnRise => true
  | .modrstNPulse _ => true
  | .overVoltageShutdown _ => true
  | .underVoltageLockout _ => true
  | .underVoltageWarning _ => true
  | .arbiterEpoch inp => inp.wf
  | .enGrantSpent g => dieOk g.die
  | .swGrantSpent d => dieOk d
  | .linkWiden isPeer port => portOk isPeer port
  | .thermalDerate _ => true
  | .thermalTrip => true
  | .refclkLoss _ => true
  | .flexPortEnable _ p => flexOk p
  | .flexPortDisable _ p => flexOk p
  | .flexLinkTrained p partner => flexOk p && partner.wf
  | .flexLaneFailure p _ => flexOk p
  | .nvmeCommandComplete p cid _ => flexOk p && u16 cid
  | .nvmeCommandTimeout p cid => flexOk p && u16 cid
  | .nvmeAbortTimeout p cid => flexOk p && u16 cid
  | .flitTransmit q => peerOk q
  | .flitReceive q f => peerOk q && f.wf
  | .replayTimeout q => peerOk q
  | .peerLaneFailure q _ => peerOk q
  | .peerLinkLoss q => peerOk q
  | .handover via q _ => peerOk via && peerOk q
  | .linkHoldExpiry q => peerOk q
  | .peerPortEnable _ q => peerOk q
  | .presetTimeout q _ => peerOk q
  | .peerTrainingDone q _ _ => peerOk q
  | .peerAuthenticated q _ _ _ => peerOk q
  | .getVersion ch => ch.wf
  | .getCapabilities ch => ch.wf
  | .negotiateAlgorithms ch _ => ch.wf
  | .getCertificate ch off _ => ch.wf && u32 off
  | .keyExchange ch _ _ => ch.wf
  | .finish ch _ => ch.wf
  | .getMeasurements ch idx => ch.wf && u16 idx
  | .keyUpdate q => peerOk q
  | .keyLifeExpiry q => peerOk q
  | .syncTimer => true
  | .syncReq q t1 => peerOk q && u64 t1
  | .syncResp q t1 t2 t3 t4 _ _ _ _ => peerOk q && u64 t1 && u64 t2 && u64 t3 && u64 t4
  | .cellAdmit die inPort pkt outPort => dieOk die && xbarOk inPort && pkt.wf && xbarOk outPort
  | .cellCross die outPort => dieOk die && xbarOk outPort
  | .cutThroughCheckResult die inPort _ => dieOk die && xbarOk inPort
  | .routeMemberMove die inPort tc tenant dev => dieOk die && xbarOk inPort && decide (tc < 8) && tenantOk tenant && devOk dev
  | .quiesce at_ => at_.wf
  | .quiesced at_ => at_.wf
  | .revoke _ => true
  | .halt at_ => at_.wf
  | .alloc _ _ => true
  | .extentAccept p l _ => ldOk p l
  | .offerTimeout _ => true
  | .releaseDynamicCapacity p l _ => ldOk p l
  | .revokeExtent _ eid => u32 eid
  | .drainComplete _ => true
  | .drainTimeout _ => true
  | .quarantineRelease _ => true
  | .scrubComplete _ => true
  | .leaseDoorbell p l value _ => ldOk p l && u64 value
  | .leaseGrace p l => ldOk p l
  | .leaseExpired p l => ldOk p l
  | .lentPathLoss _ => true
  | .hostRead p l _ addr _ => ldOk p l && u64 addr
  | .hostWrite p l _ addr _ => ldOk p l && u64 addr
  | .hdmDbWrite p l addr => ldOk p l && u64 addr
  | .memWriteApply _ => true
  | .atomic src _ addr _ operand compare => src.wf && u64 addr && u64 operand && u64 compare
  | .donorOffer p l _ => ldOk p l
  | .donorRevoke p l _ => ldOk p l
  | .donorReleased p l _ => ldOk p l
  | .donorPortDown p => flexOk p
  | .publishExtent p l r => ringOk p l r
  | .backingFailure b => b.wf
  | .ctlCopyLoss p l _ => ldOk p l
  | .repairBacking _ value => u32 value
  | .repairTestComplete _ _ => true
  | .flagData p l data => ldOk p l && u64 data
  | .flaggedStoreApply src => src.wf
  | .flushCtrl p l _ => ldOk p l
  | .flushComplete p l => ldOk p l
  | .rdShared a r => a.wf && decide (r.ctx < 16)
  | .rdOwn a r => a.wf && decide (r.ctx < 16) && storeOk r.store
  | .upgrade a r => a.wf && decide (r.ctx < 16) && storeOk r.store
  | .wb a r => a.wf && storeOk r.store
  | .snpInv a _ => a.wf
  | .snpData a _ => a.wf
  | .snoopResponse a _ _ => a.wf
  | .wbPending a _ => a.wf
  | .dataCmp a _ => a.wf
  | .wbAck a _ => a.wf
  | .birsp p l _ => ldOk p l
  | .biTimeout p l _ => ldOk p l
  | .viewRead p l _ => ldOk p l
  | .viewRestore _ value => u64 value
  | .fence src _ => src.wf
  | .sqTail p l r value => ringOk p l r && u64 value
  | .sqEnable p l r => ringOk p l r
  | .sqDisable p l r => ringOk p l r
  | .sqDrained p l r => ringOk p l r
  | .cqCfg p l r value => ringOk p l r && u64 value
  | .cqHead p l r value => ringOk p l r && u64 value
  | .eqHead p l value => ldOk p l && u64 value
  | .cqWriteFail p l r => ringOk p l r
  | .pad p l r => ringOk p l r
  | .attend p l r => ringOk p l r
  | .attendBwd p l r => ringOk p l r
  | .append p l r => ringOk p l r
  | .mirror _ => true
  | .mirrorAck _ _ _ => true
  | .mirrorTimeout _ _ => true
  | .lookupPrefix p l r => ringOk p l r
  | .publishPrefix p l r => ringOk p l r
  | .pin p l r => ringOk p l r
  | .unpin p l r => ringOk p l r
  | .migrate p l r => ringOk p l r
  | .openSeq p l r => ringOk p l r
  | .closeSeq p l r => ringOk p l r
  | .seqCloseFinal fabTag _ => u16 fabTag
  | .allreduce p l r => ringOk p l r
  | .reduceScatter p l r => ringOk p l r
  | .allgather p l r => ringOk p l r
  | .filterTopk p l r => ringOk p l r
  | .collContribution c => c.hdrs.all (fun b => b.length == 32)
  | .collBlockPartial key _ _ _ b hdrs => key.wf && b.devs.all (fun d => decide (d < 512)) && hdrs.all (fun b => b.length == 32)
  | .collResult key _ hdrs => key.wf && hdrs.all (fun b => b.length == 32)
  | .collRecordTimeout key _ => key.wf
  | .collRankTimeout _ => true
  | .gatherRows p l r => ringOk p l r
  | .loadTensor p l r => ringOk p l r
  | .freeTensor p l r => ringOk p l r
  | .tensorScrub tenant id => tenantOk tenant && u16 id
  | .installPalette p l r => ringOk p l r
  | .freePalette p l r => ringOk p l r
  | .describe p l r => ringOk p l r
  | .installRecipe p l r => ringOk p l r
  | .removeRecipe p l r => ringOk p l r
  | .recipeIdFree tenant id => tenantOk tenant && u16 id
  | .composedRecipe p l r => ringOk p l r
  | .tileReceive q t => peerOk q && t.wf
  | .commandComplete _ _ _ => true
  | .tierDemotion _ => true
  | .pageMoveComplete _ => true
  | .pageReadFail _ _ _ _ => true
  | .sealCoding _ => true
  | .paletteTraining tenant k => tenantOk tenant && decide (k < 9)
  | .sweepRecode die => dieOk die
  | .slotFree _ => true
  | .mapGossipTimer => true
  | .mapGossip q m _ => peerOk q && m.wf
  | .mapLossTimeout dev => devOk dev
  | .handoffReceive src _ _ => devOk src
  | .handoffAck src => devOk src
  | .handoffTimeout => true
  | .catchUpComplete fabTag _ => u16 fabTag
  | .linkMessage _ => true
  | .tenantEnable _ => true
  | .tenantDisable _ => true
  | .tenantRemove _ q => q.wf
  | .shaperRefill => true
  | .shapeWrite _ sub value => u8 sub && u32 value
  | .reportWindowEnd => true
  | .ldEnable _ p l => ldOk p l
  | .ldDisable _ p l => ldOk p l
  | .getTdispVersion p l => ldOk p l
  | .getTdispCapabilities p l => ldOk p l
  | .lockInterfaceRequest p l => ldOk p l
  | .getDeviceInterfaceReport p l => ldOk p l
  | .getDeviceInterfaceState p l => ldOk p l
  | .startInterfaceRequest p l => ldOk p l
  | .stopInterfaceRequest p l => ldOk p l
  | .tdiError p w => match w with | .iface l => ldOk p l | .stream _ => flexOk p
  | .ideKmKeyProg p _ _ _ => flexOk p
  | .kSetGo p _ => flexOk p
  | .enroll _ q => q.wf
  | .unenroll _ q => q.wf
  | .quorumK _ q => q.wf
  | .claimDone _ value => u8 value
  | .claimWindowExpiry => true
  | .certSlot1 _ q => q.wf
  | .fabricAnchor _ q => q.wf
  | .sdKey _ _ => true
  | .sdKeyClear _ q => q.wf
  | .lockWrite _ sub value => u8 sub && u8 value
  | .debugOpen _ q => q.wf
  | .nonceExpiry _ => true
  | .shadowCompare engine shadow third _ _ _ _ => engineOk engine && engineOk shadow && engineOk third
  | .shadowVote _ _ minority => optOk 416 minority
  | .engineHardEvent e => engineOk e
  | .engineWatchdog e => engineOk e
  | .engineSelftestDone e _ => engineOk e
  | .engineDrained e => engineOk e
  | .healthWindowEnd => true
  | .memoryError u _ => u.wf
  | .hbmChannelMoveDone die _ => dieOk die
  | .d2dWireFault dieA dieB _ => dieOk dieA && dieOk dieB
  | .dieLoss die => dieOk die
  | .dieReturn die => dieOk die
  | .selftest _ value => u8 value
  | .selftestComplete failDie => optOk 8 failDie
  | .admitDevice _ q => q.wf
  | .admitLoaded _ => true
  | .stepBoundary => true
  | .expel _ q => q.wf
  | .dtlsHandshake port _ _ => mgmtOk port
  | .sessionIdleTimeout _ => true
  | .get _ reqId entries => u32 reqId && entries.all GetEntry.wf
  | .set _ reqId entries => u32 reqId && entries.all SetEntry.wf
  | .propose _ reqId idx sub flags off _ => u32 reqId && u16 idx && u8 sub && u8 flags && u32 off
  | .sign _ reqId _ slot sig => u32 reqId && decide (slot < 256) && sig.length == 96
  | .subscribe _ reqId mask => u32 reqId && u32 mask
  | .keepalive _ reqId => u32 reqId
  | .dropped _ => true
  | .relayGet _ => true
  | .relayTimeout _ reqId => u32 reqId
  | .readWord _ cmd idx sub word => u8 cmd && u16 idx && u8 sub && u8 word
  | .addrDup port _ => mgmtOk port
  | .mgmtAddrWrite _ port _ => mgmtOk port
  | .wsqAck _ idx sub value => u16 idx && u8 sub && u32 value
  | .blockSelect _ value => u32 value
  | .fwStage _ off _ => u32 off
  | .fwCommit _ q => q.wf
  | .snapshotTake _ reqId t _ => u32 reqId && u64 t
  | .snapshotRead _ reqId id entries => u32 reqId && u32 id && entries.all GetEntry.wf
  | .snapshotCancel _ reqId id => u32 reqId && u32 id
  | .snapshotEdge id => u32 id
  | .monCtrlClear _ m => monOk m
  | .monScopeWrite _ m value => monOk m && u32 value
  | .resetModule _ q => q.wf
  | .resetWarm _ q => q.wf
  | .resetDie _ q => q.wf
  | .resetPort _ isPeer port => portOk isPeer port
  | .resetEngine _ e => engineOk e
  | .resetDone kind _ => decide (kind ≤ 6)
  | .warmHoldExpiry => true
  | .powerD0 _ => true
  | .powerD1 _ => true
  | .powerD2 _ q => q.wf
  | .powerD3 _ q => q.wf
  | .powerTransitionDone => true
  | .refclkRestored _ => true
  | .peerSignalDetect q => peerOk q
  | .fastRetrainDone q => peerOk q
  | .peerPortDisable _ q => peerOk q
  | .flexLinkDown p => flexOk p
  | .collChunkAbort k => k.key.wf
  | .unknownRecipe p l r => ringOk p l r

end Sys2Proof
end

