-- ==== Sys2Proof/Safety.lean ====
section
/-! DEFINITION. What a safe run keeps: memory in its canonical form, and every waiting command well-formed. -/

namespace Sys2Proof

open Machine

/-- The invariant of a step: the contents of memory stand in their one canonical form. -/
def Inv (s : State) : Prop := Memory.wf s.mem = true

/-- Every command of the queue is well-formed. -/
def QueueWf (s : State) : Prop := ∀ c ∈ s.pending, c.wf = true

/-- A session that may write an object now: it stands, no claim window confines it, and no reset that runs covers the object (R368, R408). -/
def MayWrite (s : State) (sid idx sub : Nat) : Prop :=
  ∃ x, Table.find s.sess sid = some x ∧ x.claim = false ∧ s.scopeBusy (scopeOf idx sub) = false

/-- A step that answers a next state, and none that stops. -/
def Goes (s : State) : Prop := ∃ t, step s = .next t

/-- The commands that may store into data-class memory or clear some of it; no other command changes a byte of it. -/
def mayStore : Instr → Bool
  | .por _ _ _ => true
  | .modrstNPulse _ => true
  | .overVoltageShutdown _ => true
  | .underVoltageLockout _ => true
  | .scrubComplete _ => true
  | .memWriteApply _ => true
  | .atomic _ _ _ _ _ _ => true
  | .repairTestComplete _ _ => true
  | .flaggedStoreApply _ => true
  | .attendBwd _ _ _ => true
  | .commandComplete _ _ _ => true
  | .tenantRemove _ _ => true
  | .enroll _ _ => true
  | .unenroll _ _ => true
  | .quorumK _ _ => true
  | .claimDone _ _ => true
  | .certSlot1 _ _ => true
  | .fabricAnchor _ _ => true
  | .sdKey _ _ => true
  | .sdKeyClear _ _ => true
  | .lockWrite _ _ _ => true
  | .debugOpen _ _ => true
  | .admitDevice _ _ => true
  | .expel _ _ => true
  | .set _ _ _ => true
  | .sign _ _ _ _ _ => true
  | .mgmtAddrWrite _ _ _ => true
  | .wsqAck _ _ _ _ => true
  | .blockSelect _ _ => true
  | .fwStage _ _ _ => true
  | .fwCommit _ _ => true
  | .monCtrlClear _ _ => true
  | .monScopeWrite _ _ _ => true
  | .resetModule _ _ => true
  | .resetWarm _ _ => true
  | .resetDie _ _ => true
  | .resetPort _ _ _ => true
  | .resetEngine _ _ => true
  | .resetDone _ _ => true
  | .powerD0 _ => true
  | .powerD1 _ => true
  | .powerD2 _ _ => true
  | .powerD3 _ _ => true
  | .modEnFall => true
  | .modEnRise => true
  | .thermalTrip => true
  | _ => false

/-- The commands that only read: of the module's state they change sessions, what is sent, shadows of word reads, relays, the read mark of a
snapshot, and fabric time where one waits. -/
def onlyReads : Instr → Bool
  | .get _ _ _ => true
  | .keepalive _ _ => true
  | .subscribe _ _ _ => true
  | .dropped _ => true
  | .relayGet _ => true
  | .relayTimeout _ _ => true
  | .readWord _ _ _ _ _ => true
  | .snapshotRead _ _ _ _ => true
  | .mapGossipTimer => true
  | .getTdispVersion _ _ => true
  | .getTdispCapabilities _ _ => true
  | .getDeviceInterfaceReport _ _ => true
  | .getDeviceInterfaceState _ _ => true
  | _ => false

/-- The state once a session's message has arrived: its idle timer starts again (R403). -/
def Machine.State.heard (s : State) (sid : Nat) (x : Sess) : State := { s with sess := Table.put s.sess sid { x with lastRx := s.now } }

/-- A request that a session `x` has not sent before: no kept response carries its REQ_ID (R410). -/
def Fresh (s : State) (sid reqId : Nat) (x : Sess) : Prop :=
  Table.find s.sess sid = some x ∧ x.kept.find? (fun k => k.1 == reqId && decide (s.now < k.2.1 + 5000000000)) = none

/-- The command at a submission ring's head where it is the ring's turn, its recipe resolves to `base`, and every check of R199 passes
with nothing left for ORDER to wait for: the state its first stage starts in, and what the stages see of it. -/
def Machine.State.admitted (s : State) (p l r base : Nat) (run : Recipe.Run) : Option (State × Ctx) :=
  match s.turn p l r with
  | none => none
  | some s0 =>
    match ((s0.ld p l).ring r).peek with
    | .packet h =>
      if hRecipe h = 0 ∨ (hdrFault h).isSome then none
      else
        match s0.resolve ((s0.ldTenant p l).getD 4096) (hRecipe h) with
        | none => none
        | some (b, var) =>
          let pay := ((s0.ld p l).ring r).read (((s0.ld p l).ring r).head + 64) (hLen h)
          match (State.policed { s0.consume p l r (packetBytes h) false with freeCtr := s0.freeCtr + 1 } p l b var h) with
          | (none, s2) =>
            let c : Ctx := { p := p, l := l, r := r, ref := s2.nextCmd, tenant := (s2.ldTenant p l).getD 0, base := b,
                             rid := hRecipe h, h := h, pay := pay, var := var }
            if b ≠ base ∨ (run.check s2 c).isSome ∨ (hOrder h ∧ s2.ringAll p l r ≠ []) then none
            else some (run.atAdmit ((s2.enter { s2.newCmd p l r h pay with recipe := b, buf := recipeTiles b var }).bump 0x6000 7 1) c, c)
          | _ => none
    | _ => none

/-- The ring and the recipe of a row that reads a command from a submission ring. -/
def recipeRow : Instr → Option (Nat × Nat × Nat × Nat)
  | .attend p l r => some (p, l, r, 1)
  | .attendBwd p l r => some (p, l, r, 2)
  | .append p l r => some (p, l, r, 3)
  | .lookupPrefix p l r => some (p, l, r, 4)
  | .publishPrefix p l r => some (p, l, r, 5)
  | .pin p l r => some (p, l, r, 6)
  | .unpin p l r => some (p, l, r, 7)
  | .migrate p l r => some (p, l, r, 8)
  | .allreduce p l r => some (p, l, r, 9)
  | .reduceScatter p l r => some (p, l, r, 10)
  | .allgather p l r => some (p, l, r, 11)
  | .gatherRows p l r => some (p, l, r, 12)
  | .filterTopk p l r => some (p, l, r, 13)
  | .openSeq p l r => some (p, l, r, 0x10)
  | .closeSeq p l r => some (p, l, r, 0x11)
  | .installPalette p l r => some (p, l, r, 0x20)
  | .freePalette p l r => some (p, l, r, 0x21)
  | .loadTensor p l r => some (p, l, r, 0x22)
  | .freeTensor p l r => some (p, l, r, 0x23)
  | .publishExtent p l r => some (p, l, r, 0x30)
  | .describe p l r => some (p, l, r, 0xF0)
  | .installRecipe p l r => some (p, l, r, 0xF1)
  | .removeRecipe p l r => some (p, l, r, 0xF2)
  | .composedRecipe p l r => some (p, l, r, 0)
  | _ => none

/-- Whether a command was read from a ring and not refused (R199, R200). -/
def Machine.Cmd.cameFrom (x : Cmd) (p l r : Nat) : Bool := x.p == p && x.l == l && x.r == r && x.refused.isNone

/-- The signature with which a session completes the quorum of the one open nonce over a write of `val` to `idx.sub` (R369, R370, R419); no
reset covers the object. `all` says whether every enrolled manager has signed. -/
def Signed (s : State) (sid nonce slot : Nat) (sig : Bytes) (idx sub : Nat) (val : Bytes) (all : Bool) : Prop :=
  (∃ x, Table.find s.sess sid = some x ∧ x.claim = false) ∧ s.scopeBusy (scopeOf idx sub) = false
  ∧ ∃ n m, s.sec.nonces.find? (fun y => y.id == nonce) = some n ∧ (∀ y, y ∈ s.sec.nonces → y.id = nonce → y = n)
      ∧ n.idx = idx ∧ n.sub = sub ∧ n.value = val ∧ n.all = all ∧ s.judge nonce slot sig = (rcOK, some m)

/-- The session, the object, the values and the source of a row that is one write on the quorum path (R417). -/
def quorumRowOf : Instr → Option (Nat × Nat × Nat × (Nat → Bool) × QSrc)
  | .enroll sid q => some (sid, 0x8100, 19, fun _ => true, q)
  | .unenroll sid q => some (sid, 0x8100, 20, fun _ => true, q)
  | .quorumK sid q => some (sid, 0x8100, 18, fun _ => true, q)
  | .certSlot1 sid q => some (sid, 0x8000, 2, fun _ => true, q)
  | .fabricAnchor sid q => some (sid, 0x8000, 4, fun _ => true, q)
  | .sdKeyClear sid q => some (sid, 0x8200, 4, fun _ => true, q)
  | .tenantRemove sid q => some (sid, 0x4400, 12, fun _ => true, q)
  | .fwCommit sid q => some (sid, 0x1020, 3, fun _ => true, q)
  | .admitDevice sid q => some (sid, 0x9200, 5, fun _ => true, q)
  | .expel sid q => some (sid, 0x9200, 4, fun _ => true, q)
  | .resetModule sid q => some (sid, 0xB000, 1, fun v => v % 16 == 1, q)
  | .resetWarm sid q => some (sid, 0xB000, 1, fun v => v % 16 == 2, q)
  | .resetDie sid q => some (sid, 0xB000, 1, fun v => v % 16 == 3, q)
  | .debugOpen sid q => some (sid, 0xB000, 1, fun v => v % 16 == 6, q)
  | .powerD2 sid q => some (sid, 0xB010, 2, fun v => v % 4 == 2, q)
  | .powerD3 sid q => some (sid, 0xB010, 2, fun v => v % 4 == 3, q)
  | _ => none

end Sys2Proof
end

