-- ==== Sys2Proof/Certificates/Slice0/Obligations.lean ====
section
/-! DEFINITION. The statements for the provers: what each command does, what every step keeps, and what reset leaves. -/

open Sys2Proof Sys2Proof.Machine

/-- A step runs the command at the front of the queue on the state with the queue's rest. The queue is this model's form of a device that takes commands
(log entry 1). -/
def Obligations.StepRunsFrontCommand : Prop :=
  ∀ (c : Instr) (rest : List Instr) (s : State), step { s with pending := c :: rest } = exec c { s with pending := rest }

/-- Every state's step answers a next state, takes at most the command at the front, and leaves the rest of the queue as it was. No command stops the
model and no command changes the queue, which are the model's choices of log entry 1. -/
def Obligations.EveryStepTakesOneCommand : Prop :=
  (∀ s : State, ∃ t, step s = .next t ∧ t.pending = s.pending.tail)
  ∧ (∀ (c : Instr) (s t : State), exec c s = .next t → t.pending = s.pending)

/-- On an empty queue one TIMECLK cycle passes: 10 ns, what the mean deficit of the spread in force takes, and at most 200 ppm of the correction that is
still to be slewed (R50, R88). That an empty queue ticks is this model's choice (log entry 2). How the correction is slewed in one cycle is log entry
4. -/
def Obligations.EmptyQueueTicks : Prop :=
  ∀ s : State, s.pending = [] → 0 ≤ s.tb.fs → s.tb.fs < 1000000 → s.tb.now + 11 < 2 ^ 64 →
    ∃ t, step s = .next t ∧ t = { s with tb := t.tb }
      ∧ (t.tb.now : Int) * 1000000 + t.tb.fs =
          (s.tb.now : Int) * 1000000 + s.tb.fs + 10000000 + spreadFs s.pw.spread + 1000 * (s.tb.corr - t.tb.corr)
      ∧ 0 ≤ t.tb.fs ∧ t.tb.fs < 1000000 ∧ (s.tb.corr - t.tb.corr).natAbs ≤ 2 ∧ t.tb.corr.natAbs ≤ s.tb.corr.natAbs
      ∧ (s.tb.corr.natAbs ≤ 2 → t.tb.corr = 0)

/-- At reset every object reads its default, every fabric die is in service with 48 engines and four spares, every HBM extent is free, and nothing is
open, queued or stored (R14, R118, R122, R383, R425). That nothing is open, queued or stored where the spec names no value is log entries 7, 9 and 11. -/
def Obligations.ResetState : Prop :=
  State.reset.pending = [] ∧ State.reset.mem = [] ∧ Inv State.reset ∧ (∀ idx sub, State.reset.obj idx sub = objDefault (okey idx sub))
  ∧ (∀ d, d < 8 → State.reset.dieUp d = true) ∧ (∀ d, d < 8 → (State.reset.freeSpares d).length = 4 ∧ State.reset.dieEngines d = 48)
  ∧ (∀ e x, Table.find State.reset.extents e = some x → x.st = 0 ∧ x.holder = none)
  ∧ (∀ p, State.reset.flexP p = {}) ∧ (∀ q, State.reset.peerP q = {}) ∧ State.reset.sess = [] ∧ State.reset.cmds = [] ∧ State.reset.seqs = []
  ∧ State.reset.resets = [] ∧ State.reset.pw.stage = 0 ∧ State.reset.nextSnap = 1 ∧ State.reset.sec.claim = none ∧ State.reset.fmap.map = none

/-- Every step keeps memory in its one canonical form: addresses rising, and no byte listed that equals what an unlisted address reads. The form is the
model's (log entry 11 says what an unlisted byte reads). -/
def Obligations.MemoryStaysCanonical : Prop :=
  ∀ s t : State, Inv s → step s = .next t → Inv t

/-- A command outside the list of those that may store leaves every byte of data-class memory as it was. -/
def Obligations.StorelessCommandsKeepMemory : Prop :=
  ∀ (c : Instr) (s t : State), mayStore c = false → exec c s = .next t → t.mem = s.mem ∧ ∀ a, memByte t.mem a = memByte s.mem a

/-- The commands that only read change sessions, outputs, shadows of word reads, relays, read marks of snapshots and time, and nothing else. Where a read
waits, fabric time goes forward (log entry 3). -/
def Obligations.ReadingCommandsKeepTheMachine : Prop :=
  ∀ (c : Instr) (s t : State), onlyReads c = true → exec c s = .next t →
    t = { s with sess := t.sess, out := t.out, shadows := t.shadows, relays := t.relays, snaps := t.snaps, tb := t.tb }
      ∧ s.tb.now ≤ t.tb.now ∧ t.tb = { s.tb with now := t.tb.now }

/-- POR, start-up points and the loss of input power do what the clauses state of R34, R35, R37 and R453. The times of the stages are log entry 51, the
reference clocks log entry 185, and the voltages at the limits log entry 50. -/
def Obligations.InputPowerAndStartupComplete : Prop :=
  (∀ (mv straps : Nat) (dbg : Bool) (s : State), 19000 ≤ mv → mv ≤ 28000 →
    ∃ t, exec (.por mv straps dbg) s = .next t ∧ t.pw.stage = 0 ∧ t.pw.mv = mv ∧ t.pw.input = true ∧ t.pw.dbgEn = dbg ∧ t.tb.now = 0
      ∧ t.mem = [] ∧ t.cmds = [] ∧ t.seqs = [] ∧ t.sess = [] ∧ t.resets = [] ∧ t.pw.modEn = s.pw.modEn ∧ t.pending = s.pending)
  ∧ (∀ (ok : Bool) (s : State), s.pw.input = true → s.pw.stage = 0 →
    exec (.startupPhase ok) s = .next { s with pw := { s.pw with rootOk := !bit s.pw.lostClk 8, lref := 0xFF - s.pw.lostClk % 256, stage := 1 } })
  ∧ (∀ (ok : Bool) (s : State), s.pw.input = true → s.pw.stage = 1 →
    ∃ t, exec (.startupPhase ok) s = .next t ∧ t.pw.stage = 2 ∧ t.tb.now = max s.tb.now 42000000
      ∧ (s.pw.porStart = true → s.enrolled = 0 → s.locked 8 = false → t.sec.claim = some (max s.tb.now 42000000)))
  ∧ (∀ (ok : Bool) (s : State), s.pw.input = true → s.pw.stage = 2 → s.pw.modEn = true → s.pw.rootOk = true → s.pw.tripped = false →
    ∃ t, exec (.startupPhase ok) s = .next t ∧ t.pw.stage = 3 ∧ t.pw.domOn = 2 ^ 20 - 1 ∧ t.pw.fresh = 2 ^ 20 - 1 ∧ t.pw.powAt = t.tb.now
      ∧ t.tb.now = (if s.pw.porStart then max s.tb.now 47000000 else s.tb.now))
  ∧ (∀ (ok : Bool) (s : State), s.pw.input = true → s.pw.stage = 3 →
    exec (.startupPhase ok) s = .next { s with
      tb := { s.tb with now := max s.tb.now (s.pw.powAt + 12000000) }, pw := { s.pw with stage := 4, pwrOk := true } })
  ∧ (∀ (ok : Bool) (s : State), s.pw.input = true → s.pw.stage = 4 →
    ∃ t, exec (.startupPhase ok) s = .next t ∧ t.pw.stage = 5 ∧ t.tb.now = max s.tb.now (s.pw.powAt + 100000000))
  ∧ (∀ (ok : Bool) (s : State), s.pw.input = true → s.pw.stage = 5 →
    ∃ t, exec (.startupPhase ok) s = .next t ∧ t.pw.stage = (if ok then 6 else 7) ∧ t.resets.any (fun r => r.kind == 1) = false
      ∧ t.tb.now = (if s.resets.any (fun r => r.kind == 1) then max s.tb.now s.pw.modrstHigh else s.tb.now))
  ∧ (∀ (mv : Nat) (s : State), 29000 ≤ mv → s.pw.input = true →
    ∃ t, exec (.overVoltageShutdown mv) s = .next t ∧ t.pw.input = false ∧ t.pw.mv = mv ∧ t.pw.domOn = 0 ∧ t.pw.pwrOk = false ∧ t.mem = []
      ∧ t.sess = [] ∧ t.cmds = [])
  ∧ (∀ (mv : Nat) (s : State), mv ≤ 18000 → s.pw.input = true →
    ∃ t, exec (.underVoltageLockout mv) s = .next t ∧ t.pw.input = false ∧ t.pw.mv = mv ∧ t.pw.domOn = 0 ∧ t.pw.pwrOk = false ∧ t.mem = []
      ∧ t.sess = [] ∧ t.cmds = [])
  ∧ (∀ (mv : Nat) (s : State), s.pw.input = true → 18000 < mv → mv ≤ 19500 →
    ∃ t, exec (.underVoltageWarning mv) s = .next t ∧ t.pw = { s.pw with mv := mv, uvWarn := true } ∧ bit (t.obj 0x2000 10) 1 = true)

/-- MOD_EN, MODRST_N and the junction trip act as the clauses state of R34, R55 and R450; a pulse of MODRST_N of 1 µs is a MODULE reset. What is lost with
MOD_EN and the trip is log entry 127, a pulse during a MODULE reset log entry 128. -/
def Obligations.ModulePadsComplete : Prop :=
  (∀ s : State, s.pw.modEn = true →
    ∃ t, exec .modEnFall s = .next t ∧ t.pw.modEn = false ∧ t.pw.domOn = 0 ∧ t.pw.pwrOk = false ∧ t.cmds = [] ∧ t.seqs = [] ∧ t.cores = []
      ∧ (∀ a, faSpace a ≠ 1 → memByte t.mem a = 0) ∧ (∀ a, faSpace a = 1 → memByte t.mem a = memByte s.mem a))
  ∧ (∀ s : State, s.pw.modEn = false → s.pw.stage < 2 → exec .modEnRise s = .next { s with pw := { s.pw with modEn := true } })
  ∧ (∀ s : State, s.pw.modEn = false → 2 ≤ s.pw.stage → s.pw.input = true → s.pw.tripped = false → s.pw.rootOk = true →
    ∃ t, exec .modEnRise s = .next t ∧ t.pw.modEn = true ∧ t.pw.stage = 3 ∧ t.pw.domOn = 2 ^ 20 - 1 ∧ t.cmds = []
      ∧ t.resets.any (fun r => r.kind == 1) = true)
  ∧ (∀ (ns : Nat) (s : State), 1000 ≤ ns → s.pw.modEn = true → s.pw.input = true → s.pw.tripped = false →
      s.resets = [] →
    ∃ t, exec (.modrstNPulse ns) s = .next t ∧ t.resets = [{ kind := 1, unit := 0, at_ := s.tb.now + ns }] ∧ t.pw.modrstHigh = s.tb.now + ns ∧ t.cmds = [] ∧ t.seqs = [] ∧ t.mem = []
      ∧ t.sess = [] ∧ bit (t.obj 0x1010 5) 1 = true)
  ∧ (∀ (ns : Nat) (s : State), 1000 ≤ ns → s.pw.modEn = true → s.pw.input = true → s.pw.tripped = false →
      s.resets.any (fun r => r.kind == 1) = true →
    exec (.modrstNPulse ns) s = .next { s with pw := { s.pw with modrstHigh := s.tb.now + ns } })
  ∧ (∀ (ns : Nat) (s : State), ns < 50 → exec (.modrstNPulse ns) s = .next s)
  ∧ (∀ s : State, s.pw.tripped = false → s.pw.input = true →
    ∃ t, exec .thermalTrip s = .next t ∧ t.pw.tripped = true ∧ t.pw.domOn = 0 ∧ t.pw.pwrOk = false ∧ 115 ≤ t.pw.temp ∧ t.cmds = [] ∧ t.cores = []
      ∧ (∀ a, faSpace a ≠ 1 → memByte t.mem a = 0))

/-- An arbiter epoch takes the next 10 µs boundary, computes the budget of R36 and R54, clears what R43 had spent and reports the sum it granted. The
phase of the epochs is log entry 10, the rounding of the budget log entries 48 and 49. -/
def Obligations.ArbiterEpochCompletes : Prop :=
  ∀ (inp : ArbInput) (s : State), ∃ t, exec (.arbiterEpoch inp) s = .next t
    ∧ t.pw.epochAt = (s.pw.epochAt / 10000 + 1) * 10000 ∧ t.tb.now = max s.tb.now ((s.pw.epochAt / 10000 + 1) * 10000)
    ∧ t.pw.budget = effBudget (s.obj 0x2000 1) inp.mv inp.temp (s.obj 0x2000 8) ∧ t.pw.eta = effEta inp.eta s.pw.eta
    ∧ t.pw.total = sumNat t.pw.grants ∧ t.pw.fresh = 0 ∧ t.pw.enSpent = 0 ∧ t.pw.strictSpent = [] ∧ t.pw.swSpent = 0 ∧ t.pw.mv = inp.mv ∧ t.pw.temp = inp.temp
    ∧ t.pw.domOn = s.pw.domOn ∧ t.pw.stage = s.pw.stage ∧ t.mem = s.mem ∧ t.extents = s.extents ∧ t.cmds = s.cmds ∧ t.lds = s.lds

/-- The division of what is left among the excess demands gives out exactly what is left when they ask for more (R41). -/
def Obligations.DivisionSpendsWhatIsLeft : Prop :=
  ∀ (ex : List Nat) (left : Nat), left < sumNat ex →
    sumNat (divide ex left) = left ∧ (divide ex left).length = ex.length
      ∧ ∀ k, k < ex.length → (divide ex left).getD k 0 ≤ ex.getD k 0

/-- Spent grants and widening change exactly the register the rule names, and a spent grant stops the engines of its die that draw on it: those of one
STRICT tenant's partition, or those of none (R43, R44, R92, R345). A heat report shows the temperature, raises its flag with its notification from the
limit on, and changes nothing else (R54, R412). The loss of a lane chiplet's reference clock takes down the links of its flex ports; its return shows
it present and changes no flex port of another chiplet (R51, R56). ROOTCLK's loss and return are a bit alone. What is lost before the root die has
left reset, or through a POR, shows once it has. -/
def Obligations.GrantsAndClocksComplete : Prop :=
  ((∀ (d : Nat) (s : State), d < 8 → bit s.pw.domOn (8 + d) = true →
    exec (.enGrantSpent ⟨d, none⟩) s = .next { s with pw := { s.pw with enSpent := setBit s.pw.enSpent d } })
  ∧ (∀ (d u : Nat) (s : State), d < 8 → bit s.pw.domOn (8 + d) = true →
    ∃ t, exec (.enGrantSpent ⟨d, some u⟩) s = .next t ∧ t = { s with pw := { s.pw with strictSpent := t.pw.strictSpent } })
  ∧ (∀ (d e : Nat) (x : Engine) (who : Option Nat) (s : State), d < 8 → bit s.pw.domOn (8 + d) = true → e / 52 = d →
      Table.find s.rel.engines e = some x →
    ∃ t, exec (.enGrantSpent ⟨d, who⟩) s = .next t ∧ (t.gated e = true ↔ (x.part = who ∨ s.gated e = true)))
  ∧ (∀ (d : Nat) (s : State), d < 8 → bit s.pw.domOn d = true →
    exec (.swGrantSpent d) s = .next { s with pw := { s.pw with swSpent := setBit s.pw.swSpent d } })
  ∧ (∀ (q : Nat) (s : State), (s.peerP q).st = 4 →
    ∃ t, exec (.linkWiden true q) s = .next t ∧ t = s.setPeer q { s.peerP q with cur := (s.peerP q).lanes }
      ∧ (t.peerP q).cur = (s.peerP q).lanes ∧ ∀ r, r ≠ q → t.peerP r = s.peerP r)
  ∧ (∀ (p : Nat) (s : State), (s.flexP p).st = 3 →
    ∃ t, exec (.linkWiden false p) s = .next t ∧ t = s.setFlex p { s.flexP p with cur := (s.flexP p).width }
      ∧ (t.flexP p).cur = (s.flexP p).width ∧ ∀ r, r ≠ p → t.flexP r = s.flexP r)
  ∧ (∀ (temp : Nat) (s : State), ∃ t, exec (.thermalDerate temp) s = .next t ∧ t.pw.temp = temp
      ∧ (s.obj 0x2000 8 ≤ temp → bit s.pw.held 3 = false → bit (t.obj 0x2000 6) 3 = true)
      ∧ t = { s with pw := { s.pw with temp := temp, held := t.pw.held }, objs := t.objs, sess := t.sess, out := t.out }))
  ∧ ((∀ s : State, exec (.refclkLoss 8) s = .next { s with pw := { s.pw with rootOk := false, lostClk := setBit s.pw.lostClk 8 } })
  ∧ (∀ (clk : Nat) (s : State), clk < 8 →
    ∃ t, exec (.refclkLoss clk) s = .next t ∧ bit t.pw.lref clk = false ∧ bit t.pw.lostClk clk = true ∧ t.mem = s.mem
      ∧ ∀ i, i < 16 → (t.flexP (16 * clk + i)).st ≤ 1)
  ∧ (∀ s : State, s.pw.stage ≠ 0 → exec (.refclkRestored 8) s = .next { s with pw := { s.pw with rootOk := true, lostClk := clearBit s.pw.lostClk 8 } })
  ∧ (∀ (clk : Nat) (s : State), clk ≤ 8 → s.pw.stage = 0 →
    exec (.refclkRestored clk) s = .next { s with pw := { s.pw with lostClk := clearBit s.pw.lostClk clk } })
  ∧ (∀ (clk : Nat) (s : State), clk < 8 → s.pw.stage ≠ 0 →
    ∃ t, exec (.refclkRestored clk) s = .next t ∧ bit t.pw.lref clk = true ∧ t.mem = s.mem ∧ t.objs = s.objs
      ∧ ∀ p, p / 16 ≠ clk → t.flexP p = s.flexP p))

/-- Enabling a flex port that passes the checks of R59 and R104 enables it; disabling one leaves it disabled (R94). -/
def Obligations.FlexPortEnableAndDisableComplete : Prop :=
  (∀ (sid p : Nat) (s : State), p < 128 → MayWrite s sid (0x3000 + 8 * p) 1 → s.flexOn p = false → s.obj (0x3000 + 8 * p) 2 ≠ 0 →
      (8 ≤ s.flexWidth p → 4 * (p % 16) % s.flexWidth p = 0) →
      (∀ q, q < 128 → q ≠ p → s.flexOn q = true → ∀ g, g ∈ laneGroups p (s.flexWidth p) → g ∉ laneGroups q (s.flexWidth q)) →
      (∀ tc, tc ∈ (match s.obj (0x3000 + 8 * p) 2 with | 1 => [1, 2, 3] | 2 => [1] | _ => [1, 6]) → s.flexMin p tc ≠ 0) → s.poolFits (p / 16) (minSum (s.flexMin p)) = true →
    ∃ t, exec (.flexPortEnable sid p) s = .next t ∧ t.flexOn p = true ∧ (t.flexP p).stuck = false
      ∧ (t.flexP p).st = (if s.ready && s.lanesUp (p / 16) then 2 else 1) ∧ bit (t.obj (0x3000 + 8 * p) 5) 4 = false
      ∧ (∀ q, q ≠ p → t.flexP q = s.flexP q) ∧ t.mem = s.mem ∧ t.extents = s.extents)
  ∧ (∀ (sid p : Nat) (s : State), p < 128 → MayWrite s sid (0x3000 + 8 * p) 1 →
    ∃ t, exec (.flexPortDisable sid p) s = .next t ∧ t.flexOn p = false ∧ (t.flexP p).st = 0 ∧ (t.flexP p).stuck = false ∧ t.mem = s.mem)

/-- Training takes the highest rate both ends allow and the widest width, a lane failure narrows or drops the link, a lost link goes down (R61, R68,
R122). A completed Write of a tray with a volatile cache waits for a Flush that covers it, a late command is aborted, and a tray whose commands cannot
be aborted is reset (R66, R67). A row that stands for a deadline moves fabric time to it (log entry 3); a narrowing is one row (log entry 53). -/
def Obligations.FlexLinksAndTraysComplete : Prop :=
  ((∀ (p rate : Nat) (partner : FlexPartner) (s : State), s.role p ≠ 0 → s.lanesUp (p / 16) = true → s.ready = true →
      (s.flexP p).stuck = false → ((s.flexP p).st = 1 ∨ (s.flexP p).st = 2) → s.scopeBusy (.flex p) = false →
      (roleRates (s.role p)).find? (fun r => partner.rates.contains r) = some rate → 2 ≤ Nat.min (s.flexWidth p) partner.width →
    ∃ t, exec (.flexLinkTrained p partner) s = .next t ∧ (t.flexP p).st = 3 ∧ (t.flexP p).rate = rate
      ∧ (t.flexP p).width = widthBelow (Nat.min (s.flexWidth p) partner.width) ∧ (t.flexP p).cur = (t.flexP p).width
      ∧ (∀ q, q ≠ p → t.flexP q = s.flexP q) ∧ t.mem = s.mem)
  ∧ (∀ (p width : Nat) (s : State), (s.flexP p).st = 3 → width < (s.flexP p).width → 2 ≤ width →
    ∃ t, exec (.flexLaneFailure p width) s = .next t
      ∧ t.flexP p = { s.flexP p with width := widthBelow width, cur := Nat.min (s.flexP p).cur (widthBelow width) }
      ∧ (widthBelow width < s.flexWidth p → bit (t.obj (0x3000 + 8 * p) 5) 1 = true)
      ∧ (∀ q, q ≠ p → t.flexP q = s.flexP q) ∧ t.mem = s.mem ∧ t.extents = s.extents ∧ t.lds = s.lds)
  ∧ (∀ (p width : Nat) (s : State), (s.flexP p).st = 3 → width < (s.flexP p).width → width < 2 →
    ∃ t, exec (.flexLaneFailure p width) s = .next t ∧ (t.flexP p).st = 1 ∧ (t.flexP p).stuck = true
      ∧ bit (t.obj (0x3000 + 8 * p) 5) 2 = true ∧ t.mem = s.mem)
  ∧ (∀ (p : Nat) (s : State), (s.flexP p).st = 3 →
    ∃ t, exec (.flexLinkDown p) s = .next t ∧ (t.flexP p).st = 1 ∧ (t.flexP p).width = 0 ∧ (t.flexP p).rate = 0 ∧ t.mem = s.mem))
  ∧ ((∀ (p cid k : Nat) (c : NvmeCmd) (s : State), Table.find (s.flexP p).nvme cid = some c → c.aborting = false → c.op = 1 → (s.flexP p).vcache = true →
      (s.flexP p).nvmeWait = [] → FlexPort.nvmePlace { s.flexP p with nvme := Table.del (s.flexP p).nvme cid } 2 = some k →
    ∃ t, exec (.nvmeCommandComplete p cid true) s = .next t ∧ (t.flexP p).unflushed = (s.flexP p).unflushed ++ [c.page]
      ∧ Table.find (t.flexP p).nvme (s.flexP p).nextCid =
          some { op := 2, page := 0, issued := s.tb.now, queue := k, covers := (s.flexP p).unflushed ++ [c.page] }
      ∧ (t.flexP p).nextCid = (s.flexP p).nextCid + 1 ∧ t.groups = s.groups ∧ t.mem = s.mem)
  ∧ (∀ (p cid gid m : Nat) (c : NvmeCmd) (g : Group) (y : Page) (s : State), Table.find (s.flexP p).nvme cid = some c → c.aborting = false →
      c.op = 1 → (s.flexP p).vcache = false → (s.flexP p).nvmeWait = [] → g.spillLeft.contains m = false → cid < (s.flexP p).nextCid → c.page = pageId gid m → m < 65536 → Table.find s.groups gid = some g → Table.find g.pages m = some y →
      y.moving = some 4 → y.recode = none → y.after = none → s.heldMoves = [] → s.tierStored 4 + y.bytes ≤ s.tierCap 4 → s.shapeRate g.tenant 6 = 0xFFFFFFFF →
    ∃ t, exec (.nvmeCommandComplete p cid true) s = .next t ∧ Table.find (t.flexP p).nvme cid = none
      ∧ (t.page gid m).map (fun z => (z.tier, z.moving)) = some (4, none) ∧ t.mem = s.mem)
  ∧ (∀ (p cid : Nat) (c : NvmeCmd) (s : State), Table.find (s.flexP p).nvme cid = some c → c.aborting = false → cid < (s.flexP p).nextCid →
    ∃ t, exec (.nvmeCommandTimeout p cid) s = .next t ∧ .nvmeAbort p cid ∈ t.out
      ∧ (Table.find (t.flexP p).nvme cid).map NvmeCmd.aborting = some true ∧ t.tb.now = max s.tb.now (c.issued + 500000000) ∧ t.mem = s.mem)
  ∧ (∀ (p cid : Nat) (c : NvmeCmd) (s : State), Table.find (s.flexP p).nvme cid = some c → c.aborting = true →
    ∃ t, exec (.nvmeAbortTimeout p cid) s = .next t ∧ .nvmeReset p ∈ t.out ∧ (t.flexP p).resets = (s.flexP p).resets + 1
      ∧ t.tb.now = max s.tb.now (c.issued + 1000000000) ∧ t.mem = s.mem
      ∧ (3 ≤ (s.flexP p).resets + 1 → bit (t.obj (0x3000 + 8 * p) 5) 4 = true)))

/-- A port sends a replayed flit, a new sealed DATA flit it keeps until it is acknowledged, an IDLE flit, or a LINK flit while it trains, each as the
2,560 bytes of R71 (R71 to R75, R79, R83, R93). A good DATA flit in its place is accepted with its packets; a bad one owes one NAK; an unanswered one
starts a replay, and after four in a row a fast retrain (R78, R79). The first FSEQ is log entry 12, a flit behind its place log entry 59, its tag log
entries 146 and 190, its symbols log entry 191. -/
def Obligations.FlitsComplete : Prop :=
  ((∀ (q : Nat) (k : Packet) (rest : List Packet) (s : State), (s.peerP q).st = 4 → (s.peerP q).resend = 0 → (s.peerP q).replay.length < 64 →
      (s.peerP q).carry.length < 2528 → (s.peerP q).waiting = k :: rest → (s.peerP q).mayGo (s.waitsFor q) k = true →
      (∀ x, x ∈ (s.peerP q).waiting → x.ptype ≠ 12) →
    ∃ t f img x, exec (.flitTransmit q) s = .next t ∧ t.out = s.out ++ [.flit q f img] ∧ f.pkts.head? = some k
      ∧ (t.peerP q).replay = (s.peerP q).replay ++ [x] ∧ x.fseq = (s.peerP q).txSeq ∧ x.key = (s.peerP q).keyTx ∧ x.pkts = f.pkts
      ∧ x.first = (s.peerP q).carry.length / 8 ∧ img = flitImage f.w0 f.w1 x.payload x.tag
      ∧ f.w0 = flitWord0 1 x.fseq (s.peerP q).rxSeq (s.peerP q).nakOwed x.key x.first (Table.get (s.peerP q).rxLimit 0 0)
      ∧ (x.payload, x.tag) = sealFlit (s.peerP q).txKey (s.peerP q).keyFlits x.fseq x.key x.first
          (padTo 2528 (((s.peerP q).carry ++ f.pkts.flatMap packetWire).take 2528))
      ∧ (t.peerP q).txSeq = ((s.peerP q).txSeq + 1) % 4096 ∧ (t.peerP q).keyFlits = (s.peerP q).keyFlits + 1
      ∧ (t.peerP q).nakOwed = false ∧ (∀ r, r ≠ q → t.peerP r = s.peerP r) ∧ t.mem = s.mem ∧ t.objs = s.objs)
  ∧ (∀ (q : Nat) (x : Stored) (s : State), (s.peerP q).st = 4 → 0 < (s.peerP q).resend →
      (s.peerP q).replay[(s.peerP q).replay.length - (s.peerP q).resend]? = some x →
    ∃ t f img, exec (.flitTransmit q) s = .next t ∧ t.out = s.out ++ [.flit q f img] ∧ f.pkts = x.pkts
      ∧ img = flitImage f.w0 f.w1 x.payload x.tag ∧ (t.peerP q).resend = (s.peerP q).resend - 1 ∧ (t.peerP q).replay = (s.peerP q).replay ∧ (t.peerP q).txSeq = (s.peerP q).txSeq
      ∧ t.obj (0x3800 + 8 * q) 7 = (s.obj (0x3800 + 8 * q) 7 + 1) % 2 ^ 64)
  ∧ (∀ (q : Nat) (s : State), (s.peerP q).st = 4 → (s.peerP q).resend = 0 → (s.peerP q).carry = [] → (s.peerP q).waiting = [] →
    ∃ t f img, exec (.flitTransmit q) s = .next t ∧ t.out = s.out ++ [.flit q f img] ∧ f.pkts = []
      ∧ f.w0 = flitWord0 0 (s.peerP q).txSeq (s.peerP q).rxSeq (s.peerP q).nakOwed 0 0x1FF (Table.get (s.peerP q).rxLimit 0 0)
      ∧ img = flitImage f.w0 f.w1 (zeros 2528) (zeros 12)
      ∧ (t.peerP q).replay = (s.peerP q).replay ∧ (t.peerP q).txSeq = (s.peerP q).txSeq)
  ∧ (∀ (q : Nat) (s : State), ((s.peerP q).st = 2 ∨ (s.peerP q).st = 5) →
    ∃ t f img, exec (.flitTransmit q) s = .next t ∧ t.out = s.out ++ [.flit q f img] ∧ f.pkts = []
      ∧ f.w0 = flitWord0 2 (s.peerP q).txSeq (s.peerP q).rxSeq (s.peerP q).nakOwed 0 0x1FF (Table.get (s.peerP q).rxLimit 0 0)
      ∧ img = flitImage f.w0 f.w1 (zeros 2528) (zeros 12) ∧ (t.peerP q).replay = (s.peerP q).replay))
  ∧ ((∀ (q : Nat) (f : Flit) (k : Packet) (s : State), (s.peerP q).st = 4 → (s.peerP q).rxPart = none → (s.peerP q).rxCarry = [] → f.fecOk = true → f.crcOk = true →
      (s.peerP q).opens f = true →
      f.w0 / 2 ^ 60 = 1 → bits f.w0 34 33 = (s.peerP q).keyRx → (s.peerP q).keyRx ≠ 0 → bits f.w0 59 48 = ((s.peerP q).rxSeq + 1) % 4096 →
      bit f.w0 35 = false → f.pkts = [k] → (packetWire k).length ≤ 2528 → isSpdm k = false → malformed k = false → ¬ (k.ptype = 0 ∧ k.tc = 0) →
    ∃ t, exec (.flitReceive q f) s = .next t ∧ (t.peerP q).rxSeq = bits f.w0 59 48 ∧ (t.peerP q).nakOpen = false
      ∧ t.out = s.out ++ [.accepted q k] ∧ (∀ r, r ≠ q → t.peerP r = s.peerP r) ∧ t.mem = s.mem ∧ t.objs = s.objs)
  ∧ (∀ (q : Nat) (f : Flit) (s : State), ((s.peerP q).st = 3 ∨ (s.peerP q).st = 4) → (s.peerP q).bad f = true → (s.peerP q).nakOpen = false →
    ∃ t, exec (.flitReceive q f) s = .next t ∧ t.peerP q = { (s.peerP q).countSymbols f with nakOwed := true, nakOpen := true }
      ∧ (∀ r, r ≠ q → t.peerP r = s.peerP r) ∧ t.out = s.out ∧ t.objs = s.objs ∧ t.mem = s.mem)
  ∧ (∀ (q : Nat) (s : State), ((s.peerP q).st = 3 ∨ (s.peerP q).st = 4) → (s.peerP q).replay ≠ [] → (s.peerP q).streak < 4 →
    ∃ t, exec (.replayTimeout q) s = .next t ∧ t.tb.now = max s.tb.now ((s.peerP q).ackAt + 2000)
      ∧ t.peerP q = { s.peerP q with resend := (s.peerP q).replay.length, streak := (s.peerP q).streak + 1, ackAt := t.tb.now }
      ∧ (∀ r, r ≠ q → t.peerP r = s.peerP r) ∧ t.mem = s.mem)
  ∧ (∀ (q : Nat) (s : State), ((s.peerP q).st = 3 ∨ (s.peerP q).st = 4) → (s.peerP q).replay ≠ [] → 4 ≤ (s.peerP q).streak →
    ∃ t, exec (.replayTimeout q) s = .next t ∧ t.peerP q = { s.peerP q with st := 5, streak := 0, back := (s.peerP q).st })
  ∧ (∀ (q : Nat) (f : Flit) (s : State), (s.peerP q).st = 4 → (s.peerP q).bad f = false → (s.peerP q).opens f = false → f.w0 / 2 ^ 60 = 1 →
      bits f.w0 34 33 = (s.peerP q).keyRx → bits f.w0 59 48 = ((s.peerP q).rxSeq + 1) % 4096 → bit f.w0 35 = false →
    ∃ t, exec (.flitReceive q f) s = .next t ∧ (t.peerP q).st = 3 ∧ bit (t.obj (0x3800 + 8 * q) 4) 2 = true
      ∧ (t.spdmOf (.peer q)).stage = 0 ∧ t.mem = s.mem))

/-- A failed lane takes a spare, else the port narrows, each with a fast retrain that returns to the state it began in, and the last lane takes the link
down (R82, R91, R92). A lost link holds what it had not delivered; a HANDOVER sends on what the far end lacks, and 10 ms later what is left is lost
(R80, R391). LINK_LOST in each state is log entry 58, lost packets log entry 63, packets behind held ones log entry 192. -/
def Obligations.LaneAndLinkLossComplete : Prop :=
  ((∀ (q lane : Nat) (s : State), ((s.peerP q).st = 3 ∨ (s.peerP q).st = 4) → lane < (s.peerP q).lanes → s.obj 0x3A10 (q / 8 + 1) % 4 ≠ 3 →
    ∃ t, exec (.peerLaneFailure q lane) s = .next t
      ∧ t.peerP q = { s.peerP q with st := 5, streak := 0, spares := (s.peerP q).spares + 1, back := (s.peerP q).st }
      ∧ t.obj 0x3A10 (q / 8 + 1) = setBit (s.obj 0x3A10 (q / 8 + 1)) (if bit (s.obj 0x3A10 (q / 8 + 1)) 0 then 1 else 0)
      ∧ (∀ r, r ≠ q → t.peerP r = s.peerP r) ∧ t.mem = s.mem)
  ∧ (∀ (q lane : Nat) (s : State), ((s.peerP q).st = 3 ∨ (s.peerP q).st = 4) → lane < (s.peerP q).lanes → s.obj 0x3A10 (q / 8 + 1) % 4 = 3 →
      1 < (s.peerP q).lanes →
    ∃ t, exec (.peerLaneFailure q lane) s = .next t ∧ (t.peerP q).st = 5 ∧ (t.peerP q).back = (s.peerP q).st ∧ (t.peerP q).lanes = (s.peerP q).lanes / 2 ∧ (t.peerP q).faulty = true
      ∧ (t.peerP q).cap = (s.peerP q).lanes / 2
      ∧ (t.peerP q).cur = Nat.min (s.peerP q).cur ((s.peerP q).lanes / 2) ∧ bit (t.obj (0x3800 + 8 * q) 4) 5 = true)
  ∧ (∀ (q : Nat) (s : State), (s.peerP q).st = 4 → (s.peerP q).lanes = 1 → s.obj 0x3A10 (q / 8 + 1) % 4 = 3 →
    ∃ t, exec (.peerLaneFailure q 0) s = .next t ∧ (t.peerP q).st = 1 ∧ bit (t.obj (0x3800 + 8 * q) 4) 0 = true)
  ∧ (∀ (q : Nat) (s : State), (s.peerP q).st = 3 → (s.peerP q).lanes = 1 → s.obj 0x3A10 (q / 8 + 1) % 4 = 3 →
    ∃ t, exec (.peerLaneFailure q 0) s = .next t ∧ (t.peerP q).st = 1 ∧ (t.peerP q).lanes = 0 ∧ t.mem = s.mem))
  ∧ ((∀ (q : Nat) (s : State), (s.peerP q).live = true →
    ∃ t, exec (.peerLinkLoss q) s = .next t ∧ (t.peerP q).st = 1 ∧ (t.peerP q).hold = (s.peerP q).hold ++ [(s.tb.now, (s.peerP q).toHold)]
      ∧ (t.peerP q).replay = [] ∧ (t.peerP q).txq = (s.peerP q).txq.filter (fun k => !isSpdm k) ∧ bit (t.obj (0x3800 + 8 * q) 4) 0 = true ∧ t.mem = s.mem)
  ∧ (∀ (q : Nat) (s : State), 2 ≤ (s.peerP q).st → (s.peerP q).live = false →
    ∃ t, exec (.peerLinkLoss q) s = .next t ∧ (t.peerP q).st = 1 ∧ (t.peerP q).hold = (s.peerP q).hold ∧ t.mem = s.mem ∧ t.objs = s.objs)
  ∧ (∀ (via q last t0 : Nat) (l : List Stored) (more : List (Nat × List Stored)) (s : State), (s.peerP q).hold = (t0, l) :: more →
      (s.peerP via).st = 4 →
    ∃ t, exec (.handover via q last) s = .next t ∧ t.out = s.out ++ [.resent via (heldPkts (heldAfter l last))]
      ∧ (t.peerP q).hold = more
      ∧ (via = q → (t.peerP q).ahead = heldPkts (heldAfter l last) ++ (s.peerP q).ahead ∧ (t.peerP q).txq = (s.peerP q).txq)
      ∧ (via ≠ q → (t.peerP q).ahead = [] ∧ (t.peerP q).txq = [] ∧ (t.peerP via).txq = (s.peerP q).txq ++ (s.peerP via).txq
          ∧ (t.peerP via).ahead = (s.peerP via).ahead ++ heldPkts (heldAfter l last) ++ (s.peerP q).ahead)
      ∧ t.mem = s.mem ∧ t.objs = s.objs)
  ∧ (∀ (q t0 : Nat) (l : List Stored) (more : List (Nat × List Stored)) (s : State), (s.peerP q).hold = (t0, l) :: more →
    ∃ t, exec (.linkHoldExpiry q) s = .next t ∧ t.tb.now = max s.tb.now (t0 + 10000000) ∧ (t.peerP q).hold = more
      ∧ (s.out ++ (heldPkts l).map Output.lostPacket) <+: t.out
      ∧ t.obj (0x3800 + 8 * q) 8 = (s.obj (0x3800 + 8 * q) 8 + (heldPkts l).length) % 2 ^ 64 ∧ t.mem = s.mem))

/-- Enabling, disabling, training and retraining move a peer port through the states of R93 (R90, R91, R95). The state it is enabled in is log entry 57. -/
def Obligations.PeerPortLifeCompletes : Prop :=
  (∀ (sid q : Nat) (s : State), q < 64 → MayWrite s sid (0x3800 + 8 * q) 1 → s.peerOn q = false → s.sec.debugOpen = false →
      s.poolFits (q / 8) (minSum (s.peerMin q)) = true →
    ∃ t, exec (.peerPortEnable sid q) s = .next t ∧ t.peerOn q = true
      ∧ (t.peerP q).st = (if s.lanesUp (q / 8) && decide (5 ≤ s.pw.stage) then 2 else 1) ∧ (t.peerP q).faulty = false ∧ (t.peerP q).cap = 4
      ∧ (t.peerP q).txq = (s.peerP q).txq.filter (fun k => !isSpdm k) ∧ (t.peerP q).hold = (s.peerP q).hold
      ∧ (∀ r, r ≠ q → t.peerP r = s.peerP r) ∧ t.mem = s.mem)
  ∧ (∀ (sid q : Nat) (s : State), q < 64 → MayWrite s sid (0x3800 + 8 * q) 1 →
    ∃ t, exec (.peerPortDisable sid q) s = .next t ∧ t.peerOn q = false ∧ (t.peerP q).st = 0 ∧ t.mem = s.mem)
  ∧ (∀ (q : Nat) (s : State), s.peerOn q = true → (s.peerP q).st = 1 → s.lanesUp (q / 8) = true → 5 ≤ s.pw.stage →
    exec (.peerSignalDetect q) s = .next (s.setPeer q { s.peerP q with
      st := 2, start := s.blob (0x3800 + 8 * q) 6,
      dfltLanes := (List.range (s.peerWidth q)).filter (fun i => decide ((s.blob (0x3800 + 8 * q) 6).length ≤ i)) }))
  ∧ (∀ (q lane : Nat) (s : State), (s.peerP q).st = 2 → lane < s.peerWidth q → lane ∉ (s.peerP q).dfltLanes →
    exec (.presetTimeout q lane) s = .next (s.setPeer q { s.peerP q with dfltLanes := (s.peerP q).dfltLanes ++ [lane] }))
  ∧ (∀ (q lanes : Nat) (presets : Bytes) (s : State), (s.peerP q).st = 2 → 1 ≤ lanes → 1 ≤ (s.peerP q).cap → 1 ≤ s.peerWidth q →
    ∃ t, exec (.peerTrainingDone q lanes presets) s = .next t ∧ (t.peerP q).st = 3
      ∧ (t.peerP q).lanes = lanesBelow (Nat.min lanes (Nat.min (s.peerP q).cap (s.peerWidth q))) ∧ (t.peerP q).cur = (t.peerP q).lanes
      ∧ (t.peerP q).dfltLanes = [] ∧ t.blob (0x3800 + 8 * q) 6 = presets
      ∧ (t.peerP q).anchor = s.blob 0x8000 4 ∧ (t.spdmOf (.peer q)).chain = s.shownChain
      ∧ (∃ k, isSpdm k = true ∧ k.data = leBytes 1 0x84 ∧ k ∈ (t.peerP q).txq)
      ∧ ((t.peerP q).lanes < s.peerWidth q → bit (t.obj (0x3800 + 8 * q) 4) 5 = true ∧ (t.peerP q).cap = (t.peerP q).lanes)
      ∧ (∀ r, r ≠ q → t.peerP r = s.peerP r) ∧ t.mem = s.mem)
  ∧ (∀ (q : Nat) (s : State), (s.peerP q).st = 5 →
    ∃ t, exec (.fastRetrainDone q) s = .next t ∧ t.peerP q = { s.peerP q with st := (s.peerP q).back, ackAt := s.tb.now }
      ∧ bit (t.obj (0x3800 + 8 * q) 4) 6 = true ∧ (∀ r, r ≠ q → t.peerP r = s.peerP r) ∧ t.mem = s.mem)

/-- A far end whose chain ends in the FABRIC_ANCHOR of when its authentication began and whose identity is another one makes the port ACTIVE once its own
exchange is through; any other does not, and says why (R81 to R83, R359). KEY_UPDATE lets the far end's next key in, and a key that reached its life
gives way to the next KEY_ID (R85). The digest of a chain's root is an opaque constant (log entry 26); the anchor is that of the beginning (log entry
219). -/
def Obligations.PeerAuthenticationAndKeysComplete : Prop :=
  ((∀ (q : Nat) (chain : Bytes) (id serial : Nat) (s : State), (s.peerP q).st = 3 → (s.peerP q).anchor ≠ [] →
      Config.chainRootDigest chain = (s.peerP q).anchor → s.assigned = true → id % 512 ≠ s.devId → serial ≠ Config.serial →
      (s.spdmOf (.peer q)).stage = 6 →
    ∃ t, exec (.peerAuthenticated q chain id serial) s = .next t ∧ (t.peerP q).st = 4 ∧ (t.peerP q).peerDev = some (id % 512)
      ∧ (t.peerP q).keyTx = 1 ∧ (t.peerP q).keyRx = 1 ∧ (t.peerP q).keyAt = s.tb.now ∧ (t.peerP q).txUsed = []
      ∧ (t.peerP q).txKey = linkKey (Config.exportSecret (s.spdmOf (.peer q)).key) (decide (s.devId < id % 512))
      ∧ (t.peerP q).rxKey = linkKey (Config.exportSecret (s.spdmOf (.peer q)).key) (decide (id % 512 < s.devId))
      ∧ (∀ r, r ≠ q → t.peerP r = s.peerP r) ∧ t.mem = s.mem ∧ t.objs = s.objs)
  ∧ (∀ (q : Nat) (chain : Bytes) (id serial : Nat) (s : State), (s.peerP q).st = 3 → (s.peerP q).anchor ≠ [] →
      Config.chainRootDigest chain = (s.peerP q).anchor → s.assigned = true → id % 512 ≠ s.devId → serial ≠ Config.serial →
      (s.spdmOf (.peer q)).stage ≠ 6 →
    exec (.peerAuthenticated q chain id serial) s =
      .next ((s.setPeer q { s.peerP q with peerDev := some (id % 512) }).setPeer q { s.peerP q with peerDev := some (id % 512), authOk := true }))
  ∧ (∀ (q : Nat) (chain : Bytes) (id serial : Nat) (s : State), (s.peerP q).st = 3 →
      (s.peerP q).anchor = [] ∨ Config.chainRootDigest chain ≠ (s.peerP q).anchor →
    ∃ t, exec (.peerAuthenticated q chain id serial) s = .next t ∧ t.peerP q = s.peerP q ∧ bit (t.obj (0x3800 + 8 * q) 4) 2 = true)
  ∧ (∀ (q : Nat) (chain : Bytes) (id serial : Nat) (s : State), (s.peerP q).st = 3 → s.assigned = false →
    ∃ t, exec (.peerAuthenticated q chain id serial) s = .next t ∧ (t.peerP q).st = 3 ∧ bit (t.obj (0x3800 + 8 * q) 4) 1 = true))
  ∧ ((∀ (q : Nat) (s : State), (s.peerP q).st = 4 →
    ∃ t, exec (.keyUpdate q) s = .next t ∧ (t.peerP q).rxNext = true ∧ t.out = s.out ++ [.spdm (.peer q) 0x69 []]
      ∧ (∃ k, isSpdm k = true ∧ k.data = leBytes 1 0x69 ∧ k ∈ (t.peerP q).txq) ∧ (∀ r, r ≠ q → t.peerP r = s.peerP r) ∧ t.mem = s.mem ∧ t.objs = s.objs)
  ∧ (∀ (q : Nat) (s : State), (s.peerP q).st = 4 → (s.peerP q).keyFlits < 2 ^ 32 →
    ∃ t, exec (.keyLifeExpiry q) s = .next t ∧ t.tb.now = max s.tb.now ((s.peerP q).keyAt + s.obj 0x3A00 3 * 3600000000000)
      ∧ t.peerP q = { s.peerP q with keyTx := (s.peerP q).keyTx % 3 + 1, txKey := Config.updatedKey (s.peerP q).txKey, keyFlits := 0, keyAt := t.tb.now, txq := (t.peerP q).txq }
      ∧ (∃ k, isSpdm k = true ∧ k.data = leBytes 1 0xE9 ∧ k ∈ (t.peerP q).txq)
      ∧ (∀ r, r ≠ q → t.peerP r = s.peerP r) ∧ t.mem = s.mem ∧ t.objs = s.objs)
  ∧ (∀ (q : Nat) (s : State), (s.peerP q).st = 4 → 2 ^ 32 ≤ (s.peerP q).keyFlits →
    ∃ t, exec (.keyLifeExpiry q) s = .next t ∧ t.tb = s.tb
      ∧ t.peerP q = { s.peerP q with keyTx := (s.peerP q).keyTx % 3 + 1, txKey := Config.updatedKey (s.peerP q).txKey, keyFlits := 0, keyAt := s.tb.now, txq := (t.peerP q).txq }))

/-- The time messages: a request to the upstream and an answer with the device's times, each with the time of the flit it leaves in, and a correction from
an answer (R86 to R88). Steps of the time base are log entry 61, the partners log entry 62. -/
def Obligations.TimeSyncCompletes : Prop :=
  (∀ (q : Nat) (s : State), s.tb.upstream = some q →
    ∃ t, exec .syncTimer s = .next t ∧ t.tb.now = max s.tb.now (s.tb.syncAt + 1000000) ∧ t.tb.syncAt = t.tb.now
      ∧ t.tb.reqs = Table.del s.tb.reqs q ∧ (∃ k, isSync k 0 = true ∧ k.tc = 0 ∧ t.peerP q = (s.peerP q).enqueue0 [k])
      ∧ (∀ r, r ≠ q → t.peerP r = s.peerP r) ∧ t = { s with tb := t.tb, peer := t.peer })
  ∧ (∀ (q t1 : Nat) (s : State), (s.peerP q).st = 4 →
    ∃ k root hops, exec (.syncReq q t1) s = .next (s.setPeer q ((s.peerP q).enqueue0 [k])) ∧ isSync k 1 = true ∧ k.tc = 0
      ∧ k.data = leBytes 8 t1 ++ leBytes 8 s.tb.now ++ zeros 8 ++ leBytes 8 root ++ leBytes 8 hops ++ leBytes 8 s.devId
      ∧ (s.tb.upstream = none → root = s.devId ∧ hops = 0) ∧ (∀ u, s.tb.upstream = some u → root = s.tb.root ∧ hops = s.tb.hops))
  ∧ (∀ (q : Nat) (k : Packet) (s : State), (s.peerP q).st = 4 → (s.peerP q).resend = 0 → (s.peerP q).replay.length < 64 → (s.peerP q).carry = [] →
      (s.peerP q).waiting = [k] → (s.peerP q).mayGo (s.waitsFor q) k = true → isSync k 0 = true → s.tb.now < 2 ^ 64 →
    ∃ t, exec (.flitTransmit q) s = .next t ∧ Table.find t.tb.reqs q = some s.tb.now ∧ t.tb.now = s.tb.now)
  ∧ (∀ (q : Nat) (k : Packet) (s : State), (s.peerP q).st = 4 → (s.peerP q).resend = 0 → (s.peerP q).replay.length < 64 → (s.peerP q).carry = [] →
      (s.peerP q).waiting = [k] → (s.peerP q).mayGo (s.waitsFor q) k = true → isSync k 0 = false → isSync k 1 = true →
    ∃ t f img, exec (.flitTransmit q) s = .next t ∧ .flit q f img ∈ t.out
      ∧ f.pkts.head? = some { k with data := k.data.take 16 ++ leBytes 8 s.tb.now ++ k.data.drop 24 } ∧ t.tb = s.tb)
  ∧ (∀ (q t1 t2 t3 t4 root hops sender : Nat) (s : State), (s.peerP q).st = 4 → s.tb.upstream = some q →
      (State.syncSelect { s with tb := { s.tb with adverts := Table.put s.tb.adverts q (root, hops, sender) } }).tb.upstream = some q → Table.find s.tb.reqs q = some t1 →
      0 ≤ syncOffsetPs t1 t2 t3 t4 (toSigned 32 (s.obj (0x3800 + 8 * q) 5)) → s.tb.stepped = false → s.timeHeld = false →
    ∃ t, exec (.syncResp q t1 t2 t3 t4 root hops sender false) s = .next t ∧ t.tb.stepped = true ∧ t.tb.corr = 0
      ∧ t.tb.offset = Int.tdiv (syncOffsetPs t1 t2 t3 t4 (toSigned 32 (s.obj (0x3800 + 8 * q) 5))) 1000
      ∧ t.tb.now = s.tb.now + t.tb.offset.toNat ∧ t.tb.upstream = some q
      ∧ Table.find t.tb.reqs q = none ∧ t.mem = s.mem)
  ∧ (∀ (q t1 t2 t3 t4 root hops sender : Nat) (s : State), (s.peerP q).st = 4 → s.tb.upstream = some q →
      (State.syncSelect { s with tb := { s.tb with adverts := Table.put s.tb.adverts q (root, hops, sender) } }).tb.upstream = some q → Table.find s.tb.reqs q = some t1 → s.tb.stepped = true →
    ∃ t, exec (.syncResp q t1 t2 t3 t4 root hops sender false) s = .next t ∧ t.tb.now = s.tb.now
      ∧ t.tb.corr = syncOffsetPs t1 t2 t3 t4 (toSigned 32 (s.obj (0x3800 + 8 * q) 5))
      ∧ t.tb.state = (if 1000000 < t.tb.corr.natAbs then 4 else 1))

/-- An SPDM request whose turn it is moves its session on and is answered (R81, R359 to R363). Codes and contents are log entry 64, the join with TDISP
log entry 66. -/
def Obligations.SpdmRequestsComplete : Prop :=
  (∀ (ch : SpdmCh) (s : State), s.spdmOn ch = true →
    ∃ t, exec (.getVersion ch) s = .next t ∧ (t.spdmOf ch).stage = 1 ∧ t.out = s.out ++ [.spdm ch 0x04 (leBytes 1 0x12 ++ leBytes 1 0x13)]
      ∧ (∀ p n, ch = .host p n → (t.spdmOf ch).slot1 = s.slot1On ∧ (t.spdmOf ch).chain = s.shownChain))
  ∧ (∀ (ch : SpdmCh) (s : State), s.spdmOn ch = true → 1 ≤ (s.spdmOf ch).stage →
    ∃ t, exec (.getCapabilities ch) s = .next t ∧ (t.spdmOf ch).stage = 2 ∧ t.out = s.out ++ [.spdm ch 0x61 spdmCaps])
  ∧ (∀ (ch : SpdmCh) (s : State), s.spdmOn ch = true → (s.spdmOf ch).stage = 2 →
    ∃ t, exec (.negotiateAlgorithms ch true) s = .next t ∧ (t.spdmOf ch).stage = 3 ∧ (t.spdmOf ch).chain = (s.spdmOf ch).chain
      ∧ t.out = s.out ++ [.spdm ch 0x63 spdmSuite])
  ∧ (∀ (ch : SpdmCh) (off len : Nat) (s : State), s.spdmOn ch = true → 3 ≤ (s.spdmOf ch).stage → off < (s.spdmOf ch).chain.length →
    ∃ t, exec (.getCertificate ch off len) s = .next t ∧ (t.spdmOf ch).stage = Nat.max 4 (s.spdmOf ch).stage
      ∧ ∃ head, head.length = 5 ∧ t.out = s.out ++ [.spdm ch 0x02 (head ++ ((s.spdmOf ch).chain.drop off).take len)])
  ∧ (∀ (ch : SpdmCh) (chain : Bytes) (s : State), s.spdmOn ch = true → 3 ≤ (s.spdmOf ch).stage → s.spdmBeside ch < 4 →
      ((∃ p n, ch = .host p n) ∨ chain ≠ []) →
    ∃ t, exec (.keyExchange ch chain true) s = .next t ∧ (t.spdmOf ch).stage = 5 ∧ (t.spdmOf ch).key = Config.spdmKey s.freeCtr ∧ t.out = s.out ++ [.spdm ch 0x64 []])
  ∧ (∀ (p n : Nat) (s : State), s.spdmOn (.host p n) = true → (s.spdmOf (.host p n)).stage = 5 →
    ∃ t, exec (.finish (.host p n) true) s = .next t ∧ (t.spdmOf (.host p n)).stage = 6 ∧ t.out = s.out ++ [.spdm (.host p n) 0x65 []])
  ∧ (∀ (q : Nat) (s : State), (s.peerP q).st = 3 → q < 64 → (s.spdmOf (.peer q)).stage = 5 → (s.peerP q).authOk = true →
    ∃ t, exec (.finish (.peer q) true) s = .next t ∧ (t.spdmOf (.peer q)).stage = 6 ∧ (t.peerP q).st = 4 ∧ (t.peerP q).keyTx = 1
      ∧ (t.peerP q).peerDev = some ((s.peerP q).peerDev.getD 0))
  ∧ (∀ (q : Nat) (s : State), s.spdmOn (.peer q) = true → (s.spdmOf (.peer q)).stage = 5 → (s.peerP q).authOk = false →
    ∃ t, exec (.finish (.peer q) true) s = .next t ∧ (t.spdmOf (.peer q)).stage = 6
      ∧ t.out = s.out ++ [.spdm (.peer q) 0x65 [], .spdm (.peer q) 0x7E (leBytes 2 (s.obj 0x1000 5))])
  ∧ (∀ (ch : SpdmCh) (idx : Nat) (b : Bytes) (s : State), s.spdmOn ch = true → 3 ≤ (s.spdmOf ch).stage → s.measurements idx = some b →
    ∃ t, exec (.getMeasurements ch idx) s = .next t ∧ (t.spdmOf ch).stage = (s.spdmOf ch).stage
      ∧ t.out = s.out ++ [.spdm ch 0x60 (b ++ Config.keySign s.sec.aliasKey b)])

/-- A packet that finds room at a crossbar ingress becomes one cell of its output; one with no room or one that comes too soon stays outside and withholds
its credit; one with no route is refused, and a read or an atomic whose address has not the form of R118 is answered with poison. Back-pressure up to
now is counted first (R97 to R107, R117). The place of a cell is log entry 29, a withheld credit log entry 30, the second die's output log entry 33. -/
def Obligations.CellAdmitCompletes : Prop :=
  (∀ (d x out : Nat) (k : Packet) (r : Bool × Option Nat) (s u : State), d < 8 → x < 63 → out < 63 → s.dieUp d = true → s.portClass d x k = true →
      u = (s.countBp d).releaseTc0 d → u.ingressTakes d x k.tc k.tenant = true → (∀ e, xport d x ≠ .link e) →
      (k.dstDev = u.devId ∨ u.assigned = false) → (k.ptype = 1 ∨ k.ptype = 2 ∨ k.ptype = 4 → faOk k.addr = true) →
      (k.ptype = 2 → u.flagStop d x (k.tc, k.tenant) = false) → (∀ e y, addrPort k = some (e, y) → u.dieUp e = true) →
      (k.tc = 0 → u.tc0Due d x ≤ u.xbCycle ∧ ∀ y, y ∈ (u.core d).tc0Wait → y.inp ≠ x) → u.room d x k = some r →
    ∃ t c, exec (.cellAdmit d x k out) s = .next t ∧ (t.core d).cells = (u.core d).cells ++ [c] ∧ c.inp = x ∧ c.tc = k.tc ∧ c.pkt = k
      ∧ c.out = (match addrPort k with | some (e, y) => if e = d then y else linkOut d e | none => (linkMembers out).headD out)
      ∧ c.shared = r.1 ∧ c.part = r.2 ∧ (t.core d).egress = (u.core d).egress
      ∧ (∀ e, e ≠ d → t.core e = u.core e) ∧ t.mem = s.mem ∧ t.extents = s.extents)
  ∧ (∀ (d x out q : Nat) (k : Packet) (r : Bool × Option Nat) (s u : State), d < 8 → x < 63 → out < 63 → s.dieUp d = true → s.portClass d x k = true →
      u = (s.countBp d).releaseTc0 d → u.ingressTakes d x k.tc k.tenant = true → (∀ e, xport d x ≠ .link e) → k.dstDev ≠ u.devId →
      u.assigned = true → (k.ptype = 2 → u.flagStop d x (k.tc, k.tenant) = false) → k.tc ≠ 0 → u.routeMember k.tenant k.tc d x k.dstDev = some q →
      (∀ old, Table.find (u.core d).flows (flowKey k.tenant k.tc d x k.dstDev) = some old → old = q) → u.room d x k = some r →
    ∃ t c, exec (.cellAdmit d x k out) s = .next t ∧ (t.core d).cells = (u.core d).cells ++ [c] ∧ c.inp = x ∧ c.pkt = k ∧ c.out = peerOut d q
      ∧ c.fin = (if q / 8 = d then none else some (16 + q % 8))
      ∧ Table.find (t.core d).flows (flowKey k.tenant k.tc d x k.dstDev) = some q ∧ t.mem = s.mem)
  ∧ (∀ (d x out e : Nat) (k : Packet) (w : Cell) (rest : List (Nat × Cell)) (r : Bool × Option Nat) (s u : State), d < 8 → x < 63 → out < 63 →
      s.dieUp d = true → s.portClass d x k = true → xport d x = .link e → u = (s.countBp d).releaseTc0 d →
      takeWire e k.tc (Table.get (u.core d).expect 0 (e * 8 + k.tc)) k (u.core d).wires = some (w, rest) →
      ¬ (24 ≤ w.fin.getD out ∧ w.fin.getD out < 45) → u.room d x k = some r →
    ∃ t c, exec (.cellAdmit d x k out) s = .next t ∧ (t.core d).cells = (u.core d).cells ++ [c] ∧ c.inp = x ∧ c.pkt = w.pkt ∧ c.out = w.fin.getD out
      ∧ (t.core d).wires = rest ∧ Table.get (t.core d).expect 0 (e * 8 + k.tc) = Table.get (u.core d).expect 0 (e * 8 + k.tc) + 1)
  ∧ (∀ (d x out : Nat) (k : Packet) (s u : State), d < 8 → x < 63 → out < 63 → s.dieUp d = true → s.portClass d x k = true →
      u = (s.countBp d).releaseTc0 d →
      (u.ingressTakes d x k.tc k.tenant = false ∨ (k.ptype = 2 ∧ u.flagStop d x (k.tc, k.tenant) = true)) →
    ∃ t, exec (.cellAdmit d x k out) s = .next t ∧ (k.tc, k.tenant) ∈ Table.get (t.core d).bp [] x ∧ (t.core d).cells = (u.core d).cells
      ∧ (∀ e, e ≠ d → t.core e = u.core e) ∧ t.objs = u.objs)
  ∧ (∀ (d x out p : Nat) (k : Packet) (r : Bool × Option Nat) (s u : State), d < 8 → x < 63 → out < 63 → s.dieUp d = true → s.portClass d x k = true →
      u = (s.countBp d).releaseTc0 d → xport d x = .flex p → u.role p = 1 → k.tc = 0 → k.ptype = 10 → k.dstDev = u.devId → u.xbCycle < u.tc0Due d x →
      u.room d x k = some r →
    ∃ t c, exec (.cellAdmit d x k out) s = .next t ∧ (t.core d).tc0Wait = (u.core d).tc0Wait ++ [c] ∧ c.inp = x ∧ c.pkt = k
      ∧ (t.core d).cells = (u.core d).cells ∧ (0, k.tenant) ∈ Table.get (t.core d).bp [] x)
  ∧ (∀ (d x out p : Nat) (k : Packet) (s u : State), d < 8 → x < 63 → out < 63 → s.dieUp d = true → s.portClass d x k = true →
      u = (s.countBp d).releaseTc0 d → u.ingressTakes d x k.tc k.tenant = true → xport d x = .flex p → u.role p = 1 → k.dstDev ≠ u.devId →
      u.assigned = true → (k.ptype = 2 → u.flagStop d x (k.tc, k.tenant) = false) → u.routePorts k.dstDev = [] →
    ∃ t, exec (.cellAdmit d x k out) s = .next t ∧ t.cores = u.cores ∧ .unsupported p ∈ t.out ∧ bit (t.obj 0x4000 5) 2 = true)
  ∧ (∀ (d x out p : Nat) (k : Packet) (s u : State), d < 8 → x < 63 → out < 63 → s.dieUp d = true → s.portClass d x k = true →
      u = (s.countBp d).releaseTc0 d → u.ingressTakes d x k.tc k.tenant = true → xport d x = .flex p → (k.dstDev = u.devId ∨ u.assigned = false) →
      (k.ptype = 1 ∨ k.ptype = 4) → faOk k.addr = false →
    ∃ t r, exec (.cellAdmit d x k out) s = .next t ∧ .cell d x r ∈ t.out ∧ r.ptype = (if k.ptype = 1 then 3 else 5) ∧ r.poison = true ∧ r.tag = k.tag
      ∧ t.cores = u.cores ∧ t.mem = s.mem ∧ t.extents = s.extents)

/-- Every cycle of an output counts, a cell granted in the cycle before crosses, and the cycles in which a port withheld its credit are counted (R106,
R113 to R117). A check result releases or discards the cells of its ingress; a drained flow moves to the member it hashes to (R100, R112, R113). A
cycle of an output is the model's (log entry 28). -/
def Obligations.CellCrossAndChecksComplete : Prop :=
  ((∀ (d x : Nat) (s : State), d < 8 → x < 63 → s.dieUp d = true →
    ∃ t, exec (.cellCross d x) s = .next t ∧ t.mem = s.mem
      ∧ (Table.get (t.core d).outs {} ((linkMembers x).headD x)).cyc = (Table.get (s.core d).outs {} ((linkMembers x).headD x)).cyc + 1)
  ∧ (∀ (d x v : Nat) (c : Cell) (rest : List Cell) (s u : State), d < 8 → x < 63 → s.dieUp d = true → linkMembers x = [x] →
      u = (s.countBp d).releaseTc0 d → (Table.get (u.core d).outs {} x).last = some v → popCell x v (u.core d).cells = some (c, rest) →
      c.checked = true → c.out = x → (∀ q, xport d x ≠ .peer q) →
    ∃ t, exec (.cellCross d x) s = .next t ∧ (t.core d).cells = rest ∧ .cell d x c.pkt ∈ t.out)
  ∧ (∀ (d x v q : Nat) (c : Cell) (rest : List Cell) (s u : State), d < 8 → x < 63 → s.dieUp d = true → xport d x = .peer q →
      u = (s.countBp d).releaseTc0 d → (Table.get (u.core d).outs {} x).last = some v → popCell x v (u.core d).cells = some (c, rest) →
      c.checked = true → c.out = x →
    ∃ t, exec (.cellCross d x) s = .next t ∧ (t.core d).cells = rest ∧ c.pkt ∈ (t.peerP q).txq)
  ∧ (∀ (d x y p : Nat) (l : List (Nat × Nat)) (s : State), d < 8 → x < 63 → s.dieUp d = true → (s.core d).bp = [(y, l)] → xport d y = .flex p →
    ∃ t, exec (.cellCross d x) s = .next t
      ∧ t.obj (0x4100 + p) 10 = (s.obj (0x4100 + p) 10 + (s.xbCycle - Table.get (s.core d).bpAt 0 y)) % 2 ^ 64))
  ∧ ((∀ (d x : Nat) (s : State), ∃ t, exec (.cutThroughCheckResult d x false) s = .next t
      ∧ (t.core d).cells = (s.core d).cells.filter (fun c => !(c.inp == x && !c.checked))
      ∧ (t.core d).egress = (s.core d).egress.filter (fun c => !(c.inp == x && !c.checked))
      ∧ (∀ e, e ≠ d → t.core e = s.core e) ∧ t.mem = s.mem ∧ t.out = s.out ∧ t.peer = s.peer)
  ∧ (∀ (d x : Nat) (s : State), d < 8 → ∃ t, exec (.cutThroughCheckResult d x true) s = .next t
      ∧ (∀ c, c ∈ (t.core d).cells → c.inp = x → c.checked = true) ∧ (t.core d).cells.length = (s.core d).cells.length
      ∧ (t.core d).egress = (s.core d).egress.filter (fun c => !(c.inp == x && !c.checked)) ∧ t.mem = s.mem)
  ∧ (∀ (d x tc tenant dev old q : Nat) (s : State), Table.find (s.core d).flows (flowKey tenant tc d x dev) = some old →
      s.routeMember tenant tc d x dev = some q → old ≠ q → s.flowOut tenant tc d x dev old = false →
    exec (.routeMemberMove d x tc tenant dev) s
      = .next (s.setCore d { s.core d with flows := Table.put (s.core d).flows (flowKey tenant tc d x dev) q })))

/-- The arbiter grants TC0 ahead of every other class, and while power is withheld it grants nothing else (R43, R115). -/
def Obligations.ArbiterServesTc0First : Prop :=
  (∀ (a : OutArb) (l : List Cell) (vs : List Nat) (rank n : Nat) (w : Bool), (∃ v, v ∈ vs ∧ v % 8 = 0) →
    ∃ v, a.decide l vs rank n w = some (v, false) ∧ v ∈ vs ∧ v % 8 = 0)
  ∧ (∀ (a : OutArb) (l : List Cell) (vs : List Nat) (rank n : Nat), (∀ v, v ∈ vs → v % 8 ≠ 0) → a.decide l vs rank n true = none)

/-- QUIESCE, QUIESCED and HALT write the ingress states of R109; REVOKE takes an extent out of every check. HALT of a tenant halts its port (log entry
31). -/
def Obligations.IngressStatesComplete : Prop :=
  (∀ (p : Nat) (s : State), p < 128 → (s.ingressAt p).st = 0 →
    ∃ t, exec (.quiesce (.flex p)) s = .next t ∧ t.ingressAt p = { s.ingressAt p with st := 1 } ∧ (∀ k, k ≠ p → t.ingressAt k = s.ingressAt k)
      ∧ (∀ d, (t.core d).cells = (s.core d).cells) ∧ t.mem = s.mem ∧ t.extents = s.extents ∧ t.objs = s.objs)
  ∧ (∀ (q : Nat) (s : State), q < 64 → (s.ingressAt (128 + q)).st = 0 →
    ∃ t, exec (.quiesce (.peer q)) s = .next t ∧ t.ingressAt (128 + q) = { s.ingressAt (128 + q) with st := 1 }
      ∧ (∀ k, k ≠ 128 + q → t.ingressAt k = s.ingressAt k)
      ∧ (∀ d, (t.core d).cells = (s.core d).cells) ∧ t.mem = s.mem ∧ t.extents = s.extents ∧ t.objs = s.objs)
  ∧ (∀ (p u : Nat) (s : State), p < 128 → u < 4096 → (∀ e, e ∈ (s.ingressAt p).tenants → e.1 ≠ u) →
    ∃ t, exec (.quiesce (.tenantOn p u)) s = .next t ∧ t.ingressAt p = { s.ingressAt p with tenants := (s.ingressAt p).tenants ++ [(u, 1)] }
      ∧ (∀ k, k ≠ p → t.ingressAt k = s.ingressAt k)
      ∧ (∀ d, (t.core d).cells = (s.core d).cells) ∧ t.mem = s.mem ∧ t.extents = s.extents ∧ t.objs = s.objs)
  ∧ (∀ (p : Nat) (s : State), s.drained (.flex p) = true → (s.ingressAt p).st = 1 →
    exec (.quiesced (.flex p)) s = .next (s.setIngress p { s.ingressAt p with st := 2 }))
  ∧ (∀ (q : Nat) (s : State), s.drained (.peer q) = true → (s.ingressAt (128 + q)).st = 1 →
    exec (.quiesced (.peer q)) s = .next (s.setIngress (128 + q) { s.ingressAt (128 + q) with st := 2 }))
  ∧ (∀ (p u : Nat) (s : State), s.drained (.tenantOn p u) = true → (u, 1) ∈ (s.ingressAt p).tenants →
    ∃ t, exec (.quiesced (.tenantOn p u)) s = .next t ∧ (u, 2) ∈ (t.ingressAt p).tenants ∧ (u, 1) ∉ (t.ingressAt p).tenants)
  ∧ (∀ (p : Nat) (s : State), p < 128 → ∃ t, exec (.halt (.flex p)) s = .next t ∧ (t.ingressAt p).st = 3 ∧ ∀ k, k ≠ p → t.ingressAt k = s.ingressAt k)
  ∧ (∀ (q : Nat) (s : State), q < 64 →
    ∃ t, exec (.halt (.peer q)) s = .next t ∧ (t.ingressAt (128 + q)).st = 3 ∧ ∀ k, k ≠ 128 + q → t.ingressAt k = s.ingressAt k)
  ∧ (∀ (e v : Nat) (x : Extent) (s : State), Table.find s.extents e = some x → (x.st = 2 ∨ x.st = 7) → x.lent = some v →
    ∃ t, exec (.revoke e) s = .next t ∧ .revokeSent v e ∈ t.out ∧ t.mem = s.mem
      ∧ Table.find t.extents e = some { x with st := 3, drainAt := s.tb.now, notice := none, confirm := some v })
  ∧ (∀ (e v : Nat) (x : Extent) (s : State), Table.find s.extents e = some x → x.st = 6 → x.lent = some v →
    ∃ t, exec (.revoke e) s = .next t ∧ .revokeSent v e ∈ t.out ∧ t.mem = s.mem ∧ Table.find t.extents e = some { x with confirm := some v })
  ∧ (∀ (e : Nat) (x : Extent) (s : State), Table.find s.extents e = some x → x.st = 2 → x.lent = none →
    ∃ t y, exec (.revoke e) s = .next t ∧ Table.find t.extents e = some y ∧ y.st = 3 ∧ y.holder = none ∧ y.maps = [] ∧ y.drainAt = s.tb.now
      ∧ (∀ f, f ≠ e → Table.find t.extents f = Table.find s.extents f) ∧ t.mem = s.mem)
  ∧ (∀ (e : Nat) (x : Extent) (s : State), Table.find s.extents e = some x → x.st = 1 →
    ∃ t, exec (.revoke e) s = .next t ∧ Table.find t.extents e = (if x.away.isNone then some x.freed else none) ∧ t.mem = s.mem)

/-- ALLOC offers free extents at free slots with one Add Capacity record each, ranges that a peer device lends among them, and is refused where it finds
none (R121, R123, R124, R129). Accepting an offer grants the extent, and the first grant starts the lease; with no offer it is refused (R123, R125,
R135, R145). The lease's start is log entry 34. -/
def Obligations.OffersAndGrantsComplete : Prop :=
  ((∀ (sid : Nat) (b : Bytes) (s : State), MayWrite s sid 0x5010 1 → allocForm b = true → field b 3 1 < 4 → field b 4 2 = 0xFFFF →
      s.role (field b 0 2) = 1 → s.ldOn (field b 0 2) (field b 2 1) = true → s.ldTenant (field b 0 2) (field b 2 1) ≠ none →
      field b 8 4 ≤ (s.freeOf (field b 3 1) (field b 0xC 4)).length → field b 8 4 ≤ (s.freeSlots (field b 0 2) (field b 2 1) (field b 8 4)).length →
      s.hbmOut + (((s.freeOf (field b 3 1) (field b 0xC 4)).take (field b 8 4)).filter (fun e => decide (e < 2048))).length ≤ s.obj 0x5000 4 →
      ((s.freeOf (field b 3 1) (field b 0xC 4)).take (field b 8 4)).Nodup →
    ∃ t, exec (.alloc sid b) s = .next t
      ∧ (∀ i, i < field b 8 4 → ∃ e slot x, (s.freeOf (field b 3 1) (field b 0xC 4))[i]? = some e
          ∧ (s.freeSlots (field b 0 2) (field b 2 1) (field b 8 4))[i]? = some slot ∧ Table.find t.extents e = some x ∧ x.st = 1
          ∧ x.holder = some (field b 0 2, field b 2 1) ∧ x.slot = slot ∧ .cxlEvent (field b 0 2) (field b 2 1) 0 slot ∈ t.out)
      ∧ (∀ e, e ∉ (s.freeOf (field b 3 1) (field b 0xC 4)).take (field b 8 4) → Table.find t.extents e = Table.find s.extents e)
      ∧ t.mem = s.mem ∧ t.lds = s.lds)
  ∧ (∀ (sid u slot : Nat) (b : Bytes) (g : SharedSet) (v : SVersion) (x : Extent) (rest : List Nat) (s : State), MayWrite s sid 0x5010 1 →
      allocForm b = true → field b 3 1 = 4 → s.role (field b 0 2) = 1 → s.ldOn (field b 0 2) (field b 2 1) = true →
      s.ldTenant (field b 0 2) (field b 2 1) = some u → Table.find s.sets (field b 0xC 4) = some g → s.current (field b 0xC 4) = some v →
      s.freeSlots (field b 0 2) (field b 2 1) 1 = slot :: rest → s.right u 6 = true → s.tDomain u = some g.domain →
      Table.find s.extents v.eid = some x → x.st ≠ 6 →
    ∃ t, exec (.alloc sid b) s = .next t
      ∧ Table.find t.extents v.eid = some { x with maps := x.maps ++ [⟨field b 0 2, field b 2 1, slot, 1, s.tb.now⟩] }
      ∧ .cxlEvent (field b 0 2) (field b 2 1) 0 slot ∈ t.out ∧ .code sid 0x5010 1 rcOK ∈ t.out
      ∧ (∀ e, e ≠ v.eid → Table.find t.extents e = Table.find s.extents e) ∧ t.mem = s.mem)
  ∧ (∀ (sid : Nat) (b : Bytes) (s : State), MayWrite s sid 0x5010 1 → allocForm b = true →
      s.role (field b 0 2) ≠ 1 ∨ s.ldOn (field b 0 2) (field b 2 1) = false →
    ∃ t, exec (.alloc sid b) s = .next t ∧ t.extents = s.extents ∧ .code sid 0x5010 1 rcRefused ∈ t.out)
  ∧ (∀ (sid v : Nat) (b : Bytes) (got : List Nat) (s : State), MayWrite s sid 0x5010 1 → allocForm b = true → field b 3 1 < 4 → v = field b 4 2 →
      v ≠ 0xFFFF → (s.assigned = true → v ≠ s.devId) → s.role (field b 0 2) = 1 → s.flexOn (field b 0 2) = true →
      s.ldOn (field b 0 2) (field b 2 1) = true → s.ldTenant (field b 0 2) (field b 2 1) ≠ none → s.reaches v = true →
      got = (((Config.lentRanges v s.freeCtr).filter (lentFits (field b 3 1) (field b 0xC 4))).eraseDups.filter
        (fun a => !s.extents.any (fun e => e.2.away == some v && e.2.base == a))).take (field b 8 4) →
      field b 8 4 ≤ (s.freeSlots (field b 0 2) (field b 2 1) (field b 8 4)).length → s.nextEid + field b 8 4 ≤ 2 ^ 20 →
      (∀ e, s.nextEid ≤ e → Table.find s.extents e = none) →
    ∃ t, exec (.alloc sid b) s = .next t ∧ t.mem = s.mem
      ∧ (got.length < field b 8 4 → t.extents = s.extents ∧ .code sid 0x5010 1 rcRefused ∈ t.out)
      ∧ (field b 8 4 ≤ got.length → t.nextEid = s.nextEid + field b 8 4 ∧ .code sid 0x5010 1 rcOK ∈ t.out
          ∧ ∀ i, i < field b 8 4 → ∃ x, Table.find t.extents (s.nextEid + i) = some x ∧ x.st = 1 ∧ x.away = some v
              ∧ x.holder = some (field b 0 2, field b 2 1) ∧ got[i]? = some x.base))
  ∧ (∀ (sid : Nat) (b : Bytes) (s : State), MayWrite s sid 0x5010 1 → allocForm b = true → field b 3 1 < 4 → field b 4 2 ≠ 0xFFFF →
      (s.assigned = true → field b 4 2 ≠ s.devId) → s.reaches (field b 4 2) = false →
    ∃ t, exec (.alloc sid b) s = .next t ∧ t.extents = s.extents ∧ .code sid 0x5010 1 rcRefused ∈ t.out))
  ∧ ((∀ (p l slot e : Nat) (x : Extent) (ro : Bool) (s : State), s.slotExt p l slot = some (e, x, 1, ro) → x.st = 1 → x.holder = some (p, l) →
    ∃ t, exec (.extentAccept p l slot) s = .next t
      ∧ Table.find t.extents e = some { x with st := if s.extHomeUp x then 2 else 7 }
      ∧ (s.leaseState p l = 0 → (t.ld p l).lease = 1 ∧ (t.ld p l).expiry = some (s.tb.now + s.ldObj p l 3 * 1000000) ∧ (t.ld p l).graced = false)
      ∧ (∀ f, f ≠ e → Table.find t.extents f = Table.find s.extents f) ∧ t.mem = s.mem ∧ t.objs = s.objs ∧ .dcReply p l slot true ∈ t.out)
  ∧ (∀ (p l slot : Nat) (s : State), (s.slotExt p l slot).map (fun r => r.2.2.1) ≠ some 1 →
    exec (.extentAccept p l slot) s = .next (s.emit (.dcReply p l slot false))))

/-- The life of an extent after its grant: offers that lapse, releases, revocation, drain, quarantine and scrub (R123, R132 to R135). What happens to a
home out of reach is log entry 35; rows of deadlines move time forward (log entry 3). -/
def Obligations.ExtentLifeCompletes : Prop :=
  (∀ (e : Nat) (x : Extent) (s : State), Table.find s.extents e = some x → x.st = 1 →
    ∃ t, exec (.offerTimeout e) s = .next t ∧ t.tb.now = max s.tb.now (x.offeredAt + s.obj 0x5000 3 * 1000000)
      ∧ Table.find t.extents e = (if x.away.isNone then some x.freed else none) ∧ t.mem = s.mem)
  ∧ (∀ (p l slot e st : Nat) (x : Extent) (ro : Bool) (s : State), s.slotExt p l slot = some (e, x, st, ro) → x.holder = some (p, l) → x.slot = slot →
      x.set = none → x.away = none →
    ∃ t y, exec (.releaseDynamicCapacity p l slot) s = .next t ∧ Table.find t.extents e = some y ∧ y.holder = none
      ∧ y.st = (if x.st = 1 then 0 else if x.st = 2 then 3 else if x.st = 6 then 6 else 5)
      ∧ (∀ f, f ≠ e → Table.find t.extents f = Table.find s.extents f) ∧ t.mem = s.mem ∧ t.out = s.out ++ [.dcReply p l slot true])
  ∧ (∀ (p l slot : Nat) (s : State), s.slotExt p l slot = none →
    exec (.releaseDynamicCapacity p l slot) s = .next (s.emit (.dcReply p l slot true)))
  ∧ (∀ (sid e : Nat) (x : Extent) (s : State), MayWrite s sid 0x5010 2 → e < 2 ^ 20 → Table.find s.extents e = some x → x.st = 2 → x.lent = none →
      x.confirm = none →
    ∃ t y, exec (.revokeExtent sid e) s = .next t ∧ Table.find t.extents e = some y ∧ y.st = 3 ∧ y.holder = none ∧ y.drainAt = s.tb.now
      ∧ .code sid 0x5010 2 rcOK ∈ t.out ∧ t.mem = s.mem)
  ∧ (∀ (e : Nat) (x : Extent) (s : State), Table.find s.extents e = some x → x.st = 3 → s.outstanding e = false → x.confirm = none →
      x.away = none →
    ∃ t, exec (.drainComplete e) s = .next t ∧ Table.find t.extents e = some { x.freed with st := 5, scrubbing := s.extHomeUp x } ∧ t.mem = s.mem
      ∧ (∀ p l slot b, x.notice = some (p, l, slot, b) → .cxlEvent p l 1 slot ∈ t.out))
  ∧ (∀ (e : Nat) (x : Extent) (s : State), Table.find s.extents e = some x → x.st = 3 → s.outstanding e = true → x.confirm = none →
    ∃ t, exec (.drainTimeout e) s = .next t ∧ Table.find t.extents e = some { x with st := 4, notice := none }
      ∧ t.tb.now = max s.tb.now (x.drainAt + s.obj 0x5000 2 * 1000) ∧ bit (t.obj 0x5000 8) 1 = true ∧ t.mem = s.mem)
  ∧ (∀ (e : Nat) (x : Extent) (s : State), Table.find s.extents e = some x → x.st = 4 → s.outstanding e = false → x.away = none →
    exec (.quarantineRelease e) s = .next (s.setExt e { x.freed with st := 5, scrubbing := s.extHomeUp x }))

/-- A scrub leaves its extent FREE and zero, and every byte outside it as it was (R124, R146). -/
def Obligations.ScrubClearsItsExtent : Prop :=
  (∀ (e : Nat) (x : Extent) (s : State), Table.find s.extents e = some x → x.st = 5 → x.scrubbing = true → x.testing = false →
    ∃ t, exec (.scrubComplete e) s = .next t ∧ Table.find t.extents e = some x.freed
      ∧ (∀ a, x.base ≤ a → a < x.base + Config.extentBytes → memByte t.mem a = 0)
      ∧ (∀ a, ¬ (x.base ≤ a ∧ a < x.base + Config.extentBytes) → memByte t.mem a = memByte s.mem a)
      ∧ (∀ f, f ≠ e → Table.find t.extents f = Table.find s.extents f) ∧ t.objs = s.objs ∧ t.lds = s.lds)
  ∧ (∀ (e : Nat) (x : Extent) (s : State), Table.find s.extents e = some x → x.st = 5 → x.testing = true →
    ∃ t, exec (.repairTestComplete e true) s = .next t ∧ Table.find t.extents e = some x.freed
      ∧ (∀ a, x.base ≤ a → a < x.base + Config.extentBytes → memByte t.mem a = 0)
      ∧ (∀ a, ¬ (x.base ≤ a ∧ a < x.base + Config.extentBytes) → memByte t.mem a = memByte s.mem a))
  ∧ (∀ (e : Nat) (x : Extent) (s : State), Table.find s.extents e = some x → x.st = 5 → x.testing = true →
    ∃ t, exec (.repairTestComplete e false) s = .next t ∧ Table.find t.extents e = some { x.freed with st := 6 }
      ∧ bit (t.obj 0x5000 8) 4 = true ∧ t.mem = s.mem)

/-- A lease is renewed by its doorbell, enters GRACE at its expiry and ends a second later with every extent revoked (R102, R125 to R127); an extent lent
to a device that no path has reached for its LEASE_TERM and 1 s is reclaimed (R129). A donor's offer, its revocation and release, and the loss of its
port move its slot through R137 and R138. The lease's start is log entry 34, donor regions log entries 37 and 179 to 181. -/
def Obligations.LeasesAndDonorsComplete : Prop :=
  ((∀ (p l v e : Nat) (s : State), s.ldOn p l = true → (s.ld p l).lease = 1 → (s.ld p l).expiry = some e → (s.tc0Gate p).tb.now < e + 1000000000 →
    ∃ t, exec (.leaseDoorbell p l v 8) s = .next t ∧ t.tb.now = max s.tb.now (ceilDiv (s.tc0Due (p / 16) (p % 16) * 25) 32)
      ∧ t.ld p l = { s.ld p l with expiry := some (t.tb.now + s.ldObj p l 3 * 1000000), graced := false, renewSeq := v % 65536 }
      ∧ (∀ q m, ldKey q m ≠ ldKey p l → t.ld q m = s.ld q m) ∧ t.extents = s.extents ∧ t.mem = s.mem ∧ t.objs = s.objs)
  ∧ (∀ (p l v size : Nat) (s : State), size ≠ 8 ∨ s.ldOn p l = false ∨ (∃ e, (s.ld p l).expiry = some e ∧ e + 1000000000 ≤ (s.tc0Gate p).tb.now) →
    exec (.leaseDoorbell p l v size) s = .next (s.tc0Gate p))
  ∧ (∀ (p l e : Nat) (s : State), (s.ld p l).lease = 1 → (s.ld p l).expiry = some e → (s.ld p l).graced = false →
    ∃ t, exec (.leaseGrace p l) s = .next t ∧ t.tb.now = max s.tb.now e ∧ (t.ld p l).graced = true
      ∧ bit (t.obj (0x5400 + p) (8 * l + 7)) 0 = true ∧ t.extents = s.extents ∧ t.mem = s.mem
      ∧ (((s.ld p l).eq.on && (s.ld p l).eq.msix) = true → .msix p l 64 ∈ t.out))
  ∧ (∀ (p l e : Nat) (s : State), (s.ld p l).lease = 1 → (s.ld p l).expiry = some e →
    ∃ t, exec (.leaseExpired p l) s = .next t ∧ t.tb.now = max s.tb.now (e + 1000000000) ∧ (t.ld p l).lease = 3
      ∧ bit (t.obj (0x5400 + p) (8 * l + 7)) 1 = true ∧ t.mem = s.mem
      ∧ (∀ f x y, Table.find s.extents f = some x → x.holder = some (p, l) → (x.st = 1 ∨ x.st = 2) → Table.find t.extents f = some y →
          (y.st = 1 ∨ y.st = 2) → y.holder ≠ some (p, l)))
  ∧ (∀ (f v due : Nat) (x : Extent) (s : State), Table.find s.extents f = some x → x.lent = some v → s.loanDue v x.term = some due →
      x.st ≠ 6 → (x.st = 2 ∨ x.st = 7 ∨ x.confirm ≠ none) →
    ∃ t, exec (.lentPathLoss f) s = .next t ∧ t.tb.now = max s.tb.now due ∧ t.mem = s.mem
      ∧ Table.find t.extents f = some { x with st := 3, lent := none, confirm := none, drainAt := t.tb.now, notice := none })
  ∧ (∀ (f v due : Nat) (x : Extent) (s : State), Table.find s.extents f = some x → x.lent = some v → s.loanDue v x.term = some due → x.st = 6 →
    ∃ t, exec (.lentPathLoss f) s = .next t ∧ t.tb.now = max s.tb.now due ∧ t.mem = s.mem
      ∧ Table.find t.extents f = some { x with lent := none, confirm := none }))
  ∧ ((∀ (p l k u r : Nat) (x : Donor) (s : State), (s.ld p l).donors[k]? = some x → s.hostUp p = true → (x.st = 0 ∨ x.st = 3) → s.obj 0x5030 1 = 1 →
      s.ldTenant p l = some u → s.right u 7 = true → x.len % 2 ^ 21 = 0 → 0 < x.len → x.len ≤ 2 ^ 40 → x.base % 2 ^ 21 = 0 →
      s.freeRegion = some r →
    ∃ t y, exec (.donorOffer p l k) s = .next t ∧ (t.ld p l).donors[k]? = some y ∧ y.st = 1 ∧ y.region = r ∧ y.base = x.base ∧ y.len = x.len
      ∧ (∀ j, j ≠ k → (t.ld p l).donors[j]? = (s.ld p l).donors[j]?) ∧ t.mem = s.mem ∧ t.objs = s.objs)
  ∧ (∀ (p l k : Nat) (x : Donor) (s : State), (s.ld p l).donors[k]? = some x → s.hostUp p = true → (x.st = 0 ∨ x.st = 3) →
      (s.obj 0x5030 1 ≠ 1 ∨ s.freeRegion = none) →
    ∃ t, exec (.donorOffer p l k) s = .next t ∧ (t.ld p l).donors[k]? = some { x with st := 4 })
  ∧ (∀ (p l k : Nat) (x : Donor) (s : State), (s.ld p l).donors[k]? = some x → x.st = 1 →
    ∃ t, exec (.donorRevoke p l k) s = .next t ∧ (t.ld p l).donors[k]? = some { x with st := 2, since := s.tb.now } ∧ t.mem = s.mem
      ∧ (∀ gid g m y, (gid, g) ∈ t.groups → (m, y) ∈ g.pages → ∀ c, y.t3 = some c → c.place ≠ x.region))
  ∧ (∀ (p l k : Nat) (x : Donor) (s : State), (s.ld p l).donors[k]? = some x → x.st = 2 →
    ∃ t, exec (.donorReleased p l k) s = .next t ∧ (t.ld p l).donors[k]? = some { x with st := 3 } ∧ t.mem = s.mem
      ∧ (∀ gid g m y, (gid, g) ∈ t.groups → (m, y) ∈ g.pages → y.gone3 ≠ some x.region)
      ∧ (t.groups.map (fun g => g.2.pages.map (fun y => (y.1, y.2.t3)))) = (s.groups.map (fun g => g.2.pages.map (fun y => (y.1, y.2.t3)))))
  ∧ (∀ (p : Nat) (s : State), s.hostUp p = false →
    ∃ t, exec (.donorPortDown p) s = .next t ∧ t.mem = s.mem
      ∧ ∀ l x, l < 16 → x ∈ (t.ld p l).donors → x.st ≠ 1 ∧ x.st ≠ 2))

/-- Backing that fails takes its extents to FAILED; with both control copies gone a logical device goes offline; repair tests an extent (R143, R144,
R146). Uncorrectable errors come as BACKING_FAILURE (log entry 117). -/
def Obligations.BackingFailuresComplete : Prop :=
  (∀ (e : Nat) (x : Extent) (s : State), Table.find s.extents e = some x → x.isHbm = true → x.st ≠ 6 →
    ∃ t y, exec (.backingFailure (.hbm e)) s = .next t ∧ Table.find t.extents e = some y ∧ y.st = 6 ∧ y.base = x.base
      ∧ (∀ w, w ∈ t.writes → w.eid ≠ some e) ∧ (∀ p l, x.st = 2 → x.holder = some (p, l) → .cxlEvent p l 2 x.slot ∈ t.out ∧ y.holder = some (p, l))
      ∧ (∀ f, f ≠ e → Table.find t.extents f = Table.find s.extents f) ∧ t.mem = s.mem)
  ∧ (∀ (e v p l due : Nat) (x : Extent) (s : State), Table.find s.extents e = some x → x.st = 2 → x.away = some v → x.holder = some (p, l) →
      s.loanDue v (s.ldObj p l 3) = some due →
    ∃ t y, exec (.backingFailure (.lent e)) s = .next t ∧ Table.find t.extents e = some y ∧ y.st = 6 ∧ y.holder = some (p, l)
      ∧ t.tb.now = max s.tb.now due ∧ .cxlEvent p l 2 x.slot ∈ t.out ∧ t.mem = s.mem)
  ∧ (∀ (p : Nat) (s : State), (s.role p = 2 ∨ s.role p = 3) →
    ∃ t, exec (.backingFailure (.tray p)) s = .next t ∧ bit (t.obj (0x3000 + 8 * p) 5) 4 = true ∧ bit (t.obj 0x5000 8) 0 = true ∧ t.mem = s.mem
      ∧ ∀ e x, Table.find s.extents e = some x → onTray p x = true → ∀ y, Table.find t.extents e = some y → y.st = 6)
  ∧ (∀ (p l : Nat) (s : State), ∃ t, exec (.ctlCopyLoss p l false) s = .next t ∧ bit (t.obj 0x5000 8) 2 = true ∧ t.lds = s.lds ∧ t.extents = s.extents)
  ∧ (∀ (p l : Nat) (s : State), ∃ t, exec (.ctlCopyLoss p l true) s = .next t ∧ (t.ld p l).offline = true ∧ (t.ld p l).lease = 0
      ∧ .aerFatal p l ∈ t.out ∧ bit (t.obj 0x5000 8) 3 = true ∧ t.mem = s.mem)
  ∧ (∀ (sid e : Nat) (x : Extent) (s : State), MayWrite s sid 0x5010 5 → e < 2 ^ 20 → Table.find s.extents e = some x → x.st = 6 → x.held = false →
      x.away = none → s.dieUp (faDie x.base) = true →
      (x.isHbm = true ∨ ((s.flexP (faPort x.base)).st = 3 ∧ bit (s.obj (0x3000 + 8 * faPort x.base) 5) 4 = false)) →
    ∃ t, exec (.repairBacking sid e) s = .next t ∧ Table.find t.extents e = some { x.freed with st := 5, testing := true, scrubbing := true }
      ∧ (∀ f, f ≠ e → Table.find t.extents f = Table.find s.extents f) ∧ .code sid 0x5010 5 rcOK ∈ t.out ∧ t.mem = s.mem)

/-- Host accesses that pass the check of R130: a read returns the bytes at its home, or asks the peer device that backs them; a write is admitted and
completed; register pages answer with their registers (R121, R126, R130, R190). An access lies within one slot (log entry 39); which accesses are
metered is log entry 196. -/
def Obligations.HostAccessesComplete : Prop :=
  (∀ (p l addr len u e a : Nat) (s : State), s.takes p l = true → s.ldTenant p l = some u →
      (∀ y, y ∈ s.heldAcc → ¬ (y.tenant = u ∧ y.tc = 2)) → (s.take u 2 (p / 16) (Nat.max 64 len)).1 = true → s.tagsOut p = false → s.check p l addr len false = .ok e a →
      s.poisoned a len = false →
    ∃ t, exec (.hostRead p l .dpa addr len) s = .next t ∧ .readCpl p l addr (memRead s.mem a len) false ∈ t.out ∧ t.mem = s.mem
      ∧ t.writes = s.writes ∧ t.extents = s.extents)
  ∧ (∀ (p l addr len u e v a : Nat) (s : State), s.takes p l = true → s.ldTenant p l = some u → (∀ y, y ∈ s.heldAcc → ¬ (y.tenant = u ∧ y.tc = 2)) →
      (s.take u 2 (p / 16) (Nat.max 64 len)).1 = true → s.tagsOut p = false → s.check p l addr len false = .remote e v a → 0 < len → len ≤ 256 →
      s.poisoned (v * 2 ^ 55 + a) len = false →
    ∃ t k, exec (.hostRead p l .dpa addr len) s = .next t ∧ .toCore (p / 16) (p % 16) k ∈ t.out ∧ k.ptype = 1 ∧ k.dstDev = v
      ∧ k.addr = v * 2 ^ 55 + a ∧ k.want = len ∧ k.tag = s.nextTag ∧ t.mem = s.mem
      ∧ t.remote = s.remote ++ [{ tag := s.nextTag, src := .host p l, kind := 1, back := addr, dev := v }])
  ∧ (∀ (p l addr len u : Nat) (s : State), s.takes p l = true → s.ldTenant p l = some u →
      (∀ y, y ∈ s.heldAcc → ¬ (y.tenant = u ∧ y.tc = 2)) → (s.take u 2 (p / 16) (Nat.max 64 len)).1 = true → s.tagsOut p = false → s.check p l addr len false = .denied →
    ∃ t, exec (.hostRead p l .dpa addr len) s = .next t ∧ .readCpl p l addr [] true ∈ t.out ∧ t.mem = s.mem
      ∧ bit (t.obj (0x5400 + p) (8 * l + 7)) 2 = true)
  ∧ (∀ (p l off v : Nat) (s : State), s.takes p l = true → ¬ (0x4000000 ≤ off ∧ off < 0x8000000) → s.pageRead p l off = some v → s.tagsOut p = false →
      (s.ldTenant p l = none ∨ ∃ u, s.ldTenant p l = some u ∧ (∀ y, y ∈ s.heldAcc → ¬ (y.tenant = u ∧ y.tc = 2)) ∧ (s.take u 2 (p / 16) 64).1 = true) →
    ∃ t, exec (.hostRead p l .bar0 off 8) s = .next t ∧ t.out = s.out ++ [.readCpl p l off (leBytes 8 v) false] ∧ t.lds = s.lds ∧ t.objs = s.objs
      ∧ t.mem = s.mem)
  ∧ (∀ (p l off v : Nat) (s : State), s.takes p l = true → s.bar2Read p l off = some v → (off < 0x200 ∨ s.ldTenant p l = none) → s.tagsOut p = false →
      (s.ldTenant p l = none ∨ ∃ u, s.ldTenant p l = some u ∧ (∀ y, y ∈ s.heldAcc → ¬ (y.tenant = u ∧ y.tc = 2)) ∧ (s.take u 2 (p / 16) 64).1 = true) →
    ∃ t, exec (.hostRead p l .bar2 off 8) s = .next t ∧ t.out = s.out ++ [.readCpl p l off (leBytes 8 v) false] ∧ t.lds = s.lds ∧ t.objs = s.objs
      ∧ t.mem = s.mem)
  ∧ (∀ (p l addr u e a : Nat) (d : Bytes) (s : State), s.takes p l = true → s.ldTenant p l = some u →
      (∀ y, y ∈ s.heldAcc → ¬ (y.tenant = u ∧ y.tc = 3)) → s.flagFull p l = false → (s.take u 3 (p / 16) (Nat.max 64 d.length)).1 = true → s.check p l addr d.length true = .ok e a →
    ∃ t, exec (.hostWrite p l .dpa addr d) s = .next t ∧ .writeCpl p l addr false ∈ t.out ∧ t.mem = s.mem ∧ t.nextWid = s.nextWid + 1
      ∧ t.writes = s.writes ++ [{ id := s.nextWid, src := .host p l, addr := a, data := d, flag := false, eid := some e, dpa := addr, at_ := s.tb.now }])
  ∧ (∀ (p l v : Nat) (s : State), s.reach p l = true → v < 2 ^ 64 →
    exec (.hostWrite p l .bar2 0 (leBytes 8 v)) s = exec (.leaseDoorbell p l v 8) s)
  ∧ (∀ (p l v : Nat) (s : State), s.takes p l = true → s.flagFull p l = false → v < 2 ^ 64 →
      (s.ldTenant p l = none ∨ ∃ u, s.ldTenant p l = some u ∧ (∀ y, y ∈ s.heldAcc → ¬ (y.tenant = u ∧ y.tc = 3)) ∧ (s.take u 3 (p / 16) 64).1 = true) →
    ∃ t, exec (.hostWrite p l .bar2 0x100 (leBytes 8 v)) s = .next t ∧ t.ld p l = { s.ld p l with flagAddr := v } ∧ t.mem = s.mem ∧ t.objs = s.objs)
  ∧ (∀ (p l addr : Nat) (s : State), s.hostUp p = true → exec (.hdmDbWrite p l addr) s = .next (s.emit (.writeCpl p l addr true)))

/-- A data-class write is performed at its home: its bytes and no other byte of memory change; one to a peer device's memory changes none here (R121,
R151, R157, R158). -/
def Obligations.WriteAppliesItsBytes : Prop :=
  (∀ (wid : Nat) (w : WrOut) (s : State), Inv s → s.writes.find? (fun y => y.id == wid) = some w → w.flag = false → w.away = none →
      w.atom = none → faSpace w.addr ≠ 3 →
      (∀ y, y ∈ s.writes.takeWhile (fun y => y.id != wid) → ¬ (y.src = w.src ∧ y.away = w.away ∧ overlaps y.addr y.data.length w.addr w.data.length = true)) →
    ∃ t, exec (.memWriteApply wid) s = .next t
      ∧ (∀ y, y ∈ t.writes → ∃ z, z ∈ s.writes.erase w ∧ y.id = z.id ∧ y.src = z.src ∧ y.addr = z.addr ∧ y.data = z.data)
      ∧ (∀ a, w.addr ≤ a → a < w.addr + w.data.length → memByte t.mem a = w.data.getD (a - w.addr) 0)
      ∧ (∀ a, ¬ (w.addr ≤ a ∧ a < w.addr + w.data.length) → memByte t.mem a = memByte s.mem a))
  ∧ (∀ (src : Source) (w : WrOut) (s : State), Inv s → s.writes.find? (fun y => y.src == src) = some w → w.flag = true → w.away = none →
      w.atom = none → faSpace w.addr ≠ 3 →
    ∃ t, exec (.flaggedStoreApply src) s = .next t
      ∧ (∀ y, y ∈ t.writes → ∃ z, z ∈ s.writes.erase w ∧ y.id = z.id ∧ y.src = z.src ∧ y.addr = z.addr ∧ y.data = z.data)
      ∧ (∀ a, w.addr ≤ a → a < w.addr + w.data.length → memByte t.mem a = w.data.getD (a - w.addr) 0)
      ∧ (∀ a, ¬ (w.addr ≤ a ∧ a < w.addr + w.data.length) → memByte t.mem a = memByte s.mem a))
  ∧ (∀ (wid v : Nat) (w : WrOut) (s : State), s.writes.find? (fun y => y.id == wid) = some w → w.flag = false → w.away = some v →
      w.sent = true →
      (∀ y, y ∈ s.writes.takeWhile (fun y => y.id != wid) → ¬ (y.src = w.src ∧ y.away = w.away ∧ overlaps y.addr y.data.length w.addr w.data.length = true)) →
    ∃ t, exec (.memWriteApply wid) s = .next t ∧ t.mem = s.mem
      ∧ (∀ y, y ∈ t.writes → ∃ z, z ∈ s.writes.erase w ∧ y.id = z.id ∧ y.src = z.src ∧ y.addr = z.addr ∧ y.data = z.data))
  ∧ (∀ (src : Source) (v : Nat) (w : WrOut) (s : State), s.writes.find? (fun y => y.src == src) = some w → w.flag = true → w.away = some v →
      w.sent = true →
    ∃ t, exec (.flaggedStoreApply src) s = .next t ∧ t.mem = s.mem
      ∧ (∀ y, y ∈ t.writes → ∃ z, z ∈ s.writes.erase w ∧ y.id = z.id ∧ y.src = z.src ∧ y.addr = z.addr ∧ y.data = z.data))
  ∧ (∀ (wid v : Nat) (w : WrOut) (s : State), s.writes.find? (fun y => y.id == wid) = some w → w.away = some v → w.sent = false →
    exec (.memWriteApply wid) s = .next s)

/-- An atomic stores its result at the address it reads, answers the value that was there, and changes no other byte; of a control line likewise; one to
another device goes there; an engine's on a read-only extent, or on an address that is not one, is answered with poison (R118, R154 to R156). -/
def Obligations.AtomicStoresItsResult : Prop :=
  (∀ (p l addr size operand compare u e a : Nat) (op : AtomicOp) (s : State), Inv s → s.takes p l = true → s.ldTenant p l = some u →
      atomicOk (.host p l) op size = true → addr % size = 0 → s.check p l addr size true = .ok e a →
      (∀ w, w ∈ s.writes → ¬ (w.src = .host p l ∧ overlaps w.addr w.data.length a size = true)) →
      (∀ y, y ∈ s.heldAcc → ¬ (y.tenant = u ∧ y.tc = 3)) → (s.take u 3 (p / 16) (Nat.max 64 size)).1 = true → s.flagFull p l = false →
      s.tagsOut p = false → s.poisoned a size = false → s.bytesLost a = false →
    ∃ t, exec (.atomic (.host p l) op addr size operand compare) s = .next t
      ∧ memRead t.mem a size = leBytes size (atomicNew op size (leNat (memRead s.mem a size)) operand compare)
      ∧ (∀ b, ¬ (a ≤ b ∧ b < a + size) → memByte t.mem b = memByte s.mem b)
      ∧ t.out = s.out ++ [.readCpl p l addr (leBytes size (leNat (memRead s.mem a size))) false])
  ∧ (∀ (src : Source) (addr size operand compare : Nat) (op : AtomicOp) (s : State), Inv s → (∀ p l, src ≠ .host p l) →
      (addr / 2 ^ 55 = s.devId ∨ s.assigned = false) →
      atomicOk src op size = true → addr % size = 0 → faSpace addr < 2 → faOk addr = true →
      (∀ dev u, src = .peer dev u → s.reaches dev = true) → s.bytesLost (addr % 2 ^ 55) = false →
      (∀ n ctx e x, src = .engine n ctx → s.extentAt (addr % 2 ^ 55) = some (e, x) → x.ro = false ∧ x.set = none) →
      (∀ w, w ∈ s.writes → ¬ (w.src = src ∧ overlaps w.addr w.data.length (addr % 2 ^ 55) size = true)) →
      s.poisoned (addr % 2 ^ 55) size = false →
    ∃ t, exec (.atomic src op addr size operand compare) s = .next t
      ∧ memRead t.mem (addr % 2 ^ 55) size = leBytes size (atomicNew op size (leNat (memRead s.mem (addr % 2 ^ 55) size)) operand compare)
      ∧ (∀ b, ¬ (addr % 2 ^ 55 ≤ b ∧ b < addr % 2 ^ 55 + size) → memByte t.mem b = memByte s.mem b)
      ∧ t.out = s.out ++ [.atomicCpl src addr (leBytes size (leNat (memRead s.mem (addr % 2 ^ 55) size))) false])
  ∧ (∀ (n ctx addr size operand compare o : Nat) (op : AtomicOp) (s : State), (addr / 2 ^ 55 = s.devId ∨ s.assigned = false) →
      s.fenced n ctx = false → atomicOk (.engine n ctx) op size = true → addr % size = 0 → faSpace addr = 3 → o = addr % 2 ^ 52 / 64 →
      (∀ e x, s.extentAt (addr % 2 ^ 55) = some (e, x) → x.ro = false ∧ x.set = none) →
      o < ctlLines → (s.dirEntries (lineHome o)).length < 131072 → (s.line o).txn = none → (s.line o).queue = [] → (s.line o).owner = none →
      (s.line o).sharers = [] → (s.line o).hosts = [] → (s.line o).hostOver = false →
    ∃ t, exec (.atomic (.engine n ctx) op addr size operand compare) s = .next t ∧ t.mem = s.mem
      ∧ (t.line o).val = ((s.bringLine o).line o).val.take (addr % 64)
          ++ leBytes size (atomicNew op size (field ((s.bringLine o).line o).val (addr % 64) size) operand compare)
          ++ ((s.bringLine o).line o).val.drop (addr % 64 + size)
      ∧ .atomicCpl (.engine n ctx) addr (leBytes size (field ((s.bringLine o).line o).val (addr % 64) size)) false ∈ t.out)
  ∧ (∀ (n ctx addr size operand compare : Nat) (op : AtomicOp) (s : State), addr / 2 ^ 55 ≠ s.devId → s.assigned = true →
      s.reaches (addr / 2 ^ 55) = true → atomicOk (.engine n ctx) op size = true → addr % size = 0 → faSpace addr < 2 → faOk addr = true →
      (∀ e x, s.extentOf (some (addr / 2 ^ 55)) (addr % 2 ^ 55) = some (e, x) → x.ro = false ∧ x.set = none) →
      (∀ w, w ∈ s.writes → w.away = none ∨ w.sent = true) →
    ∃ t x y k, exec (.atomic (.engine n ctx) op addr size operand compare) s = .next t ∧ .toCore x y k ∈ t.out ∧ k.ptype = 4
      ∧ k.dstDev = addr / 2 ^ 55 ∧ k.data = leBytes size operand ++ leBytes size compare ∧ k.tag = s.nextTag ∧ t.mem = s.mem
      ∧ t.remote = s.remote ++ [{ tag := s.nextTag, src := .engine n ctx, kind := 4, back := addr, dev := addr / 2 ^ 55 }])
  ∧ (∀ (n ctx addr size operand compare : Nat) (op : AtomicOp) (s : State), faSpace addr ≠ 3 →
      (atomicOk (.engine n ctx) op size = false ∨ addr % size ≠ 0 ∨ faOk addr = false
        ∨ ∃ e x, s.extentOf (if addr / 2 ^ 55 = s.devId ∨ s.assigned = false then none else some (addr / 2 ^ 55)) (addr % 2 ^ 55) = some (e, x)
            ∧ (x.ro = true ∨ x.set ≠ none)) →
    exec (.atomic (.engine n ctx) op addr size operand compare) s = .next (s.emit (.atomicCpl (.engine n ctx) addr [] true)))
  ∧ (∀ (wid : Nat) (w : WrOut) (r : AtomReq) (s : State), Inv s → s.writes.find? (fun y => y.id == wid) = some w → w.flag = false → w.away = none →
      w.atom = some r →
      (∀ y, y ∈ s.writes.takeWhile (fun y => y.id != wid) → ¬ (y.src = w.src ∧ y.away = w.away ∧ overlaps y.addr y.data.length w.addr w.data.length = true)) →
      s.poisoned w.addr r.size = false → s.bytesLost w.addr = false →
    ∃ t, exec (.memWriteApply wid) s = .next t
      ∧ memRead t.mem w.addr r.size = leBytes r.size (atomicNew r.op r.size (leNat (memRead s.mem w.addr r.size)) r.operand r.compare)
      ∧ (∀ b, ¬ (w.addr ≤ b ∧ b < w.addr + r.size) → memByte t.mem b = memByte s.mem b))

/-- Flagged stores wait in order, flushes cover the writes of their range, and fences end once they are met (R158 to R161, R164). What a flush counts as
lost is log entry 41, its range log entry 183. -/
def Obligations.OrderingCommandsComplete : Prop :=
  (∀ (p l v e a u : Nat) (s : State), s.takes p l = true → s.ldTenant p l = some u → s.flagFull p l = false →
      (∀ y, y ∈ s.heldAcc → ¬ (y.tenant = u ∧ y.tc = 3)) → (s.take u 3 (p / 16) 64).1 = true → s.check p l ((s.ld p l).flagAddr / 8 * 8) 8 true = .ok e a →
    ∃ t, exec (.flagData p l v) s = .next t ∧ t.mem = s.mem ∧ t.out = s.out
      ∧ t.writes = s.writes ++ [{ id := s.nextWid, src := .host p l, addr := a, data := leBytes 8 v, flag := true, eid := some e,
                                  dpa := (s.ld p l).flagAddr / 8 * 8, at_ := s.tb.now }])
  ∧ (∀ (p l v e dev a u : Nat) (s : State), s.takes p l = true → s.ldTenant p l = some u → s.flagFull p l = false →
      (∀ y, y ∈ s.heldAcc → ¬ (y.tenant = u ∧ y.tc = 3)) → (s.take u 3 (p / 16) 64).1 = true →
      s.check p l ((s.ld p l).flagAddr / 8 * 8) 8 true = .remote e dev a → (∀ w, w ∈ s.writes → w.src ≠ .host p l) →
    ∃ t x y k, exec (.flagData p l v) s = .next t ∧ t.mem = s.mem ∧ .toCore x y k ∈ t.out ∧ k.flag = true ∧ k.ptype = 2 ∧ k.dstDev = dev
      ∧ k.addr = dev * 2 ^ 55 + a ∧ k.data = leBytes 8 v)
  ∧ (∀ (p l seq : Nat) (s : State), s.takes p l = true →
    ∃ t b n ids, exec (.flushCtrl p l seq) s = .next t ∧ (t.ld p l).flushes = (s.ld p l).flushes ++ [(seq % 65536, b, n, ids)]
      ∧ b = (s.ld p l).flushBase / 64 * 64 ∧ (∀ w, w ∈ s.writes → w.src = .host p l → overlaps w.dpa w.data.length b n = true → w.id ∈ ids)
      ∧ t.writes = s.writes ∧ t.mem = s.mem)
  ∧ (∀ (p l seq b n : Nat) (ids : List Nat) (rest : List (Nat × Nat × Nat × List Nat)) (s : State), (s.ld p l).flushes = (seq, b, n, ids) :: rest →
      (∀ w, w ∈ s.writes → w.id ∉ ids) →
    ∃ t, exec (.flushComplete p l) s = .next t ∧ (t.ld p l).flushes = rest ∧ (t.ld p l).flushDone = seq
      ∧ ((t.ld p l).flushLoss = true ↔ ∃ w, w ∈ (s.ld p l).lostW ∧ w.1 ∈ ids)
      ∧ ((t.ld p l).flushLoss = true → bit (t.obj 0x5100 2) 2 = true) ∧ t.mem = s.mem
      ∧ (∀ c e x slot, c ∈ t.copies → (e, x) ∈ s.extents → (p, l, slot) ∈ x.mapped → x.base ≤ c.addr → c.addr < x.base + Config.extentBytes →
          overlaps (slot * Config.extentBytes + (c.addr - x.base)) c.data.length b n = false))
  ∧ (∀ (src : Source) (scope : Scope) (s : State), s.fenceMet (s.newFence src scope) = true → ∃ t, exec (.fence src scope) s = .next t
      ∧ .fenceDone src ∈ t.out ∧ s.newFence src scope ∉ t.fences)
  ∧ (∀ (src : Source) (scope : Scope) (s : State), s.fenceMet (s.newFence src scope) = false → ∃ t, exec (.fence src scope) s = .next t
      ∧ s.newFence src scope ∈ t.fences ∧ t.mem = s.mem ∧ t.lines = s.lines ∧ t.caches = s.caches)

/-- A context's request for an idle line is granted at once; a line with an owner is snooped first (R163 to R167). RdShared of a line with no copy grants
E (log entry 44). -/
def Obligations.LineRequestsComplete : Prop :=
  (∀ (a : Agent) (o ctx : Nat) (store : LineStore) (s : State), s.mayAsk a o ctx = true → s.cacheRoom (agentNum a) o ≠ none → (s.dirEntries (lineHome o)).length < 131072 → (s.line o).txn = none → (s.line o).queue = [] →
      (s.line o).owner = none → (s.line o).sharers = [] → (s.line o).hosts = [] → (s.line o).hostOver = false →
    (∃ t, exec (.rdShared a ⟨o, ctx⟩) s = .next t ∧ (t.line o).owner = some (agentNum a) ∧ (t.line o).val = ((s.bringLine o).line o).val
      ∧ { kind := 3, agent := agentNum a, line := o, st := 2, val := ((s.bringLine o).line o).val } ∈ t.msgs ∧ (t.cached (agentNum a) o).req = 1 ∧ t.mem = s.mem)
    ∧ (∃ t, exec (.rdOwn a ⟨o, ctx, store⟩) s = .next t ∧ (t.line o).owner = some (agentNum a) ∧ (t.line o).sharers = []
      ∧ { kind := 3, agent := agentNum a, line := o, st := 3, val := ((s.bringLine o).line o).val } ∈ t.msgs ∧ (t.cached (agentNum a) o).req = 2 ∧ (t.cached (agentNum a) o).due = store ∧ t.mem = s.mem))
  ∧ (∀ (a : Agent) (o b ctx : Nat) (store : LineStore) (s : State), s.mayAsk a o ctx = true → s.cacheRoom (agentNum a) o ≠ none → (s.dirEntries (lineHome o)).length < 131072 → (s.line o).txn = none → (s.line o).queue = [] →
      (s.line o).owner = some b → b ≠ agentNum a → s.lineBytes o = (s.line o).obj →
    (∃ t, exec (.rdShared a ⟨o, ctx⟩) s = .next t ∧ { kind := 2, agent := b, line := o, fwd := some (agentNum a) } ∈ t.msgs ∧ (t.line o).txn ≠ none
      ∧ (t.line o).owner = some b)
    ∧ (∃ t, exec (.rdOwn a ⟨o, ctx, store⟩) s = .next t ∧ { kind := 1, agent := b, line := o, fwd := some (agentNum a) } ∈ t.msgs ∧ (t.line o).txn ≠ none
      ∧ (t.line o).owner = some b))
  ∧ (∀ (a : Agent) (o ctx : Nat) (store : LineStore) (s : State), agentOk a = true → o < ctlLines → (s.cached (agentNum a) o).st = 1 → (s.cached (agentNum a) o).req = 0 →
      s.fenced (agentNum a) ctx = false →
      (s.dirEntries (lineHome o)).length < 131072 → (s.line o).txn = none → (s.line o).queue = [] → (s.line o).owner = none →
      s.lineBytes o = (s.line o).obj → (s.line o).sharers = [sharerBit (agentNum a)] → (s.line o).hosts = [] → (s.line o).hostOver = false →
      (∀ y, y ∈ s.caches → y.line = o → sharerBit y.agent = sharerBit (agentNum a) → (y.st ≠ 0 ∨ y.req ≠ 0) → y.agent = agentNum a) →
    ∃ t, exec (.upgrade a ⟨o, ctx, store⟩) s = .next t ∧ (t.line o).owner = some (agentNum a) ∧ (t.line o).sharers = []
      ∧ { kind := 4, agent := agentNum a, line := o, st := 3 } ∈ t.msgs ∧ (t.cached (agentNum a) o).req = 3)

/-- Holders answer snoops, requesters take their data, and write-backs go home and are acknowledged (R167, R168). -/
def Obligations.LineHoldersComplete : Prop :=
  (∀ (a : Agent) (o : Nat) (store : LineStore) (s : State), agentOk a = true → (s.cached (agentNum a) o).wb = none →
      ((s.cached (agentNum a) o).st = 3 ∨ ((s.cached (agentNum a) o).st = 2 ∧ store.isSome = true)) →
      (s.cached (agentNum a) o).req = 0 → (s.caches.filter (fun y => y.agent == agentNum a && y.wb.isSome)).length < 4 →
    ∃ t, exec (.wb a ⟨o, store⟩) s = .next t ∧ (t.cached (agentNum a) o).st = 0
      ∧ (t.cached (agentNum a) o).wb = some (putIn (s.cached (agentNum a) o).val store)
      ∧ t.lines = s.lines ∧ t.msgs = s.msgs ∧ t.mem = s.mem)
  ∧ (∀ (a : Agent) (o : Nat) (store : LineStore) (v : Bytes) (s : State), (s.cached (agentNum a) o).wb = some v →
      (∀ m, m ∈ s.msgs → ¬ (m.kind = 5 ∧ m.agent = agentNum a ∧ m.line = o)) → (∀ w, w ∈ (s.line o).wbs → w.1 ≠ agentNum a) → (s.line o).txn = none →
    ∃ t, exec (.wb a ⟨o, store⟩) s = .next t ∧ (t.line o).val = v ∧ (t.line o).owner ≠ some (agentNum a)
      ∧ { kind := 5, agent := agentNum a, line := o } ∈ t.msgs)
  ∧ (∀ (a : Agent) (o : Nat) (m : CohMsg) (s u : State), s.receive [1] (agentNum a) o = some (m, u) → (u.cached (agentNum a) o).wb = none →
      (u.cached (agentNum a) o).req = 0 → (u.cached (agentNum a) o).aside = [] → (u.cached (agentNum a) o).st = 1 → m.fwd = none →
    ∃ t, exec (.snpInv a o) s = .next t ∧ (t.cached (agentNum a) o).st = 0 ∧ { kind := 6, agent := agentNum a, line := o } ∈ t.msgs)
  ∧ (∀ (a : Agent) (o b : Nat) (m : CohMsg) (s u : State), s.receive [1] (agentNum a) o = some (m, u) → (u.cached (agentNum a) o).wb = none →
      (u.cached (agentNum a) o).req = 0 → (u.cached (agentNum a) o).st = 3 → m.fwd = some b →
    ∃ t, exec (.snpInv a o) s = .next t ∧ (t.cached (agentNum a) o).st = 0
      ∧ { kind := 3, agent := b, line := o, fwd := some (agentNum a), st := 3, val := (u.cached (agentNum a) o).val } ∈ t.msgs
      ∧ { kind := 8, agent := agentNum a, line := o, val := (u.cached (agentNum a) o).val } ∈ t.msgs)
  ∧ (∀ (a : Agent) (o b : Nat) (m : CohMsg) (s u : State), s.receive [2] (agentNum a) o = some (m, u) → (u.cached (agentNum a) o).wb = none →
      (u.cached (agentNum a) o).req = 0 → ((u.cached (agentNum a) o).st = 2 ∨ (u.cached (agentNum a) o).st = 3) → m.fwd = some b →
    ∃ t, exec (.snpData a o) s = .next t ∧ (t.cached (agentNum a) o).st = 1 ∧ (t.cached (agentNum a) o).val = (u.cached (agentNum a) o).val
      ∧ { kind := 3, agent := b, line := o, fwd := some (agentNum a), st := 1, val := (u.cached (agentNum a) o).val } ∈ t.msgs)
  ∧ (∀ (a : Agent) (o : Nat) (m : CohMsg) (s u : State), s.receive [3, 4] (agentNum a) o = some (m, u) → m.kind = 3 → m.fwd = none → m.st ≠ 0 →
      (u.cached (agentNum a) o).aside = [] →
    ∃ t, exec (.dataCmp a o) s = .next t ∧ (t.cached (agentNum a) o).st = m.st ∧ (t.cached (agentNum a) o).req = 0
      ∧ (t.cached (agentNum a) o).val = (if m.st = 3 then putIn m.val (u.cached (agentNum a) o).due else m.val)
      ∧ .lineRead (agentNum a) (u.cached (agentNum a) o).ctx o m.val ∈ t.out)
  ∧ (∀ (a : Agent) (o : Nat) (m : CohMsg) (s u : State), s.receive [3, 4] (agentNum a) o = some (m, u) → m.kind = 4 → m.st ≠ 0 →
      (u.cached (agentNum a) o).aside = [] →
    ∃ t, exec (.dataCmp a o) s = .next t ∧ (t.cached (agentNum a) o).st = m.st ∧ (t.cached (agentNum a) o).req = 0
      ∧ (t.cached (agentNum a) o).val = (if m.st = 3 then putIn (u.cached (agentNum a) o).val (u.cached (agentNum a) o).due else (u.cached (agentNum a) o).val)
      ∧ .lineRead (agentNum a) (u.cached (agentNum a) o).ctx o (u.cached (agentNum a) o).val ∈ t.out)
  ∧ (∀ (a : Agent) (o : Nat) (m : CohMsg) (s u : State), s.receive [5] (agentNum a) o = some (m, u) →
    ∃ t, exec (.wbAck a o) s = .next t ∧ (t.cached (agentNum a) o).wb = none ∧ t.mem = s.mem)

/-- The answers a home waits for end its transaction; a host that does not answer loses its view (R167 to R170). -/
def Obligations.LineHomesComplete : Prop :=
  (∀ (a : Agent) (o : Nat) (m : CohMsg) (x : Txn) (s u : State), s.receive [6] (agentNum a) o = some (m, u) → (u.line o).txn = some x → x.kind = 2 →
      x.waitAgents = [agentNum a] → x.waitHosts = [] → x.wbWait = [] → x.forwarded = false → (u.line o).queue = [] →
    ∃ t, exec (.snoopResponse a o .rspI) s = .next t ∧ (t.line o).owner = some x.agent ∧ (t.line o).txn = none
      ∧ { kind := 3, agent := x.agent, line := o, st := 3, val := (u.line o).val } ∈ t.msgs)
  ∧ (∀ (a : Agent) (o : Nat) (m : CohMsg) (x : Txn) (s u : State), s.receive [7] (agentNum a) o = some (m, u) → (u.line o).txn = some x → x.kind = 1 →
      x.waitAgents = [agentNum a] → x.waitHosts = [] → x.wbWait = [] → x.forwarded = false → (u.line o).queue = [] → (u.line o).owner = some (agentNum a) →
    ∃ t, exec (.snoopResponse a o .rspS) s = .next t ∧ (t.line o).owner = none ∧ sharerBit x.agent ∈ (t.line o).sharers
      ∧ sharerBit (agentNum a) ∈ (t.line o).sharers ∧ { kind := 3, agent := x.agent, line := o, st := 1, val := (u.line o).val } ∈ t.msgs)
  ∧ (∀ (a : Agent) (o : Nat) (m : CohMsg) (x : Txn) (s u : State), s.receive [8] (agentNum a) o = some (m, u) → (u.line o).txn = some x → x.kind = 2 →
      x.waitAgents = [agentNum a] → x.waitHosts = [] → x.wbWait = [] → (u.line o).queue = [] →
    ∃ t, exec (.snoopResponse a o .rspFwd) s = .next t ∧ (t.line o).owner = some x.agent ∧ (t.line o).val = m.val
      ∧ { kind := 4, agent := x.agent, line := o, st := 3 } ∈ t.msgs)
  ∧ (∀ (a : Agent) (o : Nat) (m : CohMsg) (x : Txn) (s u : State), s.receive [9] (agentNum a) o = some (m, u) → (u.line o).txn = some x →
      (∀ w, w ∈ (u.line o).wbs → w.1 ≠ agentNum a) →
    ∃ t, exec (.wbPending a o) s = .next t
      ∧ (t.line o).txn = some { x with waitAgents := x.waitAgents.erase (agentNum a), wbWait := x.wbWait ++ [agentNum a] }
      ∧ t.obj 0x5100 4 = (s.obj 0x5100 4 + 1) % 2 ^ 64)
  ∧ (∀ (p l o at_ lim : Nat) (x : Txn) (s : State), (s.ld p l).viewCut = false → (s.line o).txn = some x → x.kind = 2 → x.waitAgents = [] →
      x.waitHosts = [(p, l, at_, lim)] → x.wbWait = [] → x.forwarded = false → (s.line o).queue = [] →
    ∃ t, exec (.birsp p l o) s = .next t ∧ (t.line o).owner = some x.agent ∧ (t.line o).txn = none
      ∧ { kind := 3, agent := x.agent, line := o, st := 3, val := (s.line o).val } ∈ t.msgs)
  ∧ (∀ (p l o at_ lim : Nat) (x : Txn) (s : State), (s.line o).txn = some x → x.kind = 2 → x.waitAgents = [] →
      x.waitHosts = [(p, l, at_, lim)] → x.wbWait = [] → x.forwarded = false → (s.line o).queue = [] →
    ∃ t, exec (.biTimeout p l o) s = .next t ∧ (t.ld p l).viewCut = true ∧ t.tb.now = max s.tb.now (at_ + lim) ∧ bit (t.obj 0x5100 2) 0 = true
      ∧ (t.line o).owner = some x.agent ∧ (t.line o).txn = none)
  ∧ (∀ (p l o : Nat) (s : State), s.hostUp p = true → s.ldOn p l = true → (s.ld p l).viewCut = true →
    exec (.viewRead p l o) s = .next (s.emit (.readCpl p l (o * 64) [] true)))
  ∧ (∀ (p l o u : Nat) (v : Bytes) (s : State), s.hostUp p = true → s.ldOn p l = true → (s.ld p l).viewCut = false → s.ldTenant p l = some u →
      s.viewValue u o = some v → (s.dirEntries (lineHome o)).length < 131072 → (s.line o).txn = none → (s.line o).queue = [] → (s.line o).owner = none →
      (s.line o).hosts = [] → (s.line o).obj = some v →
    ∃ t, exec (.viewRead p l o) s = .next t ∧ .readCpl p l (o * 64) (s.line o).val false ∈ t.out ∧ (p, l) ∈ (t.line o).hosts)
  ∧ (∀ (p l o u : Nat) (v : Bytes) (s : State), s.hostUp p = true → s.ldOn p l = true → (s.ld p l).viewCut = false → s.ldTenant p l = some u →
      s.viewValue u o = some v → (s.dirEntries (lineHome o)).length < 131072 → (s.line o).txn = none → (s.line o).queue = [] → (s.line o).owner = none →
      (s.line o).hosts = [] → (s.line o).hostOver = false → (s.line o).sharers = [] → (s.line o).obj ≠ some v →
    ∃ t, exec (.viewRead p l o) s = .next t ∧ .readCpl p l (o * 64) v false ∈ t.out ∧ (p, l) ∈ (t.line o).hosts ∧ (t.line o).obj = some v)
  ∧ (∀ (p l o u : Nat) (s : State), s.hostUp p = true → s.ldOn p l = true → (s.ld p l).viewCut = false → s.ldTenant p l = some u →
      s.viewValue u o = none → exec (.viewRead p l o) s = .next (s.emit (.readCpl p l (o * 64) (zeros 64) false)))
  ∧ (∀ (sid v : Nat) (s : State), MayWrite s sid 0x5100 5 → v < 2048 →
    ∃ t, exec (.viewRestore sid v) s = .next t ∧ (t.ld (v / 16) (v % 16)).viewCut = false ∧ .code sid 0x5100 5 rcOK ∈ t.out ∧ t.mem = s.mem)

/-- The ring registers take what R191 to R195 let them take, and a write failure, a PAD and the last record of a draining ring act as the clauses state of
R192 to R194. Corners of the ring registers are log entry 67. -/
def Obligations.RingRegistersComplete : Prop :=
  (∀ (p l r v : Nat) (s : State), s.takes p l = true → r < 64 → ((s.ld p l).ring r).st = 1 → v % 64 = 0 → v < ((s.ld p l).ring r).size →
    exec (.sqTail p l r v) s = .next (s.setRing p l r { (s.ld p l).ring r with tail := v }))
  ∧ (∀ (p l r v : Nat) (s : State), s.takes p l = true → r < 64 → ((s.ld p l).ring r).st = 1 → (v % 64 ≠ 0 ∨ ((s.ld p l).ring r).size ≤ v) →
    ∃ t, exec (.sqTail p l r v) s = .next t ∧ ((t.ld p l).ring r).st = 3 ∧ ((t.ld p l).ring r).reason = 0x10
      ∧ ((t.ld p l).ring r).tail = ((s.ld p l).ring r).tail ∧ bit (t.obj 0x6000 6) 1 = true)
  ∧ (∀ (p l r : Nat) (s : State), s.takes p l = true → r < 64 → (s.ld p l).offline = false → ((s.ld p l).ring r).enabled = false →
      ((s.ld p l).cq ((s.ld p l).ring r).cqNo).on = true → (s.ld p l).sqBytes + ((s.ld p l).ring r).size ≤ 16 * 2 ^ 20 →
    exec (.sqEnable p l r) s = .next (s.setRing p l r
      { (s.ld p l).ring r with st := 1, reason := 0, head := 0, tail := 0, lostApps := [], deficit := 0, topped := false }))
  ∧ (∀ (p l r : Nat) (s : State), ((s.ld p l).ring r).st = 3 → exec (.sqEnable p l r) s = .next s)
  ∧ (∀ (p l r : Nat) (s : State), s.takes p l = true → ((s.ld p l).ring r).st ≠ 0 →
    exec (.sqDisable p l r) s = .next (s.setRing p l r { (s.ld p l).ring r with st := if s.ringOwed p l r = 0 then 0 else 2 }))
  ∧ (∀ (p l r : Nat) (s : State), ((s.ld p l).ring r).st = 2 → s.ringOwed p l r = 0 →
    exec (.sqDrained p l r) s = .next (s.setRing p l r { (s.ld p l).ring r with st := 0 }))
  ∧ (∀ (p l r v : Nat) (s : State), s.takes p l = true → r < 64 → ((s.ld p l).cq r).on = false → bit v 16 = true → 6 ≤ v % 32 → v % 32 ≤ 16 →
    exec (.cqCfg p l r v) s = .next (s.setCq p l r { base := ((s.ld p l).cq r).base, cfg := v &&& 0x1011F, reserved := ((s.ld p l).cq r).reserved }))
  ∧ (∀ (p l r v : Nat) (s : State), ((s.ld p l).cq r).on = true → bit v 16 = false → ((s.ld p l).ring r).enabled = true →
      ((s.ld p l).ring r).cqNo = r → (∃ e ∈ (s.ld p l).rings, e = (r, (s.ld p l).ring r)) → exec (.cqCfg p l r v) s = .next s)
  ∧ (∀ (p l r v : Nat) (s : State), s.takes p l = true → ((s.ld p l).cq r).on = true → ((s.ld p l).cq r).headOk v = true →
    exec (.cqHead p l r v) s = .next (s.setCq p l r { (s.ld p l).cq r with head := v }))
  ∧ (∀ (p l v : Nat) (s : State), s.takes p l = true → (s.ld p l).eq.on = true → (s.ld p l).eq.headOk v = true → (s.ld p l).eq.queued = [] →
    exec (.eqHead p l v) s = .next (s.setLd p l { s.ld p l with eq := { (s.ld p l).eq with head := v, overflow := false } }))
  ∧ (∀ (p l c : Nat) (s : State), s.reach p l = true → ((s.ld p l).cq c).on = true →
    ∃ t, exec (.cqWriteFail p l c) s = .next t ∧ ((t.ld p l).cq c).on = false ∧ t.cmds = s.cmds
      ∧ ∀ r, r < 64 → ((s.ld p l).ring r).cqNo = c →
          ((t.ld p l).ring r).st = 3 ∧ ((t.ld p l).ring r).reason = 0x12 ∧ bit (t.obj 0x6000 6) 1 = true)
  ∧ (∀ (p l r : Nat) (h : Bytes) (s0 s : State), s.turn p l r = some s0 → ((s0.ld p l).ring r).peek = .packet h → hRecipe h = 0 →
    ∃ t, exec (.pad p l r) s = .next t ∧ ((t.ld p l).ring r).head = 0 ∧ ((t.ld p l).ring r).tail = ((s0.ld p l).ring r).tail ∧ t.cmds = s.cmds
      ∧ t.nextCmd = s.nextCmd)

/-- A packet that passes every check of R199 becomes a command of the device, and it runs the stages of its base recipe and of no other (R182, R183, R199,
R202). -/
def Obligations.AdmittedCommandsEnterAndRun : Prop :=
  (∀ (p l r base : Nat) (s u : State) (c : Ctx), s.admitted p l r base (recipeRun base) = some (u, c) →
    c.ref = s.nextCmd ∧ u.nextCmd = s.nextCmd + 1 ∧ c.p = p ∧ c.l = l ∧ c.r = r ∧ c.base = base
    ∧ (∃ x, u.cmd c.ref = some x ∧ x.p = p ∧ x.l = l ∧ x.r = r ∧ x.recipe = base ∧ x.hdr = c.h ∧ x.pay = c.pay ∧ x.refused = none ∧ x.at_ = s.now
        ∧ x.cq = ((s.ld p l).ring r).cqNo)
    ∧ ((u.ld p l).cq ((s.ld p l).ring r).cqNo).reserved = ((s.ld p l).cq ((s.ld p l).ring r).cqNo).reserved + 1
    ∧ ((u.ld p l).ring r).head = (if ((s.ld p l).ring r).head + packetBytes c.h = ((s.ld p l).ring r).size then 0
                                  else ((s.ld p l).ring r).head + packetBytes c.h)
    ∧ u.obj 0x6000 7 = (s.obj 0x6000 7 + 1) % 2 ^ 64 ∧ u.mem = s.mem ∧ u.sess = s.sess)
  ∧ (∀ (i : Instr) (p l r base : Nat) (s u : State) (c : Ctx), recipeRow i = some (p, l, r, base) → s.admitted p l r base (recipeRun base) = some (u, c) →
    exec i s = .next ((recipeRun base).start u c))

/-- A packet that a check of R199 refuses has no effect but its record, with the status and reason of the check, and is counted as rejected. DETAIL of a
refusal is log entry 68. -/
def Obligations.RefusedPacketsOweTheirRecord : Prop :=
  (∀ (p l r reason : Nat) (h : Bytes) (s0 s : State), s.turn p l r = some s0 → ((s0.ld p l).ring r).peek = .packet h → hRecipe h ≠ 0 →
      hdrFault h = some reason →
    ∃ t x, exec (.unknownRecipe p l r) s = .next t ∧ t.cmd s.nextCmd = some x ∧ x.refused = some (stRecipeInvalid, 0, reason) ∧ x.hdr = h
      ∧ x.cq = ((s0.ld p l).ring r).cqNo ∧ t.obj 0x6000 8 = (s.obj 0x6000 8 + 1) % 2 ^ 64 ∧ t.seqs = s.seqs ∧ t.recipes = s.recipes)
  ∧ (∀ (p l r u : Nat) (h : Bytes) (s0 s : State), s.turn p l r = some s0 → ((s0.ld p l).ring r).peek = .packet h → hRecipe h ≠ 0 →
      hdrFault h = none → s.ldTenant p l = some u → s.resolve u (hRecipe h) = none →
    ∃ t x, exec (.unknownRecipe p l r) s = .next t ∧ t.cmd s.nextCmd = some x ∧ x.refused = some (stRecipeInvalid, 0, 0x05) ∧ x.hdr = h
      ∧ t.obj 0x6000 8 = (s.obj 0x6000 8 + 1) % 2 ^ 64 ∧ t.seqs = s.seqs ∧ t.recipes = s.recipes)
  ∧ (∀ (p l r : Nat) (h : Bytes) (s0 s : State), s.turn p l r = some s0 → ((s0.ld p l).ring r).peek = .packet h → hRecipe h ≠ 0 →
      hdrFault h = none → s.ldTenant p l = none → s.resolve 4096 (hRecipe h) = none →
    ∃ t x, exec (.unknownRecipe p l r) s = .next t ∧ t.cmd s.nextCmd = some x ∧ x.refused = some (stDenied, 0, 0x0C) ∧ x.hdr = h
      ∧ t.obj 0x6000 8 = (s.obj 0x6000 8 + 1) % 2 ^ 64 ∧ t.seqs = s.seqs ∧ t.recipes = s.recipes)
  ∧ (∀ (i : Instr) (p l r base st reason : Nat) (h : Bytes) (var : Option Recipe) (s0 s1 s2 s : State), recipeRow i = some (p, l, r, base) →
      s.turn p l r = some s0 → ((s0.ld p l).ring r).peek = .packet h → hRecipe h ≠ 0 → hdrFault h = none →
      s0.resolve ((s0.ldTenant p l).getD 4096) (hRecipe h) = some (base, var) →
      s1 = { s0.consume p l r (packetBytes h) false with freeCtr := s0.freeCtr + 1 } → s1.policed p l base var h = (some (st, reason), s2) →
    ∃ t x, exec i s = .next t ∧ t.cmd s.nextCmd = some x ∧ x.refused = some (st, 0, reason) ∧ x.hdr = h
      ∧ t.obj 0x6000 8 = (s.obj 0x6000 8 + 1) % 2 ^ 64 ∧ t.seqs = s.seqs ∧ t.recipes = s.recipes)

/-- DESCRIBE and the recipe commands give the result data and the recipe list of R187, R188, R206 and R207. What counts toward the limits is log entry 70. -/
def Obligations.RecipeCommandsComplete : Prop :=
  (∀ (p l r : Nat) (s u : State) (c : Ctx), s.admitted p l r 0xF0 describeRecipe = some (u, c) →
    ∃ t y, exec (.describe p l r) s = .next t ∧ t.cmd c.ref = some y ∧ y.items = [some 0] ∧ y.result = s.describeBytes c.tenant
      ∧ y.result.length = 64 ∧ t.recipes = s.recipes)
  ∧ (∀ (p l r : Nat) (st : List Bytes) (s u : State) (c : Ctx), s.admitted p l r 0xF1 installRecipeRun = some (u, c) →
      st = (List.range (field (slice c.pay 0 64) 2 1)).map (fun i => slice c.pay (64 + 32 * i) 32) →
      s.descFault c.tenant (slice c.pay 0 64) st = none →
    ∃ t y x, exec (.installRecipe p l r) s = .next t ∧ t.recipes = s.recipes ++ [x] ∧ x.tenant = c.tenant ∧ x.id = field (slice c.pay 0 64) 0 2
      ∧ x.stages = st ∧ x.byCmd = c.ref ∧ x.removedBy = none ∧ t.cmd c.ref = some y ∧ y.items = [some 0] ∧ y.result = x.hdr)
  ∧ (∀ (p l r reason stage : Nat) (st : List Bytes) (s u : State) (c : Ctx), s.admitted p l r 0xF1 installRecipeRun = some (u, c) →
      st = (List.range (field (slice c.pay 0 64) 2 1)).map (fun i => slice c.pay (64 + 32 * i) 32) →
      s.descFault c.tenant (slice c.pay 0 64) st = some (reason, stage) →
    ∃ t y, exec (.installRecipe p l r) s = .next t ∧ t.recipes = s.recipes ∧ t.cmd c.ref = some y ∧ y.whole = some stRecipeInvalid
      ∧ y.reason = reason ∧ y.stage = stage)
  ∧ (∀ (p l r : Nat) (s u : State) (c : Ctx), s.admitted p l r 0xF2 removeRecipeRun = some (u, c) →
      s.recipes.any (fun x => x.tenant == c.tenant && x.id == arg c.h 0x18 2 && x.removedBy.isNone) = true →
    ∃ t y, exec (.removeRecipe p l r) s = .next t ∧ t.cmd c.ref = some y ∧ y.items = [some 0] ∧ t.recipes.length = s.recipes.length
      ∧ (∀ x, x ∈ t.recipes → x.tenant = c.tenant → x.id = arg c.h 0x18 2 → x.removedBy.isSome = true))
  ∧ (∀ (p l r : Nat) (e : Bytes) (rest : List Bytes) (v : Recipe) (secs out : List Stream) (x : Cmd) (s u : State) (c : Ctx),
      s.admitted p l r 0 composedRecipe = some (u, c) → u.cmd c.ref = some x →
      u.recipes.find? (fun y => y.tenant == c.tenant && y.id == c.rid) = some v → v.stages = e :: rest →
      cutSections (tileGrant (some v)) c.h 0 (sectionsOf e) c.pay = some secs →
      ((u.modCmd c.ref (fun y => { y with work := .none, items := [none] })).runStages c.ref (tileGrant (some v)) x rest secs.reverse secs).1
        = .ok out →
    ∃ t y, exec (.composedRecipe p l r) s = .next t ∧ t.cmd c.ref = some y ∧ y.items = [some 0]
      ∧ y.result = out.flatMap (fun z => z.tiles.flatten)
      ∧ (∀ z, z ∈ secs → ∀ w, w ∈ z.tiles → w.length ≤ tileGrant (some v)) ∧ t.recipes = s.recipes)
  ∧ (∀ (tenant id : Nat) (s : State), s.cmds.any (fun e => e.2.tenant == tenant && e.2.rid == id && e.2.refused.isNone) = false →
      (∀ x, x ∈ s.recipes → x.tenant = tenant → x.id = id → ∃ c, x.removedBy = some c ∧ s.cmd c = none) →
    ∃ t, exec (.recipeIdFree tenant id) s = .next t ∧ (∀ x, x ∈ t.recipes ↔ (x ∈ s.recipes ∧ ¬ (x.tenant = tenant ∧ x.id = id))) ∧ t.cmds = s.cmds)

/-- Tensors are loaded, read and freed as the clauses state of R255 to R258. Palettes are installed, made current, retired and freed as the clauses state
of R322 to R328. Reasons are log entry 71, a load during a free log entry 82. -/
def Obligations.TensorsAndPalettesComplete : Prop :=
  ((∀ (p l r : Nat) (a : LoadArgs) (s u : State) (c : Ctx), s.admitted p l r 0x22 loadRecipe = some (u, c) → a = loadArgs c.h →
      s.tensors.find? (fun x => x.tenant == c.tenant && x.id == a.id) = none → a.off + c.pay.length ≤ a.rows * a.rowBytes →
      s.tensorUsed c.tenant + roundUp (a.rows * a.rowBytes) Config.granule ≤ s.obj 0x6200 5 * 2 ^ 20 →
      s.tensorAll + (u.modCmd c.ref (fun y => { y with work := .none, items := [none] })).tensorHold c.tenant
          + roundUp (a.rows * a.rowBytes) Config.granule ≤ s.obj 0x6200 4 * 2 ^ 20 →
    ∃ t y, exec (.loadTensor p l r) s = .next t ∧ t.cmd c.ref = some y ∧ y.items = [some 0]
      ∧ t.tensors = s.tensors ++ [{ tenant := c.tenant, id := a.id, fmt := a.fmt, rows := a.rows, rowBytes := a.rowBytes,
                                    data := putBytes [] a.off c.pay, resident := a.seal_ }])
  ∧ (∀ (p l r : Nat) (s u : State) (c : Ctx), s.admitted p l r 0x23 freeTensorRecipe = some (u, c) →
      s.tensors.any (fun x => x.tenant == c.tenant && x.id == arg c.h 0x18 2 && !x.freed) = true →
    ∃ t y, exec (.freeTensor p l r) s = .next t ∧ t.cmd c.ref = some y ∧ y.items = [some 0] ∧ t.tensors.length = s.tensors.length
      ∧ (∀ x, x ∈ t.tensors → x.tenant = c.tenant → x.id = arg c.h 0x18 2 → x.freed = true))
  ∧ (∀ (p l r : Nat) (x : Cmd) (w : Rows) (s u : State) (c : Ctx), s.admitted p l r 12 gatherRecipe = some (u, c) → u.cmd c.ref = some x →
      (u.modCmd c.ref (fun y => { y with work := .none, items := [none] })).gatherRows c.ref p l c.tenant (gSource (c.h.drop 0x18))
        ((chunks 4 4096 c.pay).map leNat) = .ok w →
    ∃ t y, exec (.gatherRows p l r) s = .next t ∧ t.cmd c.ref = some y ∧ y.items = [some 0] ∧ y.result = w.rows.flatten ∧ t.tensors = s.tensors)
  ∧ (∀ (tenant id : Nat) (s : State), ∃ t, exec (.tensorScrub tenant id) s = .next t ∧ t.cmds = s.cmds
      ∧ (∀ x, x ∈ t.tensors ↔ (x ∈ s.tensors
          ∧ ¬ (x.tenant = tenant ∧ x.id = id ∧ x.freed = true ∧ ∀ k, k ∈ x.keep → s.cmd k = none)))))
  ∧ ((∀ (p l r ps : Nat) (s u : State) (c : Ctx), s.admitted p l r 0x20 palRecipe = some (u, c) → ps = setByte (arg c.h 0x18 1) →
      u.palMode c.tenant ≠ 0 → hLen c.h ≠ 0 →
      (u.modCmd c.ref (fun y => { y with work := .none, items := [none] })).slotRoom c.tenant ps = true →
    ∃ t y slot gen, exec (.installPalette p l r) s = .next t ∧ t.cmd c.ref = some y ∧ y.items = [some 0] ∧ y.result = palResult slot gen
      ∧ Table.find t.slots slot = some { tenant := c.tenant, set := ps, gen := gen, bytes := c.pay }
      ∧ (∀ k, k < slot → (Table.find u.slots k).isSome = true) ∧ 1 ≤ gen ∧ gen ≤ 255
      ∧ (t.pset c.tenant ps).last = gen ∧ (t.pset c.tenant ps).cur = (if bit (arg c.h 0x19 1) 0 then gen else (u.pset c.tenant ps).cur))
  ∧ (∀ (p l r : Nat) (s u : State) (c : Ctx), s.admitted p l r 0x20 palRecipe = some (u, c) → u.palMode c.tenant ≠ 0 → hLen c.h = 0 →
      arg c.h 0x1A 1 = 0 →
    ∃ t y, exec (.installPalette p l r) s = .next t ∧ t.cmd c.ref = some y ∧ y.items = [some 0]
      ∧ (t.pset c.tenant (setByte (arg c.h 0x18 1))).cur = 0 ∧ t.slots = u.slots)
  ∧ (∀ (p l r slot : Nat) (x : PSlot) (s u : State) (c : Ctx), s.admitted p l r 0x21 freePalRecipe = some (u, c) →
      u.slotOf c.tenant (setByte (arg c.h 0x18 1)) (arg c.h 0x1A 1) = some (slot, x) →
    ∃ t y, exec (.freePalette p l r) s = .next t ∧ t.cmd c.ref = some y ∧ y.items = [some 0]
      ∧ y.result = leBytes 4 (u.atRest slot) ++ leBytes 4 (u.queuedIn slot) ∧ Table.find t.slots slot = some { x with retiring := true })
  ∧ (∀ (slot : Nat) (x : PSlot) (s : State), Table.find s.slots slot = some x → x.retiring = true → s.atRest slot = 0 → s.queuedIn slot = 0 →
      s.freeing x = false →
    ∃ t, exec (.slotFree slot) s = .next t ∧ Table.find t.slots slot = none ∧ (∀ k, k ≠ slot → Table.find t.slots k = Table.find s.slots k)
      ∧ t.groups = s.groups))

/-- Every item of an attention, append, prefix, pin or sequence command ends, waits for its acknowledgement, or waits for its page (R20, R202, R214 to
R219, R237, R264 to R266, R276, R288, R296, R297). When an ATTEND reads is log entry 73, room log entry 83, prefixes log entry 88. -/
def Obligations.StreamItemsEndOrWait : Prop :=
  (∀ (p l r : Nat) (x : Cmd) (s u : State) (c : Ctx), s.admitted p l r 1 attendRecipe = some (u, c) → u.cmd c.ref = some x →
      x.deps = [] → x.binds = [] → x.doomed = false →
    ∃ t y, exec (.attend p l r) s = .next t ∧ t.cmd c.ref = some y ∧ y.items.length = arg c.h 0x1C 2 ∧ y.work = .none
      ∧ y.items.all (fun o => o.isSome) = true ∧ t.extents = u.extents)
  ∧ (∀ (p l r : Nat) (x : Cmd) (s u : State) (c : Ctx), s.admitted p l r 1 attendRecipe = some (u, c) → u.cmd c.ref = some x →
      x.doomed = false → (∃ d z, d ∈ x.deps ∧ u.cmd d = some z ∧ z.ended = false) →
      (∀ d z, d ∈ x.binds → u.cmd d = some z → z.ended = true → z.failed = false) →
    ∃ t y, exec (.attend p l r) s = .next t ∧ t.cmd c.ref = some y ∧ y.work = .attend x.deps
      ∧ y.items = List.replicate (arg c.h 0x1C 2) none ∧ t.seqs = u.seqs ∧ t.groups = u.groups)
  ∧ (∀ (p l r : Nat) (x : Cmd) (s u : State) (c : Ctx), s.admitted p l r 1 attendRecipe = some (u, c) → u.cmd c.ref = some x →
      (x.doomed = true ∨ ∃ d z, d ∈ x.binds ∧ u.cmd d = some z ∧ z.ended = true ∧ z.failed = true) →
    ∃ t y, exec (.attend p l r) s = .next t ∧ t.cmd c.ref = some y ∧ y.whole = some stPhaseAborted ∧ t.seqs = u.seqs ∧ t.groups = u.groups)
  ∧ (∀ (p l r : Nat) (s u : State) (c : Ctx), s.admitted p l r 2 bwdRecipe = some (u, c) →
    ∃ t y, exec (.attendBwd p l r) s = .next t ∧ t.cmd c.ref = some y ∧ y.items.length = arg c.h 0x1C 2
      ∧ y.items.all (fun o => o.isSome) = true)
  ∧ (∀ (p l r : Nat) (s u : State) (c : Ctx), s.admitted p l r 3 appendRecipe = some (u, c) →
      (∀ e, e ∈ u.cmds → ∀ d, e.2.work ≠ .attend d) →
    ∃ t y, exec (.append p l r) s = .next t ∧ t.cmd c.ref = some y ∧ y.items.length = arg c.h 0x1C 2
      ∧ ∀ i, i < arg c.h 0x1C 2 → (y.items[i]? = some none → ∃ q, q ∈ t.pend ∧ q.cmd = c.ref ∧ q.item = i))
  ∧ (∀ (p l r : Nat) (s u : State) (c : Ctx), s.admitted p l r 4 lookupRecipe = some (u, c) →
    ∃ t y st, exec (.lookupPrefix p l r) s = .next t ∧ t.cmd c.ref = some y ∧ y.items = [some st] ∧ (st = 0 → y.result.length = 8))
  ∧ (∀ (p l r : Nat) (s u : State) (c : Ctx), s.admitted p l r 5 publishPrefixRecipe = some (u, c) →
    ∃ t y st, exec (.publishPrefix p l r) s = .next t ∧ t.cmd c.ref = some y ∧ y.items = [some st] ∧ (st = 0 → y.result.length = 8))
  ∧ (∀ (p l r : Nat) (s u : State) (c : Ctx), s.admitted p l r 6 pinRecipe = some (u, c) →
    ∃ t y, exec (.pin p l r) s = .next t ∧ t.cmd c.ref = some y ∧ y.items.length = arg c.h 0x1C 2
      ∧ ∀ i, y.items[i]? = some none → ∃ w g, y.work = .moves w ∧ (i, g) ∈ w)
  ∧ (∀ (p l r : Nat) (s u : State) (c : Ctx), s.admitted p l r 7 unpinRecipe = some (u, c) →
    ∃ t y, exec (.unpin p l r) s = .next t ∧ t.cmd c.ref = some y ∧ y.items.length = arg c.h 0x1C 2
      ∧ y.items.all (fun o => o.isSome) = true ∧ t.groups = u.groups)
  ∧ (∀ (p l r : Nat) (s u : State) (c : Ctx), s.admitted p l r 8 migrateRecipe = some (u, c) →
    ∃ t y, exec (.migrate p l r) s = .next t ∧ t.cmd c.ref = some y ∧ y.items.length = arg c.h 0x1C 2
      ∧ ∀ i, y.items[i]? = some none → ∃ w g, y.work = .moves w ∧ (i, g) ∈ w)
  ∧ (∀ (p l r : Nat) (s u : State) (c : Ctx), s.admitted p l r 0x10 openRecipe = some (u, c) →
    ∃ t y, exec (.openSeq p l r) s = .next t ∧ t.cmd c.ref = some y ∧ y.items.length = arg c.h 0x18 2
      ∧ y.items.all (fun o => o.isSome) = true)
  ∧ (∀ (p l r : Nat) (s u : State) (c : Ctx), s.admitted p l r 0x11 closeRecipe = some (u, c) →
    ∃ t y, exec (.closeSeq p l r) s = .next t ∧ t.cmd c.ref = some y ∧ y.items.length = arg c.h 0x18 2
      ∧ y.items.all (fun o => o.isSome) = true)
  ∧ (∀ (p l r e st : Nat) (x : Extent) (ro : Bool) (s u : State) (c : Ctx), s.admitted p l r 0x30 publishRun = some (u, c) →
      u.slotExt p l (field c.pay 8 8 / Config.extentBytes) = some (e, x, st, ro) → (∀ z, z ∈ u.cmds → ∀ k, z.2.work ≠ .publish k) →
      u.writes.any (fun w => w.eid == some e && w.src == .host p l) = true →
    ∃ t y, exec (.publishExtent p l r) s = .next t ∧ t.cmd c.ref = some y ∧ y.work = .publish e ∧ y.items = [none] ∧ t.sets = u.sets
      ∧ t.extents = u.extents)

/-- A collective command whose block home is this device joins the record of its block there, and waits for its result (R245, R246). Tiles of collectives
open records, join them, deliver results and abort chunks as the clauses state of R245 to R253. How long a record stands is log entry 80, results
across devices log entry 81. -/
def Obligations.CollectivesComplete : Prop :=
  (∀ (i : Instr) (p l r base rank : Nat) (a : CollArgs) (key : CollKey) (s u : State) (c : Ctx),
    (i = .allreduce p l r ∧ base = 9) ∨ (i = .reduceScatter p l r ∧ base = 10) ∨ (i = .allgather p l r ∧ base = 11)
      ∨ (i = .filterTopk p l r ∧ base = 13) →
    s.admitted p l r base (collRecipe base) = some (u, c) → a = collArgs base c.h c.pay → rank = a.rank →
    key = { fabTag := u.tagOf c.tenant, group := a.group, opSeq := a.opSeq, chunk := a.chunk } →
    topHome a.par = u.devId → (∀ b, b < blocksIn a.par → blockHome a.par b = u.devId ∨ u.reaches (blockHome a.par b) = true) →
    blockHome a.par (rank / 256) = u.devId → u.collRec key false (rank / 256) = none →
    (((u.modCmd c.ref (fun y => { y with items := [none], work := .none })).modCmd c.ref (fun y => { y with work := .coll key rank })).stagingFits
      key.fabTag (recSpace a.par false (rank / 256))).1 = true → 2 ≤ blockRanks a.par (rank / 256) →
    ∃ t y x, exec i s = .next t ∧ t.cmd c.ref = some y ∧ y.items = [none] ∧ y.work = .coll key rank ∧ t.colls = u.colls ++ [x] ∧ x.key = key
      ∧ x.par = a.par ∧ x.isTop = false ∧ x.block = rank / 256 ∧ x.opened = s.now ∧ x.timeoutMs = a.timeoutMs ∧ x.sent = false
      ∧ x.held = [{ rank := rank, dev := u.devId, base := a.par.base, data := c.pay.drop 64, poison := false, ref := c.ref % 2 ^ 20 }])
  ∧ ((∀ (c : Contribution) (hdrs : List Bytes) (s : State), hdrsOk hdrs = true → blockHome c.par (c.rank / 256) = s.devId → c.rank < c.par.nranks → s.collRec c.key false (c.rank / 256) = none →
      (s.stagingFits c.key.fabTag (recSpace c.par false (c.rank / 256))).1 = true → 2 ≤ blockRanks c.par (c.rank / 256) →
    ∃ t x, exec (.collContribution ⟨c, hdrs⟩) s = .next t ∧ t.colls = s.colls ++ [x] ∧ x.key = c.key ∧ x.par = c.par ∧ x.isTop = false
      ∧ x.block = c.rank / 256 ∧ x.opened = s.now ∧ t.cmds = s.cmds
      ∧ x.held = [{ rank := c.rank, dev := c.dev, base := c.par.base, data := c.data, poison := c.poison || hdrsPoison hdrs, ref := c.ref }])
  ∧ (∀ (c : Contribution) (hdrs : List Bytes) (s : State), hdrsOk hdrs = false → blockHome c.par (c.rank / 256) = s.devId → c.rank < c.par.nranks →
      c.dev ≠ s.devId →
    ∃ t, exec (.collContribution ⟨c, hdrs⟩) s = .next t ∧ .collStatus c.dev c.key false c.rank c.ref stFault 0x20 ∈ t.out ∧ bit (t.obj 0x6000 6) 2 = true
      ∧ t.colls = s.colls)
  ∧ (∀ (key : CollKey) (q : CollParams) (block ms : Nat) (devs : List Nat) (d : Bytes) (poison : Bool) (hdrs : List Bytes) (s : State),
      hdrsOk hdrs = true → topHome q = s.devId → block < blocksIn q →
      s.collRec key true 0 = none → (s.stagingFits key.fabTag (recSpace q true 0)).1 = true → 2 ≤ blocksIn q →
    ∃ t x, exec (.collBlockPartial key q block ms ⟨devs, d, poison⟩ hdrs) s = .next t ∧ t.colls = s.colls ++ [x] ∧ x.key = key ∧ x.isTop = true ∧ x.opened = s.now
      ∧ t.cmds = s.cmds ∧ x.held = [{ rank := block, dev := blockHome q block, devs := devs, data := d, poison := poison || hdrsPoison hdrs }])
  ∧ (∀ (key : CollKey) (c rank : Nat) (x : Cmd) (d : Bytes) (hdrs : List Bytes) (s : State), hdrsOk hdrs = true → hdrsPoison hdrs = false →
      s.cmd c = some x → x.work = .coll key rank → x.items = [none] →
    ∃ t y, exec (.collResult key (.result d false) hdrs) s = .next t ∧ t.cmd c = some y ∧ y.items = [some 0] ∧ y.work = .none
      ∧ y.result = rankShare (collArgs x.recipe x.hdr x.pay).par rank d)
  ∧ (∀ (key : CollKey) (c rank : Nat) (x : Cmd) (d : Bytes) (hdrs : List Bytes) (s : State), hdrsOk hdrs = true → s.cmd c = some x →
      x.work = .coll key rank → x.items = [none] → x.whole = none →
    ∃ t y, exec (.collResult key (.result d true) hdrs) s = .next t ∧ t.cmd c = some y ∧ y.whole = some stPoisoned ∧ y.work = .none)
  ∧ (∀ (key : CollKey) (c rank : Nat) (x : Cmd) (d : Bytes) (poison : Bool) (hdrs : List Bytes) (s : State), hdrsOk hdrs = false →
      s.cmd c = some x → x.work = .coll key rank → x.items = [none] → x.whole = none →
    ∃ t y, exec (.collResult key (.result d poison) hdrs) s = .next t ∧ t.cmd c = some y ∧ y.whole = some stFault ∧ y.reason = 0x20
      ∧ bit (t.obj 0x6000 6) 2 = true)
  ∧ (∀ (key : CollKey) (c rank st reason : Nat) (x : Cmd) (hdrs : List Bytes) (s : State), s.cmd c = some x → x.work = .coll key rank →
      x.items = [none] → x.whole = none →
    ∃ t y, exec (.collResult key (.refused false rank (c % 2 ^ 20) st reason) hdrs) s = .next t ∧ t.cmd c = some y ∧ y.whole = some st
      ∧ y.reason = reason ∧ y.work = .none ∧ t.colls = s.colls ∧ (∀ d z, d % 2 ^ 20 ≠ c % 2 ^ 20 → s.cmd d = some z → t.cmd d = some z))
  ∧ (∀ (key : CollKey) (at_ : RecordAt) (r : CollRec) (s : State),
      s.colls.find? (fun y => y.key == key && (match at_ with | .top => y.isTop | .block b => !y.isTop && y.block == b) && y.abortedAt.isNone && !y.sent)
        = some r →
    ∃ t x, exec (.collRecordTimeout key at_) s = .next t ∧ x ∈ t.colls ∧ x.key = key ∧ x.isTop = r.isTop ∧ (r.isTop = false → x.block = r.block) ∧ x.held = []
      ∧ x.abortedAt.isSome = true ∧ bit (t.obj 0x6200 10) 1 = true ∧ t.tb.now = max s.tb.now (r.opened + s.recTimeout r.timeoutMs))
  ∧ (∀ (c rank : Nat) (key : CollKey) (x : Cmd) (s : State), s.cmd c = some x → x.work = .coll key rank → x.items = [none] → x.whole = none →
    ∃ t y, exec (.collRankTimeout c) s = .next t ∧ t.cmd c = some y ∧ y.whole = some stPhaseAborted ∧ y.work = .none ∧ t.colls = s.colls
      ∧ t.tb.now = max s.tb.now (x.at_ + 2 * s.recTimeout (collArgs x.recipe x.hdr x.pay).timeoutMs + 10000000))
  ∧ (∀ (key : CollKey) (q : CollParams) (ms : Nat) (s : State), ∃ t, exec (.collChunkAbort ⟨key, q, ms⟩) s = .next t ∧ (∀ r, r ∈ t.colls → r.key = key → r.abortedAt.isSome = true)
      ∧ (∀ c x rank, s.cmd c = some x → x.work = .coll key rank → x.items = [none] → x.whole = none →
          ∃ y, t.cmd c = some y ∧ y.whole = some stPhaseAborted ∧ y.work = .none)
      ∧ (∀ b, b < blocksIn q → blockHome q b = s.devId → ∃ r, t.collRec key false b = some r ∧ r.abortedAt.isSome = true)
      ∧ (topHome q = s.devId → 1 < blocksIn q → ∃ r, t.collRec key true 0 = some r ∧ r.abortedAt.isSome = true)
      ∧ (∀ r, r ∈ s.colls → r.key ≠ key → r ∈ t.colls)))

/-- An ended command writes its record and leaves the device; MIRRORs and their answers commit, hold or abort what is staged (R202, R266, R276, R277,
R308). The order of ended commands is the sender's (log entry 130). -/
def Obligations.CommandEndsComplete : Prop :=
  (∀ (cmd : Nat) (x : Cmd) (resOk : Bool) (s : State), s.cmd cmd = some x → x.ended = true → s.warm = false →
      (∀ e, e ∈ s.lines → e.2.obj = none) → s.unseen = false → s.writesLeft x = false → (∀ e, e ∈ s.cmds → (∀ b, e.2.work ≠ .ordered b) ∧ ∀ d, e.2.work ≠ .attend d) →
    ∃ t hint, exec (.commandComplete cmd resOk true) s = .next t ∧ t.cmd cmd = none ∧ t.nextCmd = s.nextCmd
      ∧ .dma x.p x.l (((s.ld x.p x.l).cq x.cq).base + 32 * ((s.ld x.p x.l).cq x.cq).idx)
          (record (hTag x.hdr) (x.outcome resOk).1 x.r false x.sqHead ((s.ld x.p x.l).cq x.cq).phase (x.outcome resOk).2.1
            (x.outcome resOk).2.2.1.length hint s.epoch) ∈ t.out
      ∧ (∀ o, o ∈ dmaPieces x.p x.l (hResAddr x.hdr)
          (if (x.outcome resOk).2.2.1 = [] then (x.outcome resOk).2.2.2 else (x.outcome resOk).2.2.1) → o ∈ t.out)
      ∧ (t.ld x.p x.l).cq x.cq = { ((s.ld x.p x.l).cq x.cq).wrote with reserved := ((s.ld x.p x.l).cq x.cq).reserved - 1 })
  ∧ (∀ (cmd : Nat) (x : Cmd) (resOk recOk : Bool) (s : State), s.cmd cmd = some x → x.ended = true → s.warm = false →
      (s.unseen = true ∨ s.writesLeft x = true) → (∀ e, e ∈ s.lines → e.2.obj = none) → exec (.commandComplete cmd resOk recOk) s = .next s)
  ∧ (∀ (cmd : Nat) (x : Cmd) (resOk : Bool) (s : State), s.cmd cmd = some x → x.ended = true → s.warm = false →
      (∀ e, e ∈ s.lines → e.2.obj = none) → s.unseen = false → s.writesLeft x = false →
      (∀ e, e ∈ s.cmds → (∀ b, e.2.work ≠ .ordered b) ∧ ∀ d, e.2.work ≠ .attend d) → x.recipe = 3 → (x.outcome resOk).1 ≠ stOK →
    ∃ t, exec (.commandComplete cmd resOk true) s = .next t ∧ (∀ k, k ∈ x.kvNames → k ∈ ((t.ld x.p x.l).ring x.r).lostApps)
      ∧ ∀ d z, d ≠ cmd → s.cmd d = some z → cmd ∈ z.binds → ∃ y, t.cmd d = some y ∧ y.doomed = true)
  ∧ (∀ (m : Mirror) (s : State), m.epoch < s.epoch →
    ∃ t, exec (.mirror m) s = .next t ∧ .mirrorRefuse m s.epoch ∈ t.out ∧ t.seqs = s.seqs ∧ t.groups = s.groups ∧ t.fmap = s.fmap ∧ t.mem = s.mem)
  ∧ (∀ (m : Mirror) (s : State), s.epoch < m.epoch →
    ∃ t, exec (.mirror m) s = .next t ∧ t.fmap = { s.fmap with heldMirrors := s.fmap.heldMirrors ++ [m] } ∧ t.seqs = s.seqs ∧ t.groups = s.groups
      ∧ t.mem = s.mem)
  ∧ (∀ (m : Mirror) (h : Home) (x : Seq) (s : State), m.epoch = s.epoch → s.homeOf (seqPos m.fabTag m.seqId) = some h → h.dev = m.owner →
      h.partner = some s.devId → s.seq m.fabTag m.seqId = some x → x.key = seqKey m.fabTag m.seqId → x.partnerOf = none → x.st ≠ 3 →
      x.ownerEpoch < m.epoch →
    ∃ t, exec (.mirror m) s = .next t ∧ t.seq m.fabTag m.seqId = none ∧ bit (t.obj 0x7200 7) 3 = true
      ∧ t.fmap.heldMirrors = s.fmap.heldMirrors ++ [m])
  ∧ (∀ (m : Mirror) (h : Home) (x : Seq) (s : State), m.epoch = s.epoch → s.homeOf (seqPos m.fabTag m.seqId) = some h → h.dev = m.owner →
      h.partner = some s.devId → s.seq m.fabTag m.seqId = some x → x.partnerOf = some m.owner → x.key = seqKey m.fabTag m.seqId → m.slot = 0 →
    ∃ t y, exec (.mirror m) s = .next t ∧ .mirrorAck m ∈ t.out ∧ t.seq m.fabTag m.seqId = some y
      ∧ x.committed (memberOf x.shape m.layer m.head) ≤ y.committed (memberOf x.shape m.layer m.head)
      ∧ 64 * m.block + m.pos.length ≤ y.committed (memberOf x.shape m.layer m.head)
      ∧ Table.find y.blocks m.block = some (m.group, false))
  ∧ (∀ (cmd item page : Nat) (q : PendItem) (x : Seq) (s : State), s.pend.find? (fun y => y.cmd == cmd && y.item == item) = some q →
      Table.find s.seqs q.seq = some x → x.key = q.seq → (∀ e, e ∈ s.cmds → ∀ d, e.2.work ≠ .attend d) →
      (∀ b, b ∈ q.blocks → ∃ g sh, Table.find x.blocks b = some (g, sh) ∧ pageId g q.member = page) →
    ∃ t y, exec (.mirrorAck cmd item page) s = .next t ∧ (∀ z, z ∈ t.pend → ¬ (z.cmd = cmd ∧ z.item = item)) ∧ Table.find t.seqs q.seq = some y
      ∧ y.committed q.member = Nat.max (Nat.max (x.committed q.member) q.pos0) (q.pos0 + q.pos.length))
  ∧ (∀ (cmd item : Nat) (q : PendItem) (x : Cmd) (s : State), s.pend.find? (fun y => y.cmd == cmd && y.item == item) = some q →
      s.cmd cmd = some x → x.items[item]? = some none → (∀ e, e ∈ s.cmds → ∀ d, e.2.work ≠ .attend d) →
    ∃ t y, exec (.mirrorTimeout cmd item) s = .next t ∧ t.pend = s.pend.filter (fun z => !(z.cmd == cmd && z.item == item))
      ∧ t.cmd cmd = some y ∧ y.items[item]? = some (some stPhaseAborted) ∧ t.seqs = s.seqs ∧ t.groups = s.groups
      ∧ t.tb.now = max s.tb.now (q.at_ + s.obj 0x7200 4 * 1000000))
  ∧ (∀ (k fabTag seqId : Nat) (x : Seq) (l : List Nat) (s : State), (k, x) ∈ s.seqs → x.fabTag = fabTag → x.id = seqId → x.closing = some l →
      (∀ r, r ∈ l → s.cmd r = none) → (∀ e, e ∈ s.seqs → e.2.fabTag = fabTag → e.2.id = seqId → e.2.closing.isSome = true → e = (k, x)) →
    ∃ t, exec (.seqCloseFinal fabTag seqId) s = .next t ∧ Table.find t.seqs x.key = none ∧ (∀ j, j ≠ x.key → Table.find t.seqs j = Table.find s.seqs j)
      ∧ t.cmds = s.cmds)

/-- Pages move, fail and are coded as the clauses state of R284, R291, R292, R314, R321 and R330 to R333; a tile is checked and kept for its command
(R180). Training and the sweep are log entry 92, TIER_PRESSURE log entry 95, moves that wait log entries 208 and 209. -/
def Obligations.PageCommandsComplete : Prop :=
  (∀ (gid m : Nat) (y z : Page) (s : State), s.obj 0x7000 5 * s.tierCap 1 < s.tierStored 1 * 100 →
      s.obj 0x7000 6 * s.tierCap 1 < (s.tierStored 1 - s.outbound 1) * 100 → oldestPage (s.demotable 1) = some (gid, m, y) →
      s.page gid m = some z → s.tierCap 2 ≠ 0 → s.tierStored 2 + s.inbound 2 + y.bytes ≤ s.tierCap 2 →
    ∃ t w, exec (.tierDemotion 1) s = .next t ∧ t.page gid m = some w ∧ w.moving.isSome = true ∧ w.pos = z.pos ∧ w.tier = z.tier)
  ∧ (∀ (page u : Nat) (g : Group) (y : Page) (s : State), s.nvmeWaits page = false → s.group (page / 65536) = some g →
      s.page (page / 65536) (page % 65536) = some y → y.moving = some u → y.recode = none → y.after = none →
      g.spillLeft.contains (page % 65536) = false → (y.home u = true ∨ s.tierRoom g.tenant u y.bytes = true) →
      (∀ h, h ∈ s.heldMoves → h.1 = g.tenant → h.2 = page) → (s.take g.tenant 6 ((s.dieOfGroup (page / 65536)).getD 0) y.bytes).1 = true →
    ∃ t w, exec (.pageMoveComplete page) s = .next t ∧ t.page (page / 65536) (page % 65536) = some w ∧ w.tier = u ∧ w.moving = none ∧ w.pos = y.pos)
  ∧ (∀ (page : Nat) (g : Group) (y : Page) (s : State), s.group (page / 65536) = some g → s.page (page / 65536) (page % 65536) = some y →
      y.home 1 = true →
    ∃ t, exec (.pageReadFail page 1 false true) s = .next t ∧ bit (t.obj 0x7500 5) 3 = true)
  ∧ (∀ (page : Nat) (revoked : Bool) (g : Group) (y : Page) (s : State), s.group (page / 65536) = some g →
      s.page (page / 65536) (page % 65536) = some y → y.t3.isSome = true →
    ∃ t w, exec (.pageReadFail page 3 revoked false) s = .next t ∧ t.page (page / 65536) (page % 65536) = some w ∧ w.t3 = none ∧ w.pos = y.pos)
  ∧ (∀ (page gen : Nat) (g : Group) (y : Page) (s : State), s.group (page / 65536) = some g → s.page (page / 65536) (page % 65536) = some y →
      y.sealed = true → y.queued = true → s.codeGen g.tenant (setOf g.shape) = some gen →
    ∃ t w, exec (.sealCoding page) s = .next t ∧ t.page (page / 65536) (page % 65536) = some w ∧ w.queued = false ∧ w.pos = y.pos
      ∧ (gen ≠ 0 → w.gen = gen ∨ w.gen = 0) ∧ t.slots = s.slots)
  ∧ (∀ (tenant ps : Nat) (s : State), s.palMode tenant = 2 → s.obj 0x7500 2 ≤ (s.pset tenant ps).count →
    ∃ t, exec (.paletteTraining tenant ps) s = .next t ∧ (t.pset tenant ps).count = 0 ∧ t.groups = s.groups)
  ∧ (∀ (die gid m gen : Nat) (rest : List (Nat × Nat)) (g : Group) (y : Page) (s : State), s.obj 0x7500 4 ≠ 0 → s.dieUp die = true →
      s.sweepList die = (gid, m) :: rest → s.group gid = some g → s.page gid m = some y → gen = (s.codeGen g.tenant (setOf g.shape)).getD 0 →
      y.gen ≠ gen → y.home 4 = true →
    ∃ t w, exec (.sweepRecode die) s = .next t ∧ t.page gid m = some w ∧ w.moving = some 4 ∧ w.recode = some gen ∧ w.gen = y.gen ∧ w.pos = y.pos
      ∧ t.tb.now = max s.tb.now (s.rel.sweptAt + ceilDiv 1000000000 (s.obj 0x7500 4)) ∧ t.rel.sweptAt = t.tb.now)
  ∧ (∀ (die gid m gen : Nat) (rest : List (Nat × Nat)) (g : Group) (y : Page) (s u : State), s.obj 0x7500 4 ≠ 0 → s.dieUp die = true →
      s.sweepList die = (gid, m) :: rest → s.group gid = some g → s.page gid m = some y → gen = (s.codeGen g.tenant (setOf g.shape)).getD 0 →
      y.gen ≠ gen → y.home 4 = false → y.after = none → m < 65536 → g.spillLeft.contains m = false →
      (∀ h, h ∈ s.heldMoves → h.1 = g.tenant → h.2 = pageId gid m) → u = s.atTime (s.rel.sweptAt + ceilDiv 1000000000 (s.obj 0x7500 4)) →
      (u.take g.tenant 6 ((s.dieOfGroup gid).getD 0) y.bytes).1 = true →
    ∃ t w, exec (.sweepRecode die) s = .next t ∧ t.page gid m = some w ∧ w.t3 = none ∧ w.queued = false ∧ w.moving = none ∧ w.pos = y.pos
      ∧ t.rel.swept = s.rel.swept + 1 ∧ t.obj 0x7500 9 = (s.obj 0x7500 9 + 1) % 2 ^ 64)
  ∧ (∀ (q : Nat) (tile : Tile) (s : State), (s.peerP q).st = 4 → tileOk tile = false →
    ∃ t, exec (.tileReceive q tile) s = .next t ∧ bit (t.obj 0x6000 6) 2 = true)
  ∧ (∀ (q c : Nat) (x : Cmd) (tile : Tile) (s : State), (s.peerP q).st = 4 → tileOk tile = true → (tileHdr tile.hdr).kind ≠ 0xA → (tileHdr tile.hdr).kind ≠ 1 →
      (tileHdr tile.hdr).coded = false → (tileHdr tile.hdr).poison = false → s.cmd c = some x → x.takesTile tile = true →
      (s.cmds.filter (fun e => e.1 % 2 ^ 20 == (tileHdr tile.hdr).ref)).map Prod.fst = [c] →
    ∃ t, exec (.tileReceive q tile) s = .next t ∧ t.cmd c = some { x with tiles := x.tiles ++ [tile] } ∧ t.objs = s.objs)
  ∧ (∀ (q c : Nat) (x : Cmd) (tile : Tile) (s : State), (s.peerP q).st = 4 → tileOk tile = true → (tileHdr tile.hdr).kind ≠ 0xA → (tileHdr tile.hdr).kind ≠ 1 →
      (tileHdr tile.hdr).coded = false → (tileHdr tile.hdr).poison = true → s.cmd c = some x → x.takesTile tile = true →
      x.items[(tileHdr tile.hdr).item]? = some none →
      (s.cmds.filter (fun e => e.1 % 2 ^ 20 == (tileHdr tile.hdr).ref)).map Prod.fst = [c] →
    ∃ t y, exec (.tileReceive q tile) s = .next t ∧ t.cmd c = some y ∧ y.items[(tileHdr tile.hdr).item]? = some (some stPoisoned))
  ∧ (∀ (q c : Nat) (x : Cmd) (tile : Tile) (s : State), (s.peerP q).st = 4 → tileOk tile = true → (tileHdr tile.hdr).kind ≠ 1 → s.cmd c = some x → x.refused = none →
      x.whole = none → x.ended = false →
      (x.takesTile tile = false ∨ ((tileHdr tile.hdr).coded = true ∧ Table.find x.pals (tileHdr tile.hdr).slot = none)) →
      (s.cmds.filter (fun e => e.1 % 2 ^ 20 == (tileHdr tile.hdr).ref)).map Prod.fst = [c] →
    ∃ t y, exec (.tileReceive q tile) s = .next t ∧ t.cmd c = some y ∧ y.whole = some stFault ∧ y.reason = 0x20)
  ∧ (∀ (q d gid m : Nat) (g : Group) (y : Page) (tile : Tile) (s : State), (s.peerP q).st = 4 → tileOk tile = true → (tileHdr tile.hdr).kind = 1 →
      (s.peerP q).peerDev = some d → gid = (tileHdr tile.hdr).key / 65536 → m = (tileHdr tile.hdr).key % 65536 → s.group gid = some g →
      s.page gid m = some y → y.away = none → y.readTier ≠ none → (s.copyIn y (y.readTier.getD y.tier)).gen = 0 →
    ∃ t h, exec (.tileReceive q tile) s = .next t ∧ .tile d ⟨h, (plainOf g m y).take (plainBytes g.shape.fmt g.shape.dim)⟩ ∈ t.out ∧ t.cmds = s.cmds)

/-- Gossip, loss and step boundaries adopt the maps of R303, R304, R396 and R454; handoffs, catch-ups and LINK messages act as the clauses state of R306,
R307, R309 and R398. Handoff images are log entry 93, ranges of a die that leaves log entry 94, the reclaim log entry 206. -/
def Obligations.FabricMapComplete : Prop :=
  (∀ (m : FMap) (s : State), s.fmap.map = some m →
    exec .mapGossipTimer s = .next (s.emits (s.activePeers.map (fun q => .gossip q m.epoch m.proposer s.fmap.resetting))))
  ∧ (∀ (q : Nat) (m : FMap) (r : Option Nat) (s : State), (s.peerP q).st = 4 →
      (∀ o, s.fmap.map = some o → o.epoch < m.epoch ∨ (o.epoch = m.epoch ∧ m.proposer < o.proposer)) →
    ∃ t, exec (.mapGossip q m r) s = .next t ∧ t.fmap.map = some m
      ∧ t.fmap.member = (s.assigned && m.members.any (fun v => v.dev == s.devId)))
  ∧ (∀ (q : Nat) (m o : FMap) (s : State), (s.peerP q).st = 4 → s.fmap.map = some o → (m.epoch < o.epoch ∨ (m.epoch = o.epoch ∧ o.proposer ≤ m.proposer)) →
    exec (.mapGossip q m none) s = .next s)
  ∧ (∀ (dev at_ : Nat) (m : FMap) (s : State), Table.find s.fmap.lostAt dev = some at_ → s.fmap.map = some m → s.fmap.member = true →
      m.members.any (fun v => v.dev == dev) = true → dev ≠ s.devId → s.reaches dev = false →
    ∃ t m', exec (.mapLossTimeout dev) s = .next t ∧ t.fmap.map = some m' ∧ m'.epoch = m.epoch + 1 ∧ m'.proposer = s.devId
      ∧ m'.members = m.members.filter (fun v => v.dev != dev)
      ∧ t.tb.now = max s.tb.now (Nat.max (at_ + s.obj 0x7200 5 * 1000000) (Table.get s.fmap.holds 0 dev)))
  ∧ (∀ (src : Nat) (seqs : List SeqImage) (es : List PrefixImage) (e : PrefixImage) (h : Home) (s : State), s.fmap.member = true → e ∈ es →
      s.homeOf (keyPos e.key) = some h → h.dev = s.devId →
    ∃ t, exec (.handoffReceive src seqs es) s = .next t ∧ ∃ y, y ∈ t.prefixes ∧ y.key = e.key)
  ∧ (∀ (src : Nat) (im : SeqImage) (h : Home) (s : State), s.fmap.member = true → s.homeOf (seqPos im.fabTag im.seqId) = some h → h.dev = s.devId →
      s.seq im.fabTag im.seqId = none → im.missing = 0 → s.fmap.heldMirrors = [] →
    ∃ t x, exec (.handoffReceive src [im] []) s = .next t ∧ t.seq im.fabTag im.seqId = some x ∧ x.st = 3 ∧ x.incoming = some src
      ∧ x.partnerOf = none ∧ x.prefixBlocks = im.prefixBlocks)
  ∧ (∀ (src : Nat) (s : State), (∃ h, h ∈ s.fmap.handoffs ∧ h.dev = src) →
    ∃ t, exec (.handoffAck src) s = .next t ∧ (∀ h, h ∈ t.fmap.handoffs ↔ (h ∈ s.fmap.handoffs ∧ h.dev ≠ src)) ∧ .handoffDrop src ∈ t.out)
  ∧ (∀ (src : Nat) (s : State), (∀ h, h ∈ s.fmap.handoffs → h.dev ≠ src) →
    ∃ t, exec (.handoffAck src) s = .next t ∧ (∀ e, e ∈ t.seqs → e.2.incoming = some src → e.2.st ≠ 3) ∧ t.groups = s.groups)
  ∧ (∀ (h : Handoff) (rest : List Handoff) (m : FMap) (k : Nat) (x : Seq) (r : Nat × Nat) (s : State), s.fmap.handoffs = h :: rest → s.fmap.map = some m →
      (∀ y, y ∈ rest → h.at_ ≤ y.at_) →
      k ∈ h.seqs → Table.find s.seqs k = some x → x.st = 2 → r ∈ h.ranges → r.1 ≤ seqPos x.fabTag x.id → seqPos x.fabTag x.id ≤ r.2 →
    ∃ t m', exec .handoffTimeout s = .next t ∧ t.fmap.map = some m' ∧ h.epoch + 2 ≤ m'.epoch ∧ m.epoch < m'.epoch
      ∧ (rest = [] → m'.epoch = Nat.max (m.epoch + 1) (h.epoch + 2)) ∧ m'.proposer = s.devId ∧ m'.members = m.members
      ∧ bit (t.obj 0x7200 7) 2 = true)
  ∧ (∀ (fabTag seqId : Nat) (x : Seq) (s : State), s.seq fabTag seqId = some x → x.key = seqKey fabTag seqId → x.partnerOf = none → x.copy = 1 →
    ∃ t, exec (.catchUpComplete fabTag seqId) s = .next t ∧ t.seq fabTag seqId = some { x with copy := 0 } ∧ t.groups = s.groups)
  ∧ (∀ (gid : Nat) (g : Group) (s : State), s.group gid = some g → g.shared = true →
    ∃ t, exec (.linkMessage ⟨gid, .link⟩) s = .next t ∧ t.group gid = some { g with links := g.links + 1, linkedAt := s.now } ∧ t.seqs = s.seqs)
  ∧ (∀ (gid : Nat) (g : Group) (s : State), s.group gid = some g → g.shared = true →
    ∃ t, exec (.linkMessage ⟨gid, .unlink⟩) s = .next t ∧ t.group gid = some { g with links := g.links - 1 } ∧ t.seqs = s.seqs)
  ∧ (∀ (gid : Nat) (g : Group) (s : State), s.group gid = some g → g.shared = false → (∀ k x b, (k, x) ∈ s.seqs → b ∈ x.blocks → b.2.1 ≠ gid) →
    ∃ t, exec (.linkMessage ⟨gid, .unlink⟩) s = .next t ∧ t.group gid = none ∧ t.seqs = s.seqs)
  ∧ (∀ (gid domain : Nat) (key digest : Bytes) (h : Home) (s : State), s.fmap.member = true → s.homeOf (keyPos key) = some h → h.dev = s.devId →
      (∀ e, e ∈ s.prefixes → ¬ (e.key = key ∧ e.domain = domain)) →
    ∃ t, exec (.linkMessage ⟨gid, .publish key domain digest⟩) s = .next t ∧ .publishReply (groupDev gid) gid gid true ∈ t.out
      ∧ t.prefixes = s.prefixes ++ [{ key := key, gid := gid, domain := domain, digest := digest }])
  ∧ (∀ (gid : Nat) (key : Bytes) (s : State),
    ∃ t, exec (.linkMessage ⟨gid, .evict key⟩) s = .next t ∧ (∀ e, e ∈ t.prefixes ↔ (e ∈ s.prefixes ∧ ¬ (e.key = key ∧ e.gid = gid)))
      ∧ t.seqs = s.seqs ∧ t.groups = s.groups)
  ∧ (∀ (m : FMap) (s : State), s.rel.admission = 4 → s.assigned = true → s.fmap.map = some m →
    ∃ t m', exec .stepBoundary s = .next t ∧ t.fmap.map = some m' ∧ m'.epoch = m.epoch + 1
      ∧ m'.members = m.members.filter (fun v => v.dev != s.devId) ++ [s.asMember] ∧ t.fmap.member = true ∧ t.rel.admission = 5)
  ∧ (∀ s : State, s.rel.admission ≠ 4 → s.fmap.member = false →
    exec .stepBoundary s = .next (s.atTime (ceilDiv s.now (s.obj 0x9200 1 * 1000000) * (s.obj 0x9200 1 * 1000000))))

/-- Tenants and logical devices are enabled and disabled, buckets are written and refilled, and report windows end as the clauses state of R148, R338,
R341, R344, R347, R350 and R353. The phase of the windows is log entry 10, enabling STRICT log entry 98, tokens log entry 96. -/
def Obligations.TenantCommandsComplete : Prop :=
  (∀ (sid : Nat) (s : State), MayWrite s sid 0x4400 2 → s.tOn s.tenantSel = false → s.sec.debugOpen = false → s.tObj s.tenantSel 4 ≠ 0 →
      (s.tObj s.tenantSel 3 = 1 → s.strictFits s.tenantSel = true) →
    ∃ t, exec (.tenantEnable sid) s = .next t ∧ t.tOn s.tenantSel = true ∧ (Table.find t.sec.tenantKeys s.tenantSel).isSome = true
      ∧ .code sid 0x4400 2 rcOK ∈ t.out ∧ t.extents = s.extents ∧ t.cmds = s.cmds ∧ t.seqs = s.seqs)
  ∧ (∀ (sid : Nat) (s : State), MayWrite s sid 0x4400 2 → s.tOn s.tenantSel = false → s.sec.debugOpen = false → s.tObj s.tenantSel 4 ≠ 0 →
      s.tObj s.tenantSel 3 = 1 → s.strictFits s.tenantSel = false →
    ∃ t, exec (.tenantEnable sid) s = .next t ∧ t.tOn s.tenantSel = false ∧ bit (t.obj 0x4420 1) 0 = true ∧ .code sid 0x4400 2 rcRefused ∈ t.out)
  ∧ (∀ (sid : Nat) (s : State), MayWrite s sid 0x4400 2 →
    ∃ t, exec (.tenantDisable sid) s = .next t ∧ t.tOn s.tenantSel = false ∧ .code sid 0x4400 2 rcOK ∈ t.out ∧ t.extents = s.extents
      ∧ t.cmds = s.cmds ∧ t.seqs = s.seqs)
  ∧ (∀ s : State, s.heldAcc = [] → s.heldTiles = [] → s.heldMoves = [] →
    ∃ t, exec .shaperRefill s = .next t ∧ t.refillAt = (s.refillAt / 1000 + 1) * 1000 ∧ t.tb.now = max s.tb.now ((s.refillAt / 1000 + 1) * 1000)
      ∧ ∀ u c, c < 8 → bktKey u c ∈ s.shapedKeys → s.shapeRate u c ≠ 0xFFFFFFFF →
          t.bucket u c = (s.bucket u c).refill ((s.refillAt / 1000 + 1) * 1000) (s.shapeRate u c) (s.shapeBurst u c))
  ∧ (∀ (sid sub v : Nat) (r : ORow) (s : State), 1 ≤ sub → sub ≤ 10 → MayWrite s sid 0x4410 sub → objRow 0x4410 sub = some r → r.vals.ok v = true →
    ∃ t, exec (.shapeWrite sid sub v) s = .next t ∧ t.objI 0x4410 sub s.tenantSel = v ∧ .code sid 0x4410 sub rcOK ∈ t.out
      ∧ ((∀ z, (s.bucket s.tenantSel (if sub ≤ 5 then sub + 1 else sub - 4)).zeroAt = some z → (s.now / 1000 + 1) * 1000 ≤ z) →
          (t.bucket s.tenantSel (if sub ≤ 5 then sub + 1 else sub - 4)).zeroAt = some ((s.now / 1000 + 1) * 1000))
      ∧ (∀ z, (s.bucket s.tenantSel (if sub ≤ 5 then sub + 1 else sub - 4)).zeroAt = some z → z < (s.now / 1000 + 1) * 1000 →
          (t.bucket s.tenantSel (if sub ≤ 5 then sub + 1 else sub - 4)).zeroAt = some z
            ∧ (t.bucket s.tenantSel (if sub ≤ 5 then sub + 1 else sub - 4)).later = some ((s.now / 1000 + 1) * 1000)))
  ∧ (∀ s : State, ∃ t, exec .reportWindowEnd s = .next t ∧ t.reportAt = (s.reportAt / 10000000 + 1) * 10000000
      ∧ t.tb.now = max s.tb.now ((s.reportAt / 10000000 + 1) * 10000000) ∧ t.objs = s.objs ∧ t.buckets = s.buckets
      ∧ ∀ u, u < 4096 → Table.find t.reports u = some (s.closeReport u ((s.reportAt / 10000000 + 1) * 10000000)))
  ∧ (∀ (sid p l : Nat) (s : State), p < 128 → l < 16 → MayWrite s sid (0x5400 + p) (8 * l + 1) → s.ldOn p l = false → s.sec.debugOpen = false →
      s.mixesStrict p l = false →
    ∃ t, exec (.ldEnable sid p l) s = .next t ∧ t.ldOn p l = true ∧ .code sid (0x5400 + p) (8 * l + 1) rcOK ∈ t.out ∧ t.extents = s.extents)
  ∧ (∀ (sid p l : Nat) (s : State), p < 128 → l < 16 → MayWrite s sid (0x5400 + p) (8 * l + 1) → s.ldOn p l = true →
    ∃ t, exec (.ldDisable sid p l) s = .next t ∧ t.ldOn p l = false ∧ (t.ld p l).lease = 0 ∧ (t.ld p l).expiry = none
      ∧ .code sid (0x5400 + p) (8 * l + 1) rcOK ∈ t.out)

/-- The TDISP messages and the IDE key messages of a host port are answered and move the interface state as the clauses state of R360 to R364. Codes are
log entry 64, the session TDISP needs log entry 66, function 1 log entry 217, the causes of TDI_ERROR log entry 218. -/
def Obligations.TdispMessagesComplete : Prop :=
  (∀ (p l : Nat) (s : State), s.tdispOn p l = true → exec (.getTdispVersion p l) s = .next (s.emit (.tdisp p l 0x01 (leBytes 1 0x10))))
  ∧ (∀ (p l : Nat) (s : State), s.tdispOn p l = true →
    exec (.getTdispCapabilities p l) s = .next (s.emit (.tdisp p l 0x02 (leBytes 4 0 ++ leBytes 16 0xFE))))
  ∧ (∀ (p l : Nat) (s : State), s.tdispOn p l = true → (s.ld p l).tdi = 0 → s.lockable p l = true →
    ∃ t nonce, exec (.lockInterfaceRequest p l) s = .next t ∧ (t.ld p l).tdi = 1 ∧ nonce.length = 32 ∧ t.out = s.out ++ [.tdisp p l 0x03 nonce]
      ∧ t.objs = s.objs)
  ∧ (∀ (p l : Nat) (s : State), s.tdispOn p l = true → (s.ld p l).tdi = 0 → s.lockable p l = false →
    exec (.lockInterfaceRequest p l) s = .next (s.emit (.tdisp p l 0x7F (leBytes 4 0x0104))))
  ∧ (∀ (p l u : Nat) (s : State), s.tdispOn p l = true → s.ldTenant p l = some u → ((s.ld p l).tdi = 1 ∨ (s.ld p l).tdi = 2) →
    exec (.getDeviceInterfaceReport p l) s = .next (s.emit (.tdisp p l 0x04 (s.reportArea u))))
  ∧ (∀ (p l : Nat) (s : State), s.tdispOn p l = true →
    exec (.getDeviceInterfaceState p l) s = .next (s.emit (.tdisp p l 0x05 (leBytes 1 (s.ld p l).tdi))))
  ∧ (∀ (p l : Nat) (s : State), s.tdispOn p l = true → (s.ld p l).tdi = 1 →
    ∃ t, exec (.startInterfaceRequest p l) s = .next t ∧ t.ld p l = { s.ld p l with tdi := 2 } ∧ t.out = s.out ++ [.tdisp p l 0x06 []])
  ∧ (∀ (p l : Nat) (s : State), s.tdispOn p l = true → (s.ld p l).tdi ≠ 1 →
    exec (.startInterfaceRequest p l) s = .next (s.emit (.tdisp p l 0x7F (leBytes 4 0x0004))))
  ∧ (∀ (p l : Nat) (s : State), s.tdispOn p l = true →
    ∃ t, exec (.stopInterfaceRequest p l) s = .next t ∧ t.ld p l = { s.ld p l with tdi := 0 } ∧ t.out = s.out ++ [.tdisp p l 0x07 []])
  ∧ (∀ (p l : Nat) (s : State), p < 128 → l < 16 → ((s.ld p l).tdi = 1 ∨ (s.ld p l).tdi = 2) →
    ∃ t, exec (.tdiError p (.iface l)) s = .next t ∧ t.ld p l = { s.ld p l with tdi := 3 } ∧ bit (t.obj 0x8000 10) 2 = true)
  ∧ (∀ (p k l : Nat) (s : State), p < 128 → k ≤ 4 → l < 16 → s.ideUp p k = true →
      (k = 0 ∨ (Table.get s.sec.ide {} (8 * p + k)).function1 = true) → ((s.ld p l).tdi = 1 ∨ (s.ld p l).tdi = 2) →
    ∃ t, exec (.tdiError p (.stream k)) s = .next t ∧ t.ideUp p k = false ∧ Table.find t.sec.ide (8 * p + k) = none
      ∧ t.ld p l = { s.ld p l with tdi := 3 } ∧ bit (t.obj 0x8000 10) 2 = true ∧ t.out = s.out)
  ∧ (∀ (p stream k : Nat) (key : IdeKey) (s : State), s.tdispOn p 0 = true → stream ≤ 4 → k < 2 →
    ∃ t, exec (.ideKmKeyProg p stream k key) s = .next t ∧ Table.find (Table.get t.sec.ide {} (8 * p + stream)).keys k = some key.bytes
      ∧ (Table.get t.sec.ide {} (8 * p + stream)).function1 = key.function1
      ∧ (Table.get t.sec.ide {} (8 * p + stream)).up = (Table.get s.sec.ide {} (8 * p + stream)).up ∧ t.out = s.out)
  ∧ (∀ (p stream : Nat) (key : Bytes) (s : State), s.tdispOn p 0 = true → stream ≤ 4 →
      (Table.get s.sec.ide {} (8 * p + stream)).up = false → Table.find (Table.get s.sec.ide {} (8 * p + stream)).keys 0 = some key →
    ∃ t, exec (.kSetGo p stream) s = .next t ∧ (Table.get t.sec.ide {} (8 * p + stream)).up = true
      ∧ (Table.get t.sec.ide {} (8 * p + stream)).keySet = 0 ∧ t.out = s.out ++ [.kSet p stream 0])

/-- A quorum row takes effect when a signature completes its nonce, with the nonce gone and the answer sent first; without signatures it answers QUORUM
and changes nothing (R369, R370, R417, R419). That the answer leaves first is log entry 103; what verifies is log entry 26. -/
def Obligations.QuorumRowsApply : Prop :=
  (∀ (i : Instr) (sid idx sub nonce slot : Nat) (okv : Nat → Bool) (sig val : Bytes) (all : Bool) (s : State),
      quorumRowOf i = some (sid, idx, sub, okv, .signed nonce slot sig) → okv (leNat val) = true → Signed s sid nonce slot sig idx sub val all →
    ∃ (t v : State) (rc : Nat), exec i s = .next t ∧ t = (v.writeObj { sid := 0, signed := true, all := all } idx sub val).2
      ∧ (∀ y, y ∈ v.sec.nonces ↔ (y ∈ s.sec.nonces ∧ y.id ≠ nonce)) ∧ .code sid idx sub rc ∈ v.out
      ∧ v.mem = s.mem ∧ v.extents = s.extents ∧ v.cmds = s.cmds ∧ v.pw = s.pw ∧ v.rel = s.rel ∧ v.resets = s.resets ∧ v.blobs = s.blobs)
  ∧ (∀ (i : Instr) (sid idx sub : Nat) (okv : Nat → Bool) (val : Bytes) (x : Sess) (s : State),
      quorumRowOf i = some (sid, idx, sub, okv, .claim val) → okv (leNat val) = true → Table.find s.sess sid = some x → x.claim = false →
      s.lockFor idx sub (leNat val) = false →
    exec i s = .next (s.respond sid idx sub rcQuorum))

/-- The security rows change managers, quorum, certificates, anchors, keys and locks as the clauses state of R358, R359, R366, R368, R370 to R374. Forms
of the values are log entry 100; certificates and signatures log entry 26. -/
def Obligations.SecurityCommandsComplete : Prop :=
  (∀ (sid nonce slot i : Nat) (sig b : Bytes) (all : Bool) (s : State), Signed s sid nonce slot sig 0x8100 19 b all → s.locked 8 = false → b ≠ [] →
      Config.isP384Cert b = true → s.managers.any (fun k => s.manager k == b) = false → 1 ≤ i → i ≤ 16 → s.manager i = [] →
    ∃ t k, exec (.enroll sid (.signed nonce slot sig)) s = .next t ∧ 1 ≤ k ∧ k ≤ i ∧ s.manager k = [] ∧ t.manager k = b
      ∧ (∀ j, j ≠ k → t.manager j = s.manager j))
  ∧ (∀ (sid i : Nat) (b : Bytes) (x : Sess) (s : State), Table.find s.sess sid = some x → x.claim = true → s.scopeBusy (scopeOf 0x8100 19) = false →
      s.locked 8 = false → b ≠ [] → Config.isP384Cert b = true → s.managers.any (fun k => s.manager k == b) = false → 1 ≤ i → i ≤ 16 →
      s.manager i = [] →
    ∃ t k, exec (.enroll sid (.claim b)) s = .next t ∧ 1 ≤ k ∧ k ≤ i ∧ s.manager k = [] ∧ t.manager k = b ∧ .code sid 0x8100 19 rcOK ∈ t.out)
  ∧ (∀ (sid nonce slot v : Nat) (sig : Bytes) (all : Bool) (s : State), Signed s sid nonce slot sig 0x8100 20 (leBytes 1 v) all →
      s.locked 8 = false → 1 ≤ v → v ≤ 16 → s.manager v ≠ [] → s.quorumNow ≤ s.enrolled - 1 →
    ∃ t, exec (.unenroll sid (.signed nonce slot sig)) s = .next t ∧ t.manager v = [] ∧ (∀ j, j ≠ v → t.manager j = s.manager j)
      ∧ (∀ n, n ∈ t.sec.nonces → v ∉ n.signers))
  ∧ (∀ (sid nonce slot v : Nat) (sig : Bytes) (all : Bool) (s : State), Signed s sid nonce slot sig 0x8100 18 (leBytes 1 v) all →
      s.locked 8 = false → 1 ≤ v → v ≤ 16 → v ≤ s.enrolled →
    ∃ t, exec (.quorumK sid (.signed nonce slot sig)) s = .next t ∧ t.obj 0x8100 18 = v ∧ t.blobs = s.blobs)
  ∧ (∀ (sid v : Nat) (x : Sess) (s : State), Table.find s.sess sid = some x → x.claim = true → s.scopeBusy (scopeOf 0x8100 18) = false →
      s.locked 8 = false → 1 ≤ v → v ≤ 16 →
    ∃ t, exec (.quorumK sid (.claim (leBytes 1 v))) s = .next t ∧ t.obj 0x8100 18 = v ∧ t.blobs = s.blobs)
  ∧ (∀ (sid : Nat) (c : Nat) (x : Sess) (s : State), Table.find s.sess sid = some x → x.claim = true → s.scopeBusy (scopeOf 0x8100 22) = false →
      s.sec.claim = some c →
    ∃ t, exec (.claimDone sid 1) s = .next t ∧ t.sec.claim = none ∧ (∀ e, e ∈ t.sess → e.2.claim = false)
      ∧ t.obj 0x8100 18 = Nat.max 1 (Nat.min s.quorumNow s.enrolled))
  ∧ (∀ (c : Nat) (s : State), s.sec.claim = some c →
    ∃ t, exec .claimWindowExpiry s = .next t ∧ t.sec.claim = none ∧ (∀ e, e ∈ t.sess → e.2.claim = false)
      ∧ t.obj 0x8100 18 = Nat.max 1 (Nat.min s.quorumNow s.enrolled) ∧ t.tb.now = max s.tb.now (c + 600000000000))
  ∧ (∀ (sid nonce slot : Nat) (sig b : Bytes) (all : Bool) (s : State), Signed s sid nonce slot sig 0x8000 2 b all → s.locked 7 = false →
      Config.leafIsSlot1 b = true →
    ∃ t, exec (.certSlot1 sid (.signed nonce slot sig)) s = .next t ∧ t.blob 0x8000 2 = b)
  ∧ (∀ (sid nonce slot : Nat) (sig b : Bytes) (all : Bool) (s : State), Signed s sid nonce slot sig 0x8000 4 b all → s.locked 7 = false → b.length = 48 →
    ∃ t, exec (.fabricAnchor sid (.signed nonce slot sig)) s = .next t ∧ t.blob 0x8000 4 = b)
  ∧ (∀ (sid : Nat) (b : Bytes) (s : State), MayWrite s sid 0x8200 2 → b.length = 96 → s.sec.debugOpen = false →
      Table.find s.sec.sdKeys (s.obj 0x8200 1 % 1024) = none →
    ∃ t, exec (.sdKey sid b) s = .next t ∧ Table.find t.sec.sdKeys (s.obj 0x8200 1 % 1024) = some (b.take 32)
      ∧ Table.find t.sec.tenantKeys (4096 + s.obj 0x8200 1 % 1024) = some (b.drop 32) ∧ .code sid 0x8200 2 rcOK ∈ t.out)
  ∧ (∀ (sid nonce slot d : Nat) (sig : Bytes) (all : Bool) (s : State), Signed s sid nonce slot sig 0x8200 4 (leBytes 2 d) all → d < 1024 →
      (∀ u, (s.tOn u = true ∨ s.tBusy u = true) → s.tDomain u ≠ some d) → (∀ e, e ∈ s.groups → e.2.shared = true → e.2.domain = some d → e.2.links = 0) →
    ∃ t, exec (.sdKeyClear sid (.signed nonce slot sig)) s = .next t ∧ Table.find t.sec.sdKeys d = none ∧ Table.find t.sec.tenantKeys (4096 + d) = none
      ∧ (∀ e, e ∈ t.prefixes → e.domain ≠ d))
  ∧ (∀ (sid sub : Nat) (s : State), sub = 6 ∨ sub = 7 ∨ sub = 8 → MayWrite s sid 0x8000 sub → s.locked sub = false →
    ∃ t, exec (.lockWrite sid sub 1) s = .next t ∧ t.locked sub = true ∧ .code sid 0x8000 sub rcOK ∈ t.out)
  ∧ (∀ (sid sub v : Nat) (s : State), sub = 6 ∨ sub = 7 ∨ sub = 8 → MayWrite s sid 0x8000 sub → s.locked sub = true →
    exec (.lockWrite sid sub v) s = .next (s.respond sid 0x8000 sub rcLocked))
  ∧ (∀ (sid nonce slot v : Nat) (sig : Bytes) (all : Bool) (s : State), Signed s sid nonce slot sig 0xB000 1 (leBytes 4 v) all → v % 16 = 6 →
      v < 2 ^ 32 → resetForm v = true → s.locked 6 = false → s.pw.dbgEn = true →
      s.pw.powerAllowed = true → s.resets = [] →
    ∃ t, exec (.debugOpen sid (.signed nonce slot sig)) s = .next t ∧ t.sec.debugOpening = true ∧ t.sec.nonces = [] ∧ t.cmds = [] ∧ t.pend = []
      ∧ t.resets = [{ kind := 6, unit := 0, at_ := s.now }])
  ∧ (∀ (nonce : Nat) (n : Nonce) (s : State), s.sec.nonces.find? (fun y => y.id == nonce) = some n →
    ∃ t, exec (.nonceExpiry nonce) s = .next t ∧ (∀ y, y ∈ t.sec.nonces ↔ (y ∈ s.sec.nonces ∧ y.id ≠ nonce))
      ∧ t.tb.now = max s.tb.now (n.issued + 5000000000) ∧ bit (t.obj 0x8000 10) 0 = true)

/-- The quorum rows of tenants, firmware, admission, expulsion, resets and power states act as the clauses state of R339, R397, R400, R420 and R442 to
R448. Corners are log entries 99, 120, 123, 125 and 126. -/
def Obligations.QuorumCommandsComplete : Prop :=
  (∀ (sid nonce slot u : Nat) (sig : Bytes) (all : Bool) (s : State), Signed s sid nonce slot sig 0x4400 12 (leBytes 2 u) all → u < 4096 →
      s.tOn u = false → s.tBusy u = false → (∀ p l, p < 128 → l < 16 → s.ldTenant p l ≠ some u) →
    ∃ t, exec (.tenantRemove sid (.signed nonce slot sig)) s = .next t ∧ Table.find t.sec.tenantKeys u = none
      ∧ (∀ x, x ∈ t.recipes → x.tenant ≠ u) ∧ (∀ x, x ∈ t.tensors → x.tenant ≠ u) ∧ (∀ x, x ∈ t.colls → x.tenant ≠ u)
      ∧ (∀ k x, (k, x) ∈ t.slots → x.tenant = u → x.retiring = true))
  ∧ (∀ (sid nonce slot : Nat) (sig : Bytes) (all : Bool) (s : State), Signed s sid nonce slot sig 0x1020 3 (leBytes 1 1) all → s.obj 0x1020 2 = 1 →
    ∃ t, exec (.fwCommit sid (.signed nonce slot sig)) s = .next t ∧ t.sec.fwCommitted = true ∧ t.obj 0x1020 2 = 3)
  ∧ (∀ (sid nonce slot : Nat) (sig : Bytes) (all : Bool) (s : State), Signed s sid nonce slot sig 0x9200 5 (leBytes 1 1) all →
    ∃ t, exec (.admitDevice sid (.signed nonce slot sig)) s = .next t ∧ t.rel.admission = 1 ∧ t.rel.selftest = some 3 ∧ t.obj 0x9000 13 = 1)
  ∧ (∀ (sid nonce slot d : Nat) (sig : Bytes) (all : Bool) (m : FMap) (s : State), Signed s sid nonce slot sig 0x9200 4 (leBytes 2 d) all → d < 512 →
      s.fmap.map = some m → s.fmap.member = true → d ≠ s.devId → m.members.any (fun v => v.dev == d) = true →
      (all = true ∨ (s.obj 0x9200 2 ≤ m.members.length - 1 ∧ ∀ x, m.lastExpel = some x → x + s.obj 0x9200 3 * 1000000000 ≤ s.now)) →
    ∃ t m', exec (.expel sid (.signed nonce slot sig)) s = .next t ∧ t.fmap.map = some m' ∧ m'.epoch = m.epoch + 1 ∧ m'.proposer = s.devId
      ∧ m'.members = m.members.filter (fun v => v.dev != d) ∧ m'.lastExpel = some s.now)
  ∧ (∀ (sid nonce slot : Nat) (sig : Bytes) (all : Bool) (s : State), Signed s sid nonce slot sig 0xB000 1 (leBytes 4 1) all → s.resets = [] →
    ∃ t, exec (.resetModule sid (.signed nonce slot sig)) s = .next t ∧ t.resets = [{ kind := 1, unit := 0, at_ := s.now }] ∧ t.cmds = [] ∧ t.seqs = []
      ∧ t.groups = [] ∧ t.mem = [] ∧ t.sess = [] ∧ t.fmap.map = none ∧ bit (t.obj 0x1010 5) 1 = true)
  ∧ (∀ (sid nonce slot : Nat) (sig : Bytes) (all : Bool) (s : State), Signed s sid nonce slot sig 0xB000 1 (leBytes 4 2) all → s.pw.powerAllowed = true →
      s.resets = [] →
    ∃ t, exec (.resetWarm sid (.signed nonce slot sig)) s = .next t ∧ t.resets = [{ kind := 2, unit := 0, at_ := s.now }]
      ∧ t.fmap.resetting = some (s.now + s.obj 0xB000 3 * 1000000) ∧ t.buckets = [] ∧ t.ingress = [] ∧ t.mons = [] ∧ t.extents = s.extents)
  ∧ (∀ (sid nonce slot d : Nat) (sig : Bytes) (all : Bool) (s : State), Signed s sid nonce slot sig 0xB000 1 (leBytes 4 (3 + 256 * d)) all → d < 8 →
      s.pw.powerAllowed = true → s.resets = [] → s.parkedDie d = false → s.dieUp ((d + 4) % 8) = true → s.parkedDie ((d + 4) % 8) = false →
    ∃ t, exec (.resetDie sid (.signed nonce slot sig)) s = .next t ∧ t.resets = [{ kind := 3, unit := d, at_ := s.now }] ∧ t.dieUp d = false
      ∧ (∀ e, e ∈ t.cmds → e.2.p / 16 ≠ d))
  ∧ (∀ (sid nonce slot mask : Nat) (sig : Bytes) (all : Bool) (s : State), Signed s sid nonce slot sig 0xB010 2 (leBytes 2 (2 + 256 * mask)) all →
      mask < 256 → mask ≠ 0 → s.resets = [] → s.pw.trans = none → s.pw.pstate = 0 →
      (∀ d, d < 8 → bit mask d = true → bit mask ((d + 4) % 8) = false ∧ (s.dieUp d = true ∨ bit s.pw.parked d = true)) →
    ∃ t, exec (.powerD2 sid (.signed nonce slot sig)) s = .next t ∧ t.pw = { s.pw with trans := some (2, mask) }
      ∧ (∀ d, d < 8 → bit mask d = true → t.dieUp d = false))
  ∧ (∀ (sid nonce slot : Nat) (sig : Bytes) (all : Bool) (s : State), Signed s sid nonce slot sig 0xB010 2 (leBytes 2 3) all →
      s.resets = [] → s.pw.trans = none → s.pw.pstate ≠ 3 →
    ∃ t, exec (.powerD3 sid (.signed nonce slot sig)) s = .next t ∧ t.pw = { s.pw with trans := some (3, 0xFF), d3At := some s.now }
      ∧ (∀ k, k < 192 → 1 ≤ (Table.get t.ingress {} k).st))

/-- Shadow comparisons, votes, hard events, tests, drains and the health window act on engines as the clauses state of R379 to R389. Spares are log entry
115, the window's phase log entry 10. -/
def Obligations.EngineCommandsComplete : Prop :=
  (∀ (e x third cmd item : Nat) (av : Bool) (s : State), s.engineOn e = true → s.mayShadow e x [e / 52] false = true →
    ∃ t, exec (.shadowCompare e x third cmd item av true) s = .next t ∧ t.rel = s.rel ∧ t.obj 0x9000 9 = (s.obj 0x9000 9 + 1) % 2 ^ 64
      ∧ ∀ y, s.cmd cmd = some y → ∃ z, t.cmd cmd = some z ∧ item ∉ z.heldItems ∧ z.items = y.items)
  ∧ (∀ (e x third cmd item : Nat) (s : State), s.engineOn e = true → s.mayShadow e x [e / 52] false = true →
      s.mayShadow e third [e / 52, x / 52] true = true →
    ∃ t, exec (.shadowCompare e x third cmd item true false) s = .next t
      ∧ t.rel.votes = s.rel.votes ++ [{ cmd := cmd, item := item, e1 := e, e2 := x, e3 := third }] ∧ t.rel.engines = s.rel.engines
      ∧ t.obj 0x9000 10 = (s.obj 0x9000 10 + 1) % 2 ^ 64 ∧ bit (t.obj 0x9000 8) 2 = true
      ∧ ∀ y, s.cmd cmd = some y → ∃ z, t.cmd cmd = some z ∧ item ∈ z.heldItems ∧ z.items = y.items)
  ∧ (∀ (e x third cmd item : Nat) (y : Cmd) (s : State), s.engineOn e = true → s.mayShadow e x [e / 52] false = true →
      s.cmd cmd = some y → y.items[item]? = some none →
    ∃ t z, exec (.shadowCompare e x third cmd item false false) s = .next t ∧ t.cmd cmd = some z ∧ z.items[item]? = some (some stFault)
      ∧ bit (t.obj 0x9000 8) 2 = true)
  ∧ (∀ (cmd item : Nat) (v : Vote) (s : State), s.rel.votes.find? (fun w => w.cmd == cmd && w.item == item) = some v → inService (s.engine v.e1).st = true →
      (s.engine v.e1).mism + 1 < s.obj 0x9000 5 → (s.freeSpares (v.e1 / 52)).length ≤ s.obj 0x9000 3 →
    ∃ t, exec (.shadowVote cmd item (some 0)) s = .next t ∧ t.rel.votes = s.rel.votes.erase v
      ∧ t.engine v.e1 = { s.engine v.e1 with mism := (s.engine v.e1).mism + 1, clean := 0, newly := true, st := 2 }
      ∧ (∀ e, e ≠ v.e1 → t.engine e = s.engine e) ∧ bit (t.obj 0x9000 8) 1 = true)
  ∧ (∀ (cmd item : Nat) (v : Vote) (y : Cmd) (s : State), s.rel.votes.find? (fun w => w.cmd == cmd && w.item == item) = some v →
      s.cmd cmd = some y → y.items[item]? = some none →
    ∃ t z, exec (.shadowVote cmd item none) s = .next t ∧ t.rel.votes = s.rel.votes.erase v ∧ t.cmd cmd = some z
      ∧ z.items[item]? = some (some stFault))
  ∧ (∀ (e : Nat) (s : State), e < 416 → s.engineOn e = true →
    ∃ t, exec (.engineHardEvent e) s = .next t ∧ (t.engine e).st = 5 ∧ { kind := 5, unit := e, at_ := s.now } ∈ t.resets)
  ∧ (∀ (e : Nat) (s : State), e < 416 → s.engineOn e = true →
    ∃ t, exec (.engineWatchdog e) s = .next t ∧ (t.engine e).st = 5 ∧ { kind := 5, unit := e, at_ := s.now } ∈ t.resets)
  ∧ (∀ (e : Nat) (s : State), e < 416 → (s.engine e).st = 5 → (s.engine e).spareFor = none →
    ∃ t, exec (.engineSelftestDone e true) s = .next t
      ∧ t.engine e = { s.engine e with st := (s.engine e).was, clean := 0, newly := (s.engine e).was == 2 }
      ∧ (∀ k, k ≠ e → t.engine k = s.engine k) ∧ (∀ r, r ∈ t.resets ↔ (r ∈ s.resets ∧ ¬ (r.kind = 5 ∧ r.unit = e))))
  ∧ (∀ (e v : Nat) (s : State), e < 416 → (s.engine e).st = 5 → (s.engine e).spareFor = some v →
    ∃ t, exec (.engineSelftestDone e true) s = .next t ∧ t.engine e = { s.engine e with st := 1, mism := 0, clean := 0, newly := false })
  ∧ (∀ (e : Nat) (s : State), e < 416 → (s.engine e).st = 5 →
    ∃ t, exec (.engineSelftestDone e false) s = .next t ∧ bit (t.obj 0x9000 8) 3 = true)
  ∧ (∀ (e : Nat) (s : State), (s.engine e).st = 3 → (∀ x, x ∈ s.rel.engines → x.1 = e → x.2 = s.engine e) →
    ∃ t, exec (.engineDrained e) s = .next t ∧ (t.engine e).st = 4 ∧ (t.engine e).part = none ∧ bit (t.obj 0x9000 8) 3 = true)
  ∧ (∀ s : State, ∃ t, exec .healthWindowEnd s = .next t ∧ t.rel.windowAt = (s.rel.windowAt / 1000000000 + 1) * 1000000000
      ∧ t.tb.now = max s.tb.now ((s.rel.windowAt / 1000000000 + 1) * 1000000000) ∧ t.obj 0x9000 11 = 0 ∧ t.rel.errs = [] ∧ t.rel.retired = []
      ∧ (∀ x, x ∈ t.rel.engines → x.2.mism = 0) ∧ t.rel.spare = s.rel.spare)

/-- Memory errors, wire faults and the loss and return of a die act as the clauses state of R25, R145, R377, R383, R384, R387 and R449. Self-tests and an
admission go through the states of R390, R397 and R398. Unit kinds are log entry 118, losses for good log entry 116, admission log entry 120, SRAM
rows log entry 122. -/
def Obligations.RepairsDiesAndAdmissionComplete : Prop :=
  ((∀ (die bank row : Nat) (k : SramKind) (s : State), s.spareUsed (spareKey 2 ((die * 4 + sramNum k) * 65536 + bank)) < 4 →
    ∃ t, exec (.memoryError (.sram die k bank row) false) s = .next t
      ∧ t.spareUsed (spareKey 2 ((die * 4 + sramNum k) * 65536 + bank)) = s.spareUsed (spareKey 2 ((die * 4 + sramNum k) * 65536 + bank)) + 1
      ∧ t.objs = s.objs ∧ t.mem = s.mem)
  ∧ (∀ (die bank row : Nat) (k : SramKind) (s : State),
      Table.get s.rel.errs 0 (((die * 4 + sramNum k) * 65536 + bank) * 65536 + row) < 3 →
    ∃ t, exec (.memoryError (.sram die k bank row) true) s = .next t ∧ t.obj 0x9000 11 = (s.obj 0x9000 11 + 1) % 2 ^ 32 ∧ t.rel.spare = s.rel.spare)
  ∧ (∀ (die ch bank row addr : Nat) (s : State), s.rel.errs = [] → s.rel.moving.contains (die, ch) = false →
    ∃ t, exec (.memoryError (.hbm die ch bank row addr) false) s = .next t ∧ t.mem = s.mem
      ∧ (faSpace addr = 0 → faDie addr = die → (addr / 64 * 64, 64) ∈ t.poison)
      ∧ (s.spareUsed (spareKey 3 die) < Config.hbmRepairRows die → t.spareUsed (spareKey 3 die) = s.spareUsed (spareKey 3 die) + 1
          ∧ t.rel.hard = s.rel.hard ++ [(die, ((die * 64 + ch) * 65536 + bank) * 2 ^ 20 + row)] ∧ t.objs = s.objs ∧ t.extents = s.extents)
      ∧ (Config.hbmRepairRows die ≤ s.spareUsed (spareKey 3 die) → t.rel.spare = s.rel.spare ∧ t.rel.hard = s.rel.hard
          ∧ (die, ch, ((die * 64 + ch) * 65536 + bank) * 2 ^ 20 + row, addr) ∈ t.rel.badRows
          ∧ ∀ e x, Table.find s.extents e = some x → x.away = none → x.isHbm = true → x.base ≤ addr → addr < x.base + Config.extentBytes →
              ∃ y, Table.find t.extents e = some y ∧ y.st = 6))
  ∧ (∀ (die ch : Nat) (s : State), s.spareUsed (spareKey 4 die) < 2 →
    ∃ t, exec (.memoryError (.channelUnreadable die ch) false) s = .next t ∧ t.spareUsed (spareKey 4 die) = s.spareUsed (spareKey 4 die) + 1
      ∧ t.mem = s.mem)
  ∧ (∀ (p e : Nat) (s : State), ∃ t, exec (.memoryError (.tray p e) true) s = .next t ∧ t.obj 0x9000 11 = (s.obj 0x9000 11 + 1) % 2 ^ 32 ∧ t.rel = s.rel)
  ∧ (∀ (p a : Nat) (s : State), faSpace a = 1 → faPort a = p →
    ∃ t, exec (.memoryError (.tray p a) false) s = .next t ∧ (a / 64 * 64, 64) ∈ t.poison ∧ t.rel = s.rel ∧ t.mem = s.mem ∧ t.objs = s.objs)
  ∧ (∀ (die ch : Nat) (s : State), ∃ t, exec (.hbmChannelMoveDone die ch) s = .next t ∧ (die, ch) ∉ t.rel.moving ∧ t.rel.spare = s.rel.spare
      ∧ t.extents = s.extents)
  ∧ (∀ (a b m : Nat) (s : State), a < 8 → b < 8 → a ≠ b → m < 3 → s.spareUsed (spareKey 1 ((a * 8 + b) * 4 + m)) < 2 →
    ∃ t, exec (.d2dWireFault a b m) s = .next t
      ∧ t.spareUsed (spareKey 1 ((a * 8 + b) * 4 + m)) = s.spareUsed (spareKey 1 ((a * 8 + b) * 4 + m)) + 1 ∧ t.rel.dies = s.rel.dies)
  ∧ (∀ (a b m : Nat) (s : State), a < 8 → b < 8 → a ≠ b → m < 3 → 2 ≤ s.spareUsed (spareKey 1 ((a * 8 + b) * 4 + m)) →
      setBit (s.spareUsed (spareKey 6 (Nat.min a b * 8 + Nat.max a b))) m % 8 ≠ 7 →
    ∃ t, exec (.d2dWireFault a b m) s = .next t ∧ bit (t.spareUsed (spareKey 6 (Nat.min a b * 8 + Nat.max a b))) m = true ∧ t.rel.dies = s.rel.dies)
  ∧ (∀ (d : Nat) (s : State), d < 8 → s.dieUp d = true →
    ∃ t, exec (.dieLoss d) s = .next t ∧ t.dieUp d = false ∧ t.mem = s.mem ∧ t.rel.dies = clearBit s.rel.dies d
      ∧ (∀ i, i < 16 → (t.flexP (16 * d + i)).st ≤ 1))
  ∧ (∀ (d : Nat) (s : State), d < 8 → s.pw.powerAllowed = true → s.pw.domOn ≠ 0 → bit s.pw.parked d = false → s.resets.any (fun r => r.kind == 3 && r.unit == d) = false → s.dieUp d = false →
      bit s.rel.retiredDies d = false →
    ∃ t, exec (.dieReturn d) s = .next t ∧ t.dieUp d = true ∧ t.mem = s.mem ∧ t.rel.dies = setBit s.rel.dies d ∧ t.cmds = s.cmds
      ∧ bit t.pw.domOn d = true ∧ bit t.pw.fresh d = true)
  ∧ (∀ (d : Nat) (s : State), s.pw.powerAllowed = false → exec (.dieReturn d) s = .next s))
  ∧ ((∀ (sid : Nat) (s : State), MayWrite s sid 0x9000 12 →
    ∃ t, exec (.selftest sid 1) s = .next t ∧ t.rel.selftest = some 1 ∧ t.obj 0x9000 13 = 1 ∧ .code sid 0x9000 12 rcOK ∈ t.out ∧ t.cmds = s.cmds)
  ∧ (∀ (sid : Nat) (s : State), MayWrite s sid 0x9000 12 → (∀ u, s.tOn u = false ∧ s.tBusy u = false) →
    ∃ t, exec (.selftest sid 2) s = .next t ∧ t.rel.selftest = some 2 ∧ t.obj 0x9000 13 = 1 ∧ .code sid 0x9000 12 rcOK ∈ t.out)
  ∧ (∀ (sid u : Nat) (s : State), MayWrite s sid 0x9000 12 → u ∈ s.tenantsOn → s.tOn u = true →
    exec (.selftest sid 2) s = .next (s.respond sid 0x9000 12 rcRefused))
  ∧ (∀ (k : Nat) (s : State), s.rel.selftest = some k → k ≠ 3 →
    ∃ t, exec (.selftestComplete none) s = .next t ∧ t.rel.selftest = none ∧ t.obj 0x9000 13 = 0xFF02 ∧ t.rel.admission = s.rel.admission)
  ∧ (∀ (k d : Nat) (s : State), s.rel.selftest = some k → k ≠ 3 →
    ∃ t, exec (.selftestComplete (some d)) s = .next t ∧ t.rel.selftest = none ∧ t.obj 0x9000 13 = 3 + 256 * (d % 256))
  ∧ (∀ s : State, s.rel.selftest = some 3 → s.rel.admission = 1 →
    ∃ t, exec (.selftestComplete none) s = .next t ∧ t.rel.admission = 2 ∧ t.rel.selftest = some 3 ∧ t.obj 0x9000 13 = 1)
  ∧ (∀ s : State, s.rel.selftest = some 3 → s.rel.admission = 2 →
    ∃ t, exec (.selftestComplete none) s = .next t ∧ (t.rel.admission = 3 ∨ t.rel.admission = 4) ∧ t.rel.selftest = none)
  ∧ (∀ (d : Nat) (s : State), s.rel.selftest = some 3 →
    ∃ t, exec (.selftestComplete (some d)) s = .next t ∧ t.rel.admission = 6 ∧ bit (t.obj 0x9000 8) 6 = true ∧ t.rel.selftest = none)
  ∧ (∀ (l : List (Nat × Bool)) (s : State), s.rel.admission = 3 → s.assigned = true →
    ∃ t, exec (.admitLoaded l) s = .next t ∧ t.rel.admission = 4 ∧ t.rel.loaded = true ∧ t.fmap = s.fmap
      ∧ t.obj 0x9200 9 = (l.filter (fun g => groupDev g.1 == s.devId && !g.2)).length
      ∧ (∀ gid, (gid, true) ∈ l → groupDev gid = s.devId → ∃ g, t.group gid = some g ∧ g.spill = true ∧ g.links = 0)))

/-- Handshakes, idle sessions, addresses, the sideband and relayed reads end as the clauses state of R367, R402, R403 and R414 to R416. When management
answers is log entry 52, relays log entry 109, addresses log entry 110. -/
def Obligations.SessionCommandsComplete : Prop :=
  (∀ (port i : Nat) (conf : Bool) (cert : ClientCert) (s : State), s.mgmtOn port conf = true → suiteOk cert = true → s.sess.length < 8 → s.managerOf cert.der = some i →
      Table.find s.sess s.nextSid = none →
    ∃ t x, exec (.dtlsHandshake port conf cert) s = .next t ∧ Table.find t.sess s.nextSid = some x ∧ x.slot = i ∧ x.port = port ∧ x.conf = conf
      ∧ x.claim = false ∧ t.nextSid = s.nextSid + 1 ∧ .dtlsOpen port s.nextSid s.shownChain ∈ t.out ∧ t.sec = s.sec)
  ∧ (∀ (port : Nat) (conf : Bool) (cert : ClientCert) (s : State), s.mgmtOn port conf = true → s.sess.length < 8 → s.managerOf cert.der = none →
      s.sec.claim = none → exec (.dtlsHandshake port conf cert) s = .next (s.emit (.dtlsAlert port)))
  ∧ (∀ (port : Nat) (conf : Bool) (cert : ClientCert) (s : State), s.mgmtOn port conf = true → suiteOk cert = true → 8 ≤ s.sess.length →
    ∃ t, exec (.dtlsHandshake port conf cert) s = .next t ∧ .dtlsAlert port ∈ t.out ∧ bit (t.obj 0x1010 4) 3 = true ∧ t.nextSid = s.nextSid)
  ∧ (∀ (port : Nat) (conf : Bool) (cert : ClientCert) (s : State), s.mgmtOn port conf = true → suiteOk cert = false →
    exec (.dtlsHandshake port conf cert) s = .next (s.emit (.dtlsAlert port)))
  ∧ (∀ (sid : Nat) (x : Sess) (s : State), Table.find s.sess sid = some x →
    ∃ t, exec (.sessionIdleTimeout sid) s = .next t ∧ Table.find t.sess sid = none ∧ (∀ k, k ≠ sid → Table.find t.sess k = Table.find s.sess k)
      ∧ t.tb.now = max s.tb.now (x.lastRx + s.obj 0x3C00 7 * 1000000000) ∧ t.out = s.out ++ [.dtlsClose sid])
  ∧ (∀ (port : Nat) (conf : Bool) (s : State), s.mgmtOn port conf = true →
    ∃ t, exec (.addrDup port conf) s = .next t ∧ t.mgmtOn port conf = false ∧ bit (t.obj 0x1010 4) 2 = true)
  ∧ (∀ (sid port : Nat) (b : Bytes) (s : State), port < 2 → MayWrite s sid 0x3C00 (port + 1) → addrOk b = true →
    ∃ t, exec (.mgmtAddrWrite sid port b) s = .next t ∧ t.blob 0x3C00 (port + 1) = b ∧ .code sid 0x3C00 (port + 1) rcOK ∈ t.out
      ∧ (b ≠ s.blob 0x3C00 (port + 1) → ∀ e, e ∈ t.sess → ¬ (e.2.port = port ∧ e.2.conf = true)))
  ∧ (∀ (ctrl idx sub w : Nat) (s : State), s.pw.input = true → s.pw.stage ≠ 0 → i3cObj idx sub = true →
    ∃ t, exec (.readWord ctrl 1 idx sub w) s = .next t ∧ t.objs = s.objs ∧ t.sess = s.sess
      ∧ t.out = s.out ++ [.i3c ctrl (s.readWordOp (i3cWho ctrl) idx sub 0 w).1 (s.readWordOp (i3cWho ctrl) idx sub 0 w).2.1])
  ∧ (∀ (ctrl cmd idx sub w : Nat) (s : State), s.pw.input = true → s.pw.stage ≠ 0 → (cmd ≠ 1 ∨ i3cObj idx sub = false) →
    exec (.readWord ctrl cmd idx sub w) s = .next (s.emit (.i3c ctrl rcNotPermitted 0)))
  ∧ (∀ (sid reqId target : Nat) (e : GetEntry) (x : Sess) (s : State), Fresh s sid reqId x → (∀ y, y ∈ s.relays → y.sid = sid → y.reqId ≠ reqId) →
      s.reaches target = true →
    ∃ t, exec (.relayGet (.ask sid reqId 1 target e)) s = .next t ∧ t.out = s.out ++ [.relayReq target sid reqId e.idx e.sub e.off 0]
      ∧ t.relays = s.relays ++ [{ sid := sid, reqId := reqId, idx := e.idx, sub := e.sub, at_ := s.now }])
  ∧ (∀ (sid reqId target : Nat) (e : GetEntry) (x : Sess) (s : State), Fresh s sid reqId x → (∀ y, y ∈ s.relays → y.sid = sid → y.reqId ≠ reqId) →
      s.reaches target = false →
    ∃ t, exec (.relayGet (.ask sid reqId 1 target e)) s = .next t ∧ t.out = s.out ++ [.resp sid reqId 0x81 (codeBody rcNoRoute)] ∧ t.relays = s.relays)
  ∧ (∀ (dev origin w : Nat) (d : Bytes) (e : GetEntry) (s : State), s.managers.any (fun i => Machine.sha384 (s.manager i) == d) = true →
    ∃ t, exec (.relayGet (.serve dev origin d e w)) s = .next t ∧ t.objs = s.objs
      ∧ t.out = s.out ++ [.relayResp dev origin (s.readWordOp (relayWho dev origin) e.idx e.sub e.off w).1
          (s.readWordOp (relayWho dev origin) e.idx e.sub e.off w).2.1])
  ∧ (∀ (sid reqId rc len : Nat) (ws : List Nat) (y : Relay) (s : State),
      s.relays.find? (fun z => z.sid == sid && z.reqId == reqId) = some y →
    ∃ t, exec (.relayGet (.answer sid reqId rc len ws)) s = .next t ∧ y ∉ t.relays ∧ t.objs = s.objs
      ∧ t.out = s.out ++ [.resp y.sid y.reqId 0x81 (let val := if rc = rcOK then (ws.flatMap (leBytes 4)).take len else []
          respEntry y.idx y.sub rc (typeCode y.idx y.sub) val val.length)])
  ∧ (∀ (sid reqId : Nat) (y : Relay) (s : State), s.relays.find? (fun z => z.sid == sid && z.reqId == reqId) = some y →
    ∃ t, exec (.relayTimeout sid reqId) s = .next t ∧ y ∉ t.relays ∧ t.tb.now = max s.tb.now (y.at_ + 50000000)
      ∧ t.out = s.out ++ [.resp y.sid y.reqId 0x81 (respEntry y.idx y.sub rcTimeout (typeCode y.idx y.sub) [] 0)])

/-- The messages of a session are answered and take effect as the clauses state of R404 to R410, R418, R419 and R423. Response bodies are log entry 105,
the time of a response log entry 103, messages that do not fit log entry 108. -/
def Obligations.MessagesComplete : Prop :=
  (∀ (sid reqId : Nat) (l : List GetEntry) (x : Sess) (s : State), msgFits (8 * l.length) = true → Fresh s sid reqId x →
    ∃ t, exec (.get sid reqId l) s = .next t ∧ t.out = s.out ++ [.resp sid reqId 0x81 ((s.heard sid x).getBody l)] ∧ t.objs = s.objs
      ∧ t.blobs = s.blobs ∧ t.pieces = s.pieces)
  ∧ (∀ (sid reqId : Nat) (l : List GetEntry) (x : Sess) (k : Nat × Nat × Nat × Bytes) (s : State), msgFits (8 * l.length) = true →
      Table.find s.sess sid = some x → x.kept.find? (fun k => k.1 == reqId && decide (s.now < k.2.1 + 5000000000)) = some k →
    exec (.get sid reqId l) s = .next ((s.heard sid x).emit (.resp sid reqId k.2.2.1 k.2.2.2)))
  ∧ (∀ (sid reqId : Nat) (l : List SetEntry) (x : Sess) (s : State), msgFits (setLen l) = true → Fresh s sid reqId x →
    ∃ body, body = ((s.heard sid x).setAll { sid := sid, claim := x.claim } l).1 ∧ exec (.set sid reqId l) s
      = .next ((((s.heard sid x).keep sid reqId 0x82 body).emit (.resp sid reqId 0x82 body)).setAll { sid := sid, claim := x.claim } l).2)
  ∧ (∀ (sid reqId : Nat) (l : List SetEntry) (x : Sess) (k : Nat × Nat × Nat × Bytes) (s : State), msgFits (setLen l) = true →
      Table.find s.sess sid = some x → x.kept.find? (fun k => k.1 == reqId && decide (s.now < k.2.1 + 5000000000)) = some k →
    exec (.set sid reqId l) s = .next ((s.heard sid x).emit (.resp sid reqId k.2.2.1 k.2.2.2)))
  ∧ (∀ (sid reqId idx sub flags : Nat) (b : Bytes) (x : Sess) (s : State), msgFits (12 + roundUp b.length 4) = true → Fresh s sid reqId x →
      x.claim = false → flags = 1 ∨ flags = 3 → mayDisrupt idx sub = true → disruptive idx sub (leNat b) = true →
      s.accessCheck { sid := sid, signed := true } idx sub 0 = none → s.accessCheck { sid := 0, signed := true } idx sub (leNat b) = none →
      s.formCheck idx sub b = none → s.stagedFor sid (okey idx sub) true = [] →
      (s.sec.nonces.filter (fun n => !n.expired s.now)).length < 4 →
    ∃ t n, exec (.propose sid reqId idx sub flags 0 b) s = .next t ∧ t.sec.nonces = s.sec.nonces ++ [n] ∧ n.id = s.sec.nextNonce
      ∧ n.idx = idx ∧ n.sub = sub ∧ n.value = b ∧ n.signers = [] ∧ n.issued = s.now ∧ n.must = s.managers
      ∧ n.all = (flags == 3 || (idx == 0xB000 && leNat b % 16 == 6)) ∧ n.need = (if n.all then s.enrolled else s.quorumNow)
      ∧ t.objs = s.objs ∧ t.blobs = s.blobs)
  ∧ (∀ (sid reqId nonce slot : Nat) (sig : Bytes) (x : Sess) (n : Nonce) (s : State), Fresh s sid reqId x → x.claim = false →
      s.judge nonce slot sig = (rcPending, some n) →
    ∃ t, exec (.sign sid reqId nonce slot sig) s = .next t ∧ t.sec.nonces = s.sec.nonces.map (fun y => if y.id = nonce then n else y)
      ∧ t.out = s.out ++ [.resp sid reqId 0x84 (signBody n.idx n.sub rcPending n.signers.length)] ∧ t.objs = s.objs ∧ t.blobs = s.blobs)
  ∧ (∀ (sid reqId nonce slot : Nat) (sig : Bytes) (x : Sess) (n : Nonce) (s : State), Fresh s sid reqId x → x.claim = false →
      s.judge nonce slot sig = (rcOK, some n) →
    ∃ (t v : State), exec (.sign sid reqId nonce slot sig) s = .next t
      ∧ t = (v.writeObj { sid := 0, signed := true, all := n.all } n.idx n.sub n.value).2
      ∧ (∀ y, y ∈ v.sec.nonces ↔ (y ∈ s.sec.nonces ∧ y.id ≠ nonce)) ∧ v.mem = s.mem ∧ v.cmds = s.cmds ∧ v.blobs = s.blobs)
  ∧ (∀ (sid reqId nonce slot rc : Nat) (sig : Bytes) (x : Sess) (s : State), Fresh s sid reqId x → x.claim = false →
      s.judge nonce slot sig = (rc, none) →
    ∃ t idx sub, exec (.sign sid reqId nonce slot sig) s = .next t ∧ t.sec = s.sec ∧ t.objs = s.objs
      ∧ t.out = s.out ++ [.resp sid reqId 0x84 (signBody idx sub rc 0)])
  ∧ (∀ (sid reqId mask : Nat) (x : Sess) (s : State), Fresh s sid reqId x →
    ∃ t y, exec (.subscribe sid reqId mask) s = .next t ∧ Table.find t.sess sid = some y ∧ y.mask = mask % 2 ^ 32 ∧ y.lastRx = s.now
      ∧ t.out = s.out ++ [.resp sid reqId 0x85 (codeBody rcOK)])
  ∧ (∀ (sid reqId : Nat) (x : Sess) (s : State), Fresh s sid reqId x →
    ∃ t y, exec (.keepalive sid reqId) s = .next t ∧ Table.find t.sess sid = some y ∧ y.mask = x.mask ∧ y.lastRx = s.now
      ∧ t.out = s.out ++ [.resp sid reqId 0x86 (codeBody rcOK)])
  ∧ (∀ (sid : Nat) (x : Sess) (s : State), Table.find s.sess sid = some x → x.dropped ≠ 0 →
    ∃ t y, exec (.dropped sid) s = .next t ∧ Table.find t.sess sid = some y ∧ y.dropped = 0 ∧ y.seq = (x.seq + 1) % 2 ^ 32
      ∧ t.out = s.out ++ [.notify sid y.seq t.now 0x0003 (leBytes 4 x.dropped)]
      ∧ t.now = max s.now (x.freeAt (s.obj 0x3C00 8)))

/-- Writes with rows of their own, snapshots and monitors act as the clauses state of R409, R412, R413, R420 and R432 to R438. Codes of refused values are
log entry 104, reads of snapshots log entries 113 and 114. -/
def Obligations.DictionaryWritesComplete : Prop :=
  (∀ (sid idx sub v : Nat) (r : ORow) (x : Sess) (s : State), Table.find s.sess sid = some x → x.claim = false → objRow idx sub = some r → r.acc = .wsq →
      s.accessCheck { sid := sid } idx sub v = none → s.formCheck idx sub (numBytes idx sub v) = none → leNat (numBytes idx sub v) = v →
      idx ≠ 0x4400 → (idx < 0x5400 ∨ 0x5480 ≤ idx ∨ sub % 8 = 7) → s.scopeBusy (scopeOf idx sub) = false →
      v / 65536 = s.objK (s.keyOf r idx sub) / 65536 →
    ∃ t, exec (.wsqAck sid idx sub v) s = .next t ∧ .code sid idx sub rcOK ∈ t.out
      ∧ ∀ b, b < 16 → bit (t.objK (s.keyOf r idx sub)) b
          = (bit (s.objK (s.keyOf r idx sub)) b && (!bit v b || s.stillHeld (s.keyOf r idx sub) b)))
  ∧ (∀ (sid idx sub v : Nat) (r : ORow) (x : Sess) (s : State), Table.find s.sess sid = some x → x.claim = false → objRow idx sub = some r → r.acc = .wsq →
      s.accessCheck { sid := sid } idx sub v = none → s.formCheck idx sub (numBytes idx sub v) = none → leNat (numBytes idx sub v) = v →
      idx ≠ 0x4400 → (idx < 0x5400 ∨ 0x5480 ≤ idx ∨ sub % 8 = 7) → s.scopeBusy (scopeOf idx sub) = false →
      v / 65536 ≠ s.objK (s.keyOf r idx sub) / 65536 →
    exec (.wsqAck sid idx sub v) s = .next (s.respond sid idx sub rcStale))
  ∧ (∀ (sid v : Nat) (s : State), MayWrite s sid 0x1010 1 → blockOk v = true →
    ∃ t, exec (.blockSelect sid v) s = .next t ∧ t.obj 0x1010 1 = v ∧ .code sid 0x1010 1 rcOK ∈ t.out)
  ∧ (∀ (sid off : Nat) (piece : Bytes) (s : State), MayWrite s sid 0x1020 1 → off = (s.stagedFor sid (okey 0x1020 1) false).length →
      off + piece.length ≤ 2 ^ 24 →
    ∃ t, exec (.fwStage sid off piece) s = .next t ∧ t.sec.fwImage = s.stagedFor sid (okey 0x1020 1) false ++ piece
      ∧ t.obj 0x1020 2 = (if Config.imageSigned t.sec.fwImage then 1 else 2) ∧ .code sid 0x1020 1 rcOK ∈ t.out)
  ∧ (∀ (sid reqId id : Nat) (l : List GetEntry) (x : Sess) (s : State), msgFits (8 + 8 * l.length) = true → Fresh s sid reqId x → x.claim = false →
    ∃ t, exec (.snapshotRead sid reqId id l) s = .next t ∧ t.out = s.out ++ [.resp sid reqId 0x87 ((s.heard sid x).snapRead id l).1]
      ∧ t.snaps = s.snaps.map (fun y => if y.id = id then { y with read := true } else y) ∧ t.mons = s.mons)
  ∧ (∀ (sid reqId id : Nat) (x : Sess) (s : State), Fresh s sid reqId x → x.claim = false → s.snaps.any (fun y => y.id == id && y.st == 0) = true →
    ∃ t, exec (.snapshotCancel sid reqId id) s = .next t ∧ (∀ y, y ∈ t.snaps → y.id = id → y.st = 3)
      ∧ t.out = s.out ++ [.resp sid reqId 0x87 (codeBody rcOK)])
  ∧ (∀ (id : Nat) (x : Snap) (s : State), s.snaps.find? (fun y => y.id == id && y.st == 0) = some x →
      (s.snaps.filter (fun y => y.st == 1 || y.id == id)).length ≤ 2 →
    ∃ t y, exec (.snapshotEdge id) s = .next t ∧ y ∈ t.snaps ∧ y.id = id ∧ y.st = 1 ∧ y.t = x.t ∧ y.mons = (s.atTime x.t).copyMons x.t
      ∧ y.counters = (s.atTime x.t).allCounters ∧ t.obj 0xA000 3 = id ∧ t.tb.now = max s.tb.now x.t ∧ (x.clear = false → t.mons = s.mons))
  ∧ (∀ (sid m : Nat) (s : State), m < 18 → MayWrite s sid (0xA100 + m) 2 →
    ∃ t, exec (.monCtrlClear sid m) s = .next t ∧ (Table.get t.mons {} m).clearAt = some ((s.now / 10 + 1) * 10)
      ∧ .code sid (0xA100 + m) 2 rcOK ∈ t.out ∧ (∀ k, k ≠ m → Table.find t.mons k = Table.find s.mons k) ∧ t.objs = s.objs)
  ∧ (∀ (sid m v : Nat) (s : State), m < 18 → MayWrite s sid (0xA100 + m) 1 → v ||| 0x0FFF000F = 0x0FFF000F → scopeOk m v = true →
    ∃ t, exec (.monScopeWrite sid m v) s = .next t ∧ t.obj (0xA100 + m) 1 = v ∧ (Table.get t.mons {} m).clearAt = some ((s.now / 10 + 1) * 10)
      ∧ .code sid (0xA100 + m) 1 rcOK ∈ t.out ∧ (∀ k, k ≠ m → Table.find t.mons k = Table.find s.mons k))

/-- TAKE is refused, answered and numbered as the clauses state of R435. The layout of the answer is log entry 105. -/
def Obligations.SnapshotTakesFollowTheirRule : Prop :=
  (∀ (sid reqId u : Nat) (clear : Bool) (x : Sess) (s : State), Fresh s sid reqId x → x.claim = false → (u % 10 ≠ 0 ∨ u < s.now + 20000) →
    ∃ t, exec (.snapshotTake sid reqId u clear) s = .next t ∧ t.snaps = s.snaps ∧ t.nextSnap = s.nextSnap
      ∧ t.out = s.out ++ [.resp sid reqId 0x87 (takeBody rcBadValue 0 u)])
  ∧ (∀ (sid reqId u : Nat) (clear : Bool) (x : Sess) (s : State), Fresh s sid reqId x → x.claim = false → u % 10 = 0 → s.now + 20000 ≤ u →
      s.snaps.find? (fun y => y.st == 0 && y.t == u) = none → 4 ≤ (s.snaps.filter (fun y => y.st == 0)).length →
    ∃ t, exec (.snapshotTake sid reqId u clear) s = .next t ∧ t.snaps = s.snaps ∧ t.nextSnap = s.nextSnap
      ∧ t.out = s.out ++ [.resp sid reqId 0x87 (takeBody rcBusy 0 u)])
  ∧ (∀ (sid reqId u : Nat) (clear : Bool) (x : Sess) (y : Snap) (s : State), Fresh s sid reqId x → x.claim = false → u % 10 = 0 → s.now + 20000 ≤ u →
      s.snaps.find? (fun z => z.st == 0 && z.t == u) = some y →
    ∃ t z, exec (.snapshotTake sid reqId u clear) s = .next t ∧ t.nextSnap = s.nextSnap ∧ t.snaps.length = s.snaps.length ∧ z ∈ t.snaps ∧ z.id = y.id
      ∧ z.t = u ∧ z.st = 0 ∧ z.clear = (y.clear || clear) ∧ t.out = s.out ++ [.resp sid reqId 0x87 (takeBody rcOK y.id u)])
  ∧ (∀ (sid reqId u : Nat) (clear : Bool) (x : Sess) (s : State), Fresh s sid reqId x → x.claim = false → u % 10 = 0 → s.now + 20000 ≤ u →
      s.snaps.find? (fun y => y.st == 0 && y.t == u) = none → (s.snaps.filter (fun y => y.st == 0)).length < 4 →
    ∃ t y, exec (.snapshotTake sid reqId u clear) s = .next t ∧ y ∈ t.snaps ∧ y.id = s.nextSnap ∧ y.t = u ∧ y.st = 0 ∧ y.clear = clear ∧ y.sids = [sid]
      ∧ t.nextSnap = (if s.nextSnap = 0xFFFFFFFF then 1 else s.nextSnap + 1)
      ∧ t.out = s.out ++ [.resp sid reqId 0x87 (takeBody rcOK s.nextSnap u)] ∧ t.mons = s.mons)
  ∧ (∀ (mv straps : Nat) (dbg : Bool) (s : State), 19000 ≤ mv → mv ≤ 28000 → ∃ t, exec (.por mv straps dbg) s = .next t ∧ t.nextSnap = 1)

/-- The bin of a sample is the one that R429 finds with integers only. -/
def Obligations.MonitorBins : Prop :=
  ∀ v : Nat, (v < 16 → monBin v = 0) ∧ (524288 ≤ v → monBin v = 31)
    ∧ (16 ≤ v → v < 524288 → 1 ≤ monBin v ∧ monBin v ≤ 30 ∧ 256 * 2 ^ (monBin v - 1) ≤ v * v
        ∧ ∀ k, 1 ≤ k → k ≤ 30 → 256 * 2 ^ (k - 1) ≤ v * v → k ≤ monBin v)

/-- Resets of ports and engines, the ends of resets, and requests for and ends of power states act as the clauses state of R442 to R449. Corners are log
entries 123 to 126. -/
def Obligations.ResetsAndPowerComplete : Prop :=
  (∀ (p : Nat) (s : State), p < 128 → s.pw.powerAllowed = true → s.resets = [] → s.parkedDie (p / 16) = false → s.flexOn p = true →
    ∃ t, exec (.resetPort none false p) s = .next t ∧ t.resets = [{ kind := 4, unit := p, at_ := s.now }] ∧ (t.flexP p).st = 1
      ∧ ∀ e, e ∈ t.cmds → e.2.p ≠ p)
  ∧ (∀ (q : Nat) (s : State), q < 64 → s.pw.powerAllowed = true → s.resets = [] → s.parkedDie (q / 8) = false → s.peerOn q = true →
    ∃ t, exec (.resetPort none true q) s = .next t ∧ t.resets = [{ kind := 4, unit := q + 256, at_ := s.now }] ∧ (t.peerP q).st = 1)
  ∧ (∀ (sid p : Nat) (s : State), p < 128 → MayWrite s sid 0xB000 1 → s.pw.powerAllowed = true → s.resets = [] →
      s.parkedDie (p / 16) = false → s.flexOn p = true →
    ∃ t, exec (.resetPort (some sid) false p) s = .next t ∧ t.resets = [{ kind := 4, unit := p, at_ := s.now }] ∧ (t.flexP p).st = 1
      ∧ .code sid 0xB000 1 rcOK ∈ t.out ∧ ∀ e, e ∈ t.cmds → e.2.p ≠ p)
  ∧ (∀ (e : Nat) (s : State), e < 416 → s.pw.powerAllowed = true → s.resets = [] → s.parkedDie (e / 52) = false →
    ∃ t, exec (.resetEngine none e) s = .next t ∧ t.resets = [{ kind := 5, unit := e, at_ := s.now }] ∧ (t.engine e).st = 5
      ∧ (t.engine e).was = (s.engine e).st ∧ ∀ k, k ≠ e → t.engine k = s.engine k)
  ∧ (∀ (sid e : Nat) (s : State), e < 416 → MayWrite s sid 0xB000 1 → s.pw.powerAllowed = true → s.resets = [] → s.parkedDie (e / 52) = false →
    ∃ t, exec (.resetEngine (some sid) e) s = .next t ∧ t.resets = [{ kind := 5, unit := e, at_ := s.now }] ∧ (t.engine e).st = 5
      ∧ .code sid 0xB000 1 rcOK ∈ t.out)
  ∧ (∀ (sid p : Nat) (s : State), p < 128 → MayWrite s sid 0xB000 1 → s.resets = [] → s.parkedDie (p / 16) = true →
    ∃ t, exec (.resetPort (some sid) false p) s = .next t ∧ t.resets = [] ∧ t.cmds = s.cmds ∧ bit (t.obj 0xB000 4) 0 = true
      ∧ .code sid 0xB000 1 rcRefused ∈ t.out)
  ∧ (∀ (sid p : Nat) (s : State), p < 128 → MayWrite s sid 0xB000 1 → s.pw.powerAllowed = false →
    ∃ t, exec (.resetPort (some sid) false p) s = .next t ∧ t.resets = s.resets ∧ t.cmds = s.cmds ∧ t.pw = s.pw ∧ bit (t.obj 0xB000 4) 0 = true
      ∧ .code sid 0xB000 1 rcRefused ∈ t.out)
  ∧ (∀ (u : Nat) (r : ResetRun) (s : State), s.resets.find? (fun x => x.kind == 1 && x.unit == u) = some r → s.pw.stage = 6 ∨ s.pw.stage = 7 →
    exec (.resetDone 1 u) s = .next { s with resets := s.resets.filter (fun x => x != r) })
  ∧ (∀ (u : Nat) (r : ResetRun) (s : State), s.resets.find? (fun x => x.kind == 2 && x.unit == u) = some r →
    ∃ t, exec (.resetDone 2 u) s = .next t ∧ r ∉ t.resets ∧ t.mem = s.mem
      ∧ ∀ k d, (k, d) ∈ s.lds → (k, d.moveExpiry (s.now - r.at_) s.now) ∈ t.lds)
  ∧ (∀ (d : Nat) (r : ResetRun) (s : State), s.resets.find? (fun x => x.kind == 3 && x.unit == d) = some r → d < 8 → s.dieUp d = false →
      s.pw.powerAllowed = true → bit s.rel.retiredDies d = false →
    ∃ t, exec (.resetDone 3 d) s = .next t ∧ r ∉ t.resets ∧ t.dieUp d = true ∧ t.mem = s.mem
      ∧ ∀ x, x ∈ t.rel.engines → x.1 / 52 = d → x.2.st = 0 ∨ x.2.st = 1 ∨ x.2.st = 4)
  ∧ (∀ (p : Nat) (r : ResetRun) (s : State), s.resets.find? (fun x => x.kind == 4 && x.unit == p) = some r → p < 128 → s.role p ≠ 0 → (s.flexP p).st = 1 →
      (s.flexP p).stuck = false → s.ready = true → s.lanesUp (p / 16) = true →
    ∃ t, exec (.resetDone 4 p) s = .next t ∧ r ∉ t.resets ∧ (t.flexP p).st = 2 ∧ (t.flexP p).start = s.blob (0x3000 + 8 * p) 7 ∧ ∀ k, k ≠ p → t.flexP k = s.flexP k)
  ∧ (∀ (q : Nat) (r : ResetRun) (s : State), s.resets.find? (fun x => x.kind == 4 && x.unit == q + 256) = some r → s.peerOn q = true →
    ∃ t, exec (.resetDone 4 (q + 256)) s = .next t ∧ r ∉ t.resets ∧ (t.peerP q).st = (if s.lanesUp (q / 8) = true ∧ 5 ≤ s.pw.stage then 2 else 1))
  ∧ (∀ (e : Nat) (r : ResetRun) (s : State), s.resets.find? (fun x => x.kind == 5 && x.unit == e) = some r → (s.engine e).st = 5 →
      (s.engine e).spareFor = none →
    ∃ t, exec (.resetDone 5 e) s = .next t ∧ r ∉ t.resets ∧ (t.engine e).st = (s.engine e).was)
  ∧ (∀ (u : Nat) (r : ResetRun) (s : State), s.resets.find? (fun x => x.kind == 6 && x.unit == u) = some r → (∀ x, x ∈ s.resets → x.kind ≠ 1) →
    ∃ t, exec (.resetDone 6 u) s = .next t ∧ t.sec.debugOpen = true ∧ t.sec.debugOpening = false ∧ t.resets = [] ∧ t.cmds = [] ∧ t.seqs = []
      ∧ t.sess = [] ∧ t.sec.tenantKeys = [] ∧ t.sec.nonces = [] ∧ t.fmap.map = none ∧ (∀ q, q < 64 → t.peerOn q = false)
      ∧ bit (t.obj 0x1010 5) 2 = true)
  ∧ (∀ (u : Nat) (s : State), s.fmap.resetting = some u →
    ∃ t, exec .warmHoldExpiry s = .next t ∧ t.fmap.resetting = none ∧ t.tb.now = max s.tb.now u
      ∧ ((∃ q, q < 64 ∧ s.peerOn q = true ∧ (s.peerP q).st ≠ 4 ∧ (s.peerP q).st ≠ 5) → bit (t.obj 0xB000 4) 2 = true))
  ∧ (∀ (sid : Nat) (s : State), MayWrite s sid 0xB010 2 → s.resets = [] → s.pw.trans = none →
    ∃ t, exec (.powerD0 sid) s = .next t ∧ .code sid 0xB010 2 rcOK ∈ t.out
      ∧ t.pw = (if s.pw.pstate = 3 ∨ s.pw.parked ≠ 0 then { s.pw with trans := some (0, 0) } else { s.pw with pstate := 0 }))
  ∧ (∀ (sid : Nat) (s : State), MayWrite s sid 0xB010 2 → s.resets = [] → s.pw.trans = none → s.pw.pstate ≠ 3 → s.pw.parked = 0 →
    ∃ t, exec (.powerD1 sid) s = .next t ∧ .code sid 0xB010 2 rcOK ∈ t.out ∧ t.pw = { s.pw with pstate := 1 })
  ∧ (∀ (sid : Nat) (s : State), MayWrite s sid 0xB010 2 → s.resets = [] → s.pw.trans = none → (s.pw.pstate = 3 ∨ s.pw.parked ≠ 0) →
    ∃ t, exec (.powerD1 sid) s = .next t ∧ .code sid 0xB010 2 rcRefused ∈ t.out ∧ t.pw = s.pw ∧ bit (t.obj 0xB000 4) 1 = true)
  ∧ (∀ s : State, (s.pw.modEn = false ∨ s.pw.input = false ∨ s.pw.tripped = true) → exec .powerTransitionDone s = .next s)
  ∧ (∀ (mask : Nat) (s : State), s.pw.modEn = true → s.pw.input = true → s.pw.tripped = false → s.pw.trans = some (2, mask) →
    ∃ t, exec .powerTransitionDone s = .next t ∧ t.pw.trans = none ∧ t.pw.parked = mask
      ∧ ∀ d, d < 8 → bit mask d = true → bit s.pw.parked d = false → bit t.pw.domOn d = false ∧ bit t.pw.domOn (8 + d) = false)
  ∧ (∀ (m : Nat) (s : State), s.pw.modEn = true → s.pw.input = true → s.pw.tripped = false → s.pw.trans = some (3, m) → s.cmds = [] →
    ∃ t, exec .powerTransitionDone s = .next t ∧ t.pw.trans = none ∧ t.pw.pstate = 3 ∧ t.pw.parked = 0xFF ∧ t.pw.domOn = 0
      ∧ t.pw.grants = List.replicate 20 0)
  ∧ (∀ (m : Nat) (s : State), s.pw.trans = some (3, m) → s.cmds ≠ [] → exec .powerTransitionDone s = .next s)
  ∧ (∀ s : State, s.pw.modEn = true → s.pw.input = true → s.pw.tripped = false → s.pw.trans = some (0, 0) →
    ∃ t, exec .powerTransitionDone s = .next t ∧ t.pw.trans = none ∧ t.pw.pstate = 0 ∧ (∀ d, d < 8 → bit t.pw.parked d = false))

/-- Every command answers a next state from every state, whatever its operands, and leaves the queue to the step (the form of the queue is log entry 1).
An arbiter epoch, a spent grant, the widening of a link, a heat report and the loss and return of a reference clock end with the register that R42,
R43, R51, R54, R56 or R92 names; a packet of each built-in or composed recipe that passes every check of R199 stands among the device's commands
(R183, R200). -/
def Obligations.EveryCommandCompletes : Prop :=
  (∀ (c : Instr) (s : State), ∃ t, exec c s = .next t ∧ t.pending = s.pending)
  ∧ (∀ (inp : ArbInput) (s : State), ∃ t, exec (.arbiterEpoch inp) s = .next t ∧ t.pw.fresh = 0 ∧ t.pw.mv = inp.mv ∧ t.pw.temp = inp.temp)
  ∧ (∀ (d : Nat) (s : State), d < 8 → bit s.pw.domOn (8 + d) = true →
    ∃ t, exec (.enGrantSpent ⟨d, none⟩) s = .next t ∧ bit t.pw.enSpent d = true)
  ∧ (∀ (d u e : Nat) (x : Engine) (s : State), d < 8 → bit s.pw.domOn (8 + d) = true → e / 52 = d → Table.find s.rel.engines e = some x →
      x.part = some u →
    ∃ t, exec (.enGrantSpent ⟨d, some u⟩) s = .next t ∧ t.gated e = true)
  ∧ (∀ (d : Nat) (s : State), d < 8 → bit s.pw.domOn d = true → ∃ t, exec (.swGrantSpent d) s = .next t ∧ bit t.pw.swSpent d = true)
  ∧ (∀ (port : Nat) (s : State), (s.peerP port).st = 4 → ∃ t, exec (.linkWiden true port) s = .next t ∧ (t.peerP port).cur = (t.peerP port).lanes)
  ∧ (∀ (port : Nat) (s : State), (s.flexP port).st = 3 → ∃ t, exec (.linkWiden false port) s = .next t ∧ (t.flexP port).cur = (t.flexP port).width)
  ∧ (∀ (temp : Nat) (s : State), ∃ t, exec (.thermalDerate temp) s = .next t ∧ t.pw.temp = temp)
  ∧ (∀ (clk : Nat) (s : State), clk < 8 → ∃ t, exec (.refclkLoss clk) s = .next t ∧ bit t.pw.lref clk = false)
  ∧ (∀ (clk : Nat) (s : State), clk < 8 → s.pw.stage ≠ 0 → ∃ t, exec (.refclkRestored clk) s = .next t ∧ bit t.pw.lref clk = true)
  ∧ (∀ (p l r : Nat) (s : State), (s.admitted p l r 1 attendRecipe).isSome = true →
    ∃ t x, exec (.attend p l r) s = .next t ∧ t.cmd s.nextCmd = some x ∧ x.cameFrom p l r = true)
  ∧ (∀ (p l r : Nat) (s : State), (s.admitted p l r 2 bwdRecipe).isSome = true →
    ∃ t x, exec (.attendBwd p l r) s = .next t ∧ t.cmd s.nextCmd = some x ∧ x.cameFrom p l r = true)
  ∧ (∀ (p l r : Nat) (s : State), (s.admitted p l r 3 appendRecipe).isSome = true →
    ∃ t x, exec (.append p l r) s = .next t ∧ t.cmd s.nextCmd = some x ∧ x.cameFrom p l r = true)
  ∧ (∀ (p l r : Nat) (s : State), (s.admitted p l r 4 lookupRecipe).isSome = true →
    ∃ t x, exec (.lookupPrefix p l r) s = .next t ∧ t.cmd s.nextCmd = some x ∧ x.cameFrom p l r = true)
  ∧ (∀ (p l r : Nat) (s : State), (s.admitted p l r 5 publishPrefixRecipe).isSome = true →
    ∃ t x, exec (.publishPrefix p l r) s = .next t ∧ t.cmd s.nextCmd = some x ∧ x.cameFrom p l r = true)
  ∧ (∀ (p l r : Nat) (s : State), (s.admitted p l r 6 pinRecipe).isSome = true →
    ∃ t x, exec (.pin p l r) s = .next t ∧ t.cmd s.nextCmd = some x ∧ x.cameFrom p l r = true)
  ∧ (∀ (p l r : Nat) (s : State), (s.admitted p l r 7 unpinRecipe).isSome = true →
    ∃ t x, exec (.unpin p l r) s = .next t ∧ t.cmd s.nextCmd = some x ∧ x.cameFrom p l r = true)
  ∧ (∀ (p l r : Nat) (s : State), (s.admitted p l r 8 migrateRecipe).isSome = true →
    ∃ t x, exec (.migrate p l r) s = .next t ∧ t.cmd s.nextCmd = some x ∧ x.cameFrom p l r = true)
  ∧ (∀ (p l r : Nat) (s : State), (s.admitted p l r 9 (collRecipe 9)).isSome = true →
    ∃ t x, exec (.allreduce p l r) s = .next t ∧ t.cmd s.nextCmd = some x ∧ x.cameFrom p l r = true)
  ∧ (∀ (p l r : Nat) (s : State), (s.admitted p l r 10 (collRecipe 10)).isSome = true →
    ∃ t x, exec (.reduceScatter p l r) s = .next t ∧ t.cmd s.nextCmd = some x ∧ x.cameFrom p l r = true)
  ∧ (∀ (p l r : Nat) (s : State), (s.admitted p l r 11 (collRecipe 11)).isSome = true →
    ∃ t x, exec (.allgather p l r) s = .next t ∧ t.cmd s.nextCmd = some x ∧ x.cameFrom p l r = true)
  ∧ (∀ (p l r : Nat) (s : State), (s.admitted p l r 12 gatherRecipe).isSome = true →
    ∃ t x, exec (.gatherRows p l r) s = .next t ∧ t.cmd s.nextCmd = some x ∧ x.cameFrom p l r = true)
  ∧ (∀ (p l r : Nat) (s : State), (s.admitted p l r 13 (collRecipe 13)).isSome = true →
    ∃ t x, exec (.filterTopk p l r) s = .next t ∧ t.cmd s.nextCmd = some x ∧ x.cameFrom p l r = true)
  ∧ (∀ (p l r : Nat) (s : State), (s.admitted p l r 0x10 openRecipe).isSome = true →
    ∃ t x, exec (.openSeq p l r) s = .next t ∧ t.cmd s.nextCmd = some x ∧ x.cameFrom p l r = true)
  ∧ (∀ (p l r : Nat) (s : State), (s.admitted p l r 0x11 closeRecipe).isSome = true →
    ∃ t x, exec (.closeSeq p l r) s = .next t ∧ t.cmd s.nextCmd = some x ∧ x.cameFrom p l r = true)
  ∧ (∀ (p l r : Nat) (s : State), (s.admitted p l r 0x20 palRecipe).isSome = true →
    ∃ t x, exec (.installPalette p l r) s = .next t ∧ t.cmd s.nextCmd = some x ∧ x.cameFrom p l r = true)
  ∧ (∀ (p l r : Nat) (s : State), (s.admitted p l r 0x21 freePalRecipe).isSome = true →
    ∃ t x, exec (.freePalette p l r) s = .next t ∧ t.cmd s.nextCmd = some x ∧ x.cameFrom p l r = true)
  ∧ (∀ (p l r : Nat) (s : State), (s.admitted p l r 0x22 loadRecipe).isSome = true →
    ∃ t x, exec (.loadTensor p l r) s = .next t ∧ t.cmd s.nextCmd = some x ∧ x.cameFrom p l r = true)
  ∧ (∀ (p l r : Nat) (s : State), (s.admitted p l r 0x23 freeTensorRecipe).isSome = true →
    ∃ t x, exec (.freeTensor p l r) s = .next t ∧ t.cmd s.nextCmd = some x ∧ x.cameFrom p l r = true)
  ∧ (∀ (p l r : Nat) (s : State), (s.admitted p l r 0x30 publishRun).isSome = true →
    ∃ t x, exec (.publishExtent p l r) s = .next t ∧ t.cmd s.nextCmd = some x ∧ x.cameFrom p l r = true)
  ∧ (∀ (p l r : Nat) (s : State), (s.admitted p l r 0xF0 describeRecipe).isSome = true →
    ∃ t x, exec (.describe p l r) s = .next t ∧ t.cmd s.nextCmd = some x ∧ x.cameFrom p l r = true)
  ∧ (∀ (p l r : Nat) (s : State), (s.admitted p l r 0xF1 installRecipeRun).isSome = true →
    ∃ t x, exec (.installRecipe p l r) s = .next t ∧ t.cmd s.nextCmd = some x ∧ x.cameFrom p l r = true)
  ∧ (∀ (p l r : Nat) (s : State), (s.admitted p l r 0xF2 removeRecipeRun).isSome = true →
    ∃ t x, exec (.removeRecipe p l r) s = .next t ∧ t.cmd s.nextCmd = some x ∧ x.cameFrom p l r = true)
  ∧ (∀ (p l r : Nat) (s : State), (s.admitted p l r 0 composedRecipe).isSome = true →
    ∃ t x, exec (.composedRecipe p l r) s = .next t ∧ t.cmd s.nextCmd = some x ∧ x.cameFrom p l r = true)
end

