-- ==== Sys2Proof/Laws/Tables.lean ====
section
/-! SUPPORT. Sparse tables: what is found after a put or a removal. -/

namespace Sys2Proof

@[simp] theorem Table.find_put {α : Type} (t : Table α) (k : Nat) (v : α) : Table.find (Table.put t k v) k = some v := by
  induction t with
  | nil => simp [Table.put, Table.find]
  | cons c t ih =>
    obtain ⟨j, w⟩ := c
    simp only [Table.put]
    split
    · simp [Table.find]
    · split
      · simp [Table.find]
      · rw [Table.find, if_neg (fun e => by simp_all)]; exact ih

theorem Table.find_put_ne {α : Type} (t : Table α) {k j : Nat} (v : α) (h : j ≠ k) : Table.find (Table.put t k v) j = Table.find t j := by
  induction t with
  | nil => simp [Table.put, Table.find, Ne.symm h]
  | cons c t ih =>
    obtain ⟨i, w⟩ := c
    simp only [Table.put]
    split
    · simp [Table.find, Ne.symm h]
    · split
      · rename_i e; subst e; simp [Table.find, Ne.symm h]
      · simp only [Table.find, ih]

@[simp] theorem Table.get_put {α : Type} (t : Table α) (d : α) (k : Nat) (v : α) : Table.get (Table.put t k v) d k = v := by
  simp [Table.get]

theorem Table.get_put_ne {α : Type} (t : Table α) (d : α) {k j : Nat} (v : α) (h : j ≠ k) : Table.get (Table.put t k v) d j = Table.get t d j := by
  simp [Table.get, Table.find_put_ne _ _ h]

@[simp] theorem Table.find_del {α : Type} (t : Table α) (k : Nat) : Table.find (Table.del t k) k = none := by
  induction t with
  | nil => rfl
  | cons c t ih =>
    obtain ⟨i, w⟩ := c
    unfold Table.del at ih ⊢
    rw [List.filter_cons]
    split
    · rename_i h
      have hi : i ≠ k := by simpa using h
      rw [Table.find, if_neg hi]; exact ih
    · exact ih

theorem Table.find_del_ne {α : Type} (t : Table α) {k j : Nat} (h : j ≠ k) : Table.find (Table.del t k) j = Table.find t j := by
  induction t with
  | nil => rfl
  | cons c t ih =>
    obtain ⟨i, w⟩ := c
    unfold Table.del at ih ⊢
    rw [List.filter_cons]
    split
    · simp only [Table.find, ih]
    · rename_i hk
      have hi : i = k := by simpa using hk
      rw [Table.find, if_neg (fun e => h (by rw [← e, hi]))]; exact ih

end Sys2Proof
end

