-- ==== Sys2Proof/Laws/State.lean ====
section
/-! SUPPORT. What each plain update of the state leaves in each field: one lemma per field, all true by unfolding. -/

namespace Sys2Proof.Machine

open Sys2Proof

/-! ### emit: every field but `out` stands -/

@[simp] theorem State.emit_pending (s : State) (o : Output) : (s.emit o).pending = s.pending := rfl
@[simp] theorem State.emit_out (s : State) (o : Output) : (s.emit o).out = s.out ++ [o] := rfl
@[simp] theorem State.emit_tb (s : State) (o : Output) : (s.emit o).tb = s.tb := rfl
@[simp] theorem State.emit_pw (s : State) (o : Output) : (s.emit o).pw = s.pw := rfl
@[simp] theorem State.emit_objs (s : State) (o : Output) : (s.emit o).objs = s.objs := rfl
@[simp] theorem State.emit_blobs (s : State) (o : Output) : (s.emit o).blobs = s.blobs := rfl
@[simp] theorem State.emit_flex (s : State) (o : Output) : (s.emit o).flex = s.flex := rfl
@[simp] theorem State.emit_peer (s : State) (o : Output) : (s.emit o).peer = s.peer := rfl
@[simp] theorem State.emit_cores (s : State) (o : Output) : (s.emit o).cores = s.cores := rfl
@[simp] theorem State.emit_ingress (s : State) (o : Output) : (s.emit o).ingress = s.ingress := rfl
@[simp] theorem State.emit_extents (s : State) (o : Output) : (s.emit o).extents = s.extents := rfl
@[simp] theorem State.emit_trays (s : State) (o : Output) : (s.emit o).trays = s.trays := rfl
@[simp] theorem State.emit_nextEid (s : State) (o : Output) : (s.emit o).nextEid = s.nextEid := rfl
@[simp] theorem State.emit_sets (s : State) (o : Output) : (s.emit o).sets = s.sets := rfl
@[simp] theorem State.emit_lds (s : State) (o : Output) : (s.emit o).lds = s.lds := rfl
@[simp] theorem State.emit_rrLd (s : State) (o : Output) : (s.emit o).rrLd = s.rrLd := rfl
@[simp] theorem State.emit_mem (s : State) (o : Output) : (s.emit o).mem = s.mem := rfl
@[simp] theorem State.emit_poison (s : State) (o : Output) : (s.emit o).poison = s.poison := rfl
@[simp] theorem State.emit_writes (s : State) (o : Output) : (s.emit o).writes = s.writes := rfl
@[simp] theorem State.emit_nextWid (s : State) (o : Output) : (s.emit o).nextWid = s.nextWid := rfl
@[simp] theorem State.emit_heldAcc (s : State) (o : Output) : (s.emit o).heldAcc = s.heldAcc := rfl
@[simp] theorem State.emit_heldTiles (s : State) (o : Output) : (s.emit o).heldTiles = s.heldTiles := rfl
@[simp] theorem State.emit_flagMark (s : State) (o : Output) : (s.emit o).flagMark = s.flagMark := rfl
@[simp] theorem State.emit_lines (s : State) (o : Output) : (s.emit o).lines = s.lines := rfl
@[simp] theorem State.emit_caches (s : State) (o : Output) : (s.emit o).caches = s.caches := rfl
@[simp] theorem State.emit_msgs (s : State) (o : Output) : (s.emit o).msgs = s.msgs := rfl
@[simp] theorem State.emit_fences (s : State) (o : Output) : (s.emit o).fences = s.fences := rfl
@[simp] theorem State.emit_recipes (s : State) (o : Output) : (s.emit o).recipes = s.recipes := rfl
@[simp] theorem State.emit_tensors (s : State) (o : Output) : (s.emit o).tensors = s.tensors := rfl
@[simp] theorem State.emit_cmds (s : State) (o : Output) : (s.emit o).cmds = s.cmds := rfl
@[simp] theorem State.emit_nextCmd (s : State) (o : Output) : (s.emit o).nextCmd = s.nextCmd := rfl
@[simp] theorem State.emit_pend (s : State) (o : Output) : (s.emit o).pend = s.pend := rfl
@[simp] theorem State.emit_colls (s : State) (o : Output) : (s.emit o).colls = s.colls := rfl
@[simp] theorem State.emit_seqs (s : State) (o : Output) : (s.emit o).seqs = s.seqs := rfl
@[simp] theorem State.emit_groups (s : State) (o : Output) : (s.emit o).groups = s.groups := rfl
@[simp] theorem State.emit_prefixes (s : State) (o : Output) : (s.emit o).prefixes = s.prefixes := rfl
@[simp] theorem State.emit_fmap (s : State) (o : Output) : (s.emit o).fmap = s.fmap := rfl
@[simp] theorem State.emit_slots (s : State) (o : Output) : (s.emit o).slots = s.slots := rfl
@[simp] theorem State.emit_psets (s : State) (o : Output) : (s.emit o).psets = s.psets := rfl
@[simp] theorem State.emit_buckets (s : State) (o : Output) : (s.emit o).buckets = s.buckets := rfl
@[simp] theorem State.emit_refillAt (s : State) (o : Output) : (s.emit o).refillAt = s.refillAt := rfl
@[simp] theorem State.emit_reports (s : State) (o : Output) : (s.emit o).reports = s.reports := rfl
@[simp] theorem State.emit_reportAt (s : State) (o : Output) : (s.emit o).reportAt = s.reportAt := rfl
@[simp] theorem State.emit_sec (s : State) (o : Output) : (s.emit o).sec = s.sec := rfl
@[simp] theorem State.emit_sess (s : State) (o : Output) : (s.emit o).sess = s.sess := rfl
@[simp] theorem State.emit_nextSid (s : State) (o : Output) : (s.emit o).nextSid = s.nextSid := rfl
@[simp] theorem State.emit_dupAddr (s : State) (o : Output) : (s.emit o).dupAddr = s.dupAddr := rfl
@[simp] theorem State.emit_pieces (s : State) (o : Output) : (s.emit o).pieces = s.pieces := rfl
@[simp] theorem State.emit_relays (s : State) (o : Output) : (s.emit o).relays = s.relays := rfl
@[simp] theorem State.emit_shadows (s : State) (o : Output) : (s.emit o).shadows = s.shadows := rfl
@[simp] theorem State.emit_mons (s : State) (o : Output) : (s.emit o).mons = s.mons := rfl
@[simp] theorem State.emit_snaps (s : State) (o : Output) : (s.emit o).snaps = s.snaps := rfl
@[simp] theorem State.emit_nextSnap (s : State) (o : Output) : (s.emit o).nextSnap = s.nextSnap := rfl
@[simp] theorem State.emit_rel (s : State) (o : Output) : (s.emit o).rel = s.rel := rfl
@[simp] theorem State.emit_resets (s : State) (o : Output) : (s.emit o).resets = s.resets := rfl
@[simp] theorem State.emit_freeCtr (s : State) (o : Output) : (s.emit o).freeCtr = s.freeCtr := rfl
@[simp] theorem State.emit_remote (s : State) (o : Output) : (s.emit o).remote = s.remote := rfl
@[simp] theorem State.emit_nextTag (s : State) (o : Output) : (s.emit o).nextTag = s.nextTag := rfl
@[simp] theorem State.emit_copies (s : State) (o : Output) : (s.emit o).copies = s.copies := rfl
@[simp] theorem State.emit_heldMoves (s : State) (o : Output) : (s.emit o).heldMoves = s.heldMoves := rfl

/-! ### emits: every field but `out` stands -/

@[simp] theorem State.emits_pending (s : State) (l : List Output) : (s.emits l).pending = s.pending := rfl
@[simp] theorem State.emits_out (s : State) (l : List Output) : (s.emits l).out = s.out ++ l := rfl
@[simp] theorem State.emits_tb (s : State) (l : List Output) : (s.emits l).tb = s.tb := rfl
@[simp] theorem State.emits_pw (s : State) (l : List Output) : (s.emits l).pw = s.pw := rfl
@[simp] theorem State.emits_objs (s : State) (l : List Output) : (s.emits l).objs = s.objs := rfl
@[simp] theorem State.emits_blobs (s : State) (l : List Output) : (s.emits l).blobs = s.blobs := rfl
@[simp] theorem State.emits_flex (s : State) (l : List Output) : (s.emits l).flex = s.flex := rfl
@[simp] theorem State.emits_peer (s : State) (l : List Output) : (s.emits l).peer = s.peer := rfl
@[simp] theorem State.emits_cores (s : State) (l : List Output) : (s.emits l).cores = s.cores := rfl
@[simp] theorem State.emits_ingress (s : State) (l : List Output) : (s.emits l).ingress = s.ingress := rfl
@[simp] theorem State.emits_extents (s : State) (l : List Output) : (s.emits l).extents = s.extents := rfl
@[simp] theorem State.emits_trays (s : State) (l : List Output) : (s.emits l).trays = s.trays := rfl
@[simp] theorem State.emits_nextEid (s : State) (l : List Output) : (s.emits l).nextEid = s.nextEid := rfl
@[simp] theorem State.emits_sets (s : State) (l : List Output) : (s.emits l).sets = s.sets := rfl
@[simp] theorem State.emits_lds (s : State) (l : List Output) : (s.emits l).lds = s.lds := rfl
@[simp] theorem State.emits_rrLd (s : State) (l : List Output) : (s.emits l).rrLd = s.rrLd := rfl
@[simp] theorem State.emits_mem (s : State) (l : List Output) : (s.emits l).mem = s.mem := rfl
@[simp] theorem State.emits_poison (s : State) (l : List Output) : (s.emits l).poison = s.poison := rfl
@[simp] theorem State.emits_writes (s : State) (l : List Output) : (s.emits l).writes = s.writes := rfl
@[simp] theorem State.emits_nextWid (s : State) (l : List Output) : (s.emits l).nextWid = s.nextWid := rfl
@[simp] theorem State.emits_heldAcc (s : State) (l : List Output) : (s.emits l).heldAcc = s.heldAcc := rfl
@[simp] theorem State.emits_heldTiles (s : State) (l : List Output) : (s.emits l).heldTiles = s.heldTiles := rfl
@[simp] theorem State.emits_flagMark (s : State) (l : List Output) : (s.emits l).flagMark = s.flagMark := rfl
@[simp] theorem State.emits_lines (s : State) (l : List Output) : (s.emits l).lines = s.lines := rfl
@[simp] theorem State.emits_caches (s : State) (l : List Output) : (s.emits l).caches = s.caches := rfl
@[simp] theorem State.emits_msgs (s : State) (l : List Output) : (s.emits l).msgs = s.msgs := rfl
@[simp] theorem State.emits_fences (s : State) (l : List Output) : (s.emits l).fences = s.fences := rfl
@[simp] theorem State.emits_recipes (s : State) (l : List Output) : (s.emits l).recipes = s.recipes := rfl
@[simp] theorem State.emits_tensors (s : State) (l : List Output) : (s.emits l).tensors = s.tensors := rfl
@[simp] theorem State.emits_cmds (s : State) (l : List Output) : (s.emits l).cmds = s.cmds := rfl
@[simp] theorem State.emits_nextCmd (s : State) (l : List Output) : (s.emits l).nextCmd = s.nextCmd := rfl
@[simp] theorem State.emits_pend (s : State) (l : List Output) : (s.emits l).pend = s.pend := rfl
@[simp] theorem State.emits_colls (s : State) (l : List Output) : (s.emits l).colls = s.colls := rfl
@[simp] theorem State.emits_seqs (s : State) (l : List Output) : (s.emits l).seqs = s.seqs := rfl
@[simp] theorem State.emits_groups (s : State) (l : List Output) : (s.emits l).groups = s.groups := rfl
@[simp] theorem State.emits_prefixes (s : State) (l : List Output) : (s.emits l).prefixes = s.prefixes := rfl
@[simp] theorem State.emits_fmap (s : State) (l : List Output) : (s.emits l).fmap = s.fmap := rfl
@[simp] theorem State.emits_slots (s : State) (l : List Output) : (s.emits l).slots = s.slots := rfl
@[simp] theorem State.emits_psets (s : State) (l : List Output) : (s.emits l).psets = s.psets := rfl
@[simp] theorem State.emits_buckets (s : State) (l : List Output) : (s.emits l).buckets = s.buckets := rfl
@[simp] theorem State.emits_refillAt (s : State) (l : List Output) : (s.emits l).refillAt = s.refillAt := rfl
@[simp] theorem State.emits_reports (s : State) (l : List Output) : (s.emits l).reports = s.reports := rfl
@[simp] theorem State.emits_reportAt (s : State) (l : List Output) : (s.emits l).reportAt = s.reportAt := rfl
@[simp] theorem State.emits_sec (s : State) (l : List Output) : (s.emits l).sec = s.sec := rfl
@[simp] theorem State.emits_sess (s : State) (l : List Output) : (s.emits l).sess = s.sess := rfl
@[simp] theorem State.emits_nextSid (s : State) (l : List Output) : (s.emits l).nextSid = s.nextSid := rfl
@[simp] theorem State.emits_dupAddr (s : State) (l : List Output) : (s.emits l).dupAddr = s.dupAddr := rfl
@[simp] theorem State.emits_pieces (s : State) (l : List Output) : (s.emits l).pieces = s.pieces := rfl
@[simp] theorem State.emits_relays (s : State) (l : List Output) : (s.emits l).relays = s.relays := rfl
@[simp] theorem State.emits_shadows (s : State) (l : List Output) : (s.emits l).shadows = s.shadows := rfl
@[simp] theorem State.emits_mons (s : State) (l : List Output) : (s.emits l).mons = s.mons := rfl
@[simp] theorem State.emits_snaps (s : State) (l : List Output) : (s.emits l).snaps = s.snaps := rfl
@[simp] theorem State.emits_nextSnap (s : State) (l : List Output) : (s.emits l).nextSnap = s.nextSnap := rfl
@[simp] theorem State.emits_rel (s : State) (l : List Output) : (s.emits l).rel = s.rel := rfl
@[simp] theorem State.emits_resets (s : State) (l : List Output) : (s.emits l).resets = s.resets := rfl
@[simp] theorem State.emits_freeCtr (s : State) (l : List Output) : (s.emits l).freeCtr = s.freeCtr := rfl
@[simp] theorem State.emits_remote (s : State) (l : List Output) : (s.emits l).remote = s.remote := rfl
@[simp] theorem State.emits_nextTag (s : State) (l : List Output) : (s.emits l).nextTag = s.nextTag := rfl
@[simp] theorem State.emits_copies (s : State) (l : List Output) : (s.emits l).copies = s.copies := rfl
@[simp] theorem State.emits_heldMoves (s : State) (l : List Output) : (s.emits l).heldMoves = s.heldMoves := rfl

/-! ### atTime: every field but `tb` stands -/

@[simp] theorem State.atTime_pending (s : State) (t : Nat) : (s.atTime t).pending = s.pending := rfl
@[simp] theorem State.atTime_out (s : State) (t : Nat) : (s.atTime t).out = s.out := rfl
@[simp] theorem State.atTime_pw (s : State) (t : Nat) : (s.atTime t).pw = s.pw := rfl
@[simp] theorem State.atTime_objs (s : State) (t : Nat) : (s.atTime t).objs = s.objs := rfl
@[simp] theorem State.atTime_blobs (s : State) (t : Nat) : (s.atTime t).blobs = s.blobs := rfl
@[simp] theorem State.atTime_flex (s : State) (t : Nat) : (s.atTime t).flex = s.flex := rfl
@[simp] theorem State.atTime_peer (s : State) (t : Nat) : (s.atTime t).peer = s.peer := rfl
@[simp] theorem State.atTime_cores (s : State) (t : Nat) : (s.atTime t).cores = s.cores := rfl
@[simp] theorem State.atTime_ingress (s : State) (t : Nat) : (s.atTime t).ingress = s.ingress := rfl
@[simp] theorem State.atTime_extents (s : State) (t : Nat) : (s.atTime t).extents = s.extents := rfl
@[simp] theorem State.atTime_trays (s : State) (t : Nat) : (s.atTime t).trays = s.trays := rfl
@[simp] theorem State.atTime_nextEid (s : State) (t : Nat) : (s.atTime t).nextEid = s.nextEid := rfl
@[simp] theorem State.atTime_sets (s : State) (t : Nat) : (s.atTime t).sets = s.sets := rfl
@[simp] theorem State.atTime_lds (s : State) (t : Nat) : (s.atTime t).lds = s.lds := rfl
@[simp] theorem State.atTime_rrLd (s : State) (t : Nat) : (s.atTime t).rrLd = s.rrLd := rfl
@[simp] theorem State.atTime_mem (s : State) (t : Nat) : (s.atTime t).mem = s.mem := rfl
@[simp] theorem State.atTime_poison (s : State) (t : Nat) : (s.atTime t).poison = s.poison := rfl
@[simp] theorem State.atTime_writes (s : State) (t : Nat) : (s.atTime t).writes = s.writes := rfl
@[simp] theorem State.atTime_nextWid (s : State) (t : Nat) : (s.atTime t).nextWid = s.nextWid := rfl
@[simp] theorem State.atTime_heldAcc (s : State) (t : Nat) : (s.atTime t).heldAcc = s.heldAcc := rfl
@[simp] theorem State.atTime_heldTiles (s : State) (t : Nat) : (s.atTime t).heldTiles = s.heldTiles := rfl
@[simp] theorem State.atTime_flagMark (s : State) (t : Nat) : (s.atTime t).flagMark = s.flagMark := rfl
@[simp] theorem State.atTime_lines (s : State) (t : Nat) : (s.atTime t).lines = s.lines := rfl
@[simp] theorem State.atTime_caches (s : State) (t : Nat) : (s.atTime t).caches = s.caches := rfl
@[simp] theorem State.atTime_msgs (s : State) (t : Nat) : (s.atTime t).msgs = s.msgs := rfl
@[simp] theorem State.atTime_fences (s : State) (t : Nat) : (s.atTime t).fences = s.fences := rfl
@[simp] theorem State.atTime_recipes (s : State) (t : Nat) : (s.atTime t).recipes = s.recipes := rfl
@[simp] theorem State.atTime_tensors (s : State) (t : Nat) : (s.atTime t).tensors = s.tensors := rfl
@[simp] theorem State.atTime_cmds (s : State) (t : Nat) : (s.atTime t).cmds = s.cmds := rfl
@[simp] theorem State.atTime_nextCmd (s : State) (t : Nat) : (s.atTime t).nextCmd = s.nextCmd := rfl
@[simp] theorem State.atTime_pend (s : State) (t : Nat) : (s.atTime t).pend = s.pend := rfl
@[simp] theorem State.atTime_colls (s : State) (t : Nat) : (s.atTime t).colls = s.colls := rfl
@[simp] theorem State.atTime_seqs (s : State) (t : Nat) : (s.atTime t).seqs = s.seqs := rfl
@[simp] theorem State.atTime_groups (s : State) (t : Nat) : (s.atTime t).groups = s.groups := rfl
@[simp] theorem State.atTime_prefixes (s : State) (t : Nat) : (s.atTime t).prefixes = s.prefixes := rfl
@[simp] theorem State.atTime_fmap (s : State) (t : Nat) : (s.atTime t).fmap = s.fmap := rfl
@[simp] theorem State.atTime_slots (s : State) (t : Nat) : (s.atTime t).slots = s.slots := rfl
@[simp] theorem State.atTime_psets (s : State) (t : Nat) : (s.atTime t).psets = s.psets := rfl
@[simp] theorem State.atTime_buckets (s : State) (t : Nat) : (s.atTime t).buckets = s.buckets := rfl
@[simp] theorem State.atTime_refillAt (s : State) (t : Nat) : (s.atTime t).refillAt = s.refillAt := rfl
@[simp] theorem State.atTime_reports (s : State) (t : Nat) : (s.atTime t).reports = s.reports := rfl
@[simp] theorem State.atTime_reportAt (s : State) (t : Nat) : (s.atTime t).reportAt = s.reportAt := rfl
@[simp] theorem State.atTime_sec (s : State) (t : Nat) : (s.atTime t).sec = s.sec := rfl
@[simp] theorem State.atTime_sess (s : State) (t : Nat) : (s.atTime t).sess = s.sess := rfl
@[simp] theorem State.atTime_nextSid (s : State) (t : Nat) : (s.atTime t).nextSid = s.nextSid := rfl
@[simp] theorem State.atTime_dupAddr (s : State) (t : Nat) : (s.atTime t).dupAddr = s.dupAddr := rfl
@[simp] theorem State.atTime_pieces (s : State) (t : Nat) : (s.atTime t).pieces = s.pieces := rfl
@[simp] theorem State.atTime_relays (s : State) (t : Nat) : (s.atTime t).relays = s.relays := rfl
@[simp] theorem State.atTime_shadows (s : State) (t : Nat) : (s.atTime t).shadows = s.shadows := rfl
@[simp] theorem State.atTime_mons (s : State) (t : Nat) : (s.atTime t).mons = s.mons := rfl
@[simp] theorem State.atTime_snaps (s : State) (t : Nat) : (s.atTime t).snaps = s.snaps := rfl
@[simp] theorem State.atTime_nextSnap (s : State) (t : Nat) : (s.atTime t).nextSnap = s.nextSnap := rfl
@[simp] theorem State.atTime_rel (s : State) (t : Nat) : (s.atTime t).rel = s.rel := rfl
@[simp] theorem State.atTime_resets (s : State) (t : Nat) : (s.atTime t).resets = s.resets := rfl
@[simp] theorem State.atTime_freeCtr (s : State) (t : Nat) : (s.atTime t).freeCtr = s.freeCtr := rfl
@[simp] theorem State.atTime_remote (s : State) (t : Nat) : (s.atTime t).remote = s.remote := rfl
@[simp] theorem State.atTime_nextTag (s : State) (t : Nat) : (s.atTime t).nextTag = s.nextTag := rfl
@[simp] theorem State.atTime_copies (s : State) (t : Nat) : (s.atTime t).copies = s.copies := rfl
@[simp] theorem State.atTime_heldMoves (s : State) (t : Nat) : (s.atTime t).heldMoves = s.heldMoves := rfl

/-! ### setObjK: every field but `objs` stands -/

@[simp] theorem State.setObjK_pending (s : State) (k v : Nat) : (s.setObjK k v).pending = s.pending := rfl
@[simp] theorem State.setObjK_out (s : State) (k v : Nat) : (s.setObjK k v).out = s.out := rfl
@[simp] theorem State.setObjK_tb (s : State) (k v : Nat) : (s.setObjK k v).tb = s.tb := rfl
@[simp] theorem State.setObjK_pw (s : State) (k v : Nat) : (s.setObjK k v).pw = s.pw := rfl
@[simp] theorem State.setObjK_blobs (s : State) (k v : Nat) : (s.setObjK k v).blobs = s.blobs := rfl
@[simp] theorem State.setObjK_flex (s : State) (k v : Nat) : (s.setObjK k v).flex = s.flex := rfl
@[simp] theorem State.setObjK_peer (s : State) (k v : Nat) : (s.setObjK k v).peer = s.peer := rfl
@[simp] theorem State.setObjK_cores (s : State) (k v : Nat) : (s.setObjK k v).cores = s.cores := rfl
@[simp] theorem State.setObjK_ingress (s : State) (k v : Nat) : (s.setObjK k v).ingress = s.ingress := rfl
@[simp] theorem State.setObjK_extents (s : State) (k v : Nat) : (s.setObjK k v).extents = s.extents := rfl
@[simp] theorem State.setObjK_trays (s : State) (k v : Nat) : (s.setObjK k v).trays = s.trays := rfl
@[simp] theorem State.setObjK_nextEid (s : State) (k v : Nat) : (s.setObjK k v).nextEid = s.nextEid := rfl
@[simp] theorem State.setObjK_sets (s : State) (k v : Nat) : (s.setObjK k v).sets = s.sets := rfl
@[simp] theorem State.setObjK_lds (s : State) (k v : Nat) : (s.setObjK k v).lds = s.lds := rfl
@[simp] theorem State.setObjK_rrLd (s : State) (k v : Nat) : (s.setObjK k v).rrLd = s.rrLd := rfl
@[simp] theorem State.setObjK_mem (s : State) (k v : Nat) : (s.setObjK k v).mem = s.mem := rfl
@[simp] theorem State.setObjK_poison (s : State) (k v : Nat) : (s.setObjK k v).poison = s.poison := rfl
@[simp] theorem State.setObjK_writes (s : State) (k v : Nat) : (s.setObjK k v).writes = s.writes := rfl
@[simp] theorem State.setObjK_nextWid (s : State) (k v : Nat) : (s.setObjK k v).nextWid = s.nextWid := rfl
@[simp] theorem State.setObjK_heldAcc (s : State) (k v : Nat) : (s.setObjK k v).heldAcc = s.heldAcc := rfl
@[simp] theorem State.setObjK_heldTiles (s : State) (k v : Nat) : (s.setObjK k v).heldTiles = s.heldTiles := rfl
@[simp] theorem State.setObjK_flagMark (s : State) (k v : Nat) : (s.setObjK k v).flagMark = s.flagMark := rfl
@[simp] theorem State.setObjK_lines (s : State) (k v : Nat) : (s.setObjK k v).lines = s.lines := rfl
@[simp] theorem State.setObjK_caches (s : State) (k v : Nat) : (s.setObjK k v).caches = s.caches := rfl
@[simp] theorem State.setObjK_msgs (s : State) (k v : Nat) : (s.setObjK k v).msgs = s.msgs := rfl
@[simp] theorem State.setObjK_fences (s : State) (k v : Nat) : (s.setObjK k v).fences = s.fences := rfl
@[simp] theorem State.setObjK_recipes (s : State) (k v : Nat) : (s.setObjK k v).recipes = s.recipes := rfl
@[simp] theorem State.setObjK_tensors (s : State) (k v : Nat) : (s.setObjK k v).tensors = s.tensors := rfl
@[simp] theorem State.setObjK_cmds (s : State) (k v : Nat) : (s.setObjK k v).cmds = s.cmds := rfl
@[simp] theorem State.setObjK_nextCmd (s : State) (k v : Nat) : (s.setObjK k v).nextCmd = s.nextCmd := rfl
@[simp] theorem State.setObjK_pend (s : State) (k v : Nat) : (s.setObjK k v).pend = s.pend := rfl
@[simp] theorem State.setObjK_colls (s : State) (k v : Nat) : (s.setObjK k v).colls = s.colls := rfl
@[simp] theorem State.setObjK_seqs (s : State) (k v : Nat) : (s.setObjK k v).seqs = s.seqs := rfl
@[simp] theorem State.setObjK_groups (s : State) (k v : Nat) : (s.setObjK k v).groups = s.groups := rfl
@[simp] theorem State.setObjK_prefixes (s : State) (k v : Nat) : (s.setObjK k v).prefixes = s.prefixes := rfl
@[simp] theorem State.setObjK_fmap (s : State) (k v : Nat) : (s.setObjK k v).fmap = s.fmap := rfl
@[simp] theorem State.setObjK_slots (s : State) (k v : Nat) : (s.setObjK k v).slots = s.slots := rfl
@[simp] theorem State.setObjK_psets (s : State) (k v : Nat) : (s.setObjK k v).psets = s.psets := rfl
@[simp] theorem State.setObjK_buckets (s : State) (k v : Nat) : (s.setObjK k v).buckets = s.buckets := rfl
@[simp] theorem State.setObjK_refillAt (s : State) (k v : Nat) : (s.setObjK k v).refillAt = s.refillAt := rfl
@[simp] theorem State.setObjK_reports (s : State) (k v : Nat) : (s.setObjK k v).reports = s.reports := rfl
@[simp] theorem State.setObjK_reportAt (s : State) (k v : Nat) : (s.setObjK k v).reportAt = s.reportAt := rfl
@[simp] theorem State.setObjK_sec (s : State) (k v : Nat) : (s.setObjK k v).sec = s.sec := rfl
@[simp] theorem State.setObjK_sess (s : State) (k v : Nat) : (s.setObjK k v).sess = s.sess := rfl
@[simp] theorem State.setObjK_nextSid (s : State) (k v : Nat) : (s.setObjK k v).nextSid = s.nextSid := rfl
@[simp] theorem State.setObjK_dupAddr (s : State) (k v : Nat) : (s.setObjK k v).dupAddr = s.dupAddr := rfl
@[simp] theorem State.setObjK_pieces (s : State) (k v : Nat) : (s.setObjK k v).pieces = s.pieces := rfl
@[simp] theorem State.setObjK_relays (s : State) (k v : Nat) : (s.setObjK k v).relays = s.relays := rfl
@[simp] theorem State.setObjK_shadows (s : State) (k v : Nat) : (s.setObjK k v).shadows = s.shadows := rfl
@[simp] theorem State.setObjK_mons (s : State) (k v : Nat) : (s.setObjK k v).mons = s.mons := rfl
@[simp] theorem State.setObjK_snaps (s : State) (k v : Nat) : (s.setObjK k v).snaps = s.snaps := rfl
@[simp] theorem State.setObjK_nextSnap (s : State) (k v : Nat) : (s.setObjK k v).nextSnap = s.nextSnap := rfl
@[simp] theorem State.setObjK_rel (s : State) (k v : Nat) : (s.setObjK k v).rel = s.rel := rfl
@[simp] theorem State.setObjK_resets (s : State) (k v : Nat) : (s.setObjK k v).resets = s.resets := rfl
@[simp] theorem State.setObjK_freeCtr (s : State) (k v : Nat) : (s.setObjK k v).freeCtr = s.freeCtr := rfl
@[simp] theorem State.setObjK_remote (s : State) (k v : Nat) : (s.setObjK k v).remote = s.remote := rfl
@[simp] theorem State.setObjK_nextTag (s : State) (k v : Nat) : (s.setObjK k v).nextTag = s.nextTag := rfl
@[simp] theorem State.setObjK_copies (s : State) (k v : Nat) : (s.setObjK k v).copies = s.copies := rfl
@[simp] theorem State.setObjK_heldMoves (s : State) (k v : Nat) : (s.setObjK k v).heldMoves = s.heldMoves := rfl

/-! ### setBlob: every field but `blobs` stands -/

@[simp] theorem State.setBlob_pending (s : State) (i k : Nat) (b : Bytes) : (s.setBlob i k b).pending = s.pending := rfl
@[simp] theorem State.setBlob_out (s : State) (i k : Nat) (b : Bytes) : (s.setBlob i k b).out = s.out := rfl
@[simp] theorem State.setBlob_tb (s : State) (i k : Nat) (b : Bytes) : (s.setBlob i k b).tb = s.tb := rfl
@[simp] theorem State.setBlob_pw (s : State) (i k : Nat) (b : Bytes) : (s.setBlob i k b).pw = s.pw := rfl
@[simp] theorem State.setBlob_objs (s : State) (i k : Nat) (b : Bytes) : (s.setBlob i k b).objs = s.objs := rfl
@[simp] theorem State.setBlob_flex (s : State) (i k : Nat) (b : Bytes) : (s.setBlob i k b).flex = s.flex := rfl
@[simp] theorem State.setBlob_peer (s : State) (i k : Nat) (b : Bytes) : (s.setBlob i k b).peer = s.peer := rfl
@[simp] theorem State.setBlob_cores (s : State) (i k : Nat) (b : Bytes) : (s.setBlob i k b).cores = s.cores := rfl
@[simp] theorem State.setBlob_ingress (s : State) (i k : Nat) (b : Bytes) : (s.setBlob i k b).ingress = s.ingress := rfl
@[simp] theorem State.setBlob_extents (s : State) (i k : Nat) (b : Bytes) : (s.setBlob i k b).extents = s.extents := rfl
@[simp] theorem State.setBlob_trays (s : State) (i k : Nat) (b : Bytes) : (s.setBlob i k b).trays = s.trays := rfl
@[simp] theorem State.setBlob_nextEid (s : State) (i k : Nat) (b : Bytes) : (s.setBlob i k b).nextEid = s.nextEid := rfl
@[simp] theorem State.setBlob_sets (s : State) (i k : Nat) (b : Bytes) : (s.setBlob i k b).sets = s.sets := rfl
@[simp] theorem State.setBlob_lds (s : State) (i k : Nat) (b : Bytes) : (s.setBlob i k b).lds = s.lds := rfl
@[simp] theorem State.setBlob_rrLd (s : State) (i k : Nat) (b : Bytes) : (s.setBlob i k b).rrLd = s.rrLd := rfl
@[simp] theorem State.setBlob_mem (s : State) (i k : Nat) (b : Bytes) : (s.setBlob i k b).mem = s.mem := rfl
@[simp] theorem State.setBlob_poison (s : State) (i k : Nat) (b : Bytes) : (s.setBlob i k b).poison = s.poison := rfl
@[simp] theorem State.setBlob_writes (s : State) (i k : Nat) (b : Bytes) : (s.setBlob i k b).writes = s.writes := rfl
@[simp] theorem State.setBlob_nextWid (s : State) (i k : Nat) (b : Bytes) : (s.setBlob i k b).nextWid = s.nextWid := rfl
@[simp] theorem State.setBlob_heldAcc (s : State) (i k : Nat) (b : Bytes) : (s.setBlob i k b).heldAcc = s.heldAcc := rfl
@[simp] theorem State.setBlob_heldTiles (s : State) (i k : Nat) (b : Bytes) : (s.setBlob i k b).heldTiles = s.heldTiles := rfl
@[simp] theorem State.setBlob_flagMark (s : State) (i k : Nat) (b : Bytes) : (s.setBlob i k b).flagMark = s.flagMark := rfl
@[simp] theorem State.setBlob_lines (s : State) (i k : Nat) (b : Bytes) : (s.setBlob i k b).lines = s.lines := rfl
@[simp] theorem State.setBlob_caches (s : State) (i k : Nat) (b : Bytes) : (s.setBlob i k b).caches = s.caches := rfl
@[simp] theorem State.setBlob_msgs (s : State) (i k : Nat) (b : Bytes) : (s.setBlob i k b).msgs = s.msgs := rfl
@[simp] theorem State.setBlob_fences (s : State) (i k : Nat) (b : Bytes) : (s.setBlob i k b).fences = s.fences := rfl
@[simp] theorem State.setBlob_recipes (s : State) (i k : Nat) (b : Bytes) : (s.setBlob i k b).recipes = s.recipes := rfl
@[simp] theorem State.setBlob_tensors (s : State) (i k : Nat) (b : Bytes) : (s.setBlob i k b).tensors = s.tensors := rfl
@[simp] theorem State.setBlob_cmds (s : State) (i k : Nat) (b : Bytes) : (s.setBlob i k b).cmds = s.cmds := rfl
@[simp] theorem State.setBlob_nextCmd (s : State) (i k : Nat) (b : Bytes) : (s.setBlob i k b).nextCmd = s.nextCmd := rfl
@[simp] theorem State.setBlob_pend (s : State) (i k : Nat) (b : Bytes) : (s.setBlob i k b).pend = s.pend := rfl
@[simp] theorem State.setBlob_colls (s : State) (i k : Nat) (b : Bytes) : (s.setBlob i k b).colls = s.colls := rfl
@[simp] theorem State.setBlob_seqs (s : State) (i k : Nat) (b : Bytes) : (s.setBlob i k b).seqs = s.seqs := rfl
@[simp] theorem State.setBlob_groups (s : State) (i k : Nat) (b : Bytes) : (s.setBlob i k b).groups = s.groups := rfl
@[simp] theorem State.setBlob_prefixes (s : State) (i k : Nat) (b : Bytes) : (s.setBlob i k b).prefixes = s.prefixes := rfl
@[simp] theorem State.setBlob_fmap (s : State) (i k : Nat) (b : Bytes) : (s.setBlob i k b).fmap = s.fmap := rfl
@[simp] theorem State.setBlob_slots (s : State) (i k : Nat) (b : Bytes) : (s.setBlob i k b).slots = s.slots := rfl
@[simp] theorem State.setBlob_psets (s : State) (i k : Nat) (b : Bytes) : (s.setBlob i k b).psets = s.psets := rfl
@[simp] theorem State.setBlob_buckets (s : State) (i k : Nat) (b : Bytes) : (s.setBlob i k b).buckets = s.buckets := rfl
@[simp] theorem State.setBlob_refillAt (s : State) (i k : Nat) (b : Bytes) : (s.setBlob i k b).refillAt = s.refillAt := rfl
@[simp] theorem State.setBlob_reports (s : State) (i k : Nat) (b : Bytes) : (s.setBlob i k b).reports = s.reports := rfl
@[simp] theorem State.setBlob_reportAt (s : State) (i k : Nat) (b : Bytes) : (s.setBlob i k b).reportAt = s.reportAt := rfl
@[simp] theorem State.setBlob_sec (s : State) (i k : Nat) (b : Bytes) : (s.setBlob i k b).sec = s.sec := rfl
@[simp] theorem State.setBlob_sess (s : State) (i k : Nat) (b : Bytes) : (s.setBlob i k b).sess = s.sess := rfl
@[simp] theorem State.setBlob_nextSid (s : State) (i k : Nat) (b : Bytes) : (s.setBlob i k b).nextSid = s.nextSid := rfl
@[simp] theorem State.setBlob_dupAddr (s : State) (i k : Nat) (b : Bytes) : (s.setBlob i k b).dupAddr = s.dupAddr := rfl
@[simp] theorem State.setBlob_pieces (s : State) (i k : Nat) (b : Bytes) : (s.setBlob i k b).pieces = s.pieces := rfl
@[simp] theorem State.setBlob_relays (s : State) (i k : Nat) (b : Bytes) : (s.setBlob i k b).relays = s.relays := rfl
@[simp] theorem State.setBlob_shadows (s : State) (i k : Nat) (b : Bytes) : (s.setBlob i k b).shadows = s.shadows := rfl
@[simp] theorem State.setBlob_mons (s : State) (i k : Nat) (b : Bytes) : (s.setBlob i k b).mons = s.mons := rfl
@[simp] theorem State.setBlob_snaps (s : State) (i k : Nat) (b : Bytes) : (s.setBlob i k b).snaps = s.snaps := rfl
@[simp] theorem State.setBlob_nextSnap (s : State) (i k : Nat) (b : Bytes) : (s.setBlob i k b).nextSnap = s.nextSnap := rfl
@[simp] theorem State.setBlob_rel (s : State) (i k : Nat) (b : Bytes) : (s.setBlob i k b).rel = s.rel := rfl
@[simp] theorem State.setBlob_resets (s : State) (i k : Nat) (b : Bytes) : (s.setBlob i k b).resets = s.resets := rfl
@[simp] theorem State.setBlob_freeCtr (s : State) (i k : Nat) (b : Bytes) : (s.setBlob i k b).freeCtr = s.freeCtr := rfl
@[simp] theorem State.setBlob_remote (s : State) (i k : Nat) (b : Bytes) : (s.setBlob i k b).remote = s.remote := rfl
@[simp] theorem State.setBlob_nextTag (s : State) (i k : Nat) (b : Bytes) : (s.setBlob i k b).nextTag = s.nextTag := rfl
@[simp] theorem State.setBlob_copies (s : State) (i k : Nat) (b : Bytes) : (s.setBlob i k b).copies = s.copies := rfl
@[simp] theorem State.setBlob_heldMoves (s : State) (i k : Nat) (b : Bytes) : (s.setBlob i k b).heldMoves = s.heldMoves := rfl

/-! ### setFlex: every field but `flex` stands -/

@[simp] theorem State.setFlex_pending (s : State) (p : Nat) (x : FlexPort) : (s.setFlex p x).pending = s.pending := rfl
@[simp] theorem State.setFlex_out (s : State) (p : Nat) (x : FlexPort) : (s.setFlex p x).out = s.out := rfl
@[simp] theorem State.setFlex_tb (s : State) (p : Nat) (x : FlexPort) : (s.setFlex p x).tb = s.tb := rfl
@[simp] theorem State.setFlex_pw (s : State) (p : Nat) (x : FlexPort) : (s.setFlex p x).pw = s.pw := rfl
@[simp] theorem State.setFlex_objs (s : State) (p : Nat) (x : FlexPort) : (s.setFlex p x).objs = s.objs := rfl
@[simp] theorem State.setFlex_blobs (s : State) (p : Nat) (x : FlexPort) : (s.setFlex p x).blobs = s.blobs := rfl
@[simp] theorem State.setFlex_flex (s : State) (p : Nat) (x : FlexPort) : (s.setFlex p x).flex = Table.put s.flex p x := rfl
@[simp] theorem State.setFlex_peer (s : State) (p : Nat) (x : FlexPort) : (s.setFlex p x).peer = s.peer := rfl
@[simp] theorem State.setFlex_cores (s : State) (p : Nat) (x : FlexPort) : (s.setFlex p x).cores = s.cores := rfl
@[simp] theorem State.setFlex_ingress (s : State) (p : Nat) (x : FlexPort) : (s.setFlex p x).ingress = s.ingress := rfl
@[simp] theorem State.setFlex_extents (s : State) (p : Nat) (x : FlexPort) : (s.setFlex p x).extents = s.extents := rfl
@[simp] theorem State.setFlex_trays (s : State) (p : Nat) (x : FlexPort) : (s.setFlex p x).trays = s.trays := rfl
@[simp] theorem State.setFlex_nextEid (s : State) (p : Nat) (x : FlexPort) : (s.setFlex p x).nextEid = s.nextEid := rfl
@[simp] theorem State.setFlex_sets (s : State) (p : Nat) (x : FlexPort) : (s.setFlex p x).sets = s.sets := rfl
@[simp] theorem State.setFlex_lds (s : State) (p : Nat) (x : FlexPort) : (s.setFlex p x).lds = s.lds := rfl
@[simp] theorem State.setFlex_rrLd (s : State) (p : Nat) (x : FlexPort) : (s.setFlex p x).rrLd = s.rrLd := rfl
@[simp] theorem State.setFlex_mem (s : State) (p : Nat) (x : FlexPort) : (s.setFlex p x).mem = s.mem := rfl
@[simp] theorem State.setFlex_poison (s : State) (p : Nat) (x : FlexPort) : (s.setFlex p x).poison = s.poison := rfl
@[simp] theorem State.setFlex_writes (s : State) (p : Nat) (x : FlexPort) : (s.setFlex p x).writes = s.writes := rfl
@[simp] theorem State.setFlex_nextWid (s : State) (p : Nat) (x : FlexPort) : (s.setFlex p x).nextWid = s.nextWid := rfl
@[simp] theorem State.setFlex_heldAcc (s : State) (p : Nat) (x : FlexPort) : (s.setFlex p x).heldAcc = s.heldAcc := rfl
@[simp] theorem State.setFlex_heldTiles (s : State) (p : Nat) (x : FlexPort) : (s.setFlex p x).heldTiles = s.heldTiles := rfl
@[simp] theorem State.setFlex_flagMark (s : State) (p : Nat) (x : FlexPort) : (s.setFlex p x).flagMark = s.flagMark := rfl
@[simp] theorem State.setFlex_lines (s : State) (p : Nat) (x : FlexPort) : (s.setFlex p x).lines = s.lines := rfl
@[simp] theorem State.setFlex_caches (s : State) (p : Nat) (x : FlexPort) : (s.setFlex p x).caches = s.caches := rfl
@[simp] theorem State.setFlex_msgs (s : State) (p : Nat) (x : FlexPort) : (s.setFlex p x).msgs = s.msgs := rfl
@[simp] theorem State.setFlex_fences (s : State) (p : Nat) (x : FlexPort) : (s.setFlex p x).fences = s.fences := rfl
@[simp] theorem State.setFlex_recipes (s : State) (p : Nat) (x : FlexPort) : (s.setFlex p x).recipes = s.recipes := rfl
@[simp] theorem State.setFlex_tensors (s : State) (p : Nat) (x : FlexPort) : (s.setFlex p x).tensors = s.tensors := rfl
@[simp] theorem State.setFlex_cmds (s : State) (p : Nat) (x : FlexPort) : (s.setFlex p x).cmds = s.cmds := rfl
@[simp] theorem State.setFlex_nextCmd (s : State) (p : Nat) (x : FlexPort) : (s.setFlex p x).nextCmd = s.nextCmd := rfl
@[simp] theorem State.setFlex_pend (s : State) (p : Nat) (x : FlexPort) : (s.setFlex p x).pend = s.pend := rfl
@[simp] theorem State.setFlex_colls (s : State) (p : Nat) (x : FlexPort) : (s.setFlex p x).colls = s.colls := rfl
@[simp] theorem State.setFlex_seqs (s : State) (p : Nat) (x : FlexPort) : (s.setFlex p x).seqs = s.seqs := rfl
@[simp] theorem State.setFlex_groups (s : State) (p : Nat) (x : FlexPort) : (s.setFlex p x).groups = s.groups := rfl
@[simp] theorem State.setFlex_prefixes (s : State) (p : Nat) (x : FlexPort) : (s.setFlex p x).prefixes = s.prefixes := rfl
@[simp] theorem State.setFlex_fmap (s : State) (p : Nat) (x : FlexPort) : (s.setFlex p x).fmap = s.fmap := rfl
@[simp] theorem State.setFlex_slots (s : State) (p : Nat) (x : FlexPort) : (s.setFlex p x).slots = s.slots := rfl
@[simp] theorem State.setFlex_psets (s : State) (p : Nat) (x : FlexPort) : (s.setFlex p x).psets = s.psets := rfl
@[simp] theorem State.setFlex_buckets (s : State) (p : Nat) (x : FlexPort) : (s.setFlex p x).buckets = s.buckets := rfl
@[simp] theorem State.setFlex_refillAt (s : State) (p : Nat) (x : FlexPort) : (s.setFlex p x).refillAt = s.refillAt := rfl
@[simp] theorem State.setFlex_reports (s : State) (p : Nat) (x : FlexPort) : (s.setFlex p x).reports = s.reports := rfl
@[simp] theorem State.setFlex_reportAt (s : State) (p : Nat) (x : FlexPort) : (s.setFlex p x).reportAt = s.reportAt := rfl
@[simp] theorem State.setFlex_sec (s : State) (p : Nat) (x : FlexPort) : (s.setFlex p x).sec = s.sec := rfl
@[simp] theorem State.setFlex_sess (s : State) (p : Nat) (x : FlexPort) : (s.setFlex p x).sess = s.sess := rfl
@[simp] theorem State.setFlex_nextSid (s : State) (p : Nat) (x : FlexPort) : (s.setFlex p x).nextSid = s.nextSid := rfl
@[simp] theorem State.setFlex_dupAddr (s : State) (p : Nat) (x : FlexPort) : (s.setFlex p x).dupAddr = s.dupAddr := rfl
@[simp] theorem State.setFlex_pieces (s : State) (p : Nat) (x : FlexPort) : (s.setFlex p x).pieces = s.pieces := rfl
@[simp] theorem State.setFlex_relays (s : State) (p : Nat) (x : FlexPort) : (s.setFlex p x).relays = s.relays := rfl
@[simp] theorem State.setFlex_shadows (s : State) (p : Nat) (x : FlexPort) : (s.setFlex p x).shadows = s.shadows := rfl
@[simp] theorem State.setFlex_mons (s : State) (p : Nat) (x : FlexPort) : (s.setFlex p x).mons = s.mons := rfl
@[simp] theorem State.setFlex_snaps (s : State) (p : Nat) (x : FlexPort) : (s.setFlex p x).snaps = s.snaps := rfl
@[simp] theorem State.setFlex_nextSnap (s : State) (p : Nat) (x : FlexPort) : (s.setFlex p x).nextSnap = s.nextSnap := rfl
@[simp] theorem State.setFlex_rel (s : State) (p : Nat) (x : FlexPort) : (s.setFlex p x).rel = s.rel := rfl
@[simp] theorem State.setFlex_resets (s : State) (p : Nat) (x : FlexPort) : (s.setFlex p x).resets = s.resets := rfl
@[simp] theorem State.setFlex_freeCtr (s : State) (p : Nat) (x : FlexPort) : (s.setFlex p x).freeCtr = s.freeCtr := rfl
@[simp] theorem State.setFlex_remote (s : State) (p : Nat) (x : FlexPort) : (s.setFlex p x).remote = s.remote := rfl
@[simp] theorem State.setFlex_nextTag (s : State) (p : Nat) (x : FlexPort) : (s.setFlex p x).nextTag = s.nextTag := rfl
@[simp] theorem State.setFlex_copies (s : State) (p : Nat) (x : FlexPort) : (s.setFlex p x).copies = s.copies := rfl
@[simp] theorem State.setFlex_heldMoves (s : State) (p : Nat) (x : FlexPort) : (s.setFlex p x).heldMoves = s.heldMoves := rfl

/-! ### setPeer: every field but `peer` stands -/

@[simp] theorem State.setPeer_pending (s : State) (q : Nat) (x : PeerPort) : (s.setPeer q x).pending = s.pending := rfl
@[simp] theorem State.setPeer_out (s : State) (q : Nat) (x : PeerPort) : (s.setPeer q x).out = s.out := rfl
@[simp] theorem State.setPeer_tb (s : State) (q : Nat) (x : PeerPort) : (s.setPeer q x).tb = s.tb := rfl
@[simp] theorem State.setPeer_pw (s : State) (q : Nat) (x : PeerPort) : (s.setPeer q x).pw = s.pw := rfl
@[simp] theorem State.setPeer_objs (s : State) (q : Nat) (x : PeerPort) : (s.setPeer q x).objs = s.objs := rfl
@[simp] theorem State.setPeer_blobs (s : State) (q : Nat) (x : PeerPort) : (s.setPeer q x).blobs = s.blobs := rfl
@[simp] theorem State.setPeer_flex (s : State) (q : Nat) (x : PeerPort) : (s.setPeer q x).flex = s.flex := rfl
@[simp] theorem State.setPeer_peer (s : State) (q : Nat) (x : PeerPort) : (s.setPeer q x).peer = Table.put s.peer q x := rfl
@[simp] theorem State.setPeer_cores (s : State) (q : Nat) (x : PeerPort) : (s.setPeer q x).cores = s.cores := rfl
@[simp] theorem State.setPeer_ingress (s : State) (q : Nat) (x : PeerPort) : (s.setPeer q x).ingress = s.ingress := rfl
@[simp] theorem State.setPeer_extents (s : State) (q : Nat) (x : PeerPort) : (s.setPeer q x).extents = s.extents := rfl
@[simp] theorem State.setPeer_trays (s : State) (q : Nat) (x : PeerPort) : (s.setPeer q x).trays = s.trays := rfl
@[simp] theorem State.setPeer_nextEid (s : State) (q : Nat) (x : PeerPort) : (s.setPeer q x).nextEid = s.nextEid := rfl
@[simp] theorem State.setPeer_sets (s : State) (q : Nat) (x : PeerPort) : (s.setPeer q x).sets = s.sets := rfl
@[simp] theorem State.setPeer_lds (s : State) (q : Nat) (x : PeerPort) : (s.setPeer q x).lds = s.lds := rfl
@[simp] theorem State.setPeer_rrLd (s : State) (q : Nat) (x : PeerPort) : (s.setPeer q x).rrLd = s.rrLd := rfl
@[simp] theorem State.setPeer_mem (s : State) (q : Nat) (x : PeerPort) : (s.setPeer q x).mem = s.mem := rfl
@[simp] theorem State.setPeer_poison (s : State) (q : Nat) (x : PeerPort) : (s.setPeer q x).poison = s.poison := rfl
@[simp] theorem State.setPeer_writes (s : State) (q : Nat) (x : PeerPort) : (s.setPeer q x).writes = s.writes := rfl
@[simp] theorem State.setPeer_nextWid (s : State) (q : Nat) (x : PeerPort) : (s.setPeer q x).nextWid = s.nextWid := rfl
@[simp] theorem State.setPeer_heldAcc (s : State) (q : Nat) (x : PeerPort) : (s.setPeer q x).heldAcc = s.heldAcc := rfl
@[simp] theorem State.setPeer_heldTiles (s : State) (q : Nat) (x : PeerPort) : (s.setPeer q x).heldTiles = s.heldTiles := rfl
@[simp] theorem State.setPeer_flagMark (s : State) (q : Nat) (x : PeerPort) : (s.setPeer q x).flagMark = s.flagMark := rfl
@[simp] theorem State.setPeer_lines (s : State) (q : Nat) (x : PeerPort) : (s.setPeer q x).lines = s.lines := rfl
@[simp] theorem State.setPeer_caches (s : State) (q : Nat) (x : PeerPort) : (s.setPeer q x).caches = s.caches := rfl
@[simp] theorem State.setPeer_msgs (s : State) (q : Nat) (x : PeerPort) : (s.setPeer q x).msgs = s.msgs := rfl
@[simp] theorem State.setPeer_fences (s : State) (q : Nat) (x : PeerPort) : (s.setPeer q x).fences = s.fences := rfl
@[simp] theorem State.setPeer_recipes (s : State) (q : Nat) (x : PeerPort) : (s.setPeer q x).recipes = s.recipes := rfl
@[simp] theorem State.setPeer_tensors (s : State) (q : Nat) (x : PeerPort) : (s.setPeer q x).tensors = s.tensors := rfl
@[simp] theorem State.setPeer_cmds (s : State) (q : Nat) (x : PeerPort) : (s.setPeer q x).cmds = s.cmds := rfl
@[simp] theorem State.setPeer_nextCmd (s : State) (q : Nat) (x : PeerPort) : (s.setPeer q x).nextCmd = s.nextCmd := rfl
@[simp] theorem State.setPeer_pend (s : State) (q : Nat) (x : PeerPort) : (s.setPeer q x).pend = s.pend := rfl
@[simp] theorem State.setPeer_colls (s : State) (q : Nat) (x : PeerPort) : (s.setPeer q x).colls = s.colls := rfl
@[simp] theorem State.setPeer_seqs (s : State) (q : Nat) (x : PeerPort) : (s.setPeer q x).seqs = s.seqs := rfl
@[simp] theorem State.setPeer_groups (s : State) (q : Nat) (x : PeerPort) : (s.setPeer q x).groups = s.groups := rfl
@[simp] theorem State.setPeer_prefixes (s : State) (q : Nat) (x : PeerPort) : (s.setPeer q x).prefixes = s.prefixes := rfl
@[simp] theorem State.setPeer_fmap (s : State) (q : Nat) (x : PeerPort) : (s.setPeer q x).fmap = s.fmap := rfl
@[simp] theorem State.setPeer_slots (s : State) (q : Nat) (x : PeerPort) : (s.setPeer q x).slots = s.slots := rfl
@[simp] theorem State.setPeer_psets (s : State) (q : Nat) (x : PeerPort) : (s.setPeer q x).psets = s.psets := rfl
@[simp] theorem State.setPeer_buckets (s : State) (q : Nat) (x : PeerPort) : (s.setPeer q x).buckets = s.buckets := rfl
@[simp] theorem State.setPeer_refillAt (s : State) (q : Nat) (x : PeerPort) : (s.setPeer q x).refillAt = s.refillAt := rfl
@[simp] theorem State.setPeer_reports (s : State) (q : Nat) (x : PeerPort) : (s.setPeer q x).reports = s.reports := rfl
@[simp] theorem State.setPeer_reportAt (s : State) (q : Nat) (x : PeerPort) : (s.setPeer q x).reportAt = s.reportAt := rfl
@[simp] theorem State.setPeer_sec (s : State) (q : Nat) (x : PeerPort) : (s.setPeer q x).sec = s.sec := rfl
@[simp] theorem State.setPeer_sess (s : State) (q : Nat) (x : PeerPort) : (s.setPeer q x).sess = s.sess := rfl
@[simp] theorem State.setPeer_nextSid (s : State) (q : Nat) (x : PeerPort) : (s.setPeer q x).nextSid = s.nextSid := rfl
@[simp] theorem State.setPeer_dupAddr (s : State) (q : Nat) (x : PeerPort) : (s.setPeer q x).dupAddr = s.dupAddr := rfl
@[simp] theorem State.setPeer_pieces (s : State) (q : Nat) (x : PeerPort) : (s.setPeer q x).pieces = s.pieces := rfl
@[simp] theorem State.setPeer_relays (s : State) (q : Nat) (x : PeerPort) : (s.setPeer q x).relays = s.relays := rfl
@[simp] theorem State.setPeer_shadows (s : State) (q : Nat) (x : PeerPort) : (s.setPeer q x).shadows = s.shadows := rfl
@[simp] theorem State.setPeer_mons (s : State) (q : Nat) (x : PeerPort) : (s.setPeer q x).mons = s.mons := rfl
@[simp] theorem State.setPeer_snaps (s : State) (q : Nat) (x : PeerPort) : (s.setPeer q x).snaps = s.snaps := rfl
@[simp] theorem State.setPeer_nextSnap (s : State) (q : Nat) (x : PeerPort) : (s.setPeer q x).nextSnap = s.nextSnap := rfl
@[simp] theorem State.setPeer_rel (s : State) (q : Nat) (x : PeerPort) : (s.setPeer q x).rel = s.rel := rfl
@[simp] theorem State.setPeer_resets (s : State) (q : Nat) (x : PeerPort) : (s.setPeer q x).resets = s.resets := rfl
@[simp] theorem State.setPeer_freeCtr (s : State) (q : Nat) (x : PeerPort) : (s.setPeer q x).freeCtr = s.freeCtr := rfl
@[simp] theorem State.setPeer_remote (s : State) (q : Nat) (x : PeerPort) : (s.setPeer q x).remote = s.remote := rfl
@[simp] theorem State.setPeer_nextTag (s : State) (q : Nat) (x : PeerPort) : (s.setPeer q x).nextTag = s.nextTag := rfl
@[simp] theorem State.setPeer_copies (s : State) (q : Nat) (x : PeerPort) : (s.setPeer q x).copies = s.copies := rfl
@[simp] theorem State.setPeer_heldMoves (s : State) (q : Nat) (x : PeerPort) : (s.setPeer q x).heldMoves = s.heldMoves := rfl

/-! ### setCore: every field but `cores` stands -/

@[simp] theorem State.setCore_pending (s : State) (d : Nat) (x : Core) : (s.setCore d x).pending = s.pending := rfl
@[simp] theorem State.setCore_out (s : State) (d : Nat) (x : Core) : (s.setCore d x).out = s.out := rfl
@[simp] theorem State.setCore_tb (s : State) (d : Nat) (x : Core) : (s.setCore d x).tb = s.tb := rfl
@[simp] theorem State.setCore_pw (s : State) (d : Nat) (x : Core) : (s.setCore d x).pw = s.pw := rfl
@[simp] theorem State.setCore_objs (s : State) (d : Nat) (x : Core) : (s.setCore d x).objs = s.objs := rfl
@[simp] theorem State.setCore_blobs (s : State) (d : Nat) (x : Core) : (s.setCore d x).blobs = s.blobs := rfl
@[simp] theorem State.setCore_flex (s : State) (d : Nat) (x : Core) : (s.setCore d x).flex = s.flex := rfl
@[simp] theorem State.setCore_peer (s : State) (d : Nat) (x : Core) : (s.setCore d x).peer = s.peer := rfl
@[simp] theorem State.setCore_cores (s : State) (d : Nat) (x : Core) : (s.setCore d x).cores = Table.put s.cores d x := rfl
@[simp] theorem State.setCore_ingress (s : State) (d : Nat) (x : Core) : (s.setCore d x).ingress = s.ingress := rfl
@[simp] theorem State.setCore_extents (s : State) (d : Nat) (x : Core) : (s.setCore d x).extents = s.extents := rfl
@[simp] theorem State.setCore_trays (s : State) (d : Nat) (x : Core) : (s.setCore d x).trays = s.trays := rfl
@[simp] theorem State.setCore_nextEid (s : State) (d : Nat) (x : Core) : (s.setCore d x).nextEid = s.nextEid := rfl
@[simp] theorem State.setCore_sets (s : State) (d : Nat) (x : Core) : (s.setCore d x).sets = s.sets := rfl
@[simp] theorem State.setCore_lds (s : State) (d : Nat) (x : Core) : (s.setCore d x).lds = s.lds := rfl
@[simp] theorem State.setCore_rrLd (s : State) (d : Nat) (x : Core) : (s.setCore d x).rrLd = s.rrLd := rfl
@[simp] theorem State.setCore_mem (s : State) (d : Nat) (x : Core) : (s.setCore d x).mem = s.mem := rfl
@[simp] theorem State.setCore_poison (s : State) (d : Nat) (x : Core) : (s.setCore d x).poison = s.poison := rfl
@[simp] theorem State.setCore_writes (s : State) (d : Nat) (x : Core) : (s.setCore d x).writes = s.writes := rfl
@[simp] theorem State.setCore_nextWid (s : State) (d : Nat) (x : Core) : (s.setCore d x).nextWid = s.nextWid := rfl
@[simp] theorem State.setCore_heldAcc (s : State) (d : Nat) (x : Core) : (s.setCore d x).heldAcc = s.heldAcc := rfl
@[simp] theorem State.setCore_heldTiles (s : State) (d : Nat) (x : Core) : (s.setCore d x).heldTiles = s.heldTiles := rfl
@[simp] theorem State.setCore_flagMark (s : State) (d : Nat) (x : Core) : (s.setCore d x).flagMark = s.flagMark := rfl
@[simp] theorem State.setCore_lines (s : State) (d : Nat) (x : Core) : (s.setCore d x).lines = s.lines := rfl
@[simp] theorem State.setCore_caches (s : State) (d : Nat) (x : Core) : (s.setCore d x).caches = s.caches := rfl
@[simp] theorem State.setCore_msgs (s : State) (d : Nat) (x : Core) : (s.setCore d x).msgs = s.msgs := rfl
@[simp] theorem State.setCore_fences (s : State) (d : Nat) (x : Core) : (s.setCore d x).fences = s.fences := rfl
@[simp] theorem State.setCore_recipes (s : State) (d : Nat) (x : Core) : (s.setCore d x).recipes = s.recipes := rfl
@[simp] theorem State.setCore_tensors (s : State) (d : Nat) (x : Core) : (s.setCore d x).tensors = s.tensors := rfl
@[simp] theorem State.setCore_cmds (s : State) (d : Nat) (x : Core) : (s.setCore d x).cmds = s.cmds := rfl
@[simp] theorem State.setCore_nextCmd (s : State) (d : Nat) (x : Core) : (s.setCore d x).nextCmd = s.nextCmd := rfl
@[simp] theorem State.setCore_pend (s : State) (d : Nat) (x : Core) : (s.setCore d x).pend = s.pend := rfl
@[simp] theorem State.setCore_colls (s : State) (d : Nat) (x : Core) : (s.setCore d x).colls = s.colls := rfl
@[simp] theorem State.setCore_seqs (s : State) (d : Nat) (x : Core) : (s.setCore d x).seqs = s.seqs := rfl
@[simp] theorem State.setCore_groups (s : State) (d : Nat) (x : Core) : (s.setCore d x).groups = s.groups := rfl
@[simp] theorem State.setCore_prefixes (s : State) (d : Nat) (x : Core) : (s.setCore d x).prefixes = s.prefixes := rfl
@[simp] theorem State.setCore_fmap (s : State) (d : Nat) (x : Core) : (s.setCore d x).fmap = s.fmap := rfl
@[simp] theorem State.setCore_slots (s : State) (d : Nat) (x : Core) : (s.setCore d x).slots = s.slots := rfl
@[simp] theorem State.setCore_psets (s : State) (d : Nat) (x : Core) : (s.setCore d x).psets = s.psets := rfl
@[simp] theorem State.setCore_buckets (s : State) (d : Nat) (x : Core) : (s.setCore d x).buckets = s.buckets := rfl
@[simp] theorem State.setCore_refillAt (s : State) (d : Nat) (x : Core) : (s.setCore d x).refillAt = s.refillAt := rfl
@[simp] theorem State.setCore_reports (s : State) (d : Nat) (x : Core) : (s.setCore d x).reports = s.reports := rfl
@[simp] theorem State.setCore_reportAt (s : State) (d : Nat) (x : Core) : (s.setCore d x).reportAt = s.reportAt := rfl
@[simp] theorem State.setCore_sec (s : State) (d : Nat) (x : Core) : (s.setCore d x).sec = s.sec := rfl
@[simp] theorem State.setCore_sess (s : State) (d : Nat) (x : Core) : (s.setCore d x).sess = s.sess := rfl
@[simp] theorem State.setCore_nextSid (s : State) (d : Nat) (x : Core) : (s.setCore d x).nextSid = s.nextSid := rfl
@[simp] theorem State.setCore_dupAddr (s : State) (d : Nat) (x : Core) : (s.setCore d x).dupAddr = s.dupAddr := rfl
@[simp] theorem State.setCore_pieces (s : State) (d : Nat) (x : Core) : (s.setCore d x).pieces = s.pieces := rfl
@[simp] theorem State.setCore_relays (s : State) (d : Nat) (x : Core) : (s.setCore d x).relays = s.relays := rfl
@[simp] theorem State.setCore_shadows (s : State) (d : Nat) (x : Core) : (s.setCore d x).shadows = s.shadows := rfl
@[simp] theorem State.setCore_mons (s : State) (d : Nat) (x : Core) : (s.setCore d x).mons = s.mons := rfl
@[simp] theorem State.setCore_snaps (s : State) (d : Nat) (x : Core) : (s.setCore d x).snaps = s.snaps := rfl
@[simp] theorem State.setCore_nextSnap (s : State) (d : Nat) (x : Core) : (s.setCore d x).nextSnap = s.nextSnap := rfl
@[simp] theorem State.setCore_rel (s : State) (d : Nat) (x : Core) : (s.setCore d x).rel = s.rel := rfl
@[simp] theorem State.setCore_resets (s : State) (d : Nat) (x : Core) : (s.setCore d x).resets = s.resets := rfl
@[simp] theorem State.setCore_freeCtr (s : State) (d : Nat) (x : Core) : (s.setCore d x).freeCtr = s.freeCtr := rfl
@[simp] theorem State.setCore_remote (s : State) (d : Nat) (x : Core) : (s.setCore d x).remote = s.remote := rfl
@[simp] theorem State.setCore_nextTag (s : State) (d : Nat) (x : Core) : (s.setCore d x).nextTag = s.nextTag := rfl
@[simp] theorem State.setCore_copies (s : State) (d : Nat) (x : Core) : (s.setCore d x).copies = s.copies := rfl
@[simp] theorem State.setCore_heldMoves (s : State) (d : Nat) (x : Core) : (s.setCore d x).heldMoves = s.heldMoves := rfl

/-! ### setLd: every field but `lds` stands -/

@[simp] theorem State.setLd_pending (s : State) (p l : Nat) (x : Ld) : (s.setLd p l x).pending = s.pending := rfl
@[simp] theorem State.setLd_out (s : State) (p l : Nat) (x : Ld) : (s.setLd p l x).out = s.out := rfl
@[simp] theorem State.setLd_tb (s : State) (p l : Nat) (x : Ld) : (s.setLd p l x).tb = s.tb := rfl
@[simp] theorem State.setLd_pw (s : State) (p l : Nat) (x : Ld) : (s.setLd p l x).pw = s.pw := rfl
@[simp] theorem State.setLd_objs (s : State) (p l : Nat) (x : Ld) : (s.setLd p l x).objs = s.objs := rfl
@[simp] theorem State.setLd_blobs (s : State) (p l : Nat) (x : Ld) : (s.setLd p l x).blobs = s.blobs := rfl
@[simp] theorem State.setLd_flex (s : State) (p l : Nat) (x : Ld) : (s.setLd p l x).flex = s.flex := rfl
@[simp] theorem State.setLd_peer (s : State) (p l : Nat) (x : Ld) : (s.setLd p l x).peer = s.peer := rfl
@[simp] theorem State.setLd_cores (s : State) (p l : Nat) (x : Ld) : (s.setLd p l x).cores = s.cores := rfl
@[simp] theorem State.setLd_ingress (s : State) (p l : Nat) (x : Ld) : (s.setLd p l x).ingress = s.ingress := rfl
@[simp] theorem State.setLd_extents (s : State) (p l : Nat) (x : Ld) : (s.setLd p l x).extents = s.extents := rfl
@[simp] theorem State.setLd_trays (s : State) (p l : Nat) (x : Ld) : (s.setLd p l x).trays = s.trays := rfl
@[simp] theorem State.setLd_nextEid (s : State) (p l : Nat) (x : Ld) : (s.setLd p l x).nextEid = s.nextEid := rfl
@[simp] theorem State.setLd_sets (s : State) (p l : Nat) (x : Ld) : (s.setLd p l x).sets = s.sets := rfl
@[simp] theorem State.setLd_lds (s : State) (p l : Nat) (x : Ld) : (s.setLd p l x).lds = Table.put s.lds (ldKey p l) x := rfl
@[simp] theorem State.setLd_rrLd (s : State) (p l : Nat) (x : Ld) : (s.setLd p l x).rrLd = s.rrLd := rfl
@[simp] theorem State.setLd_mem (s : State) (p l : Nat) (x : Ld) : (s.setLd p l x).mem = s.mem := rfl
@[simp] theorem State.setLd_poison (s : State) (p l : Nat) (x : Ld) : (s.setLd p l x).poison = s.poison := rfl
@[simp] theorem State.setLd_writes (s : State) (p l : Nat) (x : Ld) : (s.setLd p l x).writes = s.writes := rfl
@[simp] theorem State.setLd_nextWid (s : State) (p l : Nat) (x : Ld) : (s.setLd p l x).nextWid = s.nextWid := rfl
@[simp] theorem State.setLd_heldAcc (s : State) (p l : Nat) (x : Ld) : (s.setLd p l x).heldAcc = s.heldAcc := rfl
@[simp] theorem State.setLd_heldTiles (s : State) (p l : Nat) (x : Ld) : (s.setLd p l x).heldTiles = s.heldTiles := rfl
@[simp] theorem State.setLd_flagMark (s : State) (p l : Nat) (x : Ld) : (s.setLd p l x).flagMark = s.flagMark := rfl
@[simp] theorem State.setLd_lines (s : State) (p l : Nat) (x : Ld) : (s.setLd p l x).lines = s.lines := rfl
@[simp] theorem State.setLd_caches (s : State) (p l : Nat) (x : Ld) : (s.setLd p l x).caches = s.caches := rfl
@[simp] theorem State.setLd_msgs (s : State) (p l : Nat) (x : Ld) : (s.setLd p l x).msgs = s.msgs := rfl
@[simp] theorem State.setLd_fences (s : State) (p l : Nat) (x : Ld) : (s.setLd p l x).fences = s.fences := rfl
@[simp] theorem State.setLd_recipes (s : State) (p l : Nat) (x : Ld) : (s.setLd p l x).recipes = s.recipes := rfl
@[simp] theorem State.setLd_tensors (s : State) (p l : Nat) (x : Ld) : (s.setLd p l x).tensors = s.tensors := rfl
@[simp] theorem State.setLd_cmds (s : State) (p l : Nat) (x : Ld) : (s.setLd p l x).cmds = s.cmds := rfl
@[simp] theorem State.setLd_nextCmd (s : State) (p l : Nat) (x : Ld) : (s.setLd p l x).nextCmd = s.nextCmd := rfl
@[simp] theorem State.setLd_pend (s : State) (p l : Nat) (x : Ld) : (s.setLd p l x).pend = s.pend := rfl
@[simp] theorem State.setLd_colls (s : State) (p l : Nat) (x : Ld) : (s.setLd p l x).colls = s.colls := rfl
@[simp] theorem State.setLd_seqs (s : State) (p l : Nat) (x : Ld) : (s.setLd p l x).seqs = s.seqs := rfl
@[simp] theorem State.setLd_groups (s : State) (p l : Nat) (x : Ld) : (s.setLd p l x).groups = s.groups := rfl
@[simp] theorem State.setLd_prefixes (s : State) (p l : Nat) (x : Ld) : (s.setLd p l x).prefixes = s.prefixes := rfl
@[simp] theorem State.setLd_fmap (s : State) (p l : Nat) (x : Ld) : (s.setLd p l x).fmap = s.fmap := rfl
@[simp] theorem State.setLd_slots (s : State) (p l : Nat) (x : Ld) : (s.setLd p l x).slots = s.slots := rfl
@[simp] theorem State.setLd_psets (s : State) (p l : Nat) (x : Ld) : (s.setLd p l x).psets = s.psets := rfl
@[simp] theorem State.setLd_buckets (s : State) (p l : Nat) (x : Ld) : (s.setLd p l x).buckets = s.buckets := rfl
@[simp] theorem State.setLd_refillAt (s : State) (p l : Nat) (x : Ld) : (s.setLd p l x).refillAt = s.refillAt := rfl
@[simp] theorem State.setLd_reports (s : State) (p l : Nat) (x : Ld) : (s.setLd p l x).reports = s.reports := rfl
@[simp] theorem State.setLd_reportAt (s : State) (p l : Nat) (x : Ld) : (s.setLd p l x).reportAt = s.reportAt := rfl
@[simp] theorem State.setLd_sec (s : State) (p l : Nat) (x : Ld) : (s.setLd p l x).sec = s.sec := rfl
@[simp] theorem State.setLd_sess (s : State) (p l : Nat) (x : Ld) : (s.setLd p l x).sess = s.sess := rfl
@[simp] theorem State.setLd_nextSid (s : State) (p l : Nat) (x : Ld) : (s.setLd p l x).nextSid = s.nextSid := rfl
@[simp] theorem State.setLd_dupAddr (s : State) (p l : Nat) (x : Ld) : (s.setLd p l x).dupAddr = s.dupAddr := rfl
@[simp] theorem State.setLd_pieces (s : State) (p l : Nat) (x : Ld) : (s.setLd p l x).pieces = s.pieces := rfl
@[simp] theorem State.setLd_relays (s : State) (p l : Nat) (x : Ld) : (s.setLd p l x).relays = s.relays := rfl
@[simp] theorem State.setLd_shadows (s : State) (p l : Nat) (x : Ld) : (s.setLd p l x).shadows = s.shadows := rfl
@[simp] theorem State.setLd_mons (s : State) (p l : Nat) (x : Ld) : (s.setLd p l x).mons = s.mons := rfl
@[simp] theorem State.setLd_snaps (s : State) (p l : Nat) (x : Ld) : (s.setLd p l x).snaps = s.snaps := rfl
@[simp] theorem State.setLd_nextSnap (s : State) (p l : Nat) (x : Ld) : (s.setLd p l x).nextSnap = s.nextSnap := rfl
@[simp] theorem State.setLd_rel (s : State) (p l : Nat) (x : Ld) : (s.setLd p l x).rel = s.rel := rfl
@[simp] theorem State.setLd_resets (s : State) (p l : Nat) (x : Ld) : (s.setLd p l x).resets = s.resets := rfl
@[simp] theorem State.setLd_freeCtr (s : State) (p l : Nat) (x : Ld) : (s.setLd p l x).freeCtr = s.freeCtr := rfl
@[simp] theorem State.setLd_remote (s : State) (p l : Nat) (x : Ld) : (s.setLd p l x).remote = s.remote := rfl
@[simp] theorem State.setLd_nextTag (s : State) (p l : Nat) (x : Ld) : (s.setLd p l x).nextTag = s.nextTag := rfl
@[simp] theorem State.setLd_copies (s : State) (p l : Nat) (x : Ld) : (s.setLd p l x).copies = s.copies := rfl
@[simp] theorem State.setLd_heldMoves (s : State) (p l : Nat) (x : Ld) : (s.setLd p l x).heldMoves = s.heldMoves := rfl

/-! ### setExt: every field but `extents` stands -/

@[simp] theorem State.setExt_pending (s : State) (e : Nat) (x : Extent) : (s.setExt e x).pending = s.pending := rfl
@[simp] theorem State.setExt_out (s : State) (e : Nat) (x : Extent) : (s.setExt e x).out = s.out := rfl
@[simp] theorem State.setExt_tb (s : State) (e : Nat) (x : Extent) : (s.setExt e x).tb = s.tb := rfl
@[simp] theorem State.setExt_pw (s : State) (e : Nat) (x : Extent) : (s.setExt e x).pw = s.pw := rfl
@[simp] theorem State.setExt_objs (s : State) (e : Nat) (x : Extent) : (s.setExt e x).objs = s.objs := rfl
@[simp] theorem State.setExt_blobs (s : State) (e : Nat) (x : Extent) : (s.setExt e x).blobs = s.blobs := rfl
@[simp] theorem State.setExt_flex (s : State) (e : Nat) (x : Extent) : (s.setExt e x).flex = s.flex := rfl
@[simp] theorem State.setExt_peer (s : State) (e : Nat) (x : Extent) : (s.setExt e x).peer = s.peer := rfl
@[simp] theorem State.setExt_cores (s : State) (e : Nat) (x : Extent) : (s.setExt e x).cores = s.cores := rfl
@[simp] theorem State.setExt_ingress (s : State) (e : Nat) (x : Extent) : (s.setExt e x).ingress = s.ingress := rfl
@[simp] theorem State.setExt_extents (s : State) (e : Nat) (x : Extent) : (s.setExt e x).extents = Table.put s.extents e x := rfl
@[simp] theorem State.setExt_trays (s : State) (e : Nat) (x : Extent) : (s.setExt e x).trays = s.trays := rfl
@[simp] theorem State.setExt_nextEid (s : State) (e : Nat) (x : Extent) : (s.setExt e x).nextEid = s.nextEid := rfl
@[simp] theorem State.setExt_sets (s : State) (e : Nat) (x : Extent) : (s.setExt e x).sets = s.sets := rfl
@[simp] theorem State.setExt_lds (s : State) (e : Nat) (x : Extent) : (s.setExt e x).lds = s.lds := rfl
@[simp] theorem State.setExt_rrLd (s : State) (e : Nat) (x : Extent) : (s.setExt e x).rrLd = s.rrLd := rfl
@[simp] theorem State.setExt_mem (s : State) (e : Nat) (x : Extent) : (s.setExt e x).mem = s.mem := rfl
@[simp] theorem State.setExt_poison (s : State) (e : Nat) (x : Extent) : (s.setExt e x).poison = s.poison := rfl
@[simp] theorem State.setExt_writes (s : State) (e : Nat) (x : Extent) : (s.setExt e x).writes = s.writes := rfl
@[simp] theorem State.setExt_nextWid (s : State) (e : Nat) (x : Extent) : (s.setExt e x).nextWid = s.nextWid := rfl
@[simp] theorem State.setExt_heldAcc (s : State) (e : Nat) (x : Extent) : (s.setExt e x).heldAcc = s.heldAcc := rfl
@[simp] theorem State.setExt_heldTiles (s : State) (e : Nat) (x : Extent) : (s.setExt e x).heldTiles = s.heldTiles := rfl
@[simp] theorem State.setExt_flagMark (s : State) (e : Nat) (x : Extent) : (s.setExt e x).flagMark = s.flagMark := rfl
@[simp] theorem State.setExt_lines (s : State) (e : Nat) (x : Extent) : (s.setExt e x).lines = s.lines := rfl
@[simp] theorem State.setExt_caches (s : State) (e : Nat) (x : Extent) : (s.setExt e x).caches = s.caches := rfl
@[simp] theorem State.setExt_msgs (s : State) (e : Nat) (x : Extent) : (s.setExt e x).msgs = s.msgs := rfl
@[simp] theorem State.setExt_fences (s : State) (e : Nat) (x : Extent) : (s.setExt e x).fences = s.fences := rfl
@[simp] theorem State.setExt_recipes (s : State) (e : Nat) (x : Extent) : (s.setExt e x).recipes = s.recipes := rfl
@[simp] theorem State.setExt_tensors (s : State) (e : Nat) (x : Extent) : (s.setExt e x).tensors = s.tensors := rfl
@[simp] theorem State.setExt_cmds (s : State) (e : Nat) (x : Extent) : (s.setExt e x).cmds = s.cmds := rfl
@[simp] theorem State.setExt_nextCmd (s : State) (e : Nat) (x : Extent) : (s.setExt e x).nextCmd = s.nextCmd := rfl
@[simp] theorem State.setExt_pend (s : State) (e : Nat) (x : Extent) : (s.setExt e x).pend = s.pend := rfl
@[simp] theorem State.setExt_colls (s : State) (e : Nat) (x : Extent) : (s.setExt e x).colls = s.colls := rfl
@[simp] theorem State.setExt_seqs (s : State) (e : Nat) (x : Extent) : (s.setExt e x).seqs = s.seqs := rfl
@[simp] theorem State.setExt_groups (s : State) (e : Nat) (x : Extent) : (s.setExt e x).groups = s.groups := rfl
@[simp] theorem State.setExt_prefixes (s : State) (e : Nat) (x : Extent) : (s.setExt e x).prefixes = s.prefixes := rfl
@[simp] theorem State.setExt_fmap (s : State) (e : Nat) (x : Extent) : (s.setExt e x).fmap = s.fmap := rfl
@[simp] theorem State.setExt_slots (s : State) (e : Nat) (x : Extent) : (s.setExt e x).slots = s.slots := rfl
@[simp] theorem State.setExt_psets (s : State) (e : Nat) (x : Extent) : (s.setExt e x).psets = s.psets := rfl
@[simp] theorem State.setExt_buckets (s : State) (e : Nat) (x : Extent) : (s.setExt e x).buckets = s.buckets := rfl
@[simp] theorem State.setExt_refillAt (s : State) (e : Nat) (x : Extent) : (s.setExt e x).refillAt = s.refillAt := rfl
@[simp] theorem State.setExt_reports (s : State) (e : Nat) (x : Extent) : (s.setExt e x).reports = s.reports := rfl
@[simp] theorem State.setExt_reportAt (s : State) (e : Nat) (x : Extent) : (s.setExt e x).reportAt = s.reportAt := rfl
@[simp] theorem State.setExt_sec (s : State) (e : Nat) (x : Extent) : (s.setExt e x).sec = s.sec := rfl
@[simp] theorem State.setExt_sess (s : State) (e : Nat) (x : Extent) : (s.setExt e x).sess = s.sess := rfl
@[simp] theorem State.setExt_nextSid (s : State) (e : Nat) (x : Extent) : (s.setExt e x).nextSid = s.nextSid := rfl
@[simp] theorem State.setExt_dupAddr (s : State) (e : Nat) (x : Extent) : (s.setExt e x).dupAddr = s.dupAddr := rfl
@[simp] theorem State.setExt_pieces (s : State) (e : Nat) (x : Extent) : (s.setExt e x).pieces = s.pieces := rfl
@[simp] theorem State.setExt_relays (s : State) (e : Nat) (x : Extent) : (s.setExt e x).relays = s.relays := rfl
@[simp] theorem State.setExt_shadows (s : State) (e : Nat) (x : Extent) : (s.setExt e x).shadows = s.shadows := rfl
@[simp] theorem State.setExt_mons (s : State) (e : Nat) (x : Extent) : (s.setExt e x).mons = s.mons := rfl
@[simp] theorem State.setExt_snaps (s : State) (e : Nat) (x : Extent) : (s.setExt e x).snaps = s.snaps := rfl
@[simp] theorem State.setExt_nextSnap (s : State) (e : Nat) (x : Extent) : (s.setExt e x).nextSnap = s.nextSnap := rfl
@[simp] theorem State.setExt_rel (s : State) (e : Nat) (x : Extent) : (s.setExt e x).rel = s.rel := rfl
@[simp] theorem State.setExt_resets (s : State) (e : Nat) (x : Extent) : (s.setExt e x).resets = s.resets := rfl
@[simp] theorem State.setExt_freeCtr (s : State) (e : Nat) (x : Extent) : (s.setExt e x).freeCtr = s.freeCtr := rfl
@[simp] theorem State.setExt_remote (s : State) (e : Nat) (x : Extent) : (s.setExt e x).remote = s.remote := rfl
@[simp] theorem State.setExt_nextTag (s : State) (e : Nat) (x : Extent) : (s.setExt e x).nextTag = s.nextTag := rfl
@[simp] theorem State.setExt_copies (s : State) (e : Nat) (x : Extent) : (s.setExt e x).copies = s.copies := rfl
@[simp] theorem State.setExt_heldMoves (s : State) (e : Nat) (x : Extent) : (s.setExt e x).heldMoves = s.heldMoves := rfl

/-! ### What a part reads after it is stored -/

@[simp] theorem State.flexP_setFlex (s : State) (p : Nat) (x : FlexPort) : (s.setFlex p x).flexP p = x := by
  simp [State.flexP, Table.get]
@[simp] theorem State.peerP_setPeer (s : State) (q : Nat) (x : PeerPort) : (s.setPeer q x).peerP q = x := by
  simp [State.peerP, Table.get]
@[simp] theorem State.core_setCore (s : State) (d : Nat) (x : Core) : (s.setCore d x).core d = x := by
  simp [State.core, Table.get]
@[simp] theorem State.ld_setLd (s : State) (p l : Nat) (x : Ld) : (s.setLd p l x).ld p l = x := by
  simp [State.ld, Table.get]
@[simp] theorem State.find_setExt (s : State) (e : Nat) (x : Extent) : Table.find (s.setExt e x).extents e = some x := by
  simp
/-- A value stored at a dictionary key reads back there. -/
@[simp] theorem State.objK_setObjK (s : State) (k v : Nat) : (s.setObjK k v).objK k = v := by
  unfold State.setObjK State.objK Table.get
  dsimp only
  split
  · rename_i h; simp [h]
  · simp
/-- A value stored at a dictionary key leaves every other key's value. -/
theorem State.objK_setObjK_ne (s : State) {k j : Nat} (v : Nat) (h : j ≠ k) : (s.setObjK k v).objK j = s.objK j := by
  unfold State.setObjK State.objK Table.get
  dsimp only
  split
  · rw [Table.find_del_ne _ h]
  · rw [Table.find_put_ne _ _ h]

end Sys2Proof.Machine
end

