-- ==== Sys2Proof/Laws/FrameMem.lean ====
section
/-! SUPPORT. The shared operations that leave data-class memory as it is. One lemma per operation. -/

set_option maxRecDepth 8000
set_option linter.all false

namespace Sys2Proof.Machine

open Sys2Proof

theorem mem_foldl {α : Type} (f : State → α → State) (l : List α) (s : State) (h : ∀ a x, (f a x).mem = a.mem) : (l.foldl f s).mem = s.mem := by
  induction l generalizing s with
  | nil => rfl
  | cons x t ih => simp only [List.foldl]; rw [ih, h]
theorem mem_fold1 {α β : Type} (f : State × β → α → State × β) (l : List α) (s : State × β) (h : ∀ a x, (f a x).1.mem = a.1.mem) :
    (l.foldl f s).1.mem = s.1.mem := by
  induction l generalizing s with
  | nil => rfl
  | cons x t ih => simp only [List.foldl]; rw [ih, h]
theorem mem_fold2 {α β : Type} (f : β × State → α → β × State) (l : List α) (s : β × State) (h : ∀ a x, (f a x).2.mem = a.2.mem) :
    (l.foldl f s).2.mem = s.2.mem := by
  induction l generalizing s with
  | nil => rfl
  | cons x t ih => simp only [List.foldl]; rw [ih, h]
theorem mem_ite {s : State} {c : Prop} [Decidable c] {a b : State} (h1 : a.mem = s.mem) (h2 : b.mem = s.mem) :
    (if c then a else b).mem = s.mem := by split <;> assumption
theorem mem_ite2 {β : Type} {s : State} {c : Prop} [Decidable c] {a b : β × State} (h1 : a.2.mem = s.mem) (h2 : b.2.mem = s.mem) :
    (if c then a else b).2.mem = s.mem := by split <;> assumption
@[simp] theorem State.setObj_mem (s : State) (idx : Nat) (sub : Nat) (v : Nat) : (State.setObj s idx sub v).mem = s.mem := by simp [State.setObj]
@[simp] theorem State.setObjI_mem (s : State) (idx : Nat) (sub : Nat) (i : Nat) (v : Nat) : (State.setObjI s idx sub i v).mem = s.mem := by simp [State.setObjI]
@[simp] theorem State.bump_mem (s : State) (idx : Nat) (sub : Nat) (n : Nat) : (State.bump s idx sub n).mem = s.mem := by simp [State.bump]
@[simp] theorem State.bumpI_mem (s : State) (idx : Nat) (sub : Nat) (i : Nat) (n : Nat) : (State.bumpI s idx sub i n).mem = s.mem := by simp [State.bumpI]
@[simp] theorem State.noteAll_mem (s : State) (code : Nat) (f : Bytes) : (State.noteAll s code f).1.mem = s.mem := by
  unfold State.noteAll
  repeat' first | with_reducible rfl | refine (mem_fold1 _ _ _ (fun _ _ => ?_)).trans ?_ | split | simp
@[simp] theorem State.flagOnly_mem (s : State) (k : Nat) (b : Nat) : (State.flagOnly s k b).mem = s.mem := by simp [State.flagOnly]
@[simp] theorem State.notify_mem (s : State) (code : Nat) (f : Bytes) : (State.notify s code f).mem = s.mem := by
  unfold State.notify
  repeat' first | with_reducible rfl | split | simp
@[simp] theorem State.flagK_mem (s : State) (k : Nat) (b : Nat) : (State.flagK s k b).mem = s.mem := by simp [State.flagK]
@[simp] theorem State.flag_mem (s : State) (idx : Nat) (sub : Nat) (b : Nat) : (State.flag s idx sub b).mem = s.mem := by simp [State.flag]
@[simp] theorem State.condition_mem (s : State) (holds : Bool) (bitNo : Nat) (idx : Nat) (sub : Nat) (b : Nat) : (State.condition s holds bitNo idx sub b).mem = s.mem := by
  unfold State.condition
  repeat' first | with_reducible rfl | split | simp
@[simp] theorem State.restored_mem (s : State) (kind : Nat) (classes : Nat) (scope : Nat) (scopeId : Nat) : (State.restored s kind classes scope scopeId).mem = s.mem := by simp [State.restored]
@[simp] theorem State.respond_mem (s : State) (sid : Nat) (idx : Nat) (sub : Nat) (rc : Nat) : (State.respond s sid idx sub rc).mem = s.mem := by unfold State.respond; split <;> simp
@[simp] theorem State.ldFlag_mem (s : State) (p : Nat) (l : Nat) (b : Nat) : (State.ldFlag s p l b).mem = s.mem := by simp [State.ldFlag]
@[simp] theorem State.draw_mem (s : State) (n : Nat) : (State.draw s n).2.mem = s.mem := by simp [State.draw]
@[simp] theorem State.drawNs_mem (s : State) : (State.drawNs s).2.mem = s.mem := by simp [State.drawNs]
@[simp] theorem State.drawWord_mem (s : State) : (State.drawWord s).2.mem = s.mem := by simp [State.drawWord]
@[simp] theorem State.sample_mem (s : State) (m : Nat) (v : Nat) (sc : SampleScope) : (State.sample s m v sc).mem = s.mem := by
  unfold State.sample
  repeat' first | with_reducible rfl | split | simp
@[simp] theorem State.throttle_mem (s : State) (t : Nat) (tc : Nat) (bytes : Nat) (hit : Bool) : (State.throttle s t tc bytes hit).mem = s.mem := by simp [State.throttle]
@[simp] theorem State.take_mem (s : Sys2Proof.Machine.State) (t : Nat) (tc : Nat) (d : Nat) (cost : Nat) : (Sys2Proof.Machine.State.take s t tc d cost).2.mem = s.mem := by
  unfold State.take
  repeat' first
    | with_reducible rfl
    | refine (mem_foldl _ _ _ (fun _ _ => ?_)).trans ?_
    | refine (mem_fold1 _ _ _ (fun _ _ => ?_)).trans ?_
    | refine (mem_fold2 _ _ _ (fun _ _ => ?_)).trans ?_
    | split
    | simp
    | rfl
@[simp] theorem State.dropObjs_mem (s : State) (f : Nat → Cls → Bool) : (State.dropObjs s f).mem = s.mem := by simp [State.dropObjs]
@[simp] theorem State.setRing_mem (s : State) (p : Nat) (l : Nat) (r : Nat) (x : SRing) : (State.setRing s p l r x).mem = s.mem := by simp [State.setRing]
@[simp] theorem State.setCq_mem (s : State) (p : Nat) (l : Nat) (r : Nat) (x : CRing) : (State.setCq s p l r x).mem = s.mem := by simp [State.setCq]
@[simp] theorem State.eventRecord_mem (s : State) (p : Nat) (l : Nat) (status : Nat) (detail : Nat) (hint : Nat) : (State.eventRecord s p l status detail hint).mem = s.mem := by
  unfold State.eventRecord
  repeat' first | with_reducible rfl | split | simp
@[simp] theorem State.flushEvents_mem (s : State) (p : Nat) (l : Nat) (x3 : Nat) : (State.flushEvents s p l x3).mem = s.mem := by
  induction x3 generalizing s with
  | zero => rfl
  | succ n ih =>
    unfold State.flushEvents
    repeat' first
      | with_reducible rfl
      | (refine (mem_foldl _ _ _ (fun a x => ?_)).trans ?_)
      | (refine (mem_fold1 _ _ _ (fun a x => ?_)).trans ?_)
      | (refine (mem_fold2 _ _ _ (fun a x => ?_)).trans ?_)
      | split
      | simp [ih]
@[simp] theorem State.breakRing_mem (s : State) (p : Nat) (l : Nat) (r : Nat) (reason : Nat) : (State.breakRing s p l r reason).mem = s.mem := by simp [State.breakRing]
theorem State.turn_mem {s t : State} {p l r : Nat} (h : s.turn p l r = some t) : t.mem = s.mem := by
  unfold State.turn at h
  repeat' split at h
  all_goals simp at h
  all_goals (subst h; simp)
@[simp] theorem State.consume_mem (s : State) (p : Nat) (l : Nat) (r : Nat) (n : Nat) (pad : Bool) : (State.consume s p l r n pad).mem = s.mem := by simp [State.consume]
@[simp] theorem State.modCmd_mem (s : State) (c : Nat) (f : Cmd → Cmd) : (State.modCmd s c f).mem = s.mem := by unfold State.modCmd; split <;> simp
@[simp] theorem State.cqFail_mem (s : State) (p : Nat) (l : Nat) (c : Nat) : (State.cqFail s p l c).mem = s.mem := by
  unfold State.cqFail
  repeat' first | with_reducible rfl | refine (mem_foldl _ _ _ (fun _ _ => ?_)).trans ?_ | split | simp
@[simp] theorem State.appendDone_mem (s : Sys2Proof.Machine.State) (c : Nat) (x : Sys2Proof.Machine.Cmd) (st : Nat) : (Sys2Proof.Machine.State.appendDone s c x st).mem = s.mem := by
  unfold State.appendDone
  repeat' first
    | with_reducible rfl
    | refine (mem_foldl _ _ _ (fun _ _ => ?_)).trans ?_
    | refine (mem_fold1 _ _ _ (fun _ _ => ?_)).trans ?_
    | refine (mem_fold2 _ _ _ (fun _ _ => ?_)).trans ?_
    | split
    | simp
    | rfl
@[simp] theorem State.writeRecord_mem (s : Sys2Proof.Machine.State) (c : Nat) (x : Sys2Proof.Machine.Cmd) (resultOk : Bool) (recordOk : Bool) : (Sys2Proof.Machine.State.writeRecord s c x resultOk recordOk).mem = s.mem := by
  unfold State.writeRecord
  repeat' first
    | with_reducible rfl
    | refine (mem_foldl _ _ _ (fun _ _ => ?_)).trans ?_
    | refine (mem_fold1 _ _ _ (fun _ _ => ?_)).trans ?_
    | refine (mem_fold2 _ _ _ (fun _ _ => ?_)).trans ?_
    | split
    | simp
    | rfl
@[simp] theorem State.failCmd_mem (s : Sys2Proof.Machine.State) (c : Nat) (st : Nat) (reason : Nat) (hint : optParam Nat 0) : (Sys2Proof.Machine.State.failCmd s c st reason hint).mem = s.mem := by
  unfold State.failCmd
  repeat' first
    | with_reducible rfl
    | refine (mem_foldl _ _ _ (fun _ _ => ?_)).trans ?_
    | refine (mem_fold1 _ _ _ (fun _ _ => ?_)).trans ?_
    | refine (mem_fold2 _ _ _ (fun _ _ => ?_)).trans ?_
    | split
    | simp
    | rfl
@[simp] theorem State.cutItem_mem (s : State) (ref : Nat) (i : Nat) (st : Nat) (reason : Nat) : (State.cutItem s ref i st reason).mem = s.mem := by
  unfold State.cutItem
  repeat' split
  all_goals simp
@[simp] theorem State.cutItems_mem (s : State) (f : Nat → Cmd → Nat → Bool) (st : Nat) (reason : Nat) : (State.cutItems s f st reason).mem = s.mem := by
  unfold State.cutItems
  repeat' first | with_reducible rfl | refine (mem_foldl _ _ _ (fun _ _ => ?_)).trans ?_ | split | simp
@[simp] theorem State.policed_mem (s : State) (p l base : Nat) (var : Option Recipe) (h : Bytes) : (State.policed s p l base var h).2.mem = s.mem := by
  unfold State.policed
  repeat' first | with_reducible rfl | split | simp
@[simp] theorem State.enter_mem (s : State) (c : Cmd) : (State.enter s c).mem = s.mem := by simp [State.enter]
@[simp] theorem State.refuse_mem (s : State) (p : Nat) (l : Nat) (r : Nat) (base : Nat) (h : Bytes) (pay : Bytes) (st : Nat) (stage : Nat) (reason : Nat) (hint : Nat) : (State.refuse s p l r base h pay st stage reason hint).mem = s.mem := by simp [State.refuse]
theorem State.ingest_mem (s : State) (p l r : Nat) (mine : Nat → Bool) (run : Recipe.Run) (ha : ∀ u c, (run.atAdmit u c).mem = u.mem)
    (hs : ∀ u c, (run.start u c).mem = u.mem) : (s.ingest p l r mine run).mem = s.mem := by
  unfold State.ingest
  split
  · rfl
  · rename_i s0 h0
    have h1 := State.turn_mem h0
    dsimp only
    split
    · rfl
    · simp [h1]
    · split
      · rfl
      · split
        · rfl
        · rename_i base var _
          split
          · rfl
          · split
            · rename_i h2
              have h3 := congrArg (fun z => z.2.mem) h2
              simp at h3
              simp [← h3, h1]
            · rename_i h2
              have h3 := congrArg (fun z => z.2.mem) h2
              simp at h3
              split
              · simp [← h3, h1]
              · split <;> simp [ha, hs, ← h3, h1]
@[simp] theorem State.releaseParts_mem (s : State) : (State.releaseParts s).mem = s.mem := by simp [State.releaseParts]
@[simp] theorem State.tc0Note_mem (s : Sys2Proof.Machine.State) (d : Nat) (x : Nat) : (Sys2Proof.Machine.State.tc0Note s d x).mem = s.mem := by
  unfold State.tc0Note
  repeat' first
    | with_reducible rfl
    | refine (mem_foldl _ _ _ (fun _ _ => ?_)).trans ?_
    | refine (mem_fold1 _ _ _ (fun _ _ => ?_)).trans ?_
    | refine (mem_fold2 _ _ _ (fun _ _ => ?_)).trans ?_
    | split
    | simp
    | rfl
@[simp] theorem State.tc0Gate_mem (s : Sys2Proof.Machine.State) (p : Nat) : (Sys2Proof.Machine.State.tc0Gate s p).mem = s.mem := by
  unfold State.tc0Gate
  repeat' first
    | with_reducible rfl
    | refine (mem_foldl _ _ _ (fun _ _ => ?_)).trans ?_
    | refine (mem_fold1 _ _ _ (fun _ _ => ?_)).trans ?_
    | refine (mem_fold2 _ _ _ (fun _ _ => ?_)).trans ?_
    | split
    | simp
    | rfl
@[simp] theorem State.deny_mem (s : State) (p : Nat) (l : Nat) (ro : Bool) : (State.deny s p l ro).mem = s.mem := by unfold State.deny; split <;> simp
@[simp] theorem State.renew_mem (s : State) (p : Nat) (l : Nat) : (State.renew s p l).mem = s.mem := by simp [State.renew]
@[simp] theorem State.askPeer_mem (s : Sys2Proof.Machine.State) (src : Sys2Proof.Source) (kind : Nat) (dev : Nat) (a : Nat) (tag : Nat) (flag : Bool) (want : Nat) (d : Sys2Proof.Bytes) : (Sys2Proof.Machine.State.askPeer s src kind dev a tag flag want d).mem = s.mem := by
  unfold State.askPeer
  repeat' first
    | with_reducible rfl
    | refine (mem_foldl _ _ _ (fun _ _ => ?_)).trans ?_
    | refine (mem_fold1 _ _ _ (fun _ _ => ?_)).trans ?_
    | refine (mem_fold2 _ _ _ (fun _ _ => ?_)).trans ?_
    | split
    | simp
    | rfl
@[simp] theorem State.await_mem (s : Sys2Proof.Machine.State) (src : Sys2Proof.Source) (kind : Nat) (dev : Nat) (a : Nat) (back : Nat) (ctl : Bool) (want : Nat) (d : Sys2Proof.Bytes) : (Sys2Proof.Machine.State.await s src kind dev a back ctl want d).mem = s.mem := by
  unfold State.await
  repeat' first
    | with_reducible rfl
    | refine (mem_foldl _ _ _ (fun _ _ => ?_)).trans ?_
    | refine (mem_fold1 _ _ _ (fun _ _ => ?_)).trans ?_
    | refine (mem_fold2 _ _ _ (fun _ _ => ?_)).trans ?_
    | split
    | simp
    | rfl
@[simp] theorem State.atomicReply_mem (s : State) (r : AtomReq) (data : Bytes) (poison : Bool) : (State.atomicReply s r data poison).mem = s.mem := by unfold State.atomicReply; split <;> simp
@[simp] theorem State.sendOne_mem (s : Sys2Proof.Machine.State) (w : Sys2Proof.Machine.WrOut) : (Sys2Proof.Machine.State.sendOne s w).mem = s.mem := by
  unfold State.sendOne
  repeat' first
    | with_reducible rfl
    | refine (mem_foldl _ _ _ (fun _ _ => ?_)).trans ?_
    | refine (mem_fold1 _ _ _ (fun _ _ => ?_)).trans ?_
    | refine (mem_fold2 _ _ _ (fun _ _ => ?_)).trans ?_
    | split
    | simp
    | rfl
@[simp] theorem State.sendReady_mem (s : Sys2Proof.Machine.State) : (Sys2Proof.Machine.State.sendReady s).mem = s.mem := by
  unfold State.sendReady
  repeat' first
    | with_reducible rfl
    | refine (mem_foldl _ _ _ (fun _ _ => ?_)).trans ?_
    | refine (mem_fold1 _ _ _ (fun _ _ => ?_)).trans ?_
    | refine (mem_fold2 _ _ _ (fun _ _ => ?_)).trans ?_
    | split
    | simp
    | rfl
@[simp] theorem State.admitWrite_mem (s : State) (src : Source) (a : Nat) (dpa : Nat) (d : Bytes) (flag : Bool) (e : Option Nat) : (State.admitWrite s src a dpa d flag e).mem = s.mem := by simp [State.admitWrite]
@[simp] theorem State.noteLost_mem (s : State) (p : Nat) (l : Nat) (wid : Nat) (dpa : Nat) (n : Nat) : (State.noteLost s p l wid dpa n).mem = s.mem := by simp [State.noteLost]
@[simp] theorem State.countWaits_mem (s : State) : (State.countWaits s).mem = s.mem := by
  unfold State.countWaits
  repeat' first | with_reducible rfl | split | simp
@[simp] theorem State.loseWrites_mem (s : Sys2Proof.Machine.State) (f : Sys2Proof.Machine.WrOut → Bool) : (Sys2Proof.Machine.State.loseWrites s f).mem = s.mem := by
  unfold State.loseWrites
  repeat' first
    | with_reducible rfl
    | refine (mem_foldl _ _ _ (fun _ _ => ?_)).trans ?_
    | refine (mem_fold1 _ _ _ (fun _ _ => ?_)).trans ?_
    | refine (mem_fold2 _ _ _ (fun _ _ => ?_)).trans ?_
    | split
    | simp
    | rfl
@[simp] theorem State.freeExt_mem (s : Sys2Proof.Machine.State) (e : Nat) (x : Sys2Proof.Machine.Extent) : (Sys2Proof.Machine.State.freeExt s e x).mem = s.mem := by
  unfold State.freeExt
  repeat' first
    | with_reducible rfl
    | refine (mem_foldl _ _ _ (fun _ _ => ?_)).trans ?_
    | refine (mem_fold1 _ _ _ (fun _ _ => ?_)).trans ?_
    | refine (mem_fold2 _ _ _ (fun _ _ => ?_)).trans ?_
    | split
    | simp
    | rfl
@[simp] theorem State.toScrub_mem (s : Sys2Proof.Machine.State) (e : Nat) (x : Sys2Proof.Machine.Extent) : (Sys2Proof.Machine.State.toScrub s e x).mem = s.mem := by
  unfold State.toScrub
  repeat' first
    | with_reducible rfl
    | refine (mem_foldl _ _ _ (fun _ _ => ?_)).trans ?_
    | refine (mem_fold1 _ _ _ (fun _ _ => ?_)).trans ?_
    | refine (mem_fold2 _ _ _ (fun _ _ => ?_)).trans ?_
    | split
    | simp
    | rfl
@[simp] theorem State.toFailed_mem (s : Sys2Proof.Machine.State) (e : Nat) (x : Sys2Proof.Machine.Extent) : (Sys2Proof.Machine.State.toFailed s e x).mem = s.mem := by
  unfold State.toFailed
  repeat' first
    | with_reducible rfl
    | refine (mem_foldl _ _ _ (fun _ _ => ?_)).trans ?_
    | refine (mem_fold1 _ _ _ (fun _ _ => ?_)).trans ?_
    | refine (mem_fold2 _ _ _ (fun _ _ => ?_)).trans ?_
    | split
    | simp
    | rfl
@[simp] theorem State.toDrain_mem (s : Sys2Proof.Machine.State) (e : Nat) (x : Sys2Proof.Machine.Extent) (n : Option (Nat × Nat × Nat × Bool)) : (Sys2Proof.Machine.State.toDrain s e x n).mem = s.mem := by
  unfold State.toDrain
  repeat' first
    | with_reducible rfl
    | refine (mem_foldl _ _ _ (fun _ _ => ?_)).trans ?_
    | refine (mem_fold1 _ _ _ (fun _ _ => ?_)).trans ?_
    | refine (mem_fold2 _ _ _ (fun _ _ => ?_)).trans ?_
    | split
    | simp
    | rfl
@[simp] theorem State.revokeNotice_mem (s : State) (x : Extent) : (State.revokeNotice s x).mem = s.mem := by unfold State.revokeNotice; split <;> simp
@[simp] theorem State.dropMaps_mem (s : State) (x : Extent) (byLease : Bool) : (State.dropMaps s x byLease).mem = s.mem := mem_foldl _ _ _ (fun _ _ => by simp)
@[simp] theorem State.dropUnheld_mem (s : State) : (State.dropUnheld s).mem = s.mem := by simp [State.dropUnheld]
@[simp] theorem State.revoke_mem (s : Sys2Proof.Machine.State) (e : Nat) (byLease : Bool) (notify : Bool) : (Sys2Proof.Machine.State.revoke s e byLease notify).mem = s.mem := by
  unfold State.revoke
  repeat' first
    | with_reducible rfl
    | refine (mem_foldl _ _ _ (fun _ _ => ?_)).trans ?_
    | refine (mem_fold1 _ _ _ (fun _ _ => ?_)).trans ?_
    | refine (mem_fold2 _ _ _ (fun _ _ => ?_)).trans ?_
    | split
    | simp
    | rfl
@[simp] theorem State.leaveVersion_mem (s : Sys2Proof.Machine.State) (e : Nat) (x : Sys2Proof.Machine.Extent) (mine : Option (Nat × Nat) → Nat × Nat × Nat → Bool) : (Sys2Proof.Machine.State.leaveVersion s e x mine).mem = s.mem := by
  unfold State.leaveVersion
  repeat' first
    | with_reducible rfl
    | refine (mem_foldl _ _ _ (fun _ _ => ?_)).trans ?_
    | refine (mem_fold1 _ _ _ (fun _ _ => ?_)).trans ?_
    | refine (mem_fold2 _ _ _ (fun _ _ => ?_)).trans ?_
    | split
    | simp
    | rfl
@[simp] theorem State.revokeAll_mem (s : State) (p : Nat) (l : Nat) (byLease : Bool) (notify : Bool) : (State.revokeAll s p l byLease notify).mem = s.mem := by
  unfold State.revokeAll
  repeat' first | with_reducible rfl | refine (mem_foldl _ _ _ (fun _ _ => ?_)).trans ?_ | split | simp
@[simp] theorem State.failExt_mem (s : Sys2Proof.Machine.State) (e : Nat) : (Sys2Proof.Machine.State.failExt s e).mem = s.mem := by
  unfold State.failExt
  repeat' first
    | with_reducible rfl
    | refine (mem_foldl _ _ _ (fun _ _ => ?_)).trans ?_
    | refine (mem_fold1 _ _ _ (fun _ _ => ?_)).trans ?_
    | refine (mem_fold2 _ _ _ (fun _ _ => ?_)).trans ?_
    | split
    | simp
    | rfl
@[simp] theorem State.extentsOut_mem (s : State) (f : Extent → Bool) : (State.extentsOut s f).mem = s.mem := by simp [State.extentsOut]
@[simp] theorem State.extentsBack_mem (s : State) (f : Extent → Bool) : (State.extentsBack s f).mem = s.mem := by simp [State.extentsBack]
@[simp] theorem State.offer_mem (s : State) (p : Nat) (l : Nat) (e : Nat) (slot : Nat) : (State.offer s p l e slot).mem = s.mem := by unfold State.offer; split <;> simp
@[simp] theorem State.offerShared_mem (s : State) (p : Nat) (l : Nat) (e : Nat) (slot : Nat) : (State.offerShared s p l e slot).mem = s.mem := by unfold State.offerShared; split <;> simp
@[simp] theorem State.allocAway_mem (s : Sys2Proof.Machine.State) (p : Nat) (l : Nat) (v : Nat) (kind : Nat) (argv : Nat) (n : Nat) : (Sys2Proof.Machine.State.allocAway s p l v kind argv n).2.mem = s.mem := by
  unfold State.allocAway
  repeat' first
    | with_reducible rfl
    | refine (mem_foldl _ _ _ (fun _ _ => ?_)).trans ?_
    | refine (mem_fold1 _ _ _ (fun _ _ => ?_)).trans ?_
    | refine (mem_fold2 _ _ _ (fun _ _ => ?_)).trans ?_
    | split
    | simp
    | rfl
@[simp] theorem State.allocOp_mem (s : Sys2Proof.Machine.State) (b : Sys2Proof.Bytes) : (Sys2Proof.Machine.State.allocOp s b).2.mem = s.mem := by
  unfold State.allocOp
  repeat' first
    | with_reducible rfl
    | refine (mem_foldl _ _ _ (fun _ _ => ?_)).trans ?_
    | refine (mem_fold1 _ _ _ (fun _ _ => ?_)).trans ?_
    | refine (mem_fold2 _ _ _ (fun _ _ => ?_)).trans ?_
    | split
    | simp
    | rfl
@[simp] theorem State.revokeOp_mem (s : State) (v : Nat) : (State.revokeOp s v).2.mem = s.mem := by
  unfold State.revokeOp
  repeat' split
  all_goals simp
@[simp] theorem State.setSpare_mem (s : State) (k : Nat) (v : Nat) : (State.setSpare s k v).mem = s.mem := by simp [State.setSpare]
@[simp] theorem State.hbmChannel_mem (s : State) (die : Nat) (channel : Nat) : (State.hbmChannel s die channel).mem = s.mem := by
  unfold State.hbmChannel
  repeat' first | with_reducible rfl | split | simp
@[simp] theorem State.hbmRow_mem (s : State) (die : Nat) (row : Nat) : (State.hbmRow s die row).mem = s.mem := by
  unfold State.hbmRow
  repeat' first | with_reducible rfl | split | simp
@[simp] theorem State.repairRows_mem (s : Sys2Proof.Machine.State) (x : Sys2Proof.Machine.Extent) : (Sys2Proof.Machine.State.repairRows s x).mem = s.mem := by
  unfold State.repairRows
  repeat' first
    | with_reducible rfl
    | refine (mem_foldl _ _ _ (fun _ _ => ?_)).trans ?_
    | refine (mem_fold1 _ _ _ (fun _ _ => ?_)).trans ?_
    | refine (mem_fold2 _ _ _ (fun _ _ => ?_)).trans ?_
    | split
    | simp
    | rfl
@[simp] theorem State.repairOp_mem (s : Sys2Proof.Machine.State) (v : Nat) : (Sys2Proof.Machine.State.repairOp s v).2.mem = s.mem := by
  unfold State.repairOp
  repeat' first
    | with_reducible rfl
    | refine (mem_foldl _ _ _ (fun _ _ => ?_)).trans ?_
    | refine (mem_fold1 _ _ _ (fun _ _ => ?_)).trans ?_
    | refine (mem_fold2 _ _ _ (fun _ _ => ?_)).trans ?_
    | split
    | simp
    | rfl
theorem State.sessionWrite_mem (s : State) (sid idx sub : Nat) (claimMay : Bool) (op : State → Nat × State) (h : ∀ u, (op u).2.mem = u.mem) :
    (s.sessionWrite sid idx sub claimMay op).mem = s.mem := by
  unfold State.sessionWrite
  repeat' first
    | with_reducible rfl
    | (refine (mem_foldl _ _ _ (fun a x => ?_)).trans ?_)
    | (refine (mem_fold1 _ _ _ (fun a x => ?_)).trans ?_)
    | (refine (mem_fold2 _ _ _ (fun a x => ?_)).trans ?_)
    | split
    | simp [*]
@[simp] theorem State.wsqWrite_mem (s : State) (k : Nat) (v : Nat) : (State.wsqWrite s k v).2.mem = s.mem := by
  unfold State.wsqWrite
  repeat' first | with_reducible rfl | refine (mem_foldl _ _ _ (fun _ _ => ?_)).trans ?_ | split | simp
@[simp] theorem State.doorbell_mem (s : State) (p : Nat) (l : Nat) (value : Nat) (size : Nat) : (State.doorbell s p l value size).mem = s.mem := by
  unfold State.doorbell
  repeat' first | with_reducible rfl | split | simp
@[simp] theorem State.donorOffer_mem (s : State) (p : Nat) (l : Nat) (i : Nat) : (State.donorOffer s p l i).mem = s.mem := by
  unfold State.donorOffer
  repeat' first | with_reducible rfl | split | simp
@[simp] theorem State.dropRegion_mem (s : State) (region : Nat) : (State.dropRegion s region).mem = s.mem := by simp [State.dropRegion]
@[simp] theorem State.forgetRegion_mem (s : Sys2Proof.Machine.State) (region : Nat) : (Sys2Proof.Machine.State.forgetRegion s region).mem = s.mem := by
  unfold State.forgetRegion
  repeat' first
    | with_reducible rfl
    | refine (mem_foldl _ _ _ (fun _ _ => ?_)).trans ?_
    | refine (mem_fold1 _ _ _ (fun _ _ => ?_)).trans ?_
    | refine (mem_fold2 _ _ _ (fun _ _ => ?_)).trans ?_
    | split
    | simp
    | rfl
@[simp] theorem State.donorRevoke_mem (s : State) (p : Nat) (l : Nat) (i : Nat) : (State.donorRevoke s p l i).mem = s.mem := by
  unfold State.donorRevoke
  repeat' first | with_reducible rfl | split | simp
@[simp] theorem State.dropDonors_mem (s : State) (p : Nat) : (State.dropDonors s p).mem = s.mem := by
  unfold State.dropDonors
  repeat' first | with_reducible rfl | refine (mem_foldl _ _ _ (fun _ _ => ?_)).trans ?_ | split | simp
@[simp] theorem State.trayFail_mem (s : State) (p : Nat) : (State.trayFail s p).mem = s.mem := by
  unfold State.trayFail
  repeat' first | with_reducible rfl | refine (mem_foldl _ _ _ (fun _ _ => ?_)).trans ?_ | split | simp
@[simp] theorem State.setLine_mem (s : State) (o : Nat) (x : HLine) : (State.setLine s o x).mem = s.mem := by simp [State.setLine]
@[simp] theorem State.setCached_mem (s : State) (c : CLine) : (State.setCached s c).mem = s.mem := by unfold State.setCached; split <;> simp
@[simp] theorem State.send_mem (s : State) (m : CohMsg) : (State.send s m).mem = s.mem := by simp [State.send]
@[simp] theorem State.biSnoop_mem (s : State) (o : Nat) (hs : List (Nat × Nat)) : (State.biSnoop s o hs).mem = s.mem := mem_foldl _ _ _ (fun _ _ => by simp)
@[simp] theorem State.snoopFor_mem (s : State) (o : Nat) (t : Txn) : (State.snoopFor s o t).mem = s.mem := by
  unfold State.snoopFor
  repeat' first | with_reducible rfl | refine (mem_foldl _ _ _ (fun _ _ => ?_)).trans ?_ | split | simp
@[simp] theorem State.grantTxn_mem (s : State) (o : Nat) (t : Txn) : (State.grantTxn s o t).mem = s.mem := by
  unfold State.grantTxn
  repeat' split
  all_goals simp
@[simp] theorem State.runLine_mem (s : State) (o : Nat) (x2 : Nat) : (State.runLine s o x2).mem = s.mem := by
  induction x2 generalizing s with
  | zero => rfl
  | succ n ih =>
    unfold State.runLine
    repeat' first
      | with_reducible rfl
      | (refine (mem_foldl _ _ _ (fun a x => ?_)).trans ?_)
      | (refine (mem_fold1 _ _ _ (fun a x => ?_)).trans ?_)
      | (refine (mem_fold2 _ _ _ (fun a x => ?_)).trans ?_)
      | split
      | simp [ih]
@[simp] theorem State.makeRoom_mem (s : State) (o : Nat) : (State.makeRoom s o).mem = s.mem := by
  unfold State.makeRoom
  repeat' first | with_reducible rfl | split | simp
@[simp] theorem State.queueAt_mem (s : Sys2Proof.Machine.State) (o : Nat) (t : Sys2Proof.Machine.Txn) : (Sys2Proof.Machine.State.queueAt s o t).mem = s.mem := by
  unfold State.queueAt
  repeat' first
    | with_reducible rfl
    | refine (mem_foldl _ _ _ (fun _ _ => ?_)).trans ?_
    | refine (mem_fold1 _ _ _ (fun _ _ => ?_)).trans ?_
    | refine (mem_fold2 _ _ _ (fun _ _ => ?_)).trans ?_
    | split
    | simp
    | rfl
@[simp] theorem State.freshLine_mem (s : Sys2Proof.Machine.State) (o : Nat) (v : Sys2Proof.Bytes) : (Sys2Proof.Machine.State.freshLine s o v).mem = s.mem := by
  unfold State.freshLine
  repeat' first
    | with_reducible rfl
    | refine (mem_foldl _ _ _ (fun _ _ => ?_)).trans ?_
    | refine (mem_fold1 _ _ _ (fun _ _ => ?_)).trans ?_
    | refine (mem_fold2 _ _ _ (fun _ _ => ?_)).trans ?_
    | split
    | simp
    | rfl
@[simp] theorem State.bringLine_mem (s : Sys2Proof.Machine.State) (o : Nat) : (Sys2Proof.Machine.State.bringLine s o).mem = s.mem := by
  unfold State.bringLine
  repeat' first
    | with_reducible rfl
    | refine (mem_foldl _ _ _ (fun _ _ => ?_)).trans ?_
    | refine (mem_fold1 _ _ _ (fun _ _ => ?_)).trans ?_
    | refine (mem_fold2 _ _ _ (fun _ _ => ?_)).trans ?_
    | split
    | simp
    | rfl
@[simp] theorem State.freshViews_mem (s : Sys2Proof.Machine.State) : (Sys2Proof.Machine.State.freshViews s).mem = s.mem := by
  unfold State.freshViews
  repeat' first
    | with_reducible rfl
    | refine (mem_foldl _ _ _ (fun _ _ => ?_)).trans ?_
    | refine (mem_fold1 _ _ _ (fun _ _ => ?_)).trans ?_
    | refine (mem_fold2 _ _ _ (fun _ _ => ?_)).trans ?_
    | split
    | simp
    | rfl
@[simp] theorem State.atHome_mem (s : State) (o : Nat) (t : Txn) : (State.atHome s o t).mem = s.mem := by simp [State.atHome]
@[simp] theorem State.answered_mem (s : State) (a : Nat) (o : Nat) (v : Option Bytes) (fwd : Bool) : (State.answered s a o v fwd).mem = s.mem := by
  unfold State.answered
  repeat' first | with_reducible rfl | split | simp
@[simp] theorem State.settleFences_mem (s : State) : (State.settleFences s).mem = s.mem := by simp [State.settleFences]
theorem State.cacheRoom_of_mem {s s1 : State} {i line : Nat} (h : s.cacheRoom i line = some s1) : s1.mem = s.mem := by
  unfold State.cacheRoom at h
  by_cases hl : ((s.caches.filter (fun c => c.agent == i && c.line != line && (c.st != 0 || c.req != 0))).length < cacheLines i)
  · rw [if_pos hl] at h; cases h; rfl
  · rw [if_neg hl] at h
    obtain ⟨c, _, rfl⟩ := Option.map_eq_some_iff.mp h
    simp
@[simp] theorem State.sqTailOp_mem (s : State) (p : Nat) (l : Nat) (r : Nat) (v : Nat) : (State.sqTailOp s p l r v).mem = s.mem := by
  unfold State.sqTailOp
  repeat' first | with_reducible rfl | split | simp
@[simp] theorem State.sqEnableOp_mem (s : State) (p : Nat) (l : Nat) (r : Nat) : (State.sqEnableOp s p l r).mem = s.mem := by
  unfold State.sqEnableOp
  repeat' first | with_reducible rfl | split | simp
@[simp] theorem State.sqDisableOp_mem (s : State) (p : Nat) (l : Nat) (r : Nat) : (State.sqDisableOp s p l r).mem = s.mem := by
  unfold State.sqDisableOp
  repeat' first | with_reducible rfl | split | simp
@[simp] theorem State.sqCfgOp_mem (s : State) (p : Nat) (l : Nat) (r : Nat) (v : Nat) : (State.sqCfgOp s p l r v).mem = s.mem := by
  unfold State.sqCfgOp
  repeat' first | with_reducible rfl | split | simp
@[simp] theorem State.cqCfgOp_mem (s : State) (p : Nat) (l : Nat) (r : Nat) (v : Nat) : (State.cqCfgOp s p l r v).mem = s.mem := by
  unfold State.cqCfgOp
  repeat' first | with_reducible rfl | split | simp
@[simp] theorem State.cqBaseOp_mem (s : State) (p : Nat) (l : Nat) (r : Nat) (v : Nat) : (State.cqBaseOp s p l r v).mem = s.mem := by
  unfold State.cqBaseOp
  repeat' first | with_reducible rfl | split | simp
@[simp] theorem State.cqHeadOp_mem (s : State) (p : Nat) (l : Nat) (r : Nat) (v : Nat) : (State.cqHeadOp s p l r v).mem = s.mem := by
  unfold State.cqHeadOp
  repeat' first | with_reducible rfl | split | simp
@[simp] theorem State.eqHeadOp_mem (s : State) (p : Nat) (l : Nat) (v : Nat) : (State.eqHeadOp s p l v).mem = s.mem := by
  unfold State.eqHeadOp
  repeat' first | with_reducible rfl | split | simp
@[simp] theorem State.eqCfgOp_mem (s : State) (p : Nat) (l : Nat) (v : Nat) : (State.eqCfgOp s p l v).mem = s.mem := by
  unfold State.eqCfgOp
  repeat' first | with_reducible rfl | split | simp
@[simp] theorem State.readAway_mem (s : Sys2Proof.Machine.State) (p : Nat) (l : Nat) (dev : Nat) (a : Nat) (dpa : Nat) (n : Nat) : (Sys2Proof.Machine.State.readAway s p l dev a dpa n).mem = s.mem := by
  unfold State.readAway
  repeat' first
    | with_reducible rfl
    | refine (mem_foldl _ _ _ (fun _ _ => ?_)).trans ?_
    | refine (mem_fold1 _ _ _ (fun _ _ => ?_)).trans ?_
    | refine (mem_fold2 _ _ _ (fun _ _ => ?_)).trans ?_
    | split
    | simp
    | rfl
@[simp] theorem State.writeAway_mem (s : Sys2Proof.Machine.State) (src : Sys2Proof.Source) (e : Nat) (dev : Nat) (a : Nat) (dpa : Nat) (d : Sys2Proof.Bytes) (flag : Bool) : (Sys2Proof.Machine.State.writeAway s src e dev a dpa d flag).mem = s.mem := by
  unfold State.writeAway
  repeat' first
    | with_reducible rfl
    | refine (mem_foldl _ _ _ (fun _ _ => ?_)).trans ?_
    | refine (mem_fold1 _ _ _ (fun _ _ => ?_)).trans ?_
    | refine (mem_fold2 _ _ _ (fun _ _ => ?_)).trans ?_
    | split
    | simp
    | rfl
@[simp] theorem State.peerAnswer_mem (s : Sys2Proof.Machine.State) (k : Sys2Proof.Packet) : (Sys2Proof.Machine.State.peerAnswer s k).mem = s.mem := by
  unfold State.peerAnswer
  repeat' first
    | with_reducible rfl
    | refine (mem_foldl _ _ _ (fun _ _ => ?_)).trans ?_
    | refine (mem_fold1 _ _ _ (fun _ _ => ?_)).trans ?_
    | refine (mem_fold2 _ _ _ (fun _ _ => ?_)).trans ?_
    | split
    | simp
    | rfl
@[simp] theorem State.endRequest_mem (s : Sys2Proof.Machine.State) (k : Sys2Proof.Packet) : (Sys2Proof.Machine.State.endRequest s k).mem = s.mem := by
  unfold State.endRequest
  repeat' first
    | with_reducible rfl
    | refine (mem_foldl _ _ _ (fun _ _ => ?_)).trans ?_
    | refine (mem_fold1 _ _ _ (fun _ _ => ?_)).trans ?_
    | refine (mem_fold2 _ _ _ (fun _ _ => ?_)).trans ?_
    | split
    | simp
    | rfl
@[simp] theorem State.losePackets_mem (s : Sys2Proof.Machine.State) (l : List Sys2Proof.Packet) : (Sys2Proof.Machine.State.losePackets s l).mem = s.mem := by
  unfold State.losePackets
  repeat' first
    | with_reducible rfl
    | refine (mem_foldl _ _ _ (fun _ _ => ?_)).trans ?_
    | refine (mem_fold1 _ _ _ (fun _ _ => ?_)).trans ?_
    | refine (mem_fold2 _ _ _ (fun _ _ => ?_)).trans ?_
    | split
    | simp
    | rfl
@[simp] theorem State.homePerform_mem (s : Sys2Proof.Machine.State) (d : Nat) (x : Nat) (k : Sys2Proof.Packet) : (Sys2Proof.Machine.State.homePerform s d x k).mem = s.mem := by
  unfold State.homePerform
  repeat' first
    | with_reducible rfl
    | refine (mem_foldl _ _ _ (fun _ _ => ?_)).trans ?_
    | refine (mem_fold1 _ _ _ (fun _ _ => ?_)).trans ?_
    | refine (mem_fold2 _ _ _ (fun _ _ => ?_)).trans ?_
    | split
    | simp
    | rfl
@[simp] theorem State.serveRead_mem (s : Sys2Proof.Machine.State) (p : Nat) (l : Nat) (dpa : Nat) (n : Nat) : (Sys2Proof.Machine.State.serveRead s p l dpa n).mem = s.mem := by
  unfold State.serveRead
  repeat' first
    | with_reducible rfl
    | refine (mem_foldl _ _ _ (fun _ _ => ?_)).trans ?_
    | refine (mem_fold1 _ _ _ (fun _ _ => ?_)).trans ?_
    | refine (mem_fold2 _ _ _ (fun _ _ => ?_)).trans ?_
    | split
    | simp
    | rfl
@[simp] theorem State.serveWrite_mem (s : Sys2Proof.Machine.State) (p : Nat) (l : Nat) (dpa : Nat) (d : Sys2Proof.Bytes) (flag : Bool) : (Sys2Proof.Machine.State.serveWrite s p l dpa d flag).mem = s.mem := by
  unfold State.serveWrite
  repeat' first
    | with_reducible rfl
    | refine (mem_foldl _ _ _ (fun _ _ => ?_)).trans ?_
    | refine (mem_fold1 _ _ _ (fun _ _ => ?_)).trans ?_
    | refine (mem_fold2 _ _ _ (fun _ _ => ?_)).trans ?_
    | split
    | simp
    | rfl
@[simp] theorem State.flushStart_mem (s : State) (p : Nat) (l : Nat) (seq : Nat) : (State.flushStart s p l seq).mem = s.mem := by simp [State.flushStart]
@[simp] theorem State.dropCopies_mem (s : Sys2Proof.Machine.State) (p : Nat) (l : Nat) (b : Nat) (n : Nat) : (Sys2Proof.Machine.State.dropCopies s p l b n).mem = s.mem := by
  unfold State.dropCopies
  repeat' first
    | with_reducible rfl
    | refine (mem_foldl _ _ _ (fun _ _ => ?_)).trans ?_
    | refine (mem_fold1 _ _ _ (fun _ _ => ?_)).trans ?_
    | refine (mem_fold2 _ _ _ (fun _ _ => ?_)).trans ?_
    | split
    | simp
    | rfl
@[simp] theorem State.newVersion_mem (s : State) (c : Nat) (e : Nat) (y : Extent) (g : Nat) (v : Nat) (digest : Bytes) (st : SharedSet) (prev : Option SVersion) : (State.newVersion s c e y g v digest st prev).mem = s.mem := by
  unfold State.newVersion
  repeat' first | with_reducible rfl | refine (mem_foldl _ _ _ (fun _ _ => ?_)).trans ?_ | split | simp
@[simp] theorem State.publishNow_mem (s : State) (c : Nat) (x : Cmd) (e : Nat) : (State.publishNow s c x e).mem = s.mem := by
  unfold State.publishNow
  repeat' first | with_reducible rfl | split | simp
@[simp] theorem State.settlePublish_mem (s : State) : (State.settlePublish s).mem = s.mem := by
  unfold State.settlePublish
  repeat' first | with_reducible rfl | refine (mem_foldl _ _ _ (fun _ _ => ?_)).trans ?_ | split | simp
@[simp] theorem State.bar2Write_mem (s : Sys2Proof.Machine.State) (p : Nat) (l : Nat) (o : Nat) (v : Nat) : (Sys2Proof.Machine.State.bar2Write s p l o v).mem = s.mem := by
  unfold State.bar2Write
  repeat' first
    | with_reducible rfl
    | refine (mem_foldl _ _ _ (fun _ _ => ?_)).trans ?_
    | refine (mem_fold1 _ _ _ (fun _ _ => ?_)).trans ?_
    | refine (mem_fold2 _ _ _ (fun _ _ => ?_)).trans ?_
    | split
    | simp
    | rfl
@[simp] theorem State.pageWrite_mem (s : State) (p : Nat) (l : Nat) (o : Nat) (v : Nat) : (State.pageWrite s p l o v).mem = s.mem := by
  unfold State.pageWrite
  repeat' split
  all_goals simp
@[simp] theorem State.bar0Read_mem (s : State) (p : Nat) (l : Nat) (o : Nat) (n : Nat) : (State.bar0Read s p l o n).mem = s.mem := by
  unfold State.bar0Read
  repeat' split
  all_goals simp
@[simp] theorem State.bar0Write_mem (s : State) (p : Nat) (l : Nat) (o : Nat) (d : Bytes) : (State.bar0Write s p l o d).mem = s.mem := by
  unfold State.bar0Write
  repeat' split
  all_goals simp
@[simp] theorem State.bar2Get_mem (s : State) (p : Nat) (l : Nat) (o : Nat) (n : Nat) : (State.bar2Get s p l o n).mem = s.mem := by unfold State.bar2Get; split <;> simp
@[simp] theorem State.serveAtomic_mem (s : Sys2Proof.Machine.State) (p : Nat) (l : Nat) (r : Sys2Proof.Machine.AtomReq) : (Sys2Proof.Machine.State.serveAtomic s p l r).mem = s.mem := by
  unfold State.serveAtomic
  repeat' first
    | with_reducible rfl
    | refine (mem_foldl _ _ _ (fun _ _ => ?_)).trans ?_
    | refine (mem_fold1 _ _ _ (fun _ _ => ?_)).trans ?_
    | refine (mem_fold2 _ _ _ (fun _ _ => ?_)).trans ?_
    | split
    | simp
    | rfl
@[simp] theorem State.serve_mem (s : State) (x : HeldAcc) : (State.serve s x).mem = s.mem := by
  unfold State.serve
  repeat' first
    | with_reducible rfl
    | refine (mem_foldl _ _ _ (fun _ _ => ?_)).trans ?_
    | refine (mem_fold1 _ _ _ (fun _ _ => ?_)).trans ?_
    | refine (mem_fold2 _ _ _ (fun _ _ => ?_)).trans ?_
    | split
    | simp
    | rfl
@[simp] theorem State.shape_mem (s : State) (x : HeldAcc) : (State.shape s x).mem = s.mem := by
  unfold State.shape
  repeat' first | with_reducible rfl | split | simp
@[simp] theorem State.releaseHeld_mem (s : State) : (State.releaseHeld s).mem = s.mem := by
  unfold State.releaseHeld
  repeat' first | with_reducible rfl | refine (mem_fold1 _ _ _ (fun _ _ => ?_)).trans ?_ | split | simp
@[simp] theorem State.flagStore_mem (s : Sys2Proof.Machine.State) (p : Nat) (l : Nat) (v : Nat) : (Sys2Proof.Machine.State.flagStore s p l v).mem = s.mem := by
  unfold State.flagStore
  repeat' first
    | with_reducible rfl
    | refine (mem_foldl _ _ _ (fun _ _ => ?_)).trans ?_
    | refine (mem_fold1 _ _ _ (fun _ _ => ?_)).trans ?_
    | refine (mem_fold2 _ _ _ (fun _ _ => ?_)).trans ?_
    | split
    | simp
    | rfl
@[simp] theorem State.askLine_mem (s : Sys2Proof.Machine.State) (a : Sys2Proof.Agent) (line : Nat) (ctx : Nat) (kind : Nat) (store : Sys2Proof.LineStore) : (Sys2Proof.Machine.State.askLine s a line ctx kind store).mem = s.mem := by
  unfold State.askLine
  dsimp only
  split
  · generalize hc : s.cacheRoom (agentNum a) line = o
    cases o with
    | none => rfl
    | some s1 => simp [State.cacheRoom_of_mem hc]
  · rfl
@[simp] theorem State.answerSnoop_mem (s : State) (c : CLine) (inv : Bool) (fwd : Option Nat) : (State.answerSnoop s c inv fwd).mem = s.mem := by
  unfold State.answerSnoop
  repeat' split
  all_goals simp
@[simp] theorem State.answerAside_mem (s : State) (a : Nat) (o : Nat) (x3 : List (Bool × Option Nat)) : (State.answerAside s a o x3).mem = s.mem := by
  induction x3 generalizing s with
  | nil => rfl
  | cons y t ih =>
    unfold State.answerAside
    repeat' first
      | with_reducible rfl
      | (refine (mem_foldl _ _ _ (fun a x => ?_)).trans ?_)
      | (refine (mem_fold1 _ _ _ (fun a x => ?_)).trans ?_)
      | (refine (mem_fold2 _ _ _ (fun a x => ?_)).trans ?_)
      | split
      | simp [ih]
@[simp] theorem State.viewRestoreOp_mem (s : State) (v : Nat) : (State.viewRestoreOp s v).2.mem = s.mem := by
  unfold State.viewRestoreOp
  repeat' first | with_reducible rfl | split | simp
@[simp] theorem State.setSeq_mem (s : State) (x : Seq) : (State.setSeq s x).mem = s.mem := by simp [State.setSeq]
@[simp] theorem State.modGroup_mem (s : State) (gid : Nat) (f : Group → Group) : (State.modGroup s gid f).mem = s.mem := by unfold State.modGroup; split <;> simp
@[simp] theorem State.modPage_mem (s : State) (gid : Nat) (m : Nat) (f : Page → Page) : (State.modPage s gid m f).mem = s.mem := by simp [State.modPage]
@[simp] theorem State.putPage_mem (s : State) (gid : Nat) (m : Nat) (y : Page) : (State.putPage s gid m y).mem = s.mem := by simp [State.putPage]
@[simp] theorem State.sendTile_mem (s : Sys2Proof.Machine.State) (dev : Nat) (t : Sys2Proof.Tile) : (Sys2Proof.Machine.State.sendTile s dev t).mem = s.mem := by
  unfold State.sendTile
  repeat' first
    | with_reducible rfl
    | refine (mem_foldl _ _ _ (fun _ _ => ?_)).trans ?_
    | refine (mem_fold1 _ _ _ (fun _ _ => ?_)).trans ?_
    | refine (mem_fold2 _ _ _ (fun _ _ => ?_)).trans ?_
    | split
    | simp
    | rfl
@[simp] theorem State.setPset_mem (s : State) (t : Nat) (set : Nat) (x : PSet) : (State.setPset s t set x).mem = s.mem := by simp [State.setPset]
@[simp] theorem State.nvmeSubmit_mem (s : Sys2Proof.Machine.State) (p : Nat) (op : Nat) (page : Nat) (loc : Nat) : (Sys2Proof.Machine.State.nvmeSubmit s p op page loc).mem = s.mem := by
  unfold State.nvmeSubmit
  repeat' first
    | with_reducible rfl
    | refine (mem_foldl _ _ _ (fun _ _ => ?_)).trans ?_
    | refine (mem_fold1 _ _ _ (fun _ _ => ?_)).trans ?_
    | refine (mem_fold2 _ _ _ (fun _ _ => ?_)).trans ?_
    | split
    | simp
    | rfl
@[simp] theorem State.nvmeNext_mem (s : Sys2Proof.Machine.State) (p : Nat) : (Sys2Proof.Machine.State.nvmeNext s p).mem = s.mem := by
  unfold State.nvmeNext
  repeat' first
    | with_reducible rfl
    | refine (mem_foldl _ _ _ (fun _ _ => ?_)).trans ?_
    | refine (mem_fold1 _ _ _ (fun _ _ => ?_)).trans ?_
    | refine (mem_fold2 _ _ _ (fun _ _ => ?_)).trans ?_
    | split
    | simp
    | rfl
@[simp] theorem State.nvmeBringUp_mem (s : Sys2Proof.Machine.State) (p : Nat) : (Sys2Proof.Machine.State.nvmeBringUp s p).mem = s.mem := by
  unfold State.nvmeBringUp
  repeat' first | with_reducible rfl | split | simp
@[simp] theorem State.nvmeAt_mem (s : Sys2Proof.Machine.State) (op : Nat) (page : Nat) (loc : Nat) : (Sys2Proof.Machine.State.nvmeAt s op page loc).mem = s.mem := by
  unfold State.nvmeAt
  repeat' first
    | with_reducible rfl
    | refine (mem_foldl _ _ _ (fun _ _ => ?_)).trans ?_
    | refine (mem_fold1 _ _ _ (fun _ _ => ?_)).trans ?_
    | refine (mem_fold2 _ _ _ (fun _ _ => ?_)).trans ?_
    | split
    | simp
    | rfl
@[simp] theorem State.nvmeWrite_mem (s : Sys2Proof.Machine.State) (gid : Nat) (m : Nat) (form : Sys2Proof.Machine.PCopy) : (Sys2Proof.Machine.State.nvmeWrite s gid m form).mem = s.mem := by
  unfold State.nvmeWrite
  repeat' first
    | with_reducible rfl
    | refine (mem_foldl _ _ _ (fun _ _ => ?_)).trans ?_
    | refine (mem_fold1 _ _ _ (fun _ _ => ?_)).trans ?_
    | refine (mem_fold2 _ _ _ (fun _ _ => ?_)).trans ?_
    | split
    | simp
    | rfl
@[simp] theorem State.setOff_mem (s : State) (gid : Nat) (m : Nat) (tier : Nat) : (State.setOff s gid m tier).mem = s.mem := by
  unfold State.setOff
  repeat' split
  all_goals simp
@[simp] theorem State.spillGroup_mem (s : Sys2Proof.Machine.State) (gid : Nat) : (Sys2Proof.Machine.State.spillGroup s gid).mem = s.mem := by
  unfold State.spillGroup
  repeat' first
    | with_reducible rfl
    | refine (mem_foldl _ _ _ (fun _ _ => ?_)).trans ?_
    | refine (mem_fold1 _ _ _ (fun _ _ => ?_)).trans ?_
    | refine (mem_fold2 _ _ _ (fun _ _ => ?_)).trans ?_
    | split
    | simp
    | rfl
@[simp] theorem State.deallocate_mem (s : Sys2Proof.Machine.State) (gid : Nat) : (Sys2Proof.Machine.State.deallocate s gid).mem = s.mem := by
  unfold State.deallocate
  repeat' first
    | with_reducible rfl
    | refine (mem_foldl _ _ _ (fun _ _ => ?_)).trans ?_
    | refine (mem_fold1 _ _ _ (fun _ _ => ?_)).trans ?_
    | refine (mem_fold2 _ _ _ (fun _ _ => ?_)).trans ?_
    | split
    | simp
    | rfl
@[simp] theorem State.dropGroup_mem (s : Sys2Proof.Machine.State) (gid : Nat) : (Sys2Proof.Machine.State.dropGroup s gid).mem = s.mem := by
  unfold State.dropGroup
  repeat' first
    | with_reducible rfl
    | refine (mem_foldl _ _ _ (fun _ _ => ?_)).trans ?_
    | refine (mem_fold1 _ _ _ (fun _ _ => ?_)).trans ?_
    | refine (mem_fold2 _ _ _ (fun _ _ => ?_)).trans ?_
    | split
    | simp
    | rfl
@[simp] theorem State.makeT3_mem (s : State) (n readAt x3 : Nat) : (State.makeT3 s n readAt x3).mem = s.mem := by
  induction x3 generalizing s with
  | zero => rfl
  | succ k ih =>
    unfold State.makeT3
    split
    · rfl
    · split <;> simp [ih]
@[simp] theorem State.donorCopy_mem (s : State) (gid m : Nat) : (State.donorCopy s gid m).mem = s.mem := by
  unfold State.donorCopy
  split
  · split
    · rfl
    · dsimp only
      split <;> simp
  · rfl
@[simp] theorem State.settlePress_mem (s : State) : (State.settlePress s).mem = s.mem := by unfold State.settlePress; split <;> simp
@[simp] theorem State.moved_mem (s : Sys2Proof.Machine.State) (gid : Nat) (m : Nat) (tier : Nat) : (Sys2Proof.Machine.State.moved s gid m tier).mem = s.mem := by
  unfold State.moved
  repeat' first
    | with_reducible rfl
    | refine (mem_foldl _ _ _ (fun _ _ => ?_)).trans ?_
    | refine (mem_fold1 _ _ _ (fun _ _ => ?_)).trans ?_
    | refine (mem_fold2 _ _ _ (fun _ _ => ?_)).trans ?_
    | split
    | simp
    | rfl
@[simp] theorem State.evictPrefix_mem (s : Sys2Proof.Machine.State) (gid : Nat) : (Sys2Proof.Machine.State.evictPrefix s gid).mem = s.mem := by
  unfold State.evictPrefix
  repeat' first
    | with_reducible rfl
    | refine (mem_foldl _ _ _ (fun _ _ => ?_)).trans ?_
    | refine (mem_fold1 _ _ _ (fun _ _ => ?_)).trans ?_
    | refine (mem_fold2 _ _ _ (fun _ _ => ?_)).trans ?_
    | split
    | simp
    | rfl
theorem State.demoteOne_mem {s s1 : State} {t : Nat} (h : s.demoteOne t = some s1) : s1.mem = s.mem := by
  unfold State.demoteOne at h
  split at h
  · cases h
  · split at h
    · cases h; simp
    · split at h
      · cases h
      · obtain ⟨z, -, hz⟩ := Option.bind_eq_some_iff.1 h
        obtain ⟨u, -, hu⟩ := Option.map_eq_some_iff.1 hz
        rw [← hu]; simp
@[simp] theorem State.makeT1_mem (s : State) (t n x3 : Nat) : (State.makeT1 s t n x3).mem = s.mem := by
  induction x3 generalizing s with
  | zero => rfl
  | succ k ih =>
    unfold State.makeT1
    dsimp only
    split
    · rfl
    · split
      · rename_i s1 h1
        rw [ih]
        split at h1
        · cases h1
        · exact State.demoteOne_mem h1
      · split <;> simp [ih]
@[simp] theorem State.newGid_mem (s : State) : (State.newGid s).2.mem = s.mem := by simp [State.newGid]
@[simp] theorem State.stall_mem (s : State) (tier : Nat) (cause : Nat) (t : Nat) : (State.stall s tier cause t).mem = s.mem := by simp [State.stall]
@[simp] theorem State.readPage_mem (s : State) (gid : Nat) (m : Nat) (t : Nat) (mirrored : Bool) : (State.readPage s gid m t mirrored).2.mem = s.mem := by
  unfold State.readPage
  repeat' first | with_reducible rfl | split | simp
@[simp] theorem State.useSeq_mem (s0 : Sys2Proof.Machine.State) (x : Sys2Proof.Machine.Seq) : (Sys2Proof.Machine.State.useSeq s0 x).mem = s0.mem := by
  unfold State.useSeq
  repeat' first
    | with_reducible rfl
    | refine (mem_foldl _ _ _ (fun _ _ => ?_)).trans ?_
    | refine (mem_fold1 _ _ _ (fun _ _ => ?_)).trans ?_
    | refine (mem_fold2 _ _ _ (fun _ _ => ?_)).trans ?_
    | split
    | simp
    | rfl
@[simp] theorem State.touchSeq_mem (s : Sys2Proof.Machine.State) (x : Sys2Proof.Machine.Seq) : (Sys2Proof.Machine.State.touchSeq s x).mem = s.mem := by
  unfold State.touchSeq
  repeat' first
    | with_reducible rfl
    | refine (mem_foldl _ _ _ (fun _ _ => ?_)).trans ?_
    | refine (mem_fold1 _ _ _ (fun _ _ => ?_)).trans ?_
    | refine (mem_fold2 _ _ _ (fun _ _ => ?_)).trans ?_
    | split
    | simp
    | rfl
@[simp] theorem State.sealPage_mem (s : State) (gid : Nat) (m : Nat) : (State.sealPage s gid m).mem = s.mem := by unfold State.sealPage; split <;> simp
@[simp] theorem State.storePage_mem (s0 : Sys2Proof.Machine.State) (t : Nat) (sh : Sys2Proof.Shape) (shared : Bool) (partner : Bool) (away : Option Nat) (y : Sys2Proof.PageImage) : (Sys2Proof.Machine.State.storePage s0 t sh shared partner away y).mem = s0.mem := by
  unfold State.storePage
  repeat' first
    | with_reducible rfl
    | refine (mem_foldl _ _ _ (fun _ _ => ?_)).trans ?_
    | refine (mem_fold1 _ _ _ (fun _ _ => ?_)).trans ?_
    | refine (mem_fold2 _ _ _ (fun _ _ => ?_)).trans ?_
    | split
    | simp
    | rfl
@[simp] theorem State.storeImage_mem (s : State) (im : SeqImage) (st : Nat) (partnerOf : Option Nat) (incoming : Option Nat) : (State.storeImage s im st partnerOf incoming).mem = s.mem := mem_foldl _ _ _ (fun _ _ => by simp)
@[simp] theorem State.unlinkFar_mem (s : Sys2Proof.Machine.State) (x : Sys2Proof.Machine.Seq) : (Sys2Proof.Machine.State.unlinkFar s x).mem = s.mem := by
  unfold State.unlinkFar
  repeat' first
    | with_reducible rfl
    | refine (mem_foldl _ _ _ (fun _ _ => ?_)).trans ?_
    | refine (mem_fold1 _ _ _ (fun _ _ => ?_)).trans ?_
    | refine (mem_fold2 _ _ _ (fun _ _ => ?_)).trans ?_
    | split
    | simp
    | rfl
@[simp] theorem State.dropMeta_mem (s : Sys2Proof.Machine.State) (x : Sys2Proof.Machine.Seq) : (Sys2Proof.Machine.State.dropMeta s x).mem = s.mem := by
  unfold State.dropMeta
  repeat' first
    | with_reducible rfl
    | refine (mem_foldl _ _ _ (fun _ _ => ?_)).trans ?_
    | refine (mem_fold1 _ _ _ (fun _ _ => ?_)).trans ?_
    | refine (mem_fold2 _ _ _ (fun _ _ => ?_)).trans ?_
    | split
    | simp
    | rfl
@[simp] theorem State.freeSeq_mem (s : Sys2Proof.Machine.State) (x : Sys2Proof.Machine.Seq) : (Sys2Proof.Machine.State.freeSeq s x).mem = s.mem := by
  unfold State.freeSeq
  repeat' first
    | with_reducible rfl
    | refine (mem_foldl _ _ _ (fun _ _ => ?_)).trans ?_
    | refine (mem_fold1 _ _ _ (fun _ _ => ?_)).trans ?_
    | refine (mem_fold2 _ _ _ (fun _ _ => ?_)).trans ?_
    | split
    | simp
    | rfl
@[simp] theorem State.notePaths_mem (s : State) : (State.notePaths s).mem = s.mem := by simp [State.notePaths]
@[simp] theorem State.abortPend_mem (s : State) (f : PendItem → Bool) : (State.abortPend s f).mem = s.mem := mem_foldl _ _ _ (fun _ _ => by simp)
@[simp] theorem State.claim_mem (s : State) (x : Seq) (h : Home) : (State.claim s x h).mem = s.mem := by
  unfold State.claim
  repeat' split
  all_goals simp
@[simp] theorem State.takeOver_mem (s : State) (x : Seq) (h : Home) : (State.takeOver s x h).mem = s.mem := by
  unfold State.takeOver
  repeat' first | with_reducible rfl | refine (mem_foldl _ _ _ (fun _ _ => ?_)).trans ?_ | split | simp
@[simp] theorem State.mirrorStore_mem (s : State) (x : Seq) (m : Mirror) : (State.mirrorStore s x m).mem = s.mem := by
  unfold State.mirrorStore
  repeat' first | with_reducible rfl | split | simp
@[simp] theorem State.mirrorIn_mem (s : State) (m : Mirror) : (State.mirrorIn s m).mem = s.mem := by
  unfold State.mirrorIn
  repeat' first | with_reducible rfl | split | simp
@[simp] theorem State.retryMirrors_mem (s : State) : (State.retryMirrors s).mem = s.mem := mem_foldl _ _ _ (fun _ _ => by simp)
@[simp] theorem State.reseat_mem (a : State × List (Nat × Nat)) (m : FMap) (ring : List RPoint) (was : Option Home) (k : Nat) (x : Seq) : (State.reseat a m ring was k x).1.mem = a.1.mem := by
  unfold State.reseat
  repeat' first | with_reducible rfl | split | simp
@[simp] theorem State.dropPrefixes_mem (s : State) (m : FMap) : (State.dropPrefixes s m).1.mem = s.mem := by
  unfold State.dropPrefixes
  repeat' first | with_reducible rfl | split | simp
@[simp] theorem State.leaveMap_mem (s : State) : (State.leaveMap s).mem = s.mem := by
  unfold State.leaveMap
  repeat' first | with_reducible rfl | refine (mem_foldl _ _ _ (fun _ _ => ?_)).trans ?_ | split | simp
@[simp] theorem State.adoptMap_mem (s : State) (m : FMap) : (s.adoptMap m).mem = s.mem := by
  have h3 : ∀ (u : State) (c : Bool), (if c then u.flag 0x9000 8 7 else u).mem = u.mem := by intro u c; split <;> simp
  unfold State.adoptMap
  extract_lets old oldMembers isIn left lost exp keepExp src s1 s2 s3 ring oldRing took r d devs srcD srcF s4 s5 gone s6 fresh s7
  have e3 : s3.mem = s.mem := (h3 s2 lost).trans ((State.emits_mem _ _).trans (State.flag_mem _ _ _ _))
  split
  · simp [e3]
  · clear_value oldMembers isIn left lost exp keepExp src ring oldRing took
    have er : r.1.mem = s3.mem := mem_fold1 _ _ _ (fun a x => State.reseat_mem _ _ _ _ _ _)
    have ed : d.1.mem = s3.mem := (State.dropPrefixes_mem _ _).trans er
    have e4 : s4.mem = s3.mem := (mem_foldl _ _ _ (fun a x => by simp)).trans (by exact ed)
    have e5 : s5.mem = s3.mem := by
      simp only [s5]
      split
      · exact e4
      · exact (State.flag_mem _ _ _ _).trans e4
    have e6 : s6.mem = s3.mem := by
      refine (mem_foldl _ _ _ (fun a x => ?_)).trans e5
      dsimp only
      refine mem_ite rfl (mem_ite ?_ ?_) <;> simp
    have e7 : s7.mem = s3.mem := (mem_foldl _ _ _ (fun a x => State.emits_mem _ _)).trans e6
    exact (State.retryMirrors_mem _).trans ((State.notePaths_mem _).trans (e7.trans e3))
@[simp] theorem State.adopt_mem (s : State) (m : FMap) : (s.adopt m).mem = s.mem := by
  unfold State.adopt
  simp [State.adoptMap_mem]
@[simp] theorem State.propose_mem (s : State) (epoch : Nat) (members : List FMember) (overrides : List (Nat × Nat × Nat)) (lastExpel : Option Nat) : (State.propose s epoch members overrides lastExpel).mem = s.mem := by simp [State.propose]
@[simp] theorem State.proposeDies_mem (s : State) : (State.proposeDies s).mem = s.mem := by
  unfold State.proposeDies
  repeat' split
  all_goals simp
@[simp] theorem State.proposeWithout_mem (s : State) (d : Nat) (expelAt : Option Nat) : (State.proposeWithout s d expelAt).mem = s.mem := by unfold State.proposeWithout; split <;> simp
@[simp] theorem State.readPages_mem (s : State) (m : Nat) (t : Nat) (mirrored : Bool) (pages : List APage) : (State.readPages s m t mirrored pages).2.mem = s.mem := by
  unfold State.readPages
  repeat' first | with_reducible rfl | refine (mem_fold2 _ _ _ (fun _ _ => ?_)).trans ?_ | split | simp
@[simp] theorem State.askPages_mem (s : Sys2Proof.Machine.State) (t : Nat) (ref : Nat) (item : Nat) (fmt : Nat) (dim : Nat) (m : Nat) (pages : List Sys2Proof.Machine.APage) : (Sys2Proof.Machine.State.askPages s t ref item fmt dim m pages).mem = s.mem := by
  unfold State.askPages
  repeat' first
    | with_reducible rfl
    | refine (mem_foldl _ _ _ (fun _ _ => ?_)).trans ?_
    | refine (mem_fold1 _ _ _ (fun _ _ => ?_)).trans ?_
    | refine (mem_fold2 _ _ _ (fun _ _ => ?_)).trans ?_
    | split
    | simp
    | rfl
@[simp] theorem State.countSkips_mem (s : Sys2Proof.Machine.State) (a : Sys2Proof.Machine.AttArgs) (pages : List Sys2Proof.Machine.APage) : (Sys2Proof.Machine.State.countSkips s a pages).mem = s.mem := by
  unfold State.countSkips
  repeat' first
    | with_reducible rfl
    | refine (mem_foldl _ _ _ (fun _ _ => ?_)).trans ?_
    | refine (mem_fold1 _ _ _ (fun _ _ => ?_)).trans ?_
    | refine (mem_fold2 _ _ _ (fun _ _ => ?_)).trans ?_
    | split
    | simp
    | rfl
@[simp] theorem State.attWork_mem (s : Sys2Proof.Machine.State) (a : Sys2Proof.Machine.AttArgs) (rows : Nat) (pages : List Sys2Proof.Machine.APage) : (Sys2Proof.Machine.State.attWork s a rows pages).mem = s.mem := by
  unfold State.attWork
  repeat' first
    | with_reducible rfl
    | refine (mem_foldl _ _ _ (fun _ _ => ?_)).trans ?_
    | refine (mem_fold1 _ _ _ (fun _ _ => ?_)).trans ?_
    | refine (mem_fold2 _ _ _ (fun _ _ => ?_)).trans ?_
    | split
    | simp
    | rfl
@[simp] theorem State.attCount_mem (s : State) (a : AttArgs) (rows : Nat) (pages : List APage) : (State.attCount s a rows pages).mem = s.mem := by
  unfold State.attCount
  repeat' split
  all_goals simp
@[simp] theorem State.countPart_mem (s : Sys2Proof.Machine.State) (a : Sys2Proof.Machine.AttArgs) (rows : Nat) (pages : List Sys2Proof.Machine.APage) : (Sys2Proof.Machine.State.countPart s a rows pages).mem = s.mem := by
  unfold State.countPart
  repeat' first
    | with_reducible rfl
    | refine (mem_foldl _ _ _ (fun _ _ => ?_)).trans ?_
    | refine (mem_fold1 _ _ _ (fun _ _ => ?_)).trans ?_
    | refine (mem_fold2 _ _ _ (fun _ _ => ?_)).trans ?_
    | split
    | simp
    | rfl
@[simp] theorem State.attLocate_mem (s : Sys2Proof.Machine.State) (ref : Nat) (t : Nat) (epoch : Nat) (i : Nat) (a : Sys2Proof.Machine.AttArgs) (it : Sys2Proof.Machine.AttItem) (qs : List (List Sys2Proof.Machine.Fbits)) : (Sys2Proof.Machine.State.attLocate s ref t epoch i a it qs).2.mem = s.mem := by
  unfold State.attLocate
  repeat' first
    | with_reducible rfl
    | refine (mem_foldl _ _ _ (fun _ _ => ?_)).trans ?_
    | refine (mem_fold1 _ _ _ (fun _ _ => ?_)).trans ?_
    | refine (mem_fold2 _ _ _ (fun _ _ => ?_)).trans ?_
    | split
    | simp
    | rfl
@[simp] theorem State.attItemRun_mem (s : State) (ref : Nat) (c : Cmd) (i : Nat) : (State.attItemRun s ref c i).2.mem = s.mem := by
  unfold State.attItemRun
  repeat' first | with_reducible rfl | split | simp
@[simp] theorem State.attendRun_mem (s : State) (ref : Nat) : (State.attendRun s ref).mem = s.mem := by
  unfold State.attendRun
  repeat' first | with_reducible rfl | refine (mem_fold2 _ _ _ (fun _ _ => ?_)).trans ?_ | split | simp
@[simp] theorem State.noteDeps_mem (s : Sys2Proof.Machine.State) (ref : Nat) : (Sys2Proof.Machine.State.noteDeps s ref).mem = s.mem := by
  unfold State.noteDeps
  repeat' first
    | with_reducible rfl
    | refine (mem_foldl _ _ _ (fun _ _ => ?_)).trans ?_
    | refine (mem_fold1 _ _ _ (fun _ _ => ?_)).trans ?_
    | refine (mem_fold2 _ _ _ (fun _ _ => ?_)).trans ?_
    | split
    | simp
    | rfl
@[simp] theorem State.attendTry_mem (s : State) (ref : Nat) (deps : List Nat) : (State.attendTry s ref deps).mem = s.mem := by
  unfold State.attendTry
  repeat' first | with_reducible rfl | split | simp
@[simp] theorem State.settleAttend_mem (s : State) : (State.settleAttend s).mem = s.mem := by
  unfold State.settleAttend
  repeat' first | with_reducible rfl | refine (mem_foldl _ _ _ (fun _ _ => ?_)).trans ?_ | split | simp
@[simp] theorem State.attendStart_mem (s : State) (ref : Nat) : (State.attendStart s ref).mem = s.mem := by unfold State.attendStart; split <;> simp
@[simp] theorem State.bwdLocate_mem (s : Sys2Proof.Machine.State) (ref : Nat) (c : Sys2Proof.Machine.Cmd) (i : Nat) : (Sys2Proof.Machine.State.bwdLocate s ref c i).2.mem = s.mem := by
  unfold State.bwdLocate
  repeat' first
    | with_reducible rfl
    | refine (mem_foldl _ _ _ (fun _ _ => ?_)).trans ?_
    | refine (mem_fold1 _ _ _ (fun _ _ => ?_)).trans ?_
    | refine (mem_fold2 _ _ _ (fun _ _ => ?_)).trans ?_
    | split
    | simp
    | rfl
@[simp] theorem State.prefetchLayer_mem (s : State) (x : Seq) (layer : Nat) : (State.prefetchLayer s x layer).mem = s.mem := by
  unfold State.prefetchLayer
  repeat' first | with_reducible rfl | refine (mem_foldl _ _ _ (fun _ _ => ?_)).trans ?_ | split | simp
@[simp] theorem State.prefetch_mem (s : State) (c : Ctx) : (State.prefetch s c).mem = s.mem := by
  unfold State.prefetch
  repeat' first | with_reducible rfl | refine (mem_foldl _ _ _ (fun _ _ => ?_)).trans ?_ | split | simp
@[simp] theorem attendRecipe_start_mem (s : State) (c : Ctx) : (attendRecipe.start s c).mem = s.mem := by
  simp only [attendRecipe]
  first
    | rfl
    | (simp; done)
    | (refine State.oneWork_mem _ _ _ (fun u c => ?_); simp; done)
    | (refine State.oneItem_mem _ _ _ (fun u c => ?_); simp; done)
    | (refine State.eachItem_mem _ _ _ (fun u c i => ?_); simp; done)
    | (refine (State.eachItem_mem _ _ _ (fun u c i => ?_)).trans ?_ <;> simp; done)
    | (repeat' split <;> simp)
@[simp] theorem attendRecipe_admit_mem (s : State) (c : Ctx) : (attendRecipe.atAdmit s c).mem = s.mem := by
  simp only [attendRecipe]
  first
    | rfl
    | (simp; done)
    | (refine State.oneWork_mem _ _ _ (fun u c => ?_); simp; done)
    | (refine State.oneItem_mem _ _ _ (fun u c => ?_); simp; done)
    | (refine State.eachItem_mem _ _ _ (fun u c i => ?_); simp; done)
    | (refine (State.eachItem_mem _ _ _ (fun u c i => ?_)).trans ?_ <;> simp; done)
    | (repeat' split <;> simp)
@[simp] theorem bwdRecipe_admit_mem (s : State) (c : Ctx) : (bwdRecipe.atAdmit s c).mem = s.mem := by
  simp only [bwdRecipe]
  first
    | rfl
    | (simp; done)
    | (refine State.oneWork_mem _ _ _ (fun u c => ?_); simp; done)
    | (refine State.oneItem_mem _ _ _ (fun u c => ?_); simp; done)
    | (refine State.eachItem_mem _ _ _ (fun u c i => ?_); simp; done)
    | (refine (State.eachItem_mem _ _ _ (fun u c i => ?_)).trans ?_ <;> simp; done)
    | (repeat' split <;> simp)
@[simp] theorem State.ensureGroup_mem (s : State) (x : Seq) (b : Nat) : (State.ensureGroup s x b).2.2.mem = s.mem := by
  unfold State.ensureGroup
  repeat' split
  all_goals simp
@[simp] theorem State.ensurePage_mem (s : State) (x : Seq) (b : Nat) (m : Nat) : (State.ensurePage s x b m).2.mem = s.mem := by
  unfold State.ensurePage
  repeat' first | with_reducible rfl | split | simp
@[simp] theorem State.commitItem_mem (s : State) (q : PendItem) : (State.commitItem s q).mem = s.mem := by
  unfold State.commitItem
  repeat' first | with_reducible rfl | refine (mem_foldl _ _ _ (fun _ _ => ?_)).trans ?_ | split | simp
@[simp] theorem State.sendMirrors_mem (s : State) (x : Seq) (layer : Nat) (head : Nat) (d : Nat) (q : PendItem) : (State.sendMirrors s x layer head d q).mem = s.mem := by simp [State.sendMirrors]
@[simp] theorem State.compareItem_mem (s : State) (x : Seq) (m : Nat) (t : Nat) (pos0 : Nat) (ps : List Pos) (tail : List Nat) : (State.compareItem s x m t pos0 ps tail).2.mem = s.mem := by
  unfold State.compareItem
  repeat' first | with_reducible rfl | refine (mem_fold2 _ _ _ (fun _ _ => ?_)).trans ?_ | split | simp
@[simp] theorem State.appendItem_mem (s : State) (ref : Nat) (c : Cmd) (i : Nat) : (s.appendItem ref c i).mem = s.mem := by
  unfold State.appendItem
  extract_lets a it fail
  have hf : ∀ u st h, (fail u st h).mem = u.mem := fun u st h => State.modCmd_mem _ _ _
  clear_value fail
  split
  · exact hf _ _ _
  · rename_i x0 _
    extract_lets s1 x m n
    have e1 : s1.mem = s.mem := State.touchSeq_mem _ _
    clear_value s1
    split
    · simp [hf, e1]
    · split
      · simp [hf, e1]
      extract_lets r new bs fresh s2 e q old src
      have er : r.2.mem = s.mem := (State.compareItem_mem _ _ _ _ _ _ _).trans e1
      have e2 : s2.mem = s.mem := by
        simp only [s2]
        split
        · exact er
        · exact (State.makeT1_mem _ _ _ _).trans er
      have ee : e.2.mem = s.mem := (mem_fold2 _ _ _ (fun a x => State.ensurePage_mem _ _ _ _)).trans e2
      have es : src.mem = s.mem := ee
      clear_value src old e s2 new
      clear_value r
      split
      · simp [hf, er]
      · simp [hf, er]
      · split
        · simp [er]
        · split
          · simp [hf, er]
          · split
            · simp [hf, e2]
            · split <;> simp [ee, es]
@[simp] theorem State.appendStart_mem (s : State) (ref : Nat) : (State.appendStart s ref).mem = s.mem := by
  unfold State.appendStart
  repeat' first | with_reducible rfl | refine (mem_foldl _ _ _ (fun _ _ => ?_)).trans ?_ | split | simp
@[simp] theorem appendRecipe_start_mem (s : State) (c : Ctx) : (appendRecipe.start s c).mem = s.mem := by
  simp only [appendRecipe]
  first
    | rfl
    | (simp; done)
    | (refine State.oneWork_mem _ _ _ (fun u c => ?_); simp; done)
    | (refine State.oneItem_mem _ _ _ (fun u c => ?_); simp; done)
    | (refine State.eachItem_mem _ _ _ (fun u c i => ?_); simp; done)
    | (refine (State.eachItem_mem _ _ _ (fun u c i => ?_)).trans ?_ <;> simp; done)
    | (repeat' split <;> simp)
@[simp] theorem appendRecipe_admit_mem (s : State) (c : Ctx) : (appendRecipe.atAdmit s c).mem = s.mem := by
  simp only [appendRecipe]
  first
    | rfl
    | (simp; done)
    | (refine State.oneWork_mem _ _ _ (fun u c => ?_); simp; done)
    | (refine State.oneItem_mem _ _ _ (fun u c => ?_); simp; done)
    | (refine State.eachItem_mem _ _ _ (fun u c i => ?_); simp; done)
    | (refine (State.eachItem_mem _ _ _ (fun u c i => ?_)).trans ?_ <;> simp; done)
    | (repeat' split <;> simp)
@[simp] theorem State.linkBlock_mem (s : State) (x : Seq) (b : Nat) (gid : Nat) : (State.linkBlock s x b gid).2.mem = s.mem := by unfold State.linkBlock; split <;> simp
@[simp] theorem State.lookupRun_mem (s : State) (ref : Nat) (c : Cmd) : (State.lookupRun s ref c).mem = s.mem := by
  unfold State.lookupRun
  repeat' first | with_reducible rfl | refine (mem_fold2 _ _ _ (fun _ _ => ?_)).trans ?_ | split | simp
@[simp] theorem State.sdRoom_mem (s : State) (d : Nat) (n : Nat) (x3 : Nat) : (State.sdRoom s d n x3).2.mem = s.mem := by
  induction x3 generalizing s with
  | zero => rfl
  | succ n ih =>
    unfold State.sdRoom
    repeat' first
      | with_reducible rfl
      | (refine (mem_foldl _ _ _ (fun a x => ?_)).trans ?_)
      | (refine (mem_fold1 _ _ _ (fun a x => ?_)).trans ?_)
      | (refine (mem_fold2 _ _ _ (fun a x => ?_)).trans ?_)
      | split
      | simp [ih]
@[simp] theorem State.publishBlock_mem (s : Sys2Proof.Machine.State) (x : Sys2Proof.Machine.Seq) (d : Nat) (b : Nat) (k : Sys2Proof.Bytes) : (Sys2Proof.Machine.State.publishBlock s x d b k).2.2.mem = s.mem := by
  unfold State.publishBlock
  repeat' first
    | with_reducible rfl
    | refine (mem_foldl _ _ _ (fun _ _ => ?_)).trans ?_
    | refine (mem_fold1 _ _ _ (fun _ _ => ?_)).trans ?_
    | refine (mem_fold2 _ _ _ (fun _ _ => ?_)).trans ?_
    | split
    | simp
    | rfl
@[simp] theorem State.publishBlocks_mem (s : State) (x : Seq) (d n : Nat) (l : List Bytes) : (s.publishBlocks x d n l).2.2.2.mem = s.mem := by
  induction l generalizing s x n with
  | nil => rfl
  | cons k t ih =>
    unfold State.publishBlocks
    dsimp only
    split
    · rw [ih]; simp
    · simp
@[simp] theorem State.publishRun_mem (s : State) (ref : Nat) (c : Cmd) : (State.publishRun s ref c).mem = s.mem := by
  unfold State.publishRun
  repeat' first | with_reducible rfl | split | simp
theorem State.eachTodo_mem (s : State) (ref n : Nat) (f : State → Nat → State) (h : ∀ u i, (f u i).mem = u.mem) :
    (s.eachTodo ref n f).mem = s.mem := mem_foldl _ _ _ (fun a x => by split; exact h _ _; rfl)
theorem State.oneItem_mem (s : State) (ref : Nat) (f : State → Cmd → State) (h : ∀ u c, (f u c).mem = u.mem) : (s.oneItem ref f).mem = s.mem := by
  unfold State.oneItem
  split
  · dsimp only
    split <;> simp [h]
  · rfl
@[simp] theorem lookupRecipe_start_mem (s : State) (c : Ctx) : (lookupRecipe.start s c).mem = s.mem := by
  simp only [lookupRecipe]
  first
    | rfl
    | (simp; done)
    | (refine State.oneWork_mem _ _ _ (fun u c => ?_); simp; done)
    | (refine State.oneItem_mem _ _ _ (fun u c => ?_); simp; done)
    | (refine State.eachItem_mem _ _ _ (fun u c i => ?_); simp; done)
    | (refine (State.eachItem_mem _ _ _ (fun u c i => ?_)).trans ?_ <;> simp; done)
    | (repeat' split <;> simp)
@[simp] theorem lookupRecipe_admit_mem (s : State) (c : Ctx) : (lookupRecipe.atAdmit s c).mem = s.mem := by
  simp only [lookupRecipe]
  first
    | rfl
    | (simp; done)
    | (refine State.oneWork_mem _ _ _ (fun u c => ?_); simp; done)
    | (refine State.oneItem_mem _ _ _ (fun u c => ?_); simp; done)
    | (refine State.eachItem_mem _ _ _ (fun u c i => ?_); simp; done)
    | (refine (State.eachItem_mem _ _ _ (fun u c i => ?_)).trans ?_ <;> simp; done)
    | (repeat' split <;> simp)
@[simp] theorem publishPrefixRecipe_start_mem (s : State) (c : Ctx) : (publishPrefixRecipe.start s c).mem = s.mem := by
  simp only [publishPrefixRecipe]
  first
    | rfl
    | (simp; done)
    | (refine State.oneWork_mem _ _ _ (fun u c => ?_); simp; done)
    | (refine State.oneItem_mem _ _ _ (fun u c => ?_); simp; done)
    | (refine State.eachItem_mem _ _ _ (fun u c i => ?_); simp; done)
    | (refine (State.eachItem_mem _ _ _ (fun u c i => ?_)).trans ?_ <;> simp; done)
    | (repeat' split <;> simp)
@[simp] theorem publishPrefixRecipe_admit_mem (s : State) (c : Ctx) : (publishPrefixRecipe.atAdmit s c).mem = s.mem := by
  simp only [publishPrefixRecipe]
  first
    | rfl
    | (simp; done)
    | (refine State.oneWork_mem _ _ _ (fun u c => ?_); simp; done)
    | (refine State.oneItem_mem _ _ _ (fun u c => ?_); simp; done)
    | (refine State.eachItem_mem _ _ _ (fun u c i => ?_); simp; done)
    | (refine (State.eachItem_mem _ _ _ (fun u c i => ?_)).trans ?_ <;> simp; done)
    | (repeat' split <;> simp)
@[simp] theorem State.startMove_mem (s : Sys2Proof.Machine.State) (gid : Nat) (m : Nat) (tier : Nat) (pin : Bool) : (Sys2Proof.Machine.State.startMove s gid m tier pin).mem = s.mem := by
  unfold State.startMove
  repeat' first
    | with_reducible rfl
    | refine (mem_foldl _ _ _ (fun _ _ => ?_)).trans ?_
    | refine (mem_fold1 _ _ _ (fun _ _ => ?_)).trans ?_
    | refine (mem_fold2 _ _ _ (fun _ _ => ?_)).trans ?_
    | split
    | simp
    | rfl
@[simp] theorem State.unpin_mem (s : Sys2Proof.Machine.State) (x : Sys2Proof.Machine.Seq) (q : Nat × Nat) : (Sys2Proof.Machine.State.unpin s x q).mem = s.mem := by
  unfold State.unpin
  repeat' first
    | with_reducible rfl
    | refine (mem_foldl _ _ _ (fun _ _ => ?_)).trans ?_
    | refine (mem_fold1 _ _ _ (fun _ _ => ?_)).trans ?_
    | refine (mem_fold2 _ _ _ (fun _ _ => ?_)).trans ?_
    | split
    | simp
    | rfl
@[simp] theorem State.pinItem_mem (s : State) (ref : Nat) (c : Cmd) (what : Nat) (i : Nat) : (State.pinItem s ref c what i).mem = s.mem := by
  unfold State.pinItem
  repeat' first | with_reducible rfl | refine (mem_foldl _ _ _ (fun _ _ => ?_)).trans ?_ | split | simp
@[simp] theorem State.pinStart_mem (s : State) (ref : Nat) (what : Nat) : (State.pinStart s ref what).mem = s.mem := by
  unfold State.pinStart
  repeat' first | with_reducible rfl | refine (mem_foldl _ _ _ (fun _ _ => ?_)).trans ?_ | split | simp
@[simp] theorem pinRecipe_start_mem (s : State) (c : Ctx) : (pinRecipe.start s c).mem = s.mem := by
  simp only [pinRecipe]
  first
    | rfl
    | (simp; done)
    | (refine State.oneWork_mem _ _ _ (fun u c => ?_); simp; done)
    | (refine State.oneItem_mem _ _ _ (fun u c => ?_); simp; done)
    | (refine State.eachItem_mem _ _ _ (fun u c i => ?_); simp; done)
    | (refine (State.eachItem_mem _ _ _ (fun u c i => ?_)).trans ?_ <;> simp; done)
    | (repeat' split <;> simp)
@[simp] theorem pinRecipe_admit_mem (s : State) (c : Ctx) : (pinRecipe.atAdmit s c).mem = s.mem := by
  simp only [pinRecipe]
  first
    | rfl
    | (simp; done)
    | (refine State.oneWork_mem _ _ _ (fun u c => ?_); simp; done)
    | (refine State.oneItem_mem _ _ _ (fun u c => ?_); simp; done)
    | (refine State.eachItem_mem _ _ _ (fun u c i => ?_); simp; done)
    | (refine (State.eachItem_mem _ _ _ (fun u c i => ?_)).trans ?_ <;> simp; done)
    | (repeat' split <;> simp)
@[simp] theorem unpinRecipe_start_mem (s : State) (c : Ctx) : (unpinRecipe.start s c).mem = s.mem := by
  simp only [unpinRecipe]
  first
    | rfl
    | (simp; done)
    | (refine State.oneWork_mem _ _ _ (fun u c => ?_); simp; done)
    | (refine State.oneItem_mem _ _ _ (fun u c => ?_); simp; done)
    | (refine State.eachItem_mem _ _ _ (fun u c i => ?_); simp; done)
    | (refine (State.eachItem_mem _ _ _ (fun u c i => ?_)).trans ?_ <;> simp; done)
    | (repeat' split <;> simp)
@[simp] theorem unpinRecipe_admit_mem (s : State) (c : Ctx) : (unpinRecipe.atAdmit s c).mem = s.mem := by
  simp only [unpinRecipe]
  first
    | rfl
    | (simp; done)
    | (refine State.oneWork_mem _ _ _ (fun u c => ?_); simp; done)
    | (refine State.oneItem_mem _ _ _ (fun u c => ?_); simp; done)
    | (refine State.eachItem_mem _ _ _ (fun u c i => ?_); simp; done)
    | (refine (State.eachItem_mem _ _ _ (fun u c i => ?_)).trans ?_ <;> simp; done)
    | (repeat' split <;> simp)
@[simp] theorem migrateRecipe_start_mem (s : State) (c : Ctx) : (migrateRecipe.start s c).mem = s.mem := by
  simp only [migrateRecipe]
  first
    | rfl
    | (simp; done)
    | (refine State.oneWork_mem _ _ _ (fun u c => ?_); simp; done)
    | (refine State.oneItem_mem _ _ _ (fun u c => ?_); simp; done)
    | (refine State.eachItem_mem _ _ _ (fun u c i => ?_); simp; done)
    | (refine (State.eachItem_mem _ _ _ (fun u c i => ?_)).trans ?_ <;> simp; done)
    | (repeat' split <;> simp)
@[simp] theorem migrateRecipe_admit_mem (s : State) (c : Ctx) : (migrateRecipe.atAdmit s c).mem = s.mem := by
  simp only [migrateRecipe]
  first
    | rfl
    | (simp; done)
    | (refine State.oneWork_mem _ _ _ (fun u c => ?_); simp; done)
    | (refine State.oneItem_mem _ _ _ (fun u c => ?_); simp; done)
    | (refine State.eachItem_mem _ _ _ (fun u c i => ?_); simp; done)
    | (refine (State.eachItem_mem _ _ _ (fun u c i => ?_)).trans ?_ <;> simp; done)
    | (repeat' split <;> simp)
@[simp] theorem State.newSeq_mem (s : Sys2Proof.Machine.State) (t : Nat) (tag : Nat) (id : Nat) (sh : Sys2Proof.Shape) : (Sys2Proof.Machine.State.newSeq s t tag id sh).mem = s.mem := by
  unfold State.newSeq
  repeat' first
    | with_reducible rfl
    | refine (mem_foldl _ _ _ (fun _ _ => ?_)).trans ?_
    | refine (mem_fold1 _ _ _ (fun _ _ => ?_)).trans ?_
    | refine (mem_fold2 _ _ _ (fun _ _ => ?_)).trans ?_
    | split
    | simp
    | rfl
@[simp] theorem State.openItem_mem (s : State) (ref : Nat) (c : Cmd) (i : Nat) : (State.openItem s ref c i).mem = s.mem := by
  unfold State.openItem
  repeat' first | with_reducible rfl | split | simp
theorem State.eachItem_mem (s : State) (ref : Nat) (f : State → Cmd → Nat → State) (h : ∀ u c i, (f u c i).mem = u.mem) :
    (s.eachItem ref f).mem = s.mem := by
  unfold State.eachItem
  split
  · rfl
  · exact (State.eachTodo_mem _ _ _ _ (fun a x => h _ _ _)).trans (by simp)
@[simp] theorem openRecipe_start_mem (s : State) (c : Ctx) : (openRecipe.start s c).mem = s.mem := by
  simp only [openRecipe]
  first
    | rfl
    | (simp; done)
    | (refine State.oneWork_mem _ _ _ (fun u c => ?_); simp; done)
    | (refine State.oneItem_mem _ _ _ (fun u c => ?_); simp; done)
    | (refine State.eachItem_mem _ _ _ (fun u c i => ?_); simp; done)
    | (refine (State.eachItem_mem _ _ _ (fun u c i => ?_)).trans ?_ <;> simp; done)
    | (repeat' split <;> simp)
@[simp] theorem openRecipe_admit_mem (s : State) (c : Ctx) : (openRecipe.atAdmit s c).mem = s.mem := by
  simp only [openRecipe]
  first
    | rfl
    | (simp; done)
    | (refine State.oneWork_mem _ _ _ (fun u c => ?_); simp; done)
    | (refine State.oneItem_mem _ _ _ (fun u c => ?_); simp; done)
    | (refine State.eachItem_mem _ _ _ (fun u c i => ?_); simp; done)
    | (refine (State.eachItem_mem _ _ _ (fun u c i => ?_)).trans ?_ <;> simp; done)
    | (repeat' split <;> simp)
@[simp] theorem State.closeSeq_mem (s : State) (x : Seq) (gen : Nat) (keep : List Nat) : (State.closeSeq s x gen keep).mem = s.mem := by
  unfold State.closeSeq
  repeat' first | with_reducible rfl | refine (mem_foldl _ _ _ (fun _ _ => ?_)).trans ?_ | split | simp
@[simp] theorem State.closeItem_mem (s : State) (ref : Nat) (c : Cmd) (i : Nat) : (State.closeItem s ref c i).mem = s.mem := by
  unfold State.closeItem
  repeat' first | with_reducible rfl | split | simp
@[simp] theorem closeRecipe_start_mem (s : State) (c : Ctx) : (closeRecipe.start s c).mem = s.mem := by
  simp only [closeRecipe]
  first
    | rfl
    | (simp; done)
    | (refine State.oneWork_mem _ _ _ (fun u c => ?_); simp; done)
    | (refine State.oneItem_mem _ _ _ (fun u c => ?_); simp; done)
    | (refine State.eachItem_mem _ _ _ (fun u c i => ?_); simp; done)
    | (refine (State.eachItem_mem _ _ _ (fun u c i => ?_)).trans ?_ <;> simp; done)
    | (repeat' split <;> simp)
@[simp] theorem closeRecipe_admit_mem (s : State) (c : Ctx) : (closeRecipe.atAdmit s c).mem = s.mem := by
  simp only [closeRecipe]
  first
    | rfl
    | (simp; done)
    | (refine State.oneWork_mem _ _ _ (fun u c => ?_); simp; done)
    | (refine State.oneItem_mem _ _ _ (fun u c => ?_); simp; done)
    | (refine State.eachItem_mem _ _ _ (fun u c i => ?_); simp; done)
    | (refine (State.eachItem_mem _ _ _ (fun u c i => ?_)).trans ?_ <;> simp; done)
    | (repeat' split <;> simp)
@[simp] theorem State.demote_mem (s : State) (t x2 : Nat) : (State.demote s t x2).mem = s.mem := by
  induction x2 generalizing s with
  | zero => rfl
  | succ k ih =>
    unfold State.demote
    split
    · rfl
    · split
      · rename_i s1 h1
        rw [ih, State.demoteOne_mem h1]
      · rfl
@[simp] theorem State.settleMoves_mem (s : State) (page : Nat) (st : Nat) : (State.settleMoves s page st).mem = s.mem := by simp [State.settleMoves]
@[simp] theorem State.codePage_mem (s : State) (gid : Nat) (m : Nat) (gen : Nat) : (State.codePage s gid m gen).mem = s.mem := by
  unfold State.codePage
  repeat' first | with_reducible rfl | split | simp
theorem State.payMove_mem (s : State) (t page d cost : Nat) (f : State → State) (h0 : ∀ a, (f a).mem = a.mem) :
    (State.payMove s t page d cost f).mem = s.mem := by
  unfold State.payMove
  dsimp only
  split
  · simp
  · split
    · rw [h0]; simp
    · simp
@[simp] theorem State.makeT0_mem (s : State) (d n x3 : Nat) : (State.makeT0 s d n x3).2.mem = s.mem := by
  induction x3 generalizing s with
  | zero => rfl
  | succ k ih =>
    unfold State.makeT0
    split
    · rfl
    · split
      · rfl
      · split <;> simp [ih]
@[simp] theorem State.endMove_mem (s : Sys2Proof.Machine.State) (gid : Nat) (m : Nat) : (Sys2Proof.Machine.State.endMove s gid m).mem = s.mem := by
  unfold State.endMove
  repeat' first
    | with_reducible rfl
    | refine (mem_foldl _ _ _ (fun _ _ => ?_)).trans ?_
    | refine (mem_fold1 _ _ _ (fun _ _ => ?_)).trans ?_
    | refine (mem_fold2 _ _ _ (fun _ _ => ?_)).trans ?_
    | split
    | simp
    | rfl
@[simp] theorem State.recoded_mem (s : Sys2Proof.Machine.State) (gid : Nat) (m : Nat) (gen : Nat) : (Sys2Proof.Machine.State.recoded s gid m gen).mem = s.mem := by
  unfold State.recoded
  repeat' first
    | with_reducible rfl
    | refine (mem_foldl _ _ _ (fun _ _ => ?_)).trans ?_
    | refine (mem_fold1 _ _ _ (fun _ _ => ?_)).trans ?_
    | refine (mem_fold2 _ _ _ (fun _ _ => ?_)).trans ?_
    | split
    | simp
    | rfl
@[simp] theorem State.finishMove_mem (s : State) (page : Nat) : (State.finishMove s page).mem = s.mem := by
  unfold State.finishMove
  dsimp only
  split
  · split
    · exact State.payMove_mem _ _ _ _ _ _ (fun a => by simp)
    · split
      · exact State.payMove_mem _ _ _ _ _ _ (fun a => by simp)
      · split
        · exact State.payMove_mem _ _ _ _ _ _ (fun a => by simp)
        · rfl
      · split
        · rfl
        · refine State.payMove_mem _ _ _ _ _ _ (fun a => ?_)
          split
          · simp
          · split <;> simp
  · rfl
@[simp] theorem State.releaseMoves_mem (s : Sys2Proof.Machine.State) : (Sys2Proof.Machine.State.releaseMoves s).mem = s.mem := by
  unfold State.releaseMoves
  repeat' first
    | with_reducible rfl
    | refine (mem_foldl _ _ _ (fun _ _ => ?_)).trans ?_
    | refine (mem_fold1 _ _ _ (fun _ _ => ?_)).trans ?_
    | refine (mem_fold2 _ _ _ (fun _ _ => ?_)).trans ?_
    | split
    | simp
    | rfl
@[simp] theorem State.wrote_mem (s : Sys2Proof.Machine.State) (page : Nat) : (Sys2Proof.Machine.State.wrote s page).mem = s.mem := by
  unfold State.wrote
  repeat' first
    | with_reducible rfl
    | refine (mem_foldl _ _ _ (fun _ _ => ?_)).trans ?_
    | refine (mem_fold1 _ _ _ (fun _ _ => ?_)).trans ?_
    | refine (mem_fold2 _ _ _ (fun _ _ => ?_)).trans ?_
    | split
    | simp
    | rfl
@[simp] theorem State.losePage_mem (s : State) (gid : Nat) : (State.losePage s gid).mem = s.mem := by simp [State.losePage]
@[simp] theorem State.copyFails_mem (s : State) (gid : Nat) (m : Nat) (tier : Nat) : (State.copyFails s gid m tier).mem = s.mem := by
  unfold State.copyFails
  repeat' first | with_reducible rfl | split | simp
@[simp] theorem State.modTensor_mem (s : State) (t : Nat) (id : Nat) (f : Tensor → Tensor) : (State.modTensor s t id f).mem = s.mem := by simp [State.modTensor]
@[simp] theorem State.loadInto_mem (s : State) (t : Nat) (a : LoadArgs) (pay : Bytes) : (State.loadInto s t a pay).mem = s.mem := by simp [State.loadInto]
@[simp] theorem State.loadRun_mem (s : State) (ref : Nat) (c : Cmd) : (State.loadRun s ref c).mem = s.mem := by
  unfold State.loadRun
  repeat' first | with_reducible rfl | split | simp
theorem State.oneWork_mem (s : State) (ref : Nat) (f : State → Cmd → State) (h : ∀ u c, (f u c).mem = u.mem) : (s.oneWork ref f).mem = s.mem := by
  unfold State.oneWork; split <;> simp [h]
@[simp] theorem loadRecipe_start_mem (s : State) (c : Ctx) : (loadRecipe.start s c).mem = s.mem := by
  simp only [loadRecipe]
  first
    | rfl
    | (simp; done)
    | (refine State.oneWork_mem _ _ _ (fun u c => ?_); simp; done)
    | (refine State.oneItem_mem _ _ _ (fun u c => ?_); simp; done)
    | (refine State.eachItem_mem _ _ _ (fun u c i => ?_); simp; done)
    | (refine (State.eachItem_mem _ _ _ (fun u c i => ?_)).trans ?_ <;> simp; done)
    | (repeat' split <;> simp)
@[simp] theorem loadRecipe_admit_mem (s : State) (c : Ctx) : (loadRecipe.atAdmit s c).mem = s.mem := by
  simp only [loadRecipe]
  first
    | rfl
    | (simp; done)
    | (refine State.oneWork_mem _ _ _ (fun u c => ?_); simp; done)
    | (refine State.oneItem_mem _ _ _ (fun u c => ?_); simp; done)
    | (refine State.eachItem_mem _ _ _ (fun u c i => ?_); simp; done)
    | (refine (State.eachItem_mem _ _ _ (fun u c i => ?_)).trans ?_ <;> simp; done)
    | (repeat' split <;> simp)
@[simp] theorem State.freeTensor_mem (s : State) (c : Ctx) : (State.freeTensor s c).mem = s.mem := by
  unfold State.freeTensor
  repeat' first | with_reducible rfl | split | simp
@[simp] theorem freeTensorRecipe_start_mem (s : State) (c : Ctx) : (freeTensorRecipe.start s c).mem = s.mem := by
  simp only [freeTensorRecipe]
  first
    | rfl
    | (simp; done)
    | (refine State.oneWork_mem _ _ _ (fun u c => ?_); simp; done)
    | (refine State.oneItem_mem _ _ _ (fun u c => ?_); simp; done)
    | (refine State.eachItem_mem _ _ _ (fun u c i => ?_); simp; done)
    | (refine (State.eachItem_mem _ _ _ (fun u c i => ?_)).trans ?_ <;> simp; done)
    | (repeat' split <;> simp)
@[simp] theorem freeTensorRecipe_admit_mem (s : State) (c : Ctx) : (freeTensorRecipe.atAdmit s c).mem = s.mem := by
  simp only [freeTensorRecipe]
  first
    | rfl
    | (simp; done)
    | (refine State.oneWork_mem _ _ _ (fun u c => ?_); simp; done)
    | (refine State.oneItem_mem _ _ _ (fun u c => ?_); simp; done)
    | (refine State.eachItem_mem _ _ _ (fun u c i => ?_); simp; done)
    | (refine (State.eachItem_mem _ _ _ (fun u c i => ?_)).trans ?_ <;> simp; done)
    | (repeat' split <;> simp)
@[simp] theorem State.keepCopies_mem (s : Sys2Proof.Machine.State) (ref : Nat) (p : Nat) (l : Nat) (g : Sys2Proof.Machine.GSource) (idx : List Nat) : (Sys2Proof.Machine.State.keepCopies s ref p l g idx).mem = s.mem := by
  unfold State.keepCopies
  repeat' first
    | with_reducible rfl
    | refine (mem_foldl _ _ _ (fun _ _ => ?_)).trans ?_
    | refine (mem_fold1 _ _ _ (fun _ _ => ?_)).trans ?_
    | refine (mem_fold2 _ _ _ (fun _ _ => ?_)).trans ?_
    | split
    | simp
    | rfl
@[simp] theorem State.gatherRun_mem (s : Sys2Proof.Machine.State) (ref : Nat) (c : Sys2Proof.Machine.Cmd) : (Sys2Proof.Machine.State.gatherRun s ref c).mem = s.mem := by
  unfold State.gatherRun
  repeat' first
    | with_reducible rfl
    | refine (mem_foldl _ _ _ (fun _ _ => ?_)).trans ?_
    | refine (mem_fold1 _ _ _ (fun _ _ => ?_)).trans ?_
    | refine (mem_fold2 _ _ _ (fun _ _ => ?_)).trans ?_
    | split
    | simp
    | rfl
@[simp] theorem gatherRecipe_start_mem (s : State) (c : Ctx) : (gatherRecipe.start s c).mem = s.mem := by
  simp only [gatherRecipe]
  first
    | rfl
    | (simp; done)
    | (refine State.oneWork_mem _ _ _ (fun u c => ?_); simp; done)
    | (refine State.oneItem_mem _ _ _ (fun u c => ?_); simp; done)
    | (refine State.eachItem_mem _ _ _ (fun u c i => ?_); simp; done)
    | (refine (State.eachItem_mem _ _ _ (fun u c i => ?_)).trans ?_ <;> simp; done)
    | (repeat' split <;> simp)
@[simp] theorem gatherRecipe_admit_mem (s : State) (c : Ctx) : (gatherRecipe.atAdmit s c).mem = s.mem := by
  simp only [gatherRecipe]
  first
    | rfl
    | (simp; done)
    | (refine State.oneWork_mem _ _ _ (fun u c => ?_); simp; done)
    | (refine State.oneItem_mem _ _ _ (fun u c => ?_); simp; done)
    | (refine State.eachItem_mem _ _ _ (fun u c i => ?_); simp; done)
    | (refine (State.eachItem_mem _ _ _ (fun u c i => ?_)).trans ?_ <;> simp; done)
    | (repeat' split <;> simp)
@[simp] theorem State.makeCurrent_mem (s : State) (t : Nat) (set : Nat) (gen : Nat) : (State.makeCurrent s t set gen).mem = s.mem := by simp [State.makeCurrent]
@[simp] theorem State.installPal_mem (s : State) (t : Nat) (set : Nat) (bytes : Bytes) (trained : Bool) : (State.installPal s t set bytes trained).2.2.mem = s.mem := by
  unfold State.installPal
  repeat' first | with_reducible rfl | split | simp
@[simp] theorem State.retireGen_mem (s : State) (t : Nat) (set : Nat) (gen : Nat) : (State.retireGen s t set gen).mem = s.mem := by
  unfold State.retireGen
  repeat' first | with_reducible rfl | split | simp
@[simp] theorem State.palRun_mem (s : State) (ref : Nat) (c : Cmd) : (State.palRun s ref c).mem = s.mem := by
  unfold State.palRun
  repeat' first | with_reducible rfl | split | simp
@[simp] theorem palRecipe_start_mem (s : State) (c : Ctx) : (palRecipe.start s c).mem = s.mem := by
  simp only [palRecipe]
  first
    | rfl
    | (simp; done)
    | (refine State.oneWork_mem _ _ _ (fun u c => ?_); simp; done)
    | (refine State.oneItem_mem _ _ _ (fun u c => ?_); simp; done)
    | (refine State.eachItem_mem _ _ _ (fun u c i => ?_); simp; done)
    | (refine (State.eachItem_mem _ _ _ (fun u c i => ?_)).trans ?_ <;> simp; done)
    | (repeat' split <;> simp)
@[simp] theorem palRecipe_admit_mem (s : State) (c : Ctx) : (palRecipe.atAdmit s c).mem = s.mem := by
  simp only [palRecipe]
  first
    | rfl
    | (simp; done)
    | (refine State.oneWork_mem _ _ _ (fun u c => ?_); simp; done)
    | (refine State.oneItem_mem _ _ _ (fun u c => ?_); simp; done)
    | (refine State.eachItem_mem _ _ _ (fun u c i => ?_); simp; done)
    | (refine (State.eachItem_mem _ _ _ (fun u c i => ?_)).trans ?_ <;> simp; done)
    | (repeat' split <;> simp)
@[simp] theorem State.freePalRun_mem (s : State) (ref : Nat) (c : Cmd) : (State.freePalRun s ref c).mem = s.mem := by
  unfold State.freePalRun
  repeat' first | with_reducible rfl | split | simp
@[simp] theorem freePalRecipe_start_mem (s : State) (c : Ctx) : (freePalRecipe.start s c).mem = s.mem := by
  simp only [freePalRecipe]
  first
    | rfl
    | (simp; done)
    | (refine State.oneWork_mem _ _ _ (fun u c => ?_); simp; done)
    | (refine State.oneItem_mem _ _ _ (fun u c => ?_); simp; done)
    | (refine State.eachItem_mem _ _ _ (fun u c i => ?_); simp; done)
    | (refine (State.eachItem_mem _ _ _ (fun u c i => ?_)).trans ?_ <;> simp; done)
    | (repeat' split <;> simp)
@[simp] theorem freePalRecipe_admit_mem (s : State) (c : Ctx) : (freePalRecipe.atAdmit s c).mem = s.mem := by
  simp only [freePalRecipe]
  first
    | rfl
    | (simp; done)
    | (refine State.oneWork_mem _ _ _ (fun u c => ?_); simp; done)
    | (refine State.oneItem_mem _ _ _ (fun u c => ?_); simp; done)
    | (refine State.eachItem_mem _ _ _ (fun u c i => ?_); simp; done)
    | (refine (State.eachItem_mem _ _ _ (fun u c i => ?_)).trans ?_ <;> simp; done)
    | (repeat' split <;> simp)
@[simp] theorem State.sweepPage_mem (s : Sys2Proof.Machine.State) (gid : Nat) (m : Nat) (gen : Nat) (g : Sys2Proof.Machine.Group) (y : Sys2Proof.Machine.Page) : (Sys2Proof.Machine.State.sweepPage s gid m gen g y).mem = s.mem := by
  unfold State.sweepPage
  repeat' first
    | with_reducible rfl
    | refine (mem_foldl _ _ _ (fun _ _ => ?_)).trans ?_
    | refine (mem_fold1 _ _ _ (fun _ _ => ?_)).trans ?_
    | refine (mem_fold2 _ _ _ (fun _ _ => ?_)).trans ?_
    | split
    | simp
    | rfl
@[simp] theorem State.credit_mem (s : Sys2Proof.Machine.State) (d : Nat) (x : Nat) (pkt : Sys2Proof.Packet) : (Sys2Proof.Machine.State.credit s d x pkt).mem = s.mem := by
  unfold State.credit
  repeat' first
    | with_reducible rfl
    | refine (mem_foldl _ _ _ (fun _ _ => ?_)).trans ?_
    | refine (mem_fold1 _ _ _ (fun _ _ => ?_)).trans ?_
    | refine (mem_fold2 _ _ _ (fun _ _ => ?_)).trans ?_
    | split
    | simp
    | rfl
theorem State.routeFlow_of_mem {s s1 : State} {d x : Nat} {k : Packet} {o : Option Nat} (h : s.routeFlow d x k = some (o, s1)) :
    s1.mem = s.mem := by
  unfold State.routeFlow at h
  cases hm : s.routeMember k.tenant k.tc d x k.dstDev with
  | none => rw [hm] at h; exact absurd h (by simp)
  | some q =>
    rw [hm] at h
    dsimp only at h
    repeat' split at h
    all_goals (simp only [Option.some.injEq, Prod.mk.injEq] at h; obtain ⟨_, rfl⟩ := h; simp)
@[simp] theorem State.setIngress_mem (s : State) (k : Nat) (g : IngressSt) : (State.setIngress s k g).mem = s.mem := by simp [State.setIngress]
@[simp] theorem State.withhold_mem (s : Sys2Proof.Machine.State) (d : Nat) (x : Nat) (pkt : Sys2Proof.Packet) : (Sys2Proof.Machine.State.withhold s d x pkt).mem = s.mem := by
  unfold State.withhold
  repeat' first
    | with_reducible rfl
    | refine (mem_foldl _ _ _ (fun _ _ => ?_)).trans ?_
    | refine (mem_fold1 _ _ _ (fun _ _ => ?_)).trans ?_
    | refine (mem_fold2 _ _ _ (fun _ _ => ?_)).trans ?_
    | split
    | simp
    | rfl
@[simp] theorem State.withholdAt_mem (s : Sys2Proof.Machine.State) (i : Sys2Proof.Ingress) : (Sys2Proof.Machine.State.withholdAt s i).mem = s.mem := by
  unfold State.withholdAt
  repeat' first
    | with_reducible rfl
    | refine (mem_foldl _ _ _ (fun _ _ => ?_)).trans ?_
    | refine (mem_fold1 _ _ _ (fun _ _ => ?_)).trans ?_
    | refine (mem_fold2 _ _ _ (fun _ _ => ?_)).trans ?_
    | split
    | simp
    | rfl
@[simp] theorem State.quiesceAt_mem (s : State) (i : Ingress) : (State.quiesceAt s i).mem = s.mem := by
  unfold State.quiesceAt
  repeat' first | with_reducible rfl | split | simp
@[simp] theorem State.haltAt_mem (s : Sys2Proof.Machine.State) (i : Sys2Proof.Ingress) : (Sys2Proof.Machine.State.haltAt s i).mem = s.mem := by
  unfold State.haltAt
  repeat' first
    | with_reducible rfl
    | refine (mem_foldl _ _ _ (fun _ _ => ?_)).trans ?_
    | refine (mem_fold1 _ _ _ (fun _ _ => ?_)).trans ?_
    | refine (mem_fold2 _ _ _ (fun _ _ => ?_)).trans ?_
    | split
    | simp
    | rfl
@[simp] theorem State.lend_mem (s : Sys2Proof.Machine.State) (dev : Nat) (backing : Nat) (n : Nat) : (Sys2Proof.Machine.State.lend s dev backing n).mem = s.mem := by
  unfold State.lend
  repeat' first
    | with_reducible rfl
    | refine (mem_foldl _ _ _ (fun _ _ => ?_)).trans ?_
    | refine (mem_fold1 _ _ _ (fun _ _ => ?_)).trans ?_
    | refine (mem_fold2 _ _ _ (fun _ _ => ?_)).trans ?_
    | split
    | simp
    | rfl
@[simp] theorem State.control_mem (s : Sys2Proof.Machine.State) (k : Sys2Proof.Packet) : (Sys2Proof.Machine.State.control s k).mem = s.mem := by
  unfold State.control
  repeat' first
    | with_reducible rfl
    | refine (mem_foldl _ _ _ (fun _ _ => ?_)).trans ?_
    | refine (mem_fold1 _ _ _ (fun _ _ => ?_)).trans ?_
    | refine (mem_fold2 _ _ _ (fun _ _ => ?_)).trans ?_
    | split
    | simp
    | rfl
@[simp] theorem State.arrive_mem (s : Sys2Proof.Machine.State) (d : Nat) (x : Nat) (k : Sys2Proof.Packet) : (Sys2Proof.Machine.State.arrive s d x k).mem = s.mem := by
  unfold State.arrive
  repeat' first
    | with_reducible rfl
    | refine (mem_foldl _ _ _ (fun _ _ => ?_)).trans ?_
    | refine (mem_fold1 _ _ _ (fun _ _ => ?_)).trans ?_
    | refine (mem_fold2 _ _ _ (fun _ _ => ?_)).trans ?_
    | split
    | simp
    | rfl
@[simp] theorem State.deliver_mem (s : Sys2Proof.Machine.State) (d : Nat) (c : Sys2Proof.Machine.Cell) : (Sys2Proof.Machine.State.deliver s d c).mem = s.mem := by
  unfold State.deliver
  repeat' first
    | with_reducible rfl
    | refine (mem_foldl _ _ _ (fun _ _ => ?_)).trans ?_
    | refine (mem_fold1 _ _ _ (fun _ _ => ?_)).trans ?_
    | refine (mem_fold2 _ _ _ (fun _ _ => ?_)).trans ?_
    | split
    | simp
    | rfl
@[simp] theorem State.cross_mem (s : State) (d : Nat) (c : Cell) : (State.cross s d c).mem = s.mem := by
  unfold State.cross
  repeat' split
  all_goals simp
@[simp] theorem State.crossLast_mem (s : State) (d : Nat) (x : Nat) : (State.crossLast s d x).mem = s.mem := by
  unfold State.crossLast
  repeat' first | with_reducible rfl | split | simp
@[simp] theorem State.memberTurn_mem (d : Nat) (w : Sys2Proof.Machine.Turn) (g : Sys2Proof.Machine.State × List Nat) (x : Nat) : (Sys2Proof.Machine.State.memberTurn d w g x).1.mem = g.1.mem := by
  unfold State.memberTurn
  repeat' first
    | with_reducible rfl
    | refine (mem_foldl _ _ _ (fun _ _ => ?_)).trans ?_
    | refine (mem_fold1 _ _ _ (fun _ _ => ?_)).trans ?_
    | refine (mem_fold2 _ _ _ (fun _ _ => ?_)).trans ?_
    | split
    | simp
    | rfl
@[simp] theorem State.outCycle_mem (s0 : Sys2Proof.Machine.State) (d : Nat) (x : Nat) : (Sys2Proof.Machine.State.outCycle s0 d x).mem = s0.mem := by
  unfold State.outCycle
  repeat' first
    | with_reducible rfl
    | refine (mem_foldl _ _ _ (fun _ _ => ?_)).trans ?_
    | refine (mem_fold1 _ _ _ (fun _ _ => ?_)).trans ?_
    | refine (mem_fold2 _ _ _ (fun _ _ => ?_)).trans ?_
    | split
    | simp
    | rfl
@[simp] theorem State.countBp_mem (s : Sys2Proof.Machine.State) (d : Nat) : (Sys2Proof.Machine.State.countBp s d).mem = s.mem := by
  unfold State.countBp
  repeat' first
    | with_reducible rfl
    | refine (mem_foldl _ _ _ (fun _ _ => ?_)).trans ?_
    | refine (mem_fold1 _ _ _ (fun _ _ => ?_)).trans ?_
    | refine (mem_fold2 _ _ _ (fun _ _ => ?_)).trans ?_
    | split
    | simp
    | rfl
@[simp] theorem State.noteLow_mem (s : Sys2Proof.Machine.State) (old : Sys2Proof.Machine.State) : (Sys2Proof.Machine.State.noteLow s old).mem = s.mem := by
  unfold State.noteLow
  repeat' first
    | with_reducible rfl
    | refine (mem_foldl _ _ _ (fun _ _ => ?_)).trans ?_
    | refine (mem_fold1 _ _ _ (fun _ _ => ?_)).trans ?_
    | refine (mem_fold2 _ _ _ (fun _ _ => ?_)).trans ?_
    | split
    | simp
    | rfl
@[simp] theorem State.tdiErr_mem (s : State) (p : Nat) (l : Nat) : (State.tdiErr s p l).mem = s.mem := by
  unfold State.tdiErr
  repeat' first | with_reducible rfl | split | simp
@[simp] theorem State.dropIde_mem (s : State) (p : Nat) : (State.dropIde s p).mem = s.mem := mem_foldl _ _ _ (fun _ _ => by simp)
@[simp] theorem State.dropStream_mem (s : Sys2Proof.Machine.State) (p : Nat) (k : Nat) : (Sys2Proof.Machine.State.dropStream s p k).mem = s.mem := by
  unfold State.dropStream
  repeat' first
    | with_reducible rfl
    | refine (mem_foldl _ _ _ (fun _ _ => ?_)).trans ?_
    | refine (mem_fold1 _ _ _ (fun _ _ => ?_)).trans ?_
    | refine (mem_fold2 _ _ _ (fun _ _ => ?_)).trans ?_
    | split
    | simp
    | rfl
@[simp] theorem State.trayIde_mem (s : Sys2Proof.Machine.State) (p : Nat) : (Sys2Proof.Machine.State.trayIde s p).mem = s.mem := by
  unfold State.trayIde
  repeat' first
    | with_reducible rfl
    | refine (mem_foldl _ _ _ (fun _ _ => ?_)).trans ?_
    | refine (mem_fold1 _ _ _ (fun _ _ => ?_)).trans ?_
    | refine (mem_fold2 _ _ _ (fun _ _ => ?_)).trans ?_
    | split
    | simp
    | rfl
@[simp] theorem State.dropSpdm_mem (s : State) (peer : Bool) (p : Nat) : (State.dropSpdm s peer p).mem = s.mem := by simp [State.dropSpdm]
@[simp] theorem State.writeFails_mem (s : State) (page : Nat) : (State.writeFails s page).mem = s.mem := by simp [State.writeFails]
@[simp] theorem State.nvmeFail_mem (s : State) (p : Nat) (c : NvmeCmd) : (State.nvmeFail s p c).mem = s.mem := by
  unfold State.nvmeFail
  repeat' first | with_reducible rfl | refine (mem_foldl _ _ _ (fun _ _ => ?_)).trans ?_ | split | simp
@[simp] theorem State.readDone_mem (s : Sys2Proof.Machine.State) (page : Nat) : (Sys2Proof.Machine.State.readDone s page).mem = s.mem := by
  unfold State.readDone
  repeat' first
    | with_reducible rfl
    | refine (mem_foldl _ _ _ (fun _ _ => ?_)).trans ?_
    | refine (mem_fold1 _ _ _ (fun _ _ => ?_)).trans ?_
    | refine (mem_fold2 _ _ _ (fun _ _ => ?_)).trans ?_
    | split
    | simp
    | rfl
@[simp] theorem State.nvmeClose_mem (s : Sys2Proof.Machine.State) (p : Nat) : (Sys2Proof.Machine.State.nvmeClose s p).mem = s.mem := by
  unfold State.nvmeClose
  repeat' first
    | with_reducible rfl
    | refine (mem_foldl _ _ _ (fun _ _ => ?_)).trans ?_
    | refine (mem_fold1 _ _ _ (fun _ _ => ?_)).trans ?_
    | refine (mem_fold2 _ _ _ (fun _ _ => ?_)).trans ?_
    | split
    | simp
    | rfl
@[simp] theorem State.nvmeAll_mem (s : State) (p : Nat) : (State.nvmeAll s p).mem = s.mem := by
  unfold State.nvmeAll
  repeat' first | with_reducible rfl | refine (mem_foldl _ _ _ (fun _ _ => ?_)).trans ?_ | split | simp
@[simp] theorem State.flexDown_mem (s : State) (p st : Nat) : (s.flexDown p st).mem = s.mem := by
  unfold State.flexDown
  dsimp only
  split
  · simp
  · split
    · exact (State.extentsOut_mem _ _).trans ((State.loseWrites_mem _ _).trans ((State.nvmeAll_mem _ _).trans ((State.dropIde_mem _ _).trans (State.setFlex_mem _ _ _))))
    · exact (State.nvmeAll_mem _ _).trans ((State.dropIde_mem _ _).trans (State.setFlex_mem _ _ _))
@[simp] theorem State.flexEnableOp_mem (s : Sys2Proof.Machine.State) (p : Nat) : (Sys2Proof.Machine.State.flexEnableOp s p).2.mem = s.mem := by
  unfold State.flexEnableOp
  repeat' first
    | with_reducible rfl
    | refine (mem_foldl _ _ _ (fun _ _ => ?_)).trans ?_
    | refine (mem_fold1 _ _ _ (fun _ _ => ?_)).trans ?_
    | refine (mem_fold2 _ _ _ (fun _ _ => ?_)).trans ?_
    | split
    | simp
    | rfl
@[simp] theorem State.flexDisableOp_mem (s : State) (p : Nat) : (State.flexDisableOp s p).2.mem = s.mem := by simp [State.flexDisableOp]
@[simp] theorem State.trayUp_mem (s : State) (p : Nat) (t : FlexPartner) : (State.trayUp s p t).mem = s.mem := by
  unfold State.trayUp
  repeat' first | with_reducible rfl | split | simp
@[simp] theorem State.flashOn_mem (s : Sys2Proof.Machine.State) (p : Nat) (t : Sys2Proof.FlexPartner) : (Sys2Proof.Machine.State.flashOn s p t).mem = s.mem := by
  unfold State.flashOn
  repeat' first | with_reducible rfl | split | simp
@[simp] theorem State.flexTrained_mem (s : Sys2Proof.Machine.State) (p : Nat) (t : Sys2Proof.FlexPartner) : (Sys2Proof.Machine.State.flexTrained s p t).mem = s.mem := by
  unfold State.flexTrained
  repeat' first | with_reducible rfl | split | simp
@[simp] theorem State.syncSelect_mem (s : State) : (State.syncSelect s).mem = s.mem := by
  unfold State.syncSelect
  repeat' first | with_reducible rfl | split | simp
@[simp] theorem State.syncCorrect_mem (s : State) (ps : Int) : (State.syncCorrect s ps).mem = s.mem := by
  unfold State.syncCorrect
  repeat' first | with_reducible rfl | split | simp
@[simp] theorem State.peerFlag_mem (s : State) (q : Nat) (b : Nat) : (State.peerFlag s q b).mem = s.mem := by simp [State.peerFlag]
@[simp] theorem State.sendHandover_mem (s : Sys2Proof.Machine.State) (via : Nat) (failed : Nat) (last : Nat) : (Sys2Proof.Machine.State.sendHandover s via failed last).mem = s.mem := by
  unfold State.sendHandover
  repeat' first
    | with_reducible rfl
    | refine (mem_foldl _ _ _ (fun _ _ => ?_)).trans ?_
    | refine (mem_fold1 _ _ _ (fun _ _ => ?_)).trans ?_
    | refine (mem_fold2 _ _ _ (fun _ _ => ?_)).trans ?_
    | split
    | simp
    | rfl
@[simp] theorem State.peerStart_mem (s : State) (q : Nat) : (State.peerStart s q).mem = s.mem := by simp [State.peerStart]
@[simp] theorem State.dropHold_mem (s : Sys2Proof.Machine.State) (q : Nat) : (Sys2Proof.Machine.State.dropHold s q).mem = s.mem := by
  unfold State.dropHold
  repeat' first
    | with_reducible rfl
    | refine (mem_foldl _ _ _ (fun _ _ => ?_)).trans ?_
    | refine (mem_fold1 _ _ _ (fun _ _ => ?_)).trans ?_
    | refine (mem_fold2 _ _ _ (fun _ _ => ?_)).trans ?_
    | split
    | simp
    | rfl
@[simp] theorem State.peerDrop_mem (s0 : State) (q : Nat) (st : Nat) : (State.peerDrop s0 q st).mem = s0.mem := by
  unfold State.peerDrop
  repeat' first | with_reducible rfl | split | simp
@[simp] theorem State.peerLost_mem (s : State) (q : Nat) : (State.peerLost s q).mem = s.mem := by simp [State.peerLost]
@[simp] theorem State.peerGone_mem (s : Sys2Proof.Machine.State) (q : Nat) : (Sys2Proof.Machine.State.peerGone s q).mem = s.mem := by
  unfold State.peerGone
  repeat' first
    | with_reducible rfl
    | refine (mem_foldl _ _ _ (fun _ _ => ?_)).trans ?_
    | refine (mem_fold1 _ _ _ (fun _ _ => ?_)).trans ?_
    | refine (mem_fold2 _ _ _ (fun _ _ => ?_)).trans ?_
    | split
    | simp
    | rfl
@[simp] theorem State.peerActive_mem (s : State) (q : Nat) (dev : Nat) : (State.peerActive s q dev).mem = s.mem := by
  unfold State.peerActive
  repeat' first | with_reducible rfl | split | simp
@[simp] theorem State.fastRetrain_mem (s : State) (q : Nat) : (State.fastRetrain s q).mem = s.mem := by simp [State.fastRetrain]
@[simp] theorem State.laneFail_mem (s : Sys2Proof.Machine.State) (q : Nat) (lane : Nat) : (Sys2Proof.Machine.State.laneFail s q lane).mem = s.mem := by
  unfold State.laneFail
  repeat' first
    | with_reducible rfl
    | refine (mem_foldl _ _ _ (fun _ _ => ?_)).trans ?_
    | refine (mem_fold1 _ _ _ (fun _ _ => ?_)).trans ?_
    | refine (mem_fold2 _ _ _ (fun _ _ => ?_)).trans ?_
    | split
    | simp
    | rfl
@[simp] theorem State.symbolWindow_mem (s : Sys2Proof.Machine.State) (q : Nat) : (Sys2Proof.Machine.State.symbolWindow s q).mem = s.mem := by
  unfold State.symbolWindow
  repeat' first
    | with_reducible rfl
    | refine (mem_foldl _ _ _ (fun _ _ => ?_)).trans ?_
    | refine (mem_fold1 _ _ _ (fun _ _ => ?_)).trans ?_
    | refine (mem_fold2 _ _ _ (fun _ _ => ?_)).trans ?_
    | split
    | simp
    | rfl
@[simp] theorem State.peerEnableOp_mem (s : Sys2Proof.Machine.State) (q : Nat) : (Sys2Proof.Machine.State.peerEnableOp s q).2.mem = s.mem := by
  unfold State.peerEnableOp
  repeat' first
    | with_reducible rfl
    | refine (mem_foldl _ _ _ (fun _ _ => ?_)).trans ?_
    | refine (mem_fold1 _ _ _ (fun _ _ => ?_)).trans ?_
    | refine (mem_fold2 _ _ _ (fun _ _ => ?_)).trans ?_
    | split
    | simp
    | rfl
@[simp] theorem State.peerDisableOp_mem (s : State) (q : Nat) : (State.peerDisableOp s q).2.mem = s.mem := by simp [State.peerDisableOp]
@[simp] theorem State.replayFrom_mem (s : State) (q : Nat) : (State.replayFrom s q).mem = s.mem := by
  unfold State.replayFrom
  repeat' first | with_reducible rfl | split | simp
@[simp] theorem State.flitFields_mem (s : State) (q : Nat) (f : Flit) : (State.flitFields s q f).mem = s.mem := by unfold State.flitFields; split <;> simp
@[simp] theorem State.badFlit_mem (s : State) (q : Nat) : (State.badFlit s q).mem = s.mem := by
  unfold State.badFlit
  repeat' first | with_reducible rfl | split | simp
@[simp] theorem State.takePackets_mem (s : State) (q : Nat) (f : Flit) : (State.takePackets s q f).mem = s.mem := by
  unfold State.takePackets
  repeat' first | with_reducible rfl | refine (mem_foldl _ _ _ (fun _ _ => ?_)).trans ?_ | split | simp
@[simp] theorem State.dataFlit_mem (s : State) (q : Nat) (f : Flit) : (State.dataFlit s q f).mem = s.mem := by
  unfold State.dataFlit
  repeat' first | with_reducible rfl | split | simp
@[simp] theorem State.setSpdm_mem (s : State) (ch : SpdmCh) (x : Spdm) : (State.setSpdm s ch x).mem = s.mem := by simp [State.setSpdm]
@[simp] theorem State.sendSpdm_mem (s : Sys2Proof.Machine.State) (ch : Sys2Proof.SpdmCh) (msg : Nat) (data : Sys2Proof.Bytes) : (Sys2Proof.Machine.State.sendSpdm s ch msg data).mem = s.mem := by
  unfold State.sendSpdm
  repeat' first
    | with_reducible rfl
    | refine (mem_foldl _ _ _ (fun _ _ => ?_)).trans ?_
    | refine (mem_fold1 _ _ _ (fun _ _ => ?_)).trans ?_
    | refine (mem_fold2 _ _ _ (fun _ _ => ?_)).trans ?_
    | split
    | simp
    | rfl
@[simp] theorem State.spdmAsk_mem (s : Sys2Proof.Machine.State) (ch : Sys2Proof.SpdmCh) (msg : Nat) (data : Sys2Proof.Bytes) : (Sys2Proof.Machine.State.spdmAsk s ch msg data).mem = s.mem := by
  unfold State.spdmAsk
  repeat' first
    | with_reducible rfl
    | refine (mem_foldl _ _ _ (fun _ _ => ?_)).trans ?_
    | refine (mem_fold1 _ _ _ (fun _ _ => ?_)).trans ?_
    | refine (mem_fold2 _ _ _ (fun _ _ => ?_)).trans ?_
    | split
    | simp
    | rfl
@[simp] theorem State.spdmNext_mem (s : Sys2Proof.Machine.State) (q : Nat) (b : Sys2Proof.Bytes) : (Sys2Proof.Machine.State.spdmNext s q b).mem = s.mem := by
  unfold State.spdmNext
  repeat' first
    | with_reducible rfl
    | refine (mem_foldl _ _ _ (fun _ _ => ?_)).trans ?_
    | refine (mem_fold1 _ _ _ (fun _ _ => ?_)).trans ?_
    | refine (mem_fold2 _ _ _ (fun _ _ => ?_)).trans ?_
    | split
    | simp
    | rfl
@[simp] theorem State.spdmIn_mem (s : Sys2Proof.Machine.State) (q : Nat) (k : Sys2Proof.Packet) : (Sys2Proof.Machine.State.spdmIn s q k).mem = s.mem := by
  unfold State.spdmIn
  repeat' first
    | with_reducible rfl
    | refine (mem_foldl _ _ _ (fun _ _ => ?_)).trans ?_
    | refine (mem_fold1 _ _ _ (fun _ _ => ?_)).trans ?_
    | refine (mem_fold2 _ _ _ (fun _ _ => ?_)).trans ?_
    | split
    | simp
    | rfl
@[simp] theorem State.authStart_mem (s : Sys2Proof.Machine.State) (q : Nat) : (Sys2Proof.Machine.State.authStart s q).mem = s.mem := by
  unfold State.authStart
  repeat' first
    | with_reducible rfl
    | refine (mem_foldl _ _ _ (fun _ _ => ?_)).trans ?_
    | refine (mem_fold1 _ _ _ (fun _ _ => ?_)).trans ?_
    | refine (mem_fold2 _ _ _ (fun _ _ => ?_)).trans ?_
    | split
    | simp
    | rfl
@[simp] theorem State.spdmAnswer_mem (s : Sys2Proof.Machine.State) (ch : Sys2Proof.SpdmCh) (ok : Bool) (err : Nat) (nxt : Nat) (msg : Nat) (data : Sys2Proof.Bytes) : (Sys2Proof.Machine.State.spdmAnswer s ch ok err nxt msg data).mem = s.mem := by
  unfold State.spdmAnswer
  repeat' first
    | with_reducible rfl
    | refine (mem_foldl _ _ _ (fun _ _ => ?_)).trans ?_
    | refine (mem_fold1 _ _ _ (fun _ _ => ?_)).trans ?_
    | refine (mem_fold2 _ _ _ (fun _ _ => ?_)).trans ?_
    | split
    | simp
    | rfl
@[simp] theorem State.sendTiles_mem (s : Sys2Proof.Machine.State) (tag : Nat) (dev : Nat) (ts : List Sys2Proof.Tile) (o : Sys2Proof.Machine.Output) : (Sys2Proof.Machine.State.sendTiles s tag dev ts o).mem = s.mem := by
  unfold State.sendTiles
  repeat' first
    | with_reducible rfl
    | refine (mem_foldl _ _ _ (fun _ _ => ?_)).trans ?_
    | refine (mem_fold1 _ _ _ (fun _ _ => ?_)).trans ?_
    | refine (mem_fold2 _ _ _ (fun _ _ => ?_)).trans ?_
    | split
    | simp
    | rfl
@[simp] theorem State.releaseTiles_mem (s : State) : (State.releaseTiles s).mem = s.mem := by
  unfold State.releaseTiles
  repeat' first | with_reducible rfl | refine (mem_foldl _ _ _ (fun _ _ => ?_)).trans ?_ | split | simp
@[simp] theorem State.collCmds_mem (s : Sys2Proof.Machine.State) (key : Sys2Proof.CollKey) (pick : Nat → Bool) (f : Nat → Sys2Proof.Machine.Cmd → Sys2Proof.Machine.Cmd) : (Sys2Proof.Machine.State.collCmds s key pick f).mem = s.mem := by
  unfold State.collCmds
  repeat' first
    | with_reducible rfl
    | refine (mem_foldl _ _ _ (fun _ _ => ?_)).trans ?_
    | refine (mem_fold1 _ _ _ (fun _ _ => ?_)).trans ?_
    | refine (mem_fold2 _ _ _ (fun _ _ => ?_)).trans ?_
    | split
    | simp
    | rfl
@[simp] theorem State.collEnd_mem (s : Sys2Proof.Machine.State) (key : Sys2Proof.CollKey) (rank : Nat) (ref : Nat) (st : Nat) (reason : Nat) : (Sys2Proof.Machine.State.collEnd s key rank ref st reason).mem = s.mem := by
  unfold State.collEnd
  repeat' first
    | with_reducible rfl
    | refine (mem_foldl _ _ _ (fun _ _ => ?_)).trans ?_
    | refine (mem_fold1 _ _ _ (fun _ _ => ?_)).trans ?_
    | refine (mem_fold2 _ _ _ (fun _ _ => ?_)).trans ?_
    | split
    | simp
    | rfl
@[simp] theorem State.collStatus_mem (s : Sys2Proof.Machine.State) (key : Sys2Proof.CollKey) (dev : Nat) (rank : Nat) (ref : Nat) (st : Nat) (reason : Nat) : (Sys2Proof.Machine.State.collStatus s key dev rank ref st reason).mem = s.mem := by
  unfold State.collStatus
  repeat' first
    | with_reducible rfl
    | refine (mem_foldl _ _ _ (fun _ _ => ?_)).trans ?_
    | refine (mem_fold1 _ _ _ (fun _ _ => ?_)).trans ?_
    | refine (mem_fold2 _ _ _ (fun _ _ => ?_)).trans ?_
    | split
    | simp
    | rfl
@[simp] theorem State.collRefuse_mem (s : State) (src : Option Nat) (c : Contribution) (st : Nat) (reason : Nat) : (State.collRefuse s src c st reason).mem = s.mem := by unfold State.collRefuse; split <;> simp
@[simp] theorem State.collDeliver_mem (s : Sys2Proof.Machine.State) (key : Sys2Proof.CollKey) (data : Sys2Proof.Bytes) (poison : Bool) : (Sys2Proof.Machine.State.collDeliver s key data poison).mem = s.mem := by
  unfold State.collDeliver
  repeat' first
    | with_reducible rfl
    | refine (mem_foldl _ _ _ (fun _ _ => ?_)).trans ?_
    | refine (mem_fold1 _ _ _ (fun _ _ => ?_)).trans ?_
    | refine (mem_fold2 _ _ _ (fun _ _ => ?_)).trans ?_
    | split
    | simp
    | rfl
@[simp] theorem State.dropRec_mem (s : State) (r : CollRec) : (State.dropRec s r).mem = s.mem := by simp [State.dropRec]
@[simp] theorem State.putRec_mem (s : State) (r : CollRec) : (State.putRec s r).mem = s.mem := by simp [State.putRec]
@[simp] theorem State.abortRec_mem (s : Sys2Proof.Machine.State) (r : Sys2Proof.Machine.CollRec) : (Sys2Proof.Machine.State.abortRec s r).mem = s.mem := by
  unfold State.abortRec
  repeat' first
    | with_reducible rfl
    | refine (mem_foldl _ _ _ (fun _ _ => ?_)).trans ?_
    | refine (mem_fold1 _ _ _ (fun _ _ => ?_)).trans ?_
    | refine (mem_fold2 _ _ _ (fun _ _ => ?_)).trans ?_
    | split
    | simp
    | rfl
@[simp] theorem State.abortKey_mem (s : State) (key : CollKey) : (State.abortKey s key).mem = s.mem := mem_foldl _ _ _ (fun _ _ => by simp)
@[simp] theorem State.abortAll_mem (s : Sys2Proof.Machine.State) (key : Sys2Proof.CollKey) (q : Sys2Proof.CollParams) (timeoutMs : Nat) : (Sys2Proof.Machine.State.abortAll s key q timeoutMs).mem = s.mem := by
  unfold State.abortAll
  repeat' first
    | with_reducible rfl
    | refine (mem_foldl _ _ _ (fun _ _ => ?_)).trans ?_
    | refine (mem_fold1 _ _ _ (fun _ _ => ?_)).trans ?_
    | refine (mem_fold2 _ _ _ (fun _ _ => ?_)).trans ?_
    | split
    | simp
    | rfl
@[simp] theorem State.scatter_mem (s : Sys2Proof.Machine.State) (key : Sys2Proof.CollKey) (q : Sys2Proof.CollParams) (devs : List Nat) (opened : Nat) (data : Sys2Proof.Bytes) (sat : Bool) (poison : Bool) : (Sys2Proof.Machine.State.scatter s key q devs opened data sat poison).mem = s.mem := by
  unfold State.scatter
  repeat' first
    | with_reducible rfl
    | refine (mem_foldl _ _ _ (fun _ _ => ?_)).trans ?_
    | refine (mem_fold1 _ _ _ (fun _ _ => ?_)).trans ?_
    | refine (mem_fold2 _ _ _ (fun _ _ => ?_)).trans ?_
    | split
    | simp
    | rfl
@[simp] theorem State.blockRefused_mem (s : Sys2Proof.Machine.State) (key : Sys2Proof.CollKey) (block : Nat) (st : Nat) (reason : Nat) : (Sys2Proof.Machine.State.blockRefused s key block st reason).mem = s.mem := by
  unfold State.blockRefused
  repeat' first
    | with_reducible rfl
    | refine (mem_foldl _ _ _ (fun _ _ => ?_)).trans ?_
    | refine (mem_fold1 _ _ _ (fun _ _ => ?_)).trans ?_
    | refine (mem_fold2 _ _ _ (fun _ _ => ?_)).trans ?_
    | split
    | simp
    | rfl
@[simp] theorem State.partRefuse_mem (s : Sys2Proof.Machine.State) (key : Sys2Proof.CollKey) (dev : Nat) (block : Nat) (st : Nat) (reason : Nat) : (Sys2Proof.Machine.State.partRefuse s key dev block st reason).mem = s.mem := by
  unfold State.partRefuse
  repeat' first
    | with_reducible rfl
    | refine (mem_foldl _ _ _ (fun _ _ => ?_)).trans ?_
    | refine (mem_fold1 _ _ _ (fun _ _ => ?_)).trans ?_
    | refine (mem_fold2 _ _ _ (fun _ _ => ?_)).trans ?_
    | split
    | simp
    | rfl
@[simp] theorem State.topAdd_mem (s : Sys2Proof.Machine.State) (r : Sys2Proof.Machine.CollRec) (h : Sys2Proof.Machine.CollHeld) : (Sys2Proof.Machine.State.topAdd s r h).mem = s.mem := by
  unfold State.topAdd
  repeat' first
    | with_reducible rfl
    | refine (mem_foldl _ _ _ (fun _ _ => ?_)).trans ?_
    | refine (mem_fold1 _ _ _ (fun _ _ => ?_)).trans ?_
    | refine (mem_fold2 _ _ _ (fun _ _ => ?_)).trans ?_
    | split
    | simp
    | rfl
@[simp] theorem State.topOpen_mem (s : Sys2Proof.Machine.State) (key : Sys2Proof.CollKey) (q : Sys2Proof.CollParams) (timeoutMs : Nat) (h : Sys2Proof.Machine.CollHeld) : (Sys2Proof.Machine.State.topOpen s key q timeoutMs h).mem = s.mem := by
  unfold State.topOpen
  repeat' first
    | with_reducible rfl
    | refine (mem_foldl _ _ _ (fun _ _ => ?_)).trans ?_
    | refine (mem_fold1 _ _ _ (fun _ _ => ?_)).trans ?_
    | refine (mem_fold2 _ _ _ (fun _ _ => ?_)).trans ?_
    | split
    | simp
    | rfl
@[simp] theorem State.topIn_mem (s : Sys2Proof.Machine.State) (key : Sys2Proof.CollKey) (q : Sys2Proof.CollParams) (timeoutMs : Nat) (h : Sys2Proof.Machine.CollHeld) : (Sys2Proof.Machine.State.topIn s key q timeoutMs h).mem = s.mem := by
  unfold State.topIn
  repeat' first
    | with_reducible rfl
    | refine (mem_foldl _ _ _ (fun _ _ => ?_)).trans ?_
    | refine (mem_fold1 _ _ _ (fun _ _ => ?_)).trans ?_
    | refine (mem_fold2 _ _ _ (fun _ _ => ?_)).trans ?_
    | split
    | simp
    | rfl
@[simp] theorem State.sendPart_mem (s : Sys2Proof.Machine.State) (r : Sys2Proof.Machine.CollRec) (devs : List Nat) : (Sys2Proof.Machine.State.sendPart s r devs).mem = s.mem := by
  unfold State.sendPart
  repeat' first
    | with_reducible rfl
    | refine (mem_foldl _ _ _ (fun _ _ => ?_)).trans ?_
    | refine (mem_fold1 _ _ _ (fun _ _ => ?_)).trans ?_
    | refine (mem_fold2 _ _ _ (fun _ _ => ?_)).trans ?_
    | split
    | simp
    | rfl
@[simp] theorem State.blockDone_mem (s : Sys2Proof.Machine.State) (r : Sys2Proof.Machine.CollRec) : (Sys2Proof.Machine.State.blockDone s r).mem = s.mem := by
  unfold State.blockDone
  repeat' first
    | with_reducible rfl
    | refine (mem_foldl _ _ _ (fun _ _ => ?_)).trans ?_
    | refine (mem_fold1 _ _ _ (fun _ _ => ?_)).trans ?_
    | refine (mem_fold2 _ _ _ (fun _ _ => ?_)).trans ?_
    | split
    | simp
    | rfl
@[simp] theorem State.collAdd_mem (s : State) (r : CollRec) (c : Contribution) : (State.collAdd s r c).mem = s.mem := by
  unfold State.collAdd
  repeat' first | with_reducible rfl | split | simp
@[simp] theorem State.collOpen_mem (s : State) (src : Option Nat) (c : Contribution) : (State.collOpen s src c).mem = s.mem := by
  unfold State.collOpen
  repeat' first | with_reducible rfl | split | simp
@[simp] theorem State.collIn_mem (s : State) (src : Option Nat) (c : Contribution) : (State.collIn s src c).mem = s.mem := by
  unfold State.collIn
  repeat' split
  all_goals simp
@[simp] theorem State.collStart_mem (s : Sys2Proof.Machine.State) (ref : Nat) (what : Nat) : (Sys2Proof.Machine.State.collStart s ref what).mem = s.mem := by
  unfold State.collStart
  repeat' first
    | with_reducible rfl
    | refine (mem_foldl _ _ _ (fun _ _ => ?_)).trans ?_
    | refine (mem_fold1 _ _ _ (fun _ _ => ?_)).trans ?_
    | refine (mem_fold2 _ _ _ (fun _ _ => ?_)).trans ?_
    | split
    | simp
    | rfl
@[simp] theorem collRecipe_start_mem (w : Nat) (s : State) (c : Ctx) : ((collRecipe w).start s c).mem = s.mem := by
  simp only [collRecipe]
  first
    | rfl
    | (simp; done)
    | (refine State.oneWork_mem _ _ _ (fun u c => ?_); simp; done)
    | (refine State.oneItem_mem _ _ _ (fun u c => ?_); simp; done)
    | (refine State.eachItem_mem _ _ _ (fun u c i => ?_); simp; done)
    | (refine (State.eachItem_mem _ _ _ (fun u c i => ?_)).trans ?_ <;> simp; done)
    | (repeat' split <;> simp)
@[simp] theorem collRecipe_admit_mem (w : Nat) (s : State) (c : Ctx) : ((collRecipe w).atAdmit s c).mem = s.mem := by
  simp only [collRecipe]
  first
    | rfl
    | (simp; done)
    | (refine State.oneWork_mem _ _ _ (fun u c => ?_); simp; done)
    | (refine State.oneItem_mem _ _ _ (fun u c => ?_); simp; done)
    | (refine State.eachItem_mem _ _ _ (fun u c i => ?_); simp; done)
    | (refine (State.eachItem_mem _ _ _ (fun u c i => ?_)).trans ?_ <;> simp; done)
    | (repeat' split <;> simp)
@[simp] theorem State.takeParts_mem (s : State) (t : Nat) : (State.takeParts s t).mem = s.mem := by simp [State.takeParts]
@[simp] theorem State.giveKey_mem (s : State) (t : Nat) : (State.giveKey s t).mem = s.mem := by unfold State.giveKey; split <;> simp
@[simp] theorem State.touchLd_mem (s : State) (p : Nat) (l : Nat) : (State.touchLd s p l).mem = s.mem := by simp [State.touchLd]
@[simp] theorem State.touchTenant_mem (s : State) (t : Nat) : (State.touchTenant s t).mem = s.mem := by
  unfold State.touchTenant
  repeat' first | with_reducible rfl | refine (mem_foldl _ _ _ (fun _ _ => ?_)).trans ?_ | split | simp
@[simp] theorem State.tenantEnableOp_mem (s : State) (t : Nat) : (State.tenantEnableOp s t).2.mem = s.mem := by
  unfold State.tenantEnableOp
  repeat' first | with_reducible rfl | split | simp
@[simp] theorem State.tenantDisableOp_mem (s : State) (t : Nat) : (s.tenantDisableOp t).2.mem = s.mem :=
  (State.releaseParts_mem _).trans ((State.setObjI_mem _ _ _ _ _).trans (State.touchTenant_mem _ _))
@[simp] theorem State.closeTenant_mem (s : Sys2Proof.Machine.State) (t : Nat) : (Sys2Proof.Machine.State.closeTenant s t).mem = s.mem := by
  unfold State.closeTenant
  repeat' first
    | with_reducible rfl
    | refine (mem_foldl _ _ _ (fun _ _ => ?_)).trans ?_
    | refine (mem_fold1 _ _ _ (fun _ _ => ?_)).trans ?_
    | refine (mem_fold2 _ _ _ (fun _ _ => ?_)).trans ?_
    | split
    | simp
    | rfl
@[simp] theorem State.tenantRemoveOp_mem (s : State) (v : Nat) : (State.tenantRemoveOp s v).2.mem = s.mem := by
  unfold State.tenantRemoveOp
  repeat' first | with_reducible rfl | split | simp
@[simp] theorem State.refillAll_mem (s : State) (at_ : Nat) : (State.refillAll s at_).mem = s.mem := by simp [State.refillAll]
@[simp] theorem State.shapeOp_mem (s : State) (t : Nat) (sub : Nat) (v : Nat) : (State.shapeOp s t sub v).2.mem = s.mem := by simp [State.shapeOp]
@[simp] theorem State.sampleFree_mem (s : State) : (State.sampleFree s).mem = s.mem := by
  unfold State.sampleFree
  repeat' first | with_reducible rfl | split | simp
@[simp] theorem State.ldEnableOp_mem (s : State) (p : Nat) (l : Nat) : (State.ldEnableOp s p l).2.mem = s.mem := by
  unfold State.ldEnableOp
  repeat' split
  all_goals simp
@[simp] theorem State.ldDisableOp_mem (s : State) (p : Nat) (l : Nat) : (State.ldDisableOp s p l).2.mem = s.mem := by unfold State.ldDisableOp; split <;> simp
@[simp] theorem State.enrollOp_mem (s : State) (b : Bytes) : (State.enrollOp s b).2.mem = s.mem := by
  unfold State.enrollOp
  repeat' split
  all_goals simp
@[simp] theorem State.unenrollOp_mem (s : State) (v : Nat) : (State.unenrollOp s v).2.mem = s.mem := by
  unfold State.unenrollOp
  repeat' split
  all_goals simp
@[simp] theorem State.quorumKOp_mem (s : State) (v : Nat) (claim : Bool) : (State.quorumKOp s v claim).2.mem = s.mem := by
  unfold State.quorumKOp
  repeat' split
  all_goals simp
@[simp] theorem State.certSlot1Op_mem (s : State) (b : Bytes) : (State.certSlot1Op s b).2.mem = s.mem := by
  unfold State.certSlot1Op
  repeat' split
  all_goals simp
@[simp] theorem State.fabricAnchorOp_mem (s : State) (b : Bytes) : (State.fabricAnchorOp s b).2.mem = s.mem := by
  unfold State.fabricAnchorOp
  repeat' split
  all_goals simp
@[simp] theorem State.sdKeyOp_mem (s : State) (b : Bytes) : (State.sdKeyOp s b).2.mem = s.mem := by
  unfold State.sdKeyOp
  repeat' first | with_reducible rfl | split | simp
@[simp] theorem State.sdKeyClearOp_mem (s : State) (v : Nat) : (State.sdKeyClearOp s v).2.mem = s.mem := by
  unfold State.sdKeyClearOp
  repeat' first | with_reducible rfl | split | simp
@[simp] theorem State.lockOp_mem (s : State) (sub : Nat) (v : Nat) : (State.lockOp s sub v).2.mem = s.mem := by
  unfold State.lockOp
  repeat' split
  all_goals simp
@[simp] theorem State.endSess_mem (s : State) (sid : Nat) : (State.endSess s sid).mem = s.mem := by unfold State.endSess; split <;> simp
@[simp] theorem State.closeClaim_mem (s : State) : (State.closeClaim s).mem = s.mem := by simp [State.closeClaim]
@[simp] theorem State.endClaim_mem (s : State) : (State.endClaim s).mem = s.mem := by
  unfold State.endClaim
  repeat' first | with_reducible rfl | refine (mem_foldl _ _ _ (fun _ _ => ?_)).trans ?_ | split | simp
@[simp] theorem State.claimDoneOp_mem (s : State) (sid : Nat) (v : Nat) : (State.claimDoneOp s sid v).2.mem = s.mem := by
  unfold State.claimDoneOp
  repeat' first | with_reducible rfl | split | simp
@[simp] theorem State.openClaim_mem (s : State) : (State.openClaim s).mem = s.mem := by unfold State.openClaim; split <;> simp
@[simp] theorem State.stageKeeps_mem (s : Sys2Proof.Machine.State) (ref : Nat) (c : Sys2Proof.Machine.Cmd) (e : Sys2Proof.Bytes) (l : List Sys2Proof.Machine.Stream) : (Sys2Proof.Machine.State.stageKeeps s ref c e l).mem = s.mem := by
  unfold State.stageKeeps
  repeat' first
    | with_reducible rfl
    | refine (mem_foldl _ _ _ (fun _ _ => ?_)).trans ?_
    | refine (mem_fold1 _ _ _ (fun _ _ => ?_)).trans ?_
    | refine (mem_fold2 _ _ _ (fun _ _ => ?_)).trans ?_
    | split
    | simp
    | rfl
@[simp] theorem State.runStages_mem (s : Sys2Proof.Machine.State) (ref : Nat) (tile : Nat) (c : Sys2Proof.Machine.Cmd) (x4 : List Sys2Proof.Bytes) (x5 : List Sys2Proof.Machine.Stream) (x6 : List Sys2Proof.Machine.Stream) : (Sys2Proof.Machine.State.runStages s ref tile c x4 x5 x6).2.mem = s.mem := by
  induction x4 generalizing s x5 x6 with
  | nil => rfl
  | cons e t ih =>
    unfold State.runStages
    repeat' first | with_reducible rfl | split | (rw [ih]; simp; done) | (simp; done)
@[simp] theorem describeRecipe_start_mem (s : State) (c : Ctx) : (describeRecipe.start s c).mem = s.mem := by
  simp only [describeRecipe]
  first
    | rfl
    | (simp; done)
    | (refine State.oneWork_mem _ _ _ (fun u c => ?_); simp; done)
    | (refine State.oneItem_mem _ _ _ (fun u c => ?_); simp; done)
    | (refine State.eachItem_mem _ _ _ (fun u c i => ?_); simp; done)
    | (refine (State.eachItem_mem _ _ _ (fun u c i => ?_)).trans ?_ <;> simp; done)
    | (repeat' split <;> simp)
@[simp] theorem describeRecipe_admit_mem (s : State) (c : Ctx) : (describeRecipe.atAdmit s c).mem = s.mem := by
  simp only [describeRecipe]
  first
    | rfl
    | (simp; done)
    | (refine State.oneWork_mem _ _ _ (fun u c => ?_); simp; done)
    | (refine State.oneItem_mem _ _ _ (fun u c => ?_); simp; done)
    | (refine State.eachItem_mem _ _ _ (fun u c i => ?_); simp; done)
    | (refine (State.eachItem_mem _ _ _ (fun u c i => ?_)).trans ?_ <;> simp; done)
    | (repeat' split <;> simp)
@[simp] theorem State.installRun_mem (s : State) (ref : Nat) (c : Cmd) : (State.installRun s ref c).mem = s.mem := by
  unfold State.installRun
  repeat' first | with_reducible rfl | split | simp
@[simp] theorem installRecipeRun_start_mem (s : State) (c : Ctx) : (installRecipeRun.start s c).mem = s.mem := by
  simp only [installRecipeRun]
  first
    | rfl
    | (simp; done)
    | (refine State.oneWork_mem _ _ _ (fun u c => ?_); simp; done)
    | (refine State.oneItem_mem _ _ _ (fun u c => ?_); simp; done)
    | (refine State.eachItem_mem _ _ _ (fun u c i => ?_); simp; done)
    | (refine (State.eachItem_mem _ _ _ (fun u c i => ?_)).trans ?_ <;> simp; done)
    | (repeat' split <;> simp)
@[simp] theorem installRecipeRun_admit_mem (s : State) (c : Ctx) : (installRecipeRun.atAdmit s c).mem = s.mem := by
  simp only [installRecipeRun]
  first
    | rfl
    | (simp; done)
    | (refine State.oneWork_mem _ _ _ (fun u c => ?_); simp; done)
    | (refine State.oneItem_mem _ _ _ (fun u c => ?_); simp; done)
    | (refine State.eachItem_mem _ _ _ (fun u c i => ?_); simp; done)
    | (refine (State.eachItem_mem _ _ _ (fun u c i => ?_)).trans ?_ <;> simp; done)
    | (repeat' split <;> simp)
@[simp] theorem State.removeRun_mem (s : State) (ref : Nat) (c : Cmd) : (State.removeRun s ref c).mem = s.mem := by
  unfold State.removeRun
  repeat' first | with_reducible rfl | split | simp
@[simp] theorem removeRecipeRun_start_mem (s : State) (c : Ctx) : (removeRecipeRun.start s c).mem = s.mem := by
  simp only [removeRecipeRun]
  first
    | rfl
    | (simp; done)
    | (refine State.oneWork_mem _ _ _ (fun u c => ?_); simp; done)
    | (refine State.oneItem_mem _ _ _ (fun u c => ?_); simp; done)
    | (refine State.eachItem_mem _ _ _ (fun u c i => ?_); simp; done)
    | (refine (State.eachItem_mem _ _ _ (fun u c i => ?_)).trans ?_ <;> simp; done)
    | (repeat' split <;> simp)
@[simp] theorem removeRecipeRun_admit_mem (s : State) (c : Ctx) : (removeRecipeRun.atAdmit s c).mem = s.mem := by
  simp only [removeRecipeRun]
  first
    | rfl
    | (simp; done)
    | (refine State.oneWork_mem _ _ _ (fun u c => ?_); simp; done)
    | (refine State.oneItem_mem _ _ _ (fun u c => ?_); simp; done)
    | (refine State.eachItem_mem _ _ _ (fun u c i => ?_); simp; done)
    | (refine (State.eachItem_mem _ _ _ (fun u c i => ?_)).trans ?_ <;> simp; done)
    | (repeat' split <;> simp)
@[simp] theorem State.composedRun_mem (s : Sys2Proof.Machine.State) (ref : Nat) (c : Sys2Proof.Machine.Cmd) : (Sys2Proof.Machine.State.composedRun s ref c).mem = s.mem := by
  unfold State.composedRun
  repeat' first
    | with_reducible rfl
    | refine (mem_foldl _ _ _ (fun _ _ => ?_)).trans ?_
    | refine (mem_fold1 _ _ _ (fun _ _ => ?_)).trans ?_
    | refine (mem_fold2 _ _ _ (fun _ _ => ?_)).trans ?_
    | split
    | simp
    | rfl
@[simp] theorem composedRecipe_start_mem (s : State) (c : Ctx) : (composedRecipe.start s c).mem = s.mem := by
  simp only [composedRecipe]
  first
    | rfl
    | (simp; done)
    | (refine State.oneWork_mem _ _ _ (fun u c => ?_); simp; done)
    | (refine State.oneItem_mem _ _ _ (fun u c => ?_); simp; done)
    | (refine State.eachItem_mem _ _ _ (fun u c i => ?_); simp; done)
    | (refine (State.eachItem_mem _ _ _ (fun u c i => ?_)).trans ?_ <;> simp; done)
    | (repeat' split <;> simp)
@[simp] theorem composedRecipe_admit_mem (s : State) (c : Ctx) : (composedRecipe.atAdmit s c).mem = s.mem := by
  simp only [composedRecipe]
  first
    | rfl
    | (simp; done)
    | (refine State.oneWork_mem _ _ _ (fun u c => ?_); simp; done)
    | (refine State.oneItem_mem _ _ _ (fun u c => ?_); simp; done)
    | (refine State.eachItem_mem _ _ _ (fun u c i => ?_); simp; done)
    | (refine (State.eachItem_mem _ _ _ (fun u c i => ?_)).trans ?_ <;> simp; done)
    | (repeat' split <;> simp)
@[simp] theorem State.fetchFor_mem (s : Sys2Proof.Machine.State) (dev : Nat) (h : Sys2Proof.Machine.TileHdr) : (Sys2Proof.Machine.State.fetchFor s dev h).mem = s.mem := by
  unfold State.fetchFor
  repeat' first
    | with_reducible rfl
    | refine (mem_foldl _ _ _ (fun _ _ => ?_)).trans ?_
    | refine (mem_fold1 _ _ _ (fun _ _ => ?_)).trans ?_
    | refine (mem_fold2 _ _ _ (fun _ _ => ?_)).trans ?_
    | split
    | simp
    | rfl
@[simp] theorem State.meter_mem (s : Sys2Proof.Machine.State) (x : Sys2Proof.Machine.HeldAcc) : (Sys2Proof.Machine.State.meter s x).mem = s.mem := by
  unfold State.meter
  repeat' first
    | with_reducible rfl
    | refine (mem_foldl _ _ _ (fun _ _ => ?_)).trans ?_
    | refine (mem_fold1 _ _ _ (fun _ _ => ?_)).trans ?_
    | refine (mem_fold2 _ _ _ (fun _ _ => ?_)).trans ?_
    | split
    | simp
    | rfl
@[simp] theorem publishRun_start_mem (s : State) (c : Ctx) : (publishRun.start s c).mem = s.mem := by
  simp only [publishRun]
  first
    | rfl
    | (simp; done)
    | (refine State.oneWork_mem _ _ _ (fun u c => ?_); simp; done)
    | (refine State.oneItem_mem _ _ _ (fun u c => ?_); simp; done)
    | (refine State.eachItem_mem _ _ _ (fun u c i => ?_); simp; done)
    | (refine (State.eachItem_mem _ _ _ (fun u c i => ?_)).trans ?_ <;> simp; done)
    | (repeat' split <;> simp)
@[simp] theorem publishRun_admit_mem (s : State) (c : Ctx) : (publishRun.atAdmit s c).mem = s.mem := by
  simp only [publishRun]
  first
    | rfl
    | (simp; done)
    | (refine State.oneWork_mem _ _ _ (fun u c => ?_); simp; done)
    | (refine State.oneItem_mem _ _ _ (fun u c => ?_); simp; done)
    | (refine State.eachItem_mem _ _ _ (fun u c i => ?_); simp; done)
    | (refine (State.eachItem_mem _ _ _ (fun u c i => ?_)).trans ?_ <;> simp; done)
    | (repeat' split <;> simp)
@[simp] theorem State.setEngine_mem (s : State) (e : Nat) (x : Engine) : (State.setEngine s e x).mem = s.mem := by simp [State.setEngine]
theorem State.bringSpare_mem {s t : State} {e : Nat} {k : Option Nat} (h : s.bringSpare e k = some t) : t.mem = s.mem := by
  unfold State.bringSpare at h
  split at h
  · simp at h
  · simp at h
    subst h
    split <;> simp
@[simp] theorem State.refillPart_mem (s : State) (d : Nat) (t : Nat) : (State.refillPart s d t).mem = s.mem := by
  unfold State.refillPart
  repeat' split
  all_goals simp
@[simp] theorem State.retireEngine_mem (s : State) (e : Nat) : (s.retireEngine e).mem = s.mem := by
  unfold State.retireEngine
  dsimp only
  split
  · split <;> simp
  · split
    · rename_i h; rw [State.bringSpare_mem h]; simp
    · split <;> simp
@[simp] theorem State.resetEngine_mem (s : State) (e : Nat) (was : Nat) : (State.resetEngine s e was).mem = s.mem := by simp [State.resetEngine]
@[simp] theorem State.hardEvent_mem (s : State) (e : Nat) : (s.hardEvent e).mem = s.mem := by
  unfold State.hardEvent
  dsimp only
  split
  · rfl
  · split
    · rename_i h; rw [State.bringSpare_mem h]; simp
    · simp
@[simp] theorem State.mismatch_mem (s : State) (e : Nat) : (State.mismatch s e).mem = s.mem := by
  unfold State.mismatch
  repeat' first | with_reducible rfl | split | simp
@[simp] theorem State.holdItem_mem (s : State) (ref : Nat) (i : Nat) (on : Bool) : (State.holdItem s ref i on).mem = s.mem := by simp [State.holdItem]
@[simp] theorem State.engineTested_mem (s : State) (e : Nat) (ok : Bool) : (s.engineTested e ok).mem = s.mem := by
  unfold State.engineTested
  dsimp only
  split
  · rfl
  · split
    · split
      · simp
      · split
        · rename_i h; rw [State.bringSpare_mem h]; simp
        · split <;> simp
    · split <;> simp [State.retireEngine_mem]
@[simp] theorem State.countErr_mem (s : State) (k : Nat) : (State.countErr s k).2.mem = s.mem := by simp [State.countErr]
@[simp] theorem State.dropErr_mem (s : State) (k : Nat) : (State.dropErr s k).mem = s.mem := by simp [State.dropErr]
@[simp] theorem State.moveBuckets_mem (s : State) (old : Nat) (new : Nat) : (State.moveBuckets s old new).mem = s.mem := by simp [State.moveBuckets]
@[simp] theorem State.dropCore_mem (s : Sys2Proof.Machine.State) (d : Nat) : (Sys2Proof.Machine.State.dropCore s d).mem = s.mem := by
  unfold State.dropCore
  repeat' first
    | with_reducible rfl
    | refine (mem_foldl _ _ _ (fun _ _ => ?_)).trans ?_
    | refine (mem_fold1 _ _ _ (fun _ _ => ?_)).trans ?_
    | refine (mem_fold2 _ _ _ (fun _ _ => ?_)).trans ?_
    | split
    | simp
    | rfl
@[simp] theorem State.dropAgents_mem (s : State) (d : Nat) (save : Bool) : (State.dropAgents s d save).mem = s.mem := mem_foldl _ _ _ (fun _ _ => by simp)
@[simp] theorem State.dieGone_mem (s : State) (d : Nat) (k : Bool) : (s.dieGone d k).mem = s.mem := by
  unfold State.dieGone
  split
  · rfl
  · extract_lets s1 dies src srcR s2 s3 s4 s5 s6
    have e1 : s1.mem = s.mem := (State.dropAgents_mem _ _ _).trans (State.cutItems_mem _ _ _ _)
    have es : src.mem = s.mem := (State.moveBuckets_mem _ _ _).trans e1
    have e2 : s2.mem = s.mem := es
    clear_value s2
    have e3 : s3.mem = s.mem := by
      refine (mem_foldl _ _ _ (fun a x => ?_)).trans e2
      split <;> simp [State.flexDown_mem]
    clear_value s3
    have e4 : s4.mem = s.mem := by
      refine (mem_foldl _ _ _ (fun a x => ?_)).trans e3
      split <;> simp
    clear_value s4
    have e5 : s5.mem = s.mem := (State.extentsOut_mem _ _).trans ((State.loseWrites_mem _ _).trans e4)
    clear_value s5
    have e6 : s6.mem = s.mem := e5
    clear_value s6
    simp [e6]
@[simp] theorem State.dieOut_mem (s : State) (d : Nat) (save : Bool) : (State.dieOut s d save).mem = s.mem := by unfold State.dieOut; split <;> simp
@[simp] theorem State.dieRetire_mem (s : State) (d : Nat) : (State.dieRetire s d).mem = s.mem := by
  unfold State.dieRetire
  repeat' first | with_reducible rfl | refine (mem_foldl _ _ _ (fun _ _ => ?_)).trans ?_ | split | simp
@[simp] theorem State.discardForeign_mem (s : State) : (State.discardForeign s).mem = s.mem := by
  unfold State.discardForeign
  repeat' first | with_reducible rfl | refine (mem_foldl _ _ _ (fun _ _ => ?_)).trans ?_ | split | simp
@[simp] theorem State.portsUp_mem (s : State) (d : Nat) : (State.portsUp s d).mem = s.mem := by
  unfold State.portsUp
  repeat' first | with_reducible rfl | refine (mem_foldl _ _ _ (fun _ _ => ?_)).trans ?_ | split | simp
@[simp] theorem State.fillParts_mem (s : Sys2Proof.Machine.State) (d : Nat) : (Sys2Proof.Machine.State.fillParts s d).mem = s.mem := by
  unfold State.fillParts
  repeat' first
    | with_reducible rfl
    | refine (mem_foldl _ _ _ (fun _ _ => ?_)).trans ?_
    | refine (mem_fold1 _ _ _ (fun _ _ => ?_)).trans ?_
    | refine (mem_fold2 _ _ _ (fun _ _ => ?_)).trans ?_
    | split
    | simp
    | rfl
@[simp] theorem State.dieBack_mem (s : Sys2Proof.Machine.State) (d : Nat) : (Sys2Proof.Machine.State.dieBack s d).mem = s.mem := by
  unfold State.dieBack
  repeat' first
    | with_reducible rfl
    | refine (mem_foldl _ _ _ (fun _ _ => ?_)).trans ?_
    | refine (mem_fold1 _ _ _ (fun _ _ => ?_)).trans ?_
    | refine (mem_fold2 _ _ _ (fun _ _ => ?_)).trans ?_
    | split
    | simp
    | rfl
@[simp] theorem State.narrow_mem (s : State) (short : Nat → Bool) (flex : List Nat) (peer : List Nat) : (State.narrow s short flex peer).mem = s.mem := by
  unfold State.narrow
  repeat' first | with_reducible rfl | refine (mem_foldl _ _ _ (fun _ _ => ?_)).trans ?_ | split | simp
@[simp] theorem State.arbitrate_mem (s : State) (i : ArbInput) : (State.arbitrate s i).mem = s.mem := by simp [State.arbitrate]
@[simp] theorem State.windowFlags_mem (s : State) : (State.windowFlags s).mem = s.mem := by
  unfold State.windowFlags
  repeat' first | with_reducible rfl | split | simp
@[simp] theorem State.corrected_mem (s : State) (die : Nat) (kind : Nat) : (State.corrected s die kind).mem = s.mem := by simp [State.corrected]
@[simp] theorem State.sramRow_mem (s : State) (die : Nat) (k : SramKind) (bank : Nat) : (State.sramRow s die k bank).mem = s.mem := by
  unfold State.sramRow
  repeat' first | with_reducible rfl | split | simp
@[simp] theorem State.poisonAt_mem (s : Sys2Proof.Machine.State) (a : Nat) : (Sys2Proof.Machine.State.poisonAt s a).mem = s.mem := by
  unfold State.poisonAt
  repeat' first
    | with_reducible rfl
    | refine (mem_foldl _ _ _ (fun _ _ => ?_)).trans ?_
    | refine (mem_fold1 _ _ _ (fun _ _ => ?_)).trans ?_
    | refine (mem_fold2 _ _ _ (fun _ _ => ?_)).trans ?_
    | split
    | simp
    | rfl
@[simp] theorem State.rowFails_mem (s : Sys2Proof.Machine.State) (die : Nat) (channel : Nat) (row : Nat) (addr : Nat) : (Sys2Proof.Machine.State.rowFails s die channel row addr).mem = s.mem := by
  unfold State.rowFails
  repeat' first
    | with_reducible rfl
    | refine (mem_foldl _ _ _ (fun _ _ => ?_)).trans ?_
    | refine (mem_fold1 _ _ _ (fun _ _ => ?_)).trans ?_
    | refine (mem_fold2 _ _ _ (fun _ _ => ?_)).trans ?_
    | split
    | simp
    | rfl
@[simp] theorem State.selftestOp_mem (s : State) (v : Nat) : (State.selftestOp s v).2.mem = s.mem := by
  unfold State.selftestOp
  repeat' split
  all_goals simp
@[simp] theorem State.admitOp_mem (s : State) (v : Nat) : (State.admitOp s v).2.mem = s.mem := by unfold State.admitOp; split <;> simp
@[simp] theorem State.startLoading_mem (s : State) : (State.startLoading s).mem = s.mem := by simp [State.startLoading]
@[simp] theorem State.relink_mem (s : State) (gid : Nat) : (State.relink s gid).mem = s.mem := by unfold State.relink; split <;> simp
@[simp] theorem State.expelOp_mem (s : State) (v : Nat) (all : Bool) : (State.expelOp s v all).2.mem = s.mem := by
  unfold State.expelOp
  repeat' first | with_reducible rfl | split | simp
@[simp] theorem State.snapDropped_mem (s : State) (x : Snap) (st : Nat) : (State.snapDropped s x st).mem = s.mem := by unfold State.snapDropped; split <;> simp
@[simp] theorem State.dropSnaps_mem (s : State) : (State.dropSnaps s).mem = s.mem := mem_foldl _ _ _ (fun _ _ => by simp)
@[simp] theorem State.finishAll_mem (s : State) : (State.finishAll s).mem = s.mem := by
  unfold State.finishAll
  repeat' first | with_reducible rfl | refine (mem_foldl _ _ _ (fun _ _ => ?_)).trans ?_ | split | simp
@[simp] theorem State.endSessions_mem (s : State) : (State.endSessions s).mem = s.mem := mem_foldl _ _ _ (fun _ _ => by simp)
@[simp] theorem State.portsDown_mem (s : State) : (State.portsDown s).mem = s.mem := by simp [State.portsDown]
@[simp] theorem State.repower_mem (s : State) : (State.repower s).mem = s.mem := by simp [State.repower]
@[simp] theorem State.domainsOff_mem (s : State) : s.domainsOff.mem = s.mem := by
  unfold State.domainsOff
  extract_lets s1 s2
  have e1 : s1.mem = s.mem := by
    refine mem_foldl _ _ _ (fun a x => ?_)
    split <;> simp [State.flexDown_mem]
  have e2 : s2.mem = s.mem := by
    refine (mem_foldl _ _ _ (fun a x => ?_)).trans e1
    split <;> simp
  clear_value s2
  exact e2
@[simp] theorem State.startup_mem (s : State) (testOk : Bool) : (State.startup s testOk).mem = s.mem := by
  unfold State.startup
  repeat' first | with_reducible rfl | refine (mem_foldl _ _ _ (fun _ _ => ?_)).trans ?_ | split | simp
@[simp] theorem State.dropScope_mem (s : State) (r : ResetRun) (classW : Bool) : (State.dropScope s r classW).mem = s.mem := by simp [State.dropScope]
@[simp] theorem State.dropPortRings_mem (s : State) (p : Nat) : (s.dropPortRings p).mem = s.mem := by
  unfold State.dropPortRings
  extract_lets gone s1 s2
  have e2 : s2.mem = s.mem := by
    show (if s.role p = 1 then _ else _ : State).mem = _
    split
    · exact State.dropDonors_mem _ _
    · rfl
  exact e2
@[simp] theorem State.beginReset_mem (s : State) (r : ResetRun) : (State.beginReset s r).mem = s.mem := by simp [State.beginReset]
@[simp] theorem State.dieReset_mem (s : State) (d : Nat) : (s.dieReset d).mem = s.mem := by
  unfold State.dieReset
  extract_lets r s1 s2
  have e1 : s1.mem = s.mem := by simp [s1, State.dieOut, State.beginReset_mem]; split <;> simp [State.dieGone_mem, State.proposeDies_mem]
  have e2 : s2.mem = s.mem := (mem_foldl _ _ _ (fun a x => State.dropPortRings_mem _ _)).trans e1
  clear_value s2
  simp [e2]
@[simp] theorem State.portReset_mem (s : Sys2Proof.Machine.State) (isPeer : Bool) (port : Nat) : (Sys2Proof.Machine.State.portReset s isPeer port).mem = s.mem := by
  unfold State.portReset
  repeat' first | with_reducible rfl | split | simp
@[simp] theorem State.warmReset_mem (s : State) : s.warmReset.mem = s.mem := by
  unfold State.warmReset
  extract_lets until_ g r srcF s0 s1 s2 s3 s4 s5 s6
  have e1 : s1.mem = s.mem := (State.beginReset_mem _ _).trans ((State.emits_mem _ _).trans (State.dropSnaps_mem _))
  have e2 : s2.mem = s.mem := by
    refine (mem_foldl _ _ _ (fun a x => ?_)).trans ((State.abortPend_mem _ _).trans e1)
    split <;> simp
  clear_value s2
  have e3 : s3.mem = s.mem := (mem_foldl _ _ _ (fun a x => State.abortRec_mem _ _)).trans e2
  clear_value s3
  have e4 : s4.mem = s.mem := (mem_foldl _ _ _ (fun a x => (State.dropCore_mem _ _).trans (State.dropAgents_mem _ _ _))).trans e3
  clear_value s4
  have e5 : s5.mem = s.mem := (mem_foldl _ _ _ (fun a x => (State.authStart_mem _ _).trans (State.peerDrop_mem _ _ _))).trans e4
  clear_value s5
  have e6 : s6.mem = s.mem := (State.dropObjs_mem _ _).trans e5
  clear_value s6
  exact (State.restored_mem _ _ _ _ _).trans e6
@[simp] theorem State.warmDone_mem (s : State) (since : Nat) : (State.warmDone s since).mem = s.mem := by simp [State.warmDone]
@[simp] theorem State.debugStart_mem (s : State) : (State.debugStart s).mem = s.mem := by
  unfold State.debugStart
  repeat' first | with_reducible rfl | refine (mem_foldl _ _ _ (fun _ _ => ?_)).trans ?_ | split | simp
@[simp] theorem State.stateRefused_mem (s : State) : (State.stateRefused s).2.mem = s.mem := by simp [State.stateRefused]
@[simp] theorem State.powerD0Op_mem (s : State) : (State.powerD0Op s).2.mem = s.mem := by
  unfold State.powerD0Op
  repeat' split
  all_goals simp
@[simp] theorem State.powerD1Op_mem (s : State) : (State.powerD1Op s).2.mem = s.mem := by
  unfold State.powerD1Op
  repeat' split
  all_goals simp
@[simp] theorem State.powerD2Op_mem (s : State) (mask : Nat) : (s.powerD2Op mask).2.mem = s.mem := by
  unfold State.powerD2Op
  extract_lets bad out s1 s2
  have e1 : s1.mem = s.mem := mem_foldl _ _ _ (fun a x => State.dieGone_mem _ _ _)
  have e2 : s2.mem = s.mem := by
    simp only [s2]
    split
    · exact e1
    · exact (State.proposeDies_mem _).trans e1
  clear_value s2 bad
  repeat' split
  all_goals first | rfl | exact State.stateRefused_mem _ | exact e2
@[simp] theorem State.powerD3Op_mem (s : State) : (State.powerD3Op s).2.mem = s.mem := by
  unfold State.powerD3Op
  repeat' first | with_reducible rfl | split | simp
@[simp] theorem State.powerOp_mem (s : State) (v : Nat) : (State.powerOp s v).2.mem = s.mem := by
  unfold State.powerOp
  repeat' split
  all_goals simp
@[simp] theorem State.dieOff_mem (s : State) (d : Nat) : (s.dieOff d).mem = s.mem := by
  unfold State.dieOff
  extract_lets r s1 s2
  have e1 : s1.mem = s.mem := mem_foldl _ _ _ (fun a x => State.dropPortRings_mem _ _)
  have e2 : s2.mem = s.mem := (State.dropCore_mem _ _).trans ((State.restored_mem _ _ _ _ _).trans ((State.dropScope_mem _ _ _).trans e1))
  clear_value s2
  exact e2
@[simp] theorem State.dieOn_mem (s : State) (d : Nat) : (s.dieOn d).mem = s.mem := by
  unfold State.dieOn
  exact State.dieBack_mem _ _
@[simp] theorem State.transEnd_mem (s : Sys2Proof.Machine.State) : (Sys2Proof.Machine.State.transEnd s).mem = s.mem := by
  unfold State.transEnd
  split
  · rfl
  split
  · rfl
  · extract_lets back s1 src s2
    have e1 : s1.mem = s.mem := mem_foldl _ _ _ (fun a x => State.dieOff_mem _ _)
    clear_value s1
    have e2 : s2.mem = s.mem := (mem_foldl _ _ _ (fun a x => State.dieOn_mem _ _)).trans e1
    clear_value s2
    exact e2
  · split
    · rfl
    extract_lets s1 s2 s3
    have e1 : s1.mem = s.mem := mem_foldl _ _ _ (fun a x => State.dieGone_mem _ _ _)
    clear_value s1
    have e2 : s2.mem = s.mem := (mem_foldl _ _ _ (fun a x => State.dieOff_mem _ _)).trans e1
    clear_value s2
    have e3 : s3.mem = s.mem := (State.dropObjs_mem _ _).trans e2
    clear_value s3
    refine (State.restored_mem _ _ _ _ _).trans ?_
    exact e3
  · extract_lets lanes src s0 s1
    have e1 : s1.mem = s.mem := (mem_foldl _ _ _ (fun a x => State.dieOn_mem _ _)).trans rfl
    clear_value s1
    split
    · exact e1
    · exact e1
@[simp] theorem State.monClear_mem (s : State) (m : Nat) : (State.monClear s m).mem = s.mem := by simp [State.monClear]
@[simp] theorem State.fwStageOp_mem (s : State) (b : Bytes) : (State.fwStageOp s b).2.mem = s.mem := by unfold State.fwStageOp; split <;> simp
@[simp] theorem State.fwCommitOp_mem (s : State) : (State.fwCommitOp s).2.mem = s.mem := by unfold State.fwCommitOp; split <;> simp
@[simp] theorem State.mgmtAddrOp_mem (s : State) (sub : Nat) (b : Bytes) : (State.mgmtAddrOp s sub b).2.mem = s.mem := by
  unfold State.mgmtAddrOp
  repeat' first | with_reducible rfl | refine (mem_foldl _ _ _ (fun _ _ => ?_)).trans ?_ | split | simp
@[simp] theorem State.storeOp_mem (s : State) (r : ORow) (idx : Nat) (sub : Nat) (v : Nat) : (State.storeOp s r idx sub v).2.mem = s.mem := by simp [State.storeOp]
@[simp] theorem State.storeIf_mem (s : State) (ok : Bool) (r : ORow) (idx : Nat) (sub : Nat) (v : Nat) : (State.storeIf s ok r idx sub v).2.mem = s.mem := by unfold State.storeIf; split <;> simp
@[simp] theorem State.writeA_mem (s : State) (r : ORow) (idx : Nat) (sub : Nat) (v : Nat) (val : Bytes) : (State.writeA s r idx sub v val).2.mem = s.mem := by unfold State.writeA; split <;> simp
@[simp] theorem State.writeB_mem (s : State) (r : ORow) (idx sub v : Nat) (val : Bytes) : (s.writeB r idx sub v val).2.mem = s.mem := by
  unfold State.writeB
  refine mem_ite2 (mem_ite2 (State.flexEnableOp_mem _ _) (State.flexDisableOp_mem _ _)) (mem_ite2
    (mem_ite2 (State.peerEnableOp_mem _ _) (State.peerDisableOp_mem _ _)) (mem_ite2 (State.storeOp_mem _ _ _ _ _)
    (mem_ite2 ((State.notePaths_mem _).trans (State.storeOp_mem _ _ _ _ _)) (mem_ite2 (mem_ite2 (State.ldEnableOp_mem _ _ _) (State.ldDisableOp_mem _ _ _)) ?_))))
  split
  · exact State.mgmtAddrOp_mem _ _ _
  · exact State.mgmtAddrOp_mem _ _ _
  · exact mem_ite2 (State.tenantEnableOp_mem _ _) (State.tenantDisableOp_mem _ _)
  · exact mem_ite2 (State.flag_mem _ _ _ _) (State.storeOp_mem _ _ _ _ _)
  · exact State.tenantRemoveOp_mem _ _
  · exact State.shapeOp_mem _ _ _ _
  · exact State.storeIf_mem _ _ _ _ _ _
  · exact State.allocOp_mem _ _
  · exact State.revokeOp_mem _ _
  · exact State.repairOp_mem _ _
  · exact State.viewRestoreOp_mem _ _
  · exact State.storeOp_mem _ _ _ _ _
@[simp] theorem State.writeC_mem (s : State) (c : WCtx) (r : ORow) (idx : Nat) (sub : Nat) (v : Nat) (val : Bytes) : (State.writeC s c r idx sub v val).2.mem = s.mem := by
  unfold State.writeC
  repeat' first | with_reducible rfl | split | simp
@[simp] theorem State.ignoreWrite_mem (s : State) (idx : Nat) (sub : Nat) : (State.ignoreWrite s idx sub).mem = s.mem := by simp [State.ignoreWrite]
@[simp] theorem State.touchFor_mem (s : State) (idx : Nat) (sub : Nat) : (State.touchFor s idx sub).mem = s.mem := by
  unfold State.touchFor
  repeat' split
  all_goals simp
@[simp] theorem State.keep_mem (s : State) (sid : Nat) (reqId : Nat) (ty : Nat) (body : Bytes) : (State.keep s sid reqId ty body).mem = s.mem := by unfold State.keep; split <;> simp
theorem State.request_mem (s : State) (sid reqId ty : Nat) (claimMay : Bool) (op : State → Bytes × State) (h : ∀ u, (op u).2.mem = u.mem) :
    (s.request sid reqId ty claimMay op).mem = s.mem := by
  unfold State.request
  split
  · rfl
  · dsimp only
    split
    · simp
    · repeat' split
      all_goals simp [h]
@[simp] theorem State.setStage_mem (s : State) (sid : Nat) (key : Nat) (prop : Bool) (b : Bytes) : (State.setStage s sid key prop b).mem = s.mem := by simp [State.setStage]
@[simp] theorem State.takePiece_mem (s : State) (sid : Nat) (key : Nat) (prop : Bool) (final : Bool) (off : Nat) (val : Bytes) : (State.takePiece s sid key prop final off val).2.mem = s.mem := by
  unfold State.takePiece
  repeat' first | with_reducible rfl | split | simp
theorem State.takePiece_of_mem {s t : State} {sid key : Nat} {isProp final : Bool} {off : Nat} {val : Bytes} {o : Option (Option Bytes)}
    (h : s.takePiece sid key isProp final off val = (o, t)) : t.mem = s.mem := by
  have := congrArg (fun z => z.2.mem) h
  simpa using this.symm
@[simp] theorem State.noteTo_mem (s : State) (sid : Nat) (code : Nat) (f : Bytes) : (State.noteTo s sid code f).mem = s.mem := by
  unfold State.noteTo
  repeat' first | with_reducible rfl | split | simp
@[simp] theorem State.openSess_mem (s : State) (port : Nat) (conf : Bool) (slot : Nat) (der : Bytes) (claim : Bool) : (State.openSess s port conf slot der claim).mem = s.mem := by
  unfold State.openSess
  repeat' first | with_reducible rfl | split | simp
@[simp] theorem State.handshake_mem (s : Sys2Proof.Machine.State) (port : Nat) (conf : Bool) (c : Sys2Proof.ClientCert) : (Sys2Proof.Machine.State.handshake s port conf c).mem = s.mem := by
  unfold State.handshake
  repeat' first
    | with_reducible rfl
    | refine (mem_foldl _ _ _ (fun _ _ => ?_)).trans ?_
    | refine (mem_fold1 _ _ _ (fun _ _ => ?_)).trans ?_
    | refine (mem_fold2 _ _ _ (fun _ _ => ?_)).trans ?_
    | split
    | simp
    | rfl
@[simp] theorem State.issue_mem (s : State) (idx : Nat) (sub : Nat) (all : Bool) (val : Bytes) : (State.issue s idx sub all val).2.2.mem = s.mem := by
  unfold State.issue
  repeat' split
  all_goals simp
@[simp] theorem State.proposeOp_mem (s : State) (sid idx sub flags off : Nat) (val : Bytes) : (s.proposeOp sid idx sub flags off val).2.mem = s.mem := by
  unfold State.proposeOp
  extract_lets ans early
  clear_value early
  split
  · rfl
  · split
    · simp
    · split
      · rename_i h; exact State.takePiece_of_mem h
      · rename_i h; exact State.takePiece_of_mem h
      · rename_i h
        exact (State.issue_mem _ _ _ _ _).trans (State.takePiece_of_mem h)
@[simp] theorem State.readWordOp_mem (s : State) (who : Nat) (idx : Nat) (sub : Nat) (off : Nat) (w : Nat) : (State.readWordOp s who idx sub off w).2.2.mem = s.mem := by
  unfold State.readWordOp
  repeat' first | with_reducible rfl | split | simp
@[simp] theorem State.setMask_mem (s : State) (sid : Nat) (mask : Nat) : (State.setMask s sid mask).mem = s.mem := by unfold State.setMask; split <;> simp
@[simp] theorem State.sendDropped_mem (s : State) (sid : Nat) (x : Sess) : (State.sendDropped s sid x).mem = s.mem := by simp [State.sendDropped]
@[simp] theorem State.relayAsk_mem (s : State) (sid : Nat) (reqId : Nat) (ty : Nat) (target : Nat) (e : GetEntry) : (State.relayAsk s sid reqId ty target e).mem = s.mem := by
  unfold State.relayAsk
  repeat' split
  all_goals simp
@[simp] theorem State.relayServe_mem (s : State) (dev : Nat) (origin : Nat) (digest : Bytes) (e : GetEntry) (word : Nat) : (State.relayServe s dev origin digest e word).mem = s.mem := by unfold State.relayServe; split <;> simp
@[simp] theorem State.relayEnd_mem (s : State) (y : Relay) (rc : Nat) (len : Nat) (words : List Nat) : (State.relayEnd s y rc len words).mem = s.mem := by simp [State.relayEnd]
@[simp] theorem State.syncSent_mem (s : Sys2Proof.Machine.State) (q : Nat) (f : Sys2Proof.Flit) : (Sys2Proof.Machine.State.syncSent s q f).mem = s.mem := by
  unfold State.syncSent
  repeat' first
    | with_reducible rfl
    | refine (mem_foldl _ _ _ (fun _ _ => ?_)).trans ?_
    | refine (mem_fold1 _ _ _ (fun _ _ => ?_)).trans ?_
    | refine (mem_fold2 _ _ _ (fun _ _ => ?_)).trans ?_
    | split
    | simp
    | rfl
@[simp] theorem State.syncReplayed_mem (s : Sys2Proof.Machine.State) (q : Nat) (f : Sys2Proof.Flit) : (Sys2Proof.Machine.State.syncReplayed s q f).mem = s.mem := by
  unfold State.syncReplayed
  repeat' first
    | with_reducible rfl
    | refine (mem_foldl _ _ _ (fun _ _ => ?_)).trans ?_
    | refine (mem_fold1 _ _ _ (fun _ _ => ?_)).trans ?_
    | refine (mem_fold2 _ _ _ (fun _ _ => ?_)).trans ?_
    | split
    | simp
    | rfl
@[simp] theorem State.storeCell_mem (s : Sys2Proof.Machine.State) (d : Nat) (c : Sys2Proof.Machine.Cell) (r : Bool × Option Nat) (checked : Bool) : (Sys2Proof.Machine.State.storeCell s d c r checked).mem = s.mem := by
  unfold State.storeCell
  repeat' first
    | with_reducible rfl
    | refine (mem_foldl _ _ _ (fun _ _ => ?_)).trans ?_
    | refine (mem_fold1 _ _ _ (fun _ _ => ?_)).trans ?_
    | refine (mem_fold2 _ _ _ (fun _ _ => ?_)).trans ?_
    | split
    | simp
    | rfl
@[simp] theorem State.releaseTc0_mem (s : Sys2Proof.Machine.State) (d : Nat) : (Sys2Proof.Machine.State.releaseTc0 s d).mem = s.mem := by
  unfold State.releaseTc0
  repeat' first
    | with_reducible rfl
    | refine (mem_foldl _ _ _ (fun _ _ => ?_)).trans ?_
    | refine (mem_fold1 _ _ _ (fun _ _ => ?_)).trans ?_
    | refine (mem_fold2 _ _ _ (fun _ _ => ?_)).trans ?_
    | split
    | simp
    | rfl
@[simp] theorem State.admitCell_mem (s : Sys2Proof.Machine.State) (d : Nat) (c : Sys2Proof.Machine.Cell) : (Sys2Proof.Machine.State.admitCell s d c).mem = s.mem := by
  unfold State.admitCell
  repeat' first
    | with_reducible rfl
    | refine (mem_foldl _ _ _ (fun _ _ => ?_)).trans ?_
    | refine (mem_fold1 _ _ _ (fun _ _ => ?_)).trans ?_
    | refine (mem_fold2 _ _ _ (fun _ _ => ?_)).trans ?_
    | split
    | simp
    | rfl
@[simp] theorem State.linkAdmit_mem (s : Sys2Proof.Machine.State) (d : Nat) (x : Nat) (e : Nat) (pkt : Sys2Proof.Packet) (outPort : Nat) : (Sys2Proof.Machine.State.linkAdmit s d x e pkt outPort).mem = s.mem := by
  unfold State.linkAdmit
  repeat' first
    | with_reducible rfl
    | refine (mem_foldl _ _ _ (fun _ _ => ?_)).trans ?_
    | refine (mem_fold1 _ _ _ (fun _ _ => ?_)).trans ?_
    | refine (mem_fold2 _ _ _ (fun _ _ => ?_)).trans ?_
    | split
    | simp
    | rfl
@[simp] theorem State.refuseCell_mem (s : Sys2Proof.Machine.State) (d : Nat) (x : Nat) (pkt : Sys2Proof.Packet) : (Sys2Proof.Machine.State.refuseCell s d x pkt).mem = s.mem := by
  unfold State.refuseCell
  repeat' first
    | with_reducible rfl
    | refine (mem_foldl _ _ _ (fun _ _ => ?_)).trans ?_
    | refine (mem_fold1 _ _ _ (fun _ _ => ?_)).trans ?_
    | refine (mem_fold2 _ _ _ (fun _ _ => ?_)).trans ?_
    | split
    | simp
    | rfl
@[simp] theorem State.homeAdmit_mem (s : Sys2Proof.Machine.State) (d : Nat) (x : Nat) (pkt : Sys2Proof.Packet) (outPort : Nat) : (Sys2Proof.Machine.State.homeAdmit s d x pkt outPort).mem = s.mem := by
  unfold State.homeAdmit
  repeat' first
    | with_reducible rfl
    | refine (mem_foldl _ _ _ (fun _ _ => ?_)).trans ?_
    | refine (mem_fold1 _ _ _ (fun _ _ => ?_)).trans ?_
    | refine (mem_fold2 _ _ _ (fun _ _ => ?_)).trans ?_
    | split
    | simp
    | rfl
@[simp] theorem State.awayAdmit_mem (s : Sys2Proof.Machine.State) (d : Nat) (x : Nat) (pkt : Sys2Proof.Packet) : (Sys2Proof.Machine.State.awayAdmit s d x pkt).mem = s.mem := by
  unfold State.awayAdmit
  repeat' split
  all_goals first | with_reducible rfl | (rename_i h; simp [State.routeFlow_of_mem h]; done) | (rename_i h _; simp [State.routeFlow_of_mem h]; done) | (simp; done)
@[simp] theorem State.tdispSay_mem (s : State) (p : Nat) (l : Nat) (msg : Nat) (data : Bytes) : (State.tdispSay s p l msg data).mem = s.mem := by unfold State.tdispSay; split <;> simp
@[simp] theorem State.tdispErr_mem (s : State) (p : Nat) (l : Nat) (code : Nat) : (State.tdispErr s p l code).mem = s.mem := by simp [State.tdispErr]
@[simp] theorem State.snapTake_mem (s : State) (sid : Nat) (t : Nat) (clear : Bool) : (State.snapTake s sid t clear).2.mem = s.mem := by
  unfold State.snapTake
  repeat' split
  all_goals simp
@[simp] theorem State.snapRead_mem (s : State) (id : Nat) (l : List GetEntry) : (State.snapRead s id l).2.mem = s.mem := by simp [State.snapRead]
@[simp] theorem State.snapCancel_mem (s : State) (id : Nat) : (State.snapCancel s id).2.mem = s.mem := by unfold State.snapCancel; split <;> simp
@[simp] theorem State.clearMons_mem (s : State) : (State.clearMons s).mem = s.mem := by simp [State.clearMons]
@[simp] theorem State.replaceOld_mem (s : State) : (State.replaceOld s).mem = s.mem := by
  unfold State.replaceOld
  repeat' first | with_reducible rfl | split | simp
@[simp] theorem State.snapEdge_mem (s0 : State) (x : Snap) : (State.snapEdge s0 x).mem = s0.mem := by
  unfold State.snapEdge
  repeat' first | with_reducible rfl | refine (mem_foldl _ _ _ (fun _ _ => ?_)).trans ?_ | split | simp
@[simp] theorem State.tick_mem (s : State) : (State.tick s).mem = s.mem := by simp [State.tick]

end Sys2Proof.Machine
end

