-- ==== Sys2Proof/Laws/Memory.lean ====
section
/-! SUPPORT. Data-class memory: the canonical form, what a byte reads after a store, and the operations that change memory. -/

set_option maxRecDepth 8000
set_option linter.all false

namespace Sys2Proof.Machine

open Sys2Proof

/-! ### Lists in canonical form -/

/-- The head of a canonical memory is no zero entry, and the rest is canonical. -/
theorem Memory.wf_cons {c : Host.Cell} {t : List Host.Cell} (h : Memory.wf (c :: t) = true) : c.2 ≠ 0 ∧ Memory.wf t = true := by
  cases t <;> simp_all [Memory.wf]

/-- Every later address of a canonical memory is above the head's. -/
theorem Memory.wf_lt {c : Host.Cell} {t : List Host.Cell} (h : Memory.wf (c :: t) = true) : ∀ d ∈ t, c.1 < d.1 := by
  induction t generalizing c with
  | nil => simp
  | cons x t ih =>
    intro d hd
    have h1 : c.1 < x.1 ∧ Memory.wf (x :: t) = true := by simp_all [Memory.wf]
    rcases List.mem_cons.mp hd with rfl | hd
    · exact h1.1
    · exact Nat.lt_trans h1.1 (ih h1.2 d hd)

/-- A cell before a canonical memory whose addresses are all above it. -/
theorem Memory.wf_of_cons {c : Host.Cell} {t : List Host.Cell} (hc : c.2 ≠ 0) (ht : Memory.wf t = true) (hl : ∀ d ∈ t, c.1 < d.1) :
    Memory.wf (c :: t) = true := by
  have hb : (c.2 != 0) = true := bne_iff_ne.mpr hc
  cases t with
  | nil => exact hb
  | cons x t => simp only [Memory.wf, hb, ht, hl x (by simp), decide_true, Bool.and_self]

/-- Leaving cells out keeps the form. -/
theorem Memory.wf_filter (m : List Host.Cell) (f : Host.Cell → Bool) (h : Memory.wf m = true) : Memory.wf (m.filter f) = true := by
  induction m with
  | nil => rfl
  | cons c t ih =>
    have h1 := Memory.wf_cons h
    rw [List.filter_cons]
    split
    · exact Memory.wf_of_cons h1.1 (ih h1.2) (fun d hd => Memory.wf_lt h d ((List.mem_filter.mp hd).1))
    · exact ih h1.2

/-- A put's cells are the old ones, or the new one. -/
theorem memPut_mem {m : List Host.Cell} {a : Nat} {v : Byte} {d : Host.Cell} (h : d ∈ memPut m a v) : d ∈ m ∨ d = (a, v) := by
  induction m with
  | nil =>
    simp only [memPut] at h
    split at h
    · exact .inl h
    · exact .inr (List.mem_singleton.mp h)
  | cons c t ih =>
    obtain ⟨b, w⟩ := c
    simp only [memPut] at h
    split at h
    · split at h
      · exact .inl h
      · rcases List.mem_cons.mp h with h | h
        · exact .inr h
        · exact .inl h
    · split at h
      · split at h
        · exact .inl (List.mem_cons_of_mem _ h)
        · rcases List.mem_cons.mp h with h | h
          · exact .inr h
          · exact .inl (List.mem_cons_of_mem _ h)
      · rcases List.mem_cons.mp h with h | h
        · exact .inl (by simp [h])
        · rcases ih h with h | h
          · exact .inl (List.mem_cons_of_mem _ h)
          · exact .inr h

/-- One byte stored keeps the form. -/
theorem memPut_wf (m : List Host.Cell) (a : Nat) (v : Byte) (h : Memory.wf m = true) : Memory.wf (memPut m a v) = true := by
  induction m with
  | nil =>
    simp only [memPut]
    split
    · rfl
    · simp_all [Memory.wf]
  | cons c t ih =>
    obtain ⟨b, w⟩ := c
    have h1 := Memory.wf_cons h
    have h2 := Memory.wf_lt h
    simp only [memPut]
    split
    · split
      · exact h
      · refine Memory.wf_of_cons (by assumption) h ?_
        intro d hd
        rcases List.mem_cons.mp hd with rfl | hd
        · assumption
        · exact Nat.lt_trans (by assumption) (h2 d hd)
    · split
      · rename_i hab
        split
        · exact h1.2
        · exact Memory.wf_of_cons (by assumption) h1.2 (fun d hd => by have := h2 d hd; simp_all)
      · refine Memory.wf_of_cons h1.1 (ih h1.2) (fun d hd => ?_)
        rcases memPut_mem hd with hd | rfl
        · exact h2 d hd
        · simp only; omega

/-- A store keeps the form. -/
theorem memWrite_wf (m : List Host.Cell) (a : Nat) (d : Bytes) (h : Memory.wf m = true) : Memory.wf (memWrite m a d) = true := by
  induction d generalizing m a with
  | nil => exact h
  | cons b t ih => exact ih _ _ (memPut_wf m a b h)

/-- Clearing a range keeps the form. -/
theorem memClear_wf (m : List Host.Cell) (a n : Nat) (h : Memory.wf m = true) : Memory.wf (memClear m a n) = true := Memory.wf_filter m _ h

/-- An address below every cell of a canonical memory reads zero. -/
theorem memByte_low {m : List Host.Cell} {a : Nat} (h : ∀ d ∈ m, a < d.1) : memByte m a = 0 := by
  induction m with
  | nil => rfl
  | cons c t ih =>
    have := h c (by simp)
    simp only [memByte]
    rw [if_neg (by omega)]
    exact ih (fun d hd => h d (by simp [hd]))

/-- A byte stored reads back, and every other address reads as before. -/
theorem memByte_put (m : List Host.Cell) (a : Nat) (v : Byte) (x : Nat) (h : Memory.wf m = true) :
    memByte (memPut m a v) x = if x = a then v else memByte m x := by
  induction m with
  | nil =>
    simp only [memPut]
    split
    · simp_all [memByte]
    · simp only [memByte]
      by_cases hx : x = a
      · rw [if_pos hx.symm, if_pos hx]
      · rw [if_neg (fun e => hx e.symm), if_neg hx]
  | cons c t ih =>
    obtain ⟨b, w⟩ := c
    have h1 := Memory.wf_cons h
    have h2 := Memory.wf_lt h
    simp only [memPut]
    split
    · rename_i hab
      have low : memByte ((b, w) :: t) a = 0 := memByte_low (fun d hd => by
        rcases List.mem_cons.mp hd with rfl | hd
        · exact hab
        · exact Nat.lt_trans hab (h2 d hd))
      split
      · rename_i hv
        by_cases hx : x = a
        · subst hx; rw [low, if_pos rfl, hv]
        · rw [if_neg hx]
      · by_cases hx : x = a
        · subst hx; simp [memByte]
        · rw [if_neg hx, memByte, if_neg (fun e => hx e.symm)]
    · split
      · rename_i hab
        subst hab
        have low : memByte t a = 0 := memByte_low (fun d hd => h2 d hd)
        split
        · rename_i hv
          by_cases hx : x = a
          · subst hx; rw [low, if_pos rfl, hv]
          · rw [if_neg hx, memByte, if_neg (fun e => hx e.symm)]
        · by_cases hx : x = a
          · subst hx; simp [memByte]
          · rw [if_neg hx]; simp [memByte, Ne.symm hx]
      · by_cases hb : b = x
        · subst hb; simp only [memByte, if_true]; rw [if_neg (by omega)]
        · simp only [memByte, hb, if_false]; exact ih h1.2

/-- What a byte reads after a store. -/
theorem memByte_write (m : List Host.Cell) (a : Nat) (d : Bytes) (x : Nat) (h : Memory.wf m = true) :
    memByte (memWrite m a d) x = if a ≤ x ∧ x < a + d.length then d.getD (x - a) 0 else memByte m x := by
  induction d generalizing m a with
  | nil => simp [memWrite] <;> omega
  | cons b t ih =>
    simp only [memWrite]
    rw [ih _ _ (memPut_wf m a b h), memByte_put m a b x h]
    by_cases h1 : a + 1 ≤ x ∧ x < a + 1 + t.length
    · rw [if_pos h1, if_pos (by simp; omega)]
      rw [show x - a = (x - (a + 1)) + 1 by omega, List.getD_cons_succ]
    · rw [if_neg h1]
      by_cases h2 : x = a
      · subst h2; rw [if_pos rfl, if_pos (by simp)]; simp
      · rw [if_neg h2, if_neg (by simp; omega)]

/-! ### Operations that change memory -/

/-- A fold keeps what each step keeps. -/
theorem wf_foldl {α : Type} (f : State → α → State) (l : List α) (s : State) (h : ∀ a x, Memory.wf a.mem = true → Memory.wf (f a x).mem = true)
    (hs : Memory.wf s.mem = true) : Memory.wf (l.foldl f s).mem = true := by
  induction l generalizing s with
  | nil => exact hs
  | cons x t ih => exact ih _ (h _ _ hs)
/-- See `wf_foldl`. -/
theorem wf_fold2 {α β : Type} (f : β × State → α → β × State) (l : List α) (s : β × State)
    (h : ∀ a x, Memory.wf a.2.mem = true → Memory.wf (f a x).2.mem = true) (hs : Memory.wf s.2.mem = true) :
    Memory.wf (l.foldl f s).2.mem = true := by
  induction l generalizing s with
  | nil => exact hs
  | cons x t ih => exact ih _ (h _ _ hs)
theorem State.applyWrite_wf (s : State) (a : Nat) (d : Bytes) (h : Memory.wf s.mem = true) : Memory.wf (s.applyWrite a d).mem = true :=
  memWrite_wf _ _ _ h
theorem State.scrubbed_wf (s : State) (e : Nat) (x : Extent) (h : Memory.wf s.mem = true) : Memory.wf (s.scrubbed e x).mem = true := by
  unfold State.scrubbed; simp [memClear_wf _ _ _ h]
theorem State.scrubMem_wf (s : State) (h : Memory.wf s.mem = true) : Memory.wf s.scrubMem.mem = true := Memory.wf_filter _ _ h
theorem State.darkLoss_wf (s : State) (h : Memory.wf s.mem = true) : Memory.wf s.darkLoss.mem = true := Memory.wf_filter _ _ h
theorem State.porReset_wf (s : State) (mv straps : Nat) (d : Bool) : Memory.wf (s.porReset mv straps d).mem = true := rfl
theorem State.wipe_wf (s : State) (d : Bool) (h : Memory.wf s.mem = true) : Memory.wf (s.wipe d).mem = true := by
  unfold State.wipe
  dsimp only
  split
  · exact State.scrubMem_wf _ (by simp [h])
  · rfl
theorem State.moduleReset_wf (s : State) (h : Memory.wf s.mem = true) : Memory.wf s.moduleReset.mem = true := by
  unfold State.moduleReset
  simp only [State.restored_mem, State.flag_mem, State.repower_mem, State.portsDown_mem]
  exact State.wipe_wf _ _ (by simp [h])
theorem State.modrst_wf (s : State) (h : Memory.wf s.mem = true) : Memory.wf s.modrst.mem = true := by
  unfold State.modrst
  split
  · split <;> exact h
  · split
    · exact h
    · exact State.moduleReset_wf _ h
theorem State.modrstLow_wf (s : State) (ns : Nat) (h : Memory.wf s.mem = true) : Memory.wf (s.modrstLow ns).mem = true := by
  unfold State.modrstLow
  dsimp only
  split
  · exact h
  · exact State.modrst_wf _ (by simp [h])
theorem State.powerOff_wf (s : State) (mv : Nat) : Memory.wf (s.powerOff mv).mem = true := rfl
theorem State.debugFinish_wf (s : State) (h : Memory.wf s.mem = true) : Memory.wf s.debugFinish.mem = true := by
  unfold State.debugFinish
  extract_lets s1 later s2 s3 k cert srcS s4 s5
  have e1 : s1.mem = s.mem := by
    show (match s.fmap.map with | some m => _ | none => _ : State).mem = _
    split
    · split <;> simp
    · rfl
  have e2 : Memory.wf s2.mem = true := State.wipe_wf _ _ (by rw [e1]; exact h)
  clear_value s2
  have e3 : s3.mem = s2.mem := mem_foldl _ _ _ (fun a x => State.setObj_mem _ _ _ _)
  clear_value s3
  have e4 : s4.mem = s2.mem := by
    simp only [s4, State.flag_mem]
    exact e3
  clear_value s4
  have e5 : s5.mem = s2.mem := (State.restored_mem _ _ _ _ _).trans ((mem_foldl _ _ _ (fun a x => State.trayIde_mem _ _)).trans e4)
  clear_value s5
  split
  · exact State.moduleReset_wf _ (by rw [e5]; exact e2)
  · rw [e5]; exact e2
theorem State.resetOp_wf (s : State) (v : Nat) (h : Memory.wf s.mem = true) : Memory.wf (s.resetOp v).2.mem = true := by
  unfold State.resetOp
  extract_lets r die
  clear_value r die
  have key : ∀ {c : Prop} [Decidable c] {a b : Nat × State}, Memory.wf a.2.mem = true → Memory.wf b.2.mem = true →
      Memory.wf (if c then a else b).2.mem = true := by intro c _ a b h1 h2; split <;> assumption
  refine key h (key (by simp [h]) (key h (key h (key h (key (by simp [h]) ?_)))))
  split
  · exact State.moduleReset_wf _ h
  all_goals simp [h]
theorem State.resetEnd_wf (s : State) (r : ResetRun) (h : Memory.wf s.mem = true) : Memory.wf (s.resetEnd r).mem = true := by
  unfold State.resetEnd
  dsimp only
  repeat' split
  all_goals first
    | exact h
    | exact State.debugFinish_wf _ h
    | (simp [h]; done)
theorem State.writeD_wf (s : State) (c : WCtx) (r : ORow) (idx sub v : Nat) (h : Memory.wf s.mem = true) :
    Memory.wf (s.writeD c r idx sub v).2.mem = true := by
  unfold State.writeD
  split
  · simp [h]
  · split
    · dsimp only; split <;> simp [h]
    · split
      all_goals first
        | exact State.resetOp_wf _ _ h
        | (simp [h]; done)
theorem State.writeOp_wf (s : State) (c : WCtx) (r : ORow) (idx sub : Nat) (val : Bytes) (h : Memory.wf s.mem = true) :
    Memory.wf (s.writeOp c r idx sub val).2.mem = true := by
  unfold State.writeOp
  dsimp only
  split
  · simp [h]
  · split
    · simp [h]
    · split
      · simp [h]
      · split
        · simp [h]
        · exact State.writeD_wf _ _ _ _ _ _ h
/-- A write of any object keeps memory canonical. -/
theorem State.writeObj_wf (s : State) (c : WCtx) (idx sub : Nat) (val : Bytes) (h : Memory.wf s.mem = true) :
    Memory.wf (s.writeObj c idx sub val).2.mem = true := by
  unfold State.writeObj
  split
  · exact h
  · exact h
  · exact h
  · split
    · exact h
    · split
      · simp [h]
      · exact State.writeOp_wf _ _ _ _ _ _ (by simp [h])
theorem State.setEntry_wf (s : State) (c : WCtx) (e : SetEntry) (h : Memory.wf s.mem = true) : Memory.wf (s.setEntry c e).2.mem = true := by
  unfold State.setEntry
  repeat' split
  all_goals first
    | exact h
    | exact State.writeObj_wf _ _ _ _ _ h
    | (rename_i hp; rw [State.takePiece_of_mem hp]; exact h)
    | (rename_i hp; exact State.writeObj_wf _ _ _ _ _ (by rw [State.takePiece_of_mem hp]; exact h))
theorem State.setAll_wf (s : State) (c : WCtx) (l : List SetEntry) (h : Memory.wf s.mem = true) : Memory.wf (s.setAll c l).2.mem = true :=
  wf_fold2 _ _ _ (fun _ _ ha => State.setEntry_wf _ _ _ ha) h
theorem State.sessWrite_wf (s : State) (sid idx sub : Nat) (val : Bytes) (h : Memory.wf s.mem = true) :
    Memory.wf (s.sessWrite sid idx sub val).mem = true := by
  unfold State.sessWrite
  split
  · exact h
  · exact State.writeObj_wf _ _ _ _ _ (by simp [h])
theorem State.signOp_wf (s : State) (id slot : Nat) (sig : Bytes) (reply : State → Nat → Nat → Nat → Nat → State)
    (hr : ∀ u a b c d, (reply u a b c d).mem = u.mem) (h : Memory.wf s.mem = true) : Memory.wf (s.signOp id slot sig reply).mem = true := by
  unfold State.signOp
  split
  · rw [hr]; exact h
  · extract_lets rest src s1 c code
    split
    · rw [hr]; exact h
    · exact State.writeObj_wf _ _ _ _ _ (by rw [State.notify_mem, hr]; exact h)
theorem State.signMsg_wf (s : State) (sid reqId nonce slot : Nat) (sig : Bytes) (h : Memory.wf s.mem = true) :
    Memory.wf (s.signMsg sid reqId nonce slot sig).mem = true := by
  unfold State.signMsg
  split
  · exact h
  · dsimp only
    split
    · simp [h]
    · split
      · simp [h]
      · exact State.signOp_wf _ _ _ _ _ (fun _ _ _ _ _ => by simp) h
theorem State.quorumRow_wf (s : State) (sid idx sub : Nat) (okv : Nat → Bool) (q : QSrc) (h : Memory.wf s.mem = true) :
    Memory.wf (s.quorumRow sid idx sub okv q).mem = true := by
  unfold State.quorumRow
  split
  · split
    · exact State.sessWrite_wf _ _ _ _ _ h
    · exact h
  · split
    · exact h
    · dsimp only
      split
      · exact h
      · split
        · simp [h]
        · exact State.signOp_wf _ _ _ _ _ (fun _ _ _ _ _ => by simp) h
theorem State.request_wf (s : State) (sid reqId ty : Nat) (claimMay : Bool) (op : State → Bytes × State)
    (ho : ∀ u, Memory.wf u.mem = true → Memory.wf (op u).2.mem = true) (h : Memory.wf s.mem = true) :
    Memory.wf (s.request sid reqId ty claimMay op).mem = true := by
  unfold State.request
  split
  · exact h
  · dsimp only
    split
    · simp [h]
    · split
      · simp [h]
      · exact ho _ (by simp [h])
theorem State.atomicAt_wf (s : State) (r : AtomReq) (a : Nat) (h : Memory.wf s.mem = true) : Memory.wf (s.atomicAt r a).mem = true := by
  unfold State.atomicAt
  split
  · simp [h]
  · simp [State.applyWrite_wf _ _ _ h]
theorem State.perform_wf (s : State) (w : WrOut) (h : Memory.wf s.mem = true) : Memory.wf (s.perform w).mem = true := by
  unfold State.perform
  split
  · exact h
  · exact State.atomicAt_wf _ _ _ h
  · split
    · split <;> simp [h]
    · exact State.applyWrite_wf _ _ _ h
theorem State.gradWrite_wf (s : State) (ref p l n dpa : Nat) (b : Bytes) (h : Memory.wf s.mem = true) :
    Memory.wf (s.gradWrite ref p l n dpa b).1.mem = true := by
  induction n generalizing s dpa b with
  | zero => exact h
  | succ n ih =>
    unfold State.gradWrite
    split
    · exact h
    · dsimp only
      split
      · exact ih _ _ _ (State.applyWrite_wf _ _ _ h)
      · exact ih _ _ _ (by simp [h])
      · exact ih _ _ _ h
      · exact h
theorem State.bwdItemRun_wf (s : State) (ref : Nat) (c : Cmd) (all : List BwdItem) (i : Nat) (y : BwdItem) (h : Memory.wf s.mem = true) :
    Memory.wf (s.bwdItemRun ref c all i y).2.mem = true := by
  unfold State.bwdItemRun
  extract_lets a rows w s1
  have ew : Memory.wf w.1.mem = true := State.gradWrite_wf _ _ _ _ _ _ _ h
  have e1 : s1.mem = w.1.mem := mem_ite (s := w.1) (State.flag_mem _ _ _ _) rfl
  clear_value s1
  split
  · simp [e1, ew]
  · simp [e1, ew]
theorem State.bwdStart_wf (s : State) (ref : Nat) (h : Memory.wf s.mem = true) : Memory.wf (s.bwdStart ref).mem = true := by
  unfold State.bwdStart
  split
  · exact h
  · extract_lets n s0 loc r
    have el : loc.2.mem = s.mem := (mem_fold2 _ _ _ (fun a x => by dsimp only; split; exact State.bwdLocate_mem _ _ _ _; rfl)).trans (State.modCmd_mem _ _ _)
    clear_value loc
    have er : Memory.wf r.2.mem = true := wf_fold2 _ _ _ (fun _ _ ha => State.bwdItemRun_wf _ _ _ _ _ _ ha) (by rw [el]; exact h)
    clear_value r
    split
    · simp [er]
    · exact er
/-- The stages of any recipe keep memory canonical. -/
theorem recipeRun_start_wf (b : Nat) (s : State) (c : Ctx) (h : Memory.wf s.mem = true) : Memory.wf ((recipeRun b).start s c).mem = true := by
  unfold recipeRun
  split
  all_goals first
    | exact State.bwdStart_wf _ _ h
    | (simp [h]; done)
theorem State.startOrdered_wf (s : State) (ref : Nat) (h : Memory.wf s.mem = true) : Memory.wf (s.startOrdered ref).mem = true := by
  unfold State.startOrdered
  split
  · exact h
  · split
    · split
      · exact recipeRun_start_wf _ _ _ (by simp [h])
      · exact h
    · exact h
theorem State.settleOrdered_wf (s : State) (h : Memory.wf s.mem = true) : Memory.wf s.settleOrdered.mem = true :=
  wf_foldl _ _ _ (fun _ _ ha => State.startOrdered_wf _ _ ha) h
theorem State.ingest_wf (s : State) (p l r : Nat) (mine : Nat → Bool) (run : Recipe.Run) (ha : ∀ u c, (run.atAdmit u c).mem = u.mem)
    (hs : ∀ u c, Memory.wf u.mem = true → Memory.wf (run.start u c).mem = true) (h : Memory.wf s.mem = true) :
    Memory.wf (s.ingest p l r mine run).mem = true := by
  unfold State.ingest
  split
  · exact h
  · rename_i s0 h0
    have h1 := State.turn_mem h0
    dsimp only
    split
    · exact h
    · simp [h1, h]
    · split
      · exact h
      · split
        · exact h
        · split
          · exact h
          · split
            · rename_i h2
              have h3 := congrArg (fun z => z.2.mem) h2
              simp at h3
              simp [← h3, h1, h]
            · rename_i h2
              have h3 := congrArg (fun z => z.2.mem) h2
              simp at h3
              split
              · simp [← h3, h1, h]
              · split
                · simp [ha, ← h3, h1, h]
                · exact hs _ _ (by simp [ha, ← h3, h1, h])

end Sys2Proof.Machine
end

