-- ==== Sys2Proof/Laws/CommandsMem.lean ====
section
/-! SUPPORT. The commands that leave data-class memory as it is, and that the others keep its canonical form: one lemma per command. -/

set_option maxRecDepth 8000
set_option linter.all false

namespace Sys2Proof.Machine

open Sys2Proof

theorem State.receive_mem {s t : State} {k : List Nat} {a o : Nat} {m : CohMsg} (h : s.receive k a o = some (m, t)) : t.mem = s.mem := by
  unfold State.receive at h
  repeat' split at h
  all_goals simp at h
  all_goals (obtain ⟨-, rfl⟩ := h; rfl)
theorem State.routeFlow_mem {s t : State} {d x : Nat} {k : Packet} {q : Option Nat} (h : s.routeFlow d x k = some (q, t)) : t.mem = s.mem := by
  unfold State.routeFlow at h
  split at h
  · simp at h
  · dsimp only at h
    repeat' split at h
    all_goals simp only [Option.some.injEq, Prod.mk.injEq] at h
    all_goals (obtain ⟨-, rfl⟩ := h; first | rfl | exact State.setCore_mem _ _ _)
theorem execStartupPhase_mem {selfTestOk : Bool} {s : State} {s1 : State} (h : execStartupPhase selfTestOk s = .next s1) : s1.mem = s.mem := by
  unfold execStartupPhase at h
  cases h
  simp
theorem execUnderVoltageWarning_mem {mv : Nat} {s : State} {s1 : State} (h : execUnderVoltageWarning mv s = .next s1) : s1.mem = s.mem := by
  unfold execUnderVoltageWarning at h
  repeat' split at h
  all_goals (cases h; simp)
theorem execArbiterEpoch_mem {inp : ArbInput} {s : State} {s1 : State} (h : execArbiterEpoch inp s = .next s1) : s1.mem = s.mem := by
  unfold execArbiterEpoch at h
  cases h
  simp
theorem execEnGrantSpent_mem {g : Sys2Proof.SpentGrant} {s : Sys2Proof.Machine.State} {s1 : State} (h : execEnGrantSpent g s = .next s1) : s1.mem = s.mem := by
  unfold execEnGrantSpent at h
  (try dsimp only at h)
  repeat' split at h
  all_goals (simp only [Host.Outcome.next.injEq] at h; subst h)
  all_goals repeat' first
    | with_reducible rfl
    | (simp; done)
    | (refine (mem_foldl _ _ _ (fun a x => ?_)).trans ?_)
    | (refine (mem_fold1 _ _ _ (fun a x => ?_)).trans ?_)
    | (refine (mem_fold2 _ _ _ (fun a x => ?_)).trans ?_)
    | (refine State.ingest_mem _ _ _ _ _ _ (fun u c => ?_) (fun u c => ?_))
    | (refine State.sessionWrite_mem _ _ _ _ _ _ (fun u => ?_))
    | (refine State.request_mem _ _ _ _ _ _ (fun u => ?_))
    | split
    | simp [*]
theorem execSwGrantSpent_mem {d : Nat} {s : State} {s1 : State} (h : execSwGrantSpent d s = .next s1) : s1.mem = s.mem := by
  unfold execSwGrantSpent at h
  repeat' split at h
  all_goals (cases h; simp)
theorem execLinkWiden_mem {isPeer : Bool} {port : Nat} {s : State} {s1 : State} (h : execLinkWiden isPeer port s = .next s1) : s1.mem = s.mem := by
  unfold execLinkWiden at h
  repeat' split at h
  all_goals (cases h; simp)
theorem execThermalDerate_mem {temp : Nat} {s : State} {s1 : State} (h : execThermalDerate temp s = .next s1) : s1.mem = s.mem := by
  unfold execThermalDerate at h
  cases h
  simp
theorem execRefclkLoss_mem {clk : Nat} {s : State} {s1 : State} (h : execRefclkLoss clk s = .next s1) : s1.mem = s.mem := by
  unfold execRefclkLoss at h
  (try dsimp only at h)
  repeat' split at h
  all_goals (simp only [Host.Outcome.next.injEq] at h; subst h)
  all_goals repeat' first
    | with_reducible rfl
    | (simp; done)
    | (refine (mem_foldl _ _ _ (fun a x => ?_)).trans ?_)
    | (refine (mem_fold1 _ _ _ (fun a x => ?_)).trans ?_)
    | (refine (mem_fold2 _ _ _ (fun a x => ?_)).trans ?_)
    | (refine State.ingest_mem _ _ _ _ _ _ (fun u c => ?_) (fun u c => ?_))
    | (refine State.sessionWrite_mem _ _ _ _ _ _ (fun u => ?_))
    | (refine State.request_mem _ _ _ _ _ _ (fun u => ?_))
    | split
    | simp [*]
theorem execFlexPortEnable_mem {sid : Nat} {p : Nat} {s : State} {s1 : State} (h : execFlexPortEnable sid p s = .next s1) : s1.mem = s.mem := by
  unfold execFlexPortEnable at h
  (try dsimp only at h)
  repeat' split at h
  all_goals (simp only [Host.Outcome.next.injEq] at h; subst h)
  all_goals repeat' first
    | with_reducible rfl
    | (simp; done)
    | (refine (mem_foldl _ _ _ (fun a x => ?_)).trans ?_)
    | (refine (mem_fold1 _ _ _ (fun a x => ?_)).trans ?_)
    | (refine (mem_fold2 _ _ _ (fun a x => ?_)).trans ?_)
    | (refine State.ingest_mem _ _ _ _ _ _ (fun u c => ?_) (fun u c => ?_))
    | (refine State.sessionWrite_mem _ _ _ _ _ _ (fun u => ?_))
    | (refine State.request_mem _ _ _ _ _ _ (fun u => ?_))
    | split
    | simp [*]
theorem execFlexPortDisable_mem {sid : Nat} {p : Nat} {s : State} {s1 : State} (h : execFlexPortDisable sid p s = .next s1) : s1.mem = s.mem := by
  unfold execFlexPortDisable at h
  (try dsimp only at h)
  repeat' split at h
  all_goals (simp only [Host.Outcome.next.injEq] at h; subst h)
  all_goals repeat' first
    | with_reducible rfl
    | (simp; done)
    | (refine (mem_foldl _ _ _ (fun a x => ?_)).trans ?_)
    | (refine (mem_fold1 _ _ _ (fun a x => ?_)).trans ?_)
    | (refine (mem_fold2 _ _ _ (fun a x => ?_)).trans ?_)
    | (refine State.ingest_mem _ _ _ _ _ _ (fun u c => ?_) (fun u c => ?_))
    | (refine State.sessionWrite_mem _ _ _ _ _ _ (fun u => ?_))
    | (refine State.request_mem _ _ _ _ _ _ (fun u => ?_))
    | split
    | simp [*]
theorem execFlexLinkTrained_mem {p : Nat} {partner : FlexPartner} {s : State} {s1 : State} (h : execFlexLinkTrained p partner s = .next s1) : s1.mem = s.mem := by
  unfold execFlexLinkTrained at h
  cases h
  repeat' first | with_reducible rfl | split | simp [*]
theorem execFlexLaneFailure_mem {p : Nat} {width : Nat} {s : State} {s1 : State} (h : execFlexLaneFailure p width s = .next s1) : s1.mem = s.mem := by
  unfold execFlexLaneFailure at h
  (try dsimp only at h)
  repeat' split at h
  all_goals (cases h; simp [*])
theorem execNvmeCommandComplete_mem {p : Nat} {cid : Nat} {ok : Bool} {s : State} {s1 : State} (h : execNvmeCommandComplete p cid ok s = .next s1) : s1.mem = s.mem := by
  unfold execNvmeCommandComplete at h
  (try dsimp only at h)
  repeat' split at h
  all_goals (simp only [Host.Outcome.next.injEq] at h; subst h)
  all_goals repeat' first
    | with_reducible rfl
    | (simp; done)
    | (refine (mem_foldl _ _ _ (fun a x => ?_)).trans ?_)
    | (refine (mem_fold1 _ _ _ (fun a x => ?_)).trans ?_)
    | (refine (mem_fold2 _ _ _ (fun a x => ?_)).trans ?_)
    | (refine State.ingest_mem _ _ _ _ _ _ (fun u c => ?_) (fun u c => ?_))
    | (refine State.sessionWrite_mem _ _ _ _ _ _ (fun u => ?_))
    | (refine State.request_mem _ _ _ _ _ _ (fun u => ?_))
    | split
    | simp [*]
theorem execNvmeCommandTimeout_mem {p : Nat} {cid : Nat} {s : State} {s1 : State} (h : execNvmeCommandTimeout p cid s = .next s1) : s1.mem = s.mem := by
  unfold execNvmeCommandTimeout at h
  (try dsimp only at h)
  repeat' split at h
  all_goals (cases h; simp [*])
theorem execNvmeAbortTimeout_mem {p : Nat} {cid : Nat} {s : State} {s1 : State} (h : execNvmeAbortTimeout p cid s = .next s1) : s1.mem = s.mem := by
  unfold execNvmeAbortTimeout at h
  (try dsimp only at h)
  repeat' split at h
  all_goals (cases h; simp [*])
theorem execFlitTransmit_mem {q : Nat} {s : State} {s1 : State} (h : execFlitTransmit q s = .next s1) : s1.mem = s.mem := by
  unfold execFlitTransmit at h
  repeat' split at h
  all_goals (cases h; simp)
theorem execFlitReceive_mem {q : Nat} {f : Flit} {s : State} {s1 : State} (h : execFlitReceive q f s = .next s1) : s1.mem = s.mem := by
  unfold execFlitReceive at h
  (try dsimp only at h)
  repeat' split at h
  all_goals (cases h; first | (simp [*]; done) | (refine (mem_foldl _ _ _ (fun a k => State.spdmIn_mem _ _ _)).trans ?_; simp [*]))
theorem execReplayTimeout_mem {q : Nat} {s : State} {s1 : State} (h : execReplayTimeout q s = .next s1) : s1.mem = s.mem := by
  unfold execReplayTimeout at h
  cases h
  repeat' first | with_reducible rfl | split | simp [*]
theorem execPeerLaneFailure_mem {q : Nat} {lane : Nat} {s : State} {s1 : State} (h : execPeerLaneFailure q lane s = .next s1) : s1.mem = s.mem := by
  unfold execPeerLaneFailure at h
  (try dsimp only at h)
  repeat' split at h
  all_goals (cases h; simp [*])
theorem execPeerLinkLoss_mem {q : Nat} {s : State} {s1 : State} (h : execPeerLinkLoss q s = .next s1) : s1.mem = s.mem := by
  unfold execPeerLinkLoss at h
  cases h
  repeat' first | with_reducible rfl | split | simp [*]
theorem execHandover_mem {via : Nat} {q : Nat} {lastFseq : Nat} {s : State} {s1 : State} (h : execHandover via q lastFseq s = .next s1) : s1.mem = s.mem := by
  unfold execHandover at h
  (try dsimp only at h)
  repeat' split at h
  all_goals (cases h; simp [*])
theorem execLinkHoldExpiry_mem {q : Nat} {s : State} {s1 : State} (h : execLinkHoldExpiry q s = .next s1) : s1.mem = s.mem := by
  unfold execLinkHoldExpiry at h
  repeat' split at h
  all_goals (cases h; simp)
theorem execPeerPortEnable_mem {sid : Nat} {q : Nat} {s : State} {s1 : State} (h : execPeerPortEnable sid q s = .next s1) : s1.mem = s.mem := by
  unfold execPeerPortEnable at h
  (try dsimp only at h)
  repeat' split at h
  all_goals (simp only [Host.Outcome.next.injEq] at h; subst h)
  all_goals repeat' first
    | with_reducible rfl
    | (simp; done)
    | (refine (mem_foldl _ _ _ (fun a x => ?_)).trans ?_)
    | (refine (mem_fold1 _ _ _ (fun a x => ?_)).trans ?_)
    | (refine (mem_fold2 _ _ _ (fun a x => ?_)).trans ?_)
    | (refine State.ingest_mem _ _ _ _ _ _ (fun u c => ?_) (fun u c => ?_))
    | (refine State.sessionWrite_mem _ _ _ _ _ _ (fun u => ?_))
    | (refine State.request_mem _ _ _ _ _ _ (fun u => ?_))
    | split
    | simp [*]
theorem execPresetTimeout_mem {q : Nat} {lane : Nat} {s : State} {s1 : State} (h : execPresetTimeout q lane s = .next s1) : s1.mem = s.mem := by
  unfold execPresetTimeout at h
  cases h
  repeat' first | with_reducible rfl | split | simp [*]
theorem execPeerTrainingDone_mem {q : Nat} {lanes : Nat} {presets : Bytes} {s : State} {s1 : State} (h : execPeerTrainingDone q lanes presets s = .next s1) : s1.mem = s.mem := by
  unfold execPeerTrainingDone at h
  (try dsimp only at h)
  repeat' split at h
  all_goals (cases h; simp [*])
theorem execPeerAuthenticated_mem {q : Nat} {chain : Sys2Proof.Bytes} {peerIdObj : Nat} {peerSerial : Nat} {s : Sys2Proof.Machine.State} {s1 : State} (h : execPeerAuthenticated q chain peerIdObj peerSerial s = .next s1) : s1.mem = s.mem := by
  unfold execPeerAuthenticated at h
  extract_lets anchor noId fail dup loop srcQ s1 s2 s3 s4 s5 s6 at h
  have e1 : s1.mem = s.mem := mem_ite rfl (State.setPeer_mem _ _ _)
  clear_value s1
  have e2 : s2.mem = s.mem := mem_ite ((State.flag_mem _ _ _ _).trans e1) e1
  clear_value s2
  have e3 : s3.mem = s.mem := mem_ite ((State.peerFlag_mem _ _ _).trans e2) e2
  clear_value s3
  have e4 : s4.mem = s.mem := mem_ite ((State.peerFlag_mem _ _ _).trans e3) e3
  clear_value s4
  have e5 : s5.mem = s.mem := mem_ite ((State.peerFlag_mem _ _ _).trans e4) e4
  clear_value s5
  have e6 : s6.mem = s.mem := mem_ite ((State.peerFlag_mem _ _ _).trans e5) e5
  clear_value s6
  split at h
  · simp only [Host.Outcome.next.injEq] at h; subst h; rfl
  · simp only [Host.Outcome.next.injEq] at h; subst h
    exact mem_ite e6 (mem_ite ((State.peerActive_mem _ _ _).trans e6) ((State.setPeer_mem _ _ _).trans e6))
theorem execGetVersion_mem {ch : SpdmCh} {s : State} {s1 : State} (h : execGetVersion ch s = .next s1) : s1.mem = s.mem := by
  unfold execGetVersion at h
  cases h
  repeat' first | with_reducible rfl | split | simp [*]
theorem execGetCapabilities_mem {ch : SpdmCh} {s : State} {s1 : State} (h : execGetCapabilities ch s = .next s1) : s1.mem = s.mem := by
  unfold execGetCapabilities at h
  cases h
  simp
theorem execNegotiateAlgorithms_mem {ch : SpdmCh} {offersSuite : Bool} {s : State} {s1 : State} (h : execNegotiateAlgorithms ch offersSuite s = .next s1) : s1.mem = s.mem := by
  unfold execNegotiateAlgorithms at h
  cases h
  repeat' first | with_reducible rfl | split | simp [*]
theorem execGetCertificate_mem {ch : SpdmCh} {off : Nat} {len : Nat} {s : State} {s1 : State} (h : execGetCertificate ch off len s = .next s1) : s1.mem = s.mem := by
  unfold execGetCertificate at h
  cases h
  simp
theorem execKeyExchange_mem {ch : SpdmCh} {chain : Bytes} {valid : Bool} {s : State} {s1 : State} (h : execKeyExchange ch chain valid s = .next s1) : s1.mem = s.mem := by
  unfold execKeyExchange at h
  (try dsimp only at h)
  repeat' split at h
  all_goals (cases h; simp [*])
theorem execFinish_mem {ch : SpdmCh} {valid : Bool} {s : State} {s1 : State} (h : execFinish ch valid s = .next s1) : s1.mem = s.mem := by
  unfold execFinish at h
  cases h
  repeat' first | with_reducible rfl | split | simp [*]
theorem execGetMeasurements_mem {ch : SpdmCh} {idx : Nat} {s : State} {s1 : State} (h : execGetMeasurements ch idx s = .next s1) : s1.mem = s.mem := by
  unfold execGetMeasurements at h
  repeat' split at h
  all_goals (cases h; simp)
theorem execKeyUpdate_mem {q : Nat} {s : State} {s1 : State} (h : execKeyUpdate q s = .next s1) : s1.mem = s.mem := by
  unfold execKeyUpdate at h
  cases h
  repeat' first | with_reducible rfl | split | simp [*]
theorem execKeyLifeExpiry_mem {q : Nat} {s : State} {s1 : State} (h : execKeyLifeExpiry q s = .next s1) : s1.mem = s.mem := by
  unfold execKeyLifeExpiry at h
  (try dsimp only at h)
  repeat' split at h
  all_goals (cases h; simp [*])
theorem execSyncReq_mem {q : Nat} {t1 : Nat} {s : State} {s1 : State} (h : execSyncReq q t1 s = .next s1) : s1.mem = s.mem := by
  unfold execSyncReq at h
  cases h
  repeat' first | with_reducible rfl | split | simp [*]
theorem execSyncResp_mem {q : Nat} {t1 : Nat} {t2 : Nat} {t3 : Nat} {t4 : Nat} {root : Nat} {hops : Nat} {sender : Nat} {replayed : Bool} {s : State} {s1 : State} (h : execSyncResp q t1 t2 t3 t4 root hops sender replayed s = .next s1) : s1.mem = s.mem := by
  unfold execSyncResp at h
  (try dsimp only at h)
  repeat' split at h
  all_goals (cases h; simp [*])
theorem execCellAdmit_mem {die : Nat} {inPort : Nat} {pkt : Sys2Proof.Packet} {outPort : Nat} {s0 : Sys2Proof.Machine.State} {s1 : State} (h : execCellAdmit die inPort pkt outPort s0 = .next s1) : s1.mem = s0.mem := by
  unfold execCellAdmit at h
  repeat' (first | split at h | dsimp only at h)
  all_goals (simp only [Host.Outcome.next.injEq] at h; subst h)
  all_goals repeat' first | with_reducible rfl | split | (simp; done)
theorem execCellCross_mem {die : Nat} {outPort : Nat} {s : State} {s1 : State} (h : execCellCross die outPort s = .next s1) : s1.mem = s.mem := by
  unfold execCellCross at h
  repeat' split at h
  all_goals (cases h; simp)
theorem execCutThroughCheckResult_mem {die : Nat} {inPort : Nat} {ok : Bool} {s : State} {s1 : State} (h : execCutThroughCheckResult die inPort ok s = .next s1) : s1.mem = s.mem := by
  unfold execCutThroughCheckResult at h
  (try dsimp only at h)
  repeat' split at h
  all_goals (simp only [Host.Outcome.next.injEq] at h; subst h)
  all_goals repeat' first
    | with_reducible rfl
    | (simp; done)
    | (refine (mem_foldl _ _ _ (fun a x => ?_)).trans ?_)
    | (refine (mem_fold1 _ _ _ (fun a x => ?_)).trans ?_)
    | (refine (mem_fold2 _ _ _ (fun a x => ?_)).trans ?_)
    | (refine State.ingest_mem _ _ _ _ _ _ (fun u c => ?_) (fun u c => ?_))
    | (refine State.sessionWrite_mem _ _ _ _ _ _ (fun u => ?_))
    | (refine State.request_mem _ _ _ _ _ _ (fun u => ?_))
    | split
    | simp [*]
theorem execRouteMemberMove_mem {die : Nat} {inPort : Nat} {tc : Nat} {tenant : Nat} {dev : Nat} {s : State} {s1 : State} (h : execRouteMemberMove die inPort tc tenant dev s = .next s1) : s1.mem = s.mem := by
  unfold execRouteMemberMove at h
  (try dsimp only at h)
  repeat' split at h
  all_goals (cases h; simp [*])
theorem execQuiesce_mem {at_ : Ingress} {s : State} {s1 : State} (h : execQuiesce at_ s = .next s1) : s1.mem = s.mem := by
  unfold execQuiesce at h
  repeat' split at h
  all_goals (cases h; simp)
theorem execQuiesced_mem {at_ : Ingress} {s : State} {s1 : State} (h : execQuiesced at_ s = .next s1) : s1.mem = s.mem := by
  unfold execQuiesced at h
  (try dsimp only at h)
  repeat' split at h
  all_goals (cases h; simp [*])
theorem execRevoke_mem {eid : Nat} {s : State} {s1 : State} (h : execRevoke eid s = .next s1) : s1.mem = s.mem := by
  unfold execRevoke at h
  cases h
  simp
theorem execHalt_mem {at_ : Ingress} {s : State} {s1 : State} (h : execHalt at_ s = .next s1) : s1.mem = s.mem := by
  unfold execHalt at h
  repeat' split at h
  all_goals (cases h; simp)
theorem execAlloc_mem {sid : Nat} {blob : Bytes} {s : State} {s1 : State} (h : execAlloc sid blob s = .next s1) : s1.mem = s.mem := by
  unfold execAlloc at h
  cases h
  exact State.sessionWrite_mem _ _ _ _ _ _ (fun _ => by simp)
theorem execExtentAccept_mem {p : Nat} {l : Nat} {slot : Nat} {s : State} {s1 : State} (h : execExtentAccept p l slot s = .next s1) : s1.mem = s.mem := by
  unfold execExtentAccept at h
  (try dsimp only at h)
  repeat' split at h
  all_goals (cases h; simp [*])
theorem execOfferTimeout_mem {eid : Nat} {s : State} {s1 : State} (h : execOfferTimeout eid s = .next s1) : s1.mem = s.mem := by
  unfold execOfferTimeout at h
  repeat' split at h
  all_goals (cases h; simp)
theorem execReleaseDynamicCapacity_mem {p : Nat} {l : Nat} {slot : Nat} {s0 : Sys2Proof.Machine.State} {s1 : State} (h : execReleaseDynamicCapacity p l slot s0 = .next s1) : s1.mem = s0.mem := by
  unfold execReleaseDynamicCapacity at h
  (try dsimp only at h)
  repeat' split at h
  all_goals (simp only [Host.Outcome.next.injEq] at h; subst h)
  all_goals repeat' first
    | with_reducible rfl
    | (simp; done)
    | (refine (mem_foldl _ _ _ (fun a x => ?_)).trans ?_)
    | (refine (mem_fold1 _ _ _ (fun a x => ?_)).trans ?_)
    | (refine (mem_fold2 _ _ _ (fun a x => ?_)).trans ?_)
    | (refine State.ingest_mem _ _ _ _ _ _ (fun u c => ?_) (fun u c => ?_))
    | (refine State.sessionWrite_mem _ _ _ _ _ _ (fun u => ?_))
    | (refine State.request_mem _ _ _ _ _ _ (fun u => ?_))
    | split
    | simp [*]
theorem execRevokeExtent_mem {sid : Nat} {eid : Nat} {s : State} {s1 : State} (h : execRevokeExtent sid eid s = .next s1) : s1.mem = s.mem := by
  unfold execRevokeExtent at h
  cases h
  refine State.sessionWrite_mem _ _ _ _ _ _ (fun _ => ?_)
  repeat' first | with_reducible rfl | split | simp [*]
theorem execDrainComplete_mem {eid : Nat} {s : State} {s1 : State} (h : execDrainComplete eid s = .next s1) : s1.mem = s.mem := by
  unfold execDrainComplete at h
  repeat' split at h
  all_goals (cases h; simp)
theorem execDrainTimeout_mem {eid : Nat} {s : State} {s1 : State} (h : execDrainTimeout eid s = .next s1) : s1.mem = s.mem := by
  unfold execDrainTimeout at h
  repeat' split at h
  all_goals (cases h; simp)
theorem execQuarantineRelease_mem {eid : Nat} {s : State} {s1 : State} (h : execQuarantineRelease eid s = .next s1) : s1.mem = s.mem := by
  unfold execQuarantineRelease at h
  repeat' split at h
  all_goals (cases h; simp)
theorem execLeaseDoorbell_mem {p : Nat} {l : Nat} {value : Nat} {size : Nat} {s : State} {s1 : State} (h : execLeaseDoorbell p l value size s = .next s1) : s1.mem = s.mem := by
  unfold execLeaseDoorbell at h
  cases h
  simp
theorem execLeaseGrace_mem {p : Nat} {l : Nat} {s : State} {s1 : State} (h : execLeaseGrace p l s = .next s1) : s1.mem = s.mem := by
  unfold execLeaseGrace at h
  (try dsimp only at h)
  repeat' split at h
  all_goals (cases h; simp [*])
theorem execLeaseExpired_mem {p : Nat} {l : Nat} {s : State} {s1 : State} (h : execLeaseExpired p l s = .next s1) : s1.mem = s.mem := by
  unfold execLeaseExpired at h
  (try dsimp only at h)
  repeat' split at h
  all_goals (cases h; simp [*])
theorem execLentPathLoss_mem {eid : Nat} {s : State} {s1 : State} (h : execLentPathLoss eid s = .next s1) : s1.mem = s.mem := by
  unfold execLentPathLoss at h
  repeat' split at h
  all_goals (cases h; simp)
theorem execHostRead_mem {p : Nat} {l : Nat} {space : HostSpace} {addr : Nat} {len : Nat} {s : State} {s1 : State} (h : execHostRead p l space addr len s = .next s1) : s1.mem = s.mem := by
  unfold execHostRead at h
  repeat' split at h
  all_goals (cases h; simp)
theorem execHostWrite_mem {p : Nat} {l : Nat} {space : HostSpace} {addr : Nat} {data : Bytes} {s : State} {s1 : State} (h : execHostWrite p l space addr data s = .next s1) : s1.mem = s.mem := by
  unfold execHostWrite at h
  repeat' split at h
  all_goals (cases h; simp)
theorem execHdmDbWrite_mem {p : Nat} {l : Nat} {addr : Nat} {s : State} {s1 : State} (h : execHdmDbWrite p l addr s = .next s1) : s1.mem = s.mem := by
  unfold execHdmDbWrite at h
  repeat' split at h
  all_goals (cases h; simp)
theorem execDonorOffer_mem {p : Nat} {l : Nat} {i : Nat} {s : State} {s1 : State} (h : execDonorOffer p l i s = .next s1) : s1.mem = s.mem := by
  unfold execDonorOffer at h
  cases h
  simp
theorem execDonorRevoke_mem {p : Nat} {l : Nat} {i : Nat} {s : State} {s1 : State} (h : execDonorRevoke p l i s = .next s1) : s1.mem = s.mem := by
  unfold execDonorRevoke at h
  cases h
  simp
theorem execDonorReleased_mem {p : Nat} {l : Nat} {i : Nat} {s : State} {s1 : State} (h : execDonorReleased p l i s = .next s1) : s1.mem = s.mem := by
  unfold execDonorReleased at h
  (try dsimp only at h)
  repeat' split at h
  all_goals (cases h; simp [*])
theorem execDonorPortDown_mem {p : Nat} {s : State} {s1 : State} (h : execDonorPortDown p s = .next s1) : s1.mem = s.mem := by
  unfold execDonorPortDown at h
  cases h
  repeat' first | with_reducible rfl | split | simp [*]
theorem execPublishExtent_mem {p : Nat} {l : Nat} {r : Nat} {s : State} {s1 : State} (h : execPublishExtent p l r s = .next s1) : s1.mem = s.mem := by
  unfold execPublishExtent at h
  cases h
  exact State.ingest_mem _ _ _ _ _ _ (fun _ _ => by simp) (fun _ _ => by simp)
theorem execBackingFailure_mem {b : Backing} {s : State} {s1 : State} (h : execBackingFailure b s = .next s1) : s1.mem = s.mem := by
  unfold execBackingFailure at h
  repeat' split at h
  all_goals (cases h; simp)
theorem execCtlCopyLoss_mem {p : Nat} {l : Nat} {second : Bool} {s : State} {s1 : State} (h : execCtlCopyLoss p l second s = .next s1) : s1.mem = s.mem := by
  unfold execCtlCopyLoss at h
  (try dsimp only at h)
  repeat' split at h
  all_goals (simp only [Host.Outcome.next.injEq] at h; subst h)
  all_goals repeat' first
    | with_reducible rfl
    | (simp; done)
    | (refine (mem_foldl _ _ _ (fun a x => ?_)).trans ?_)
    | (refine (mem_fold1 _ _ _ (fun a x => ?_)).trans ?_)
    | (refine (mem_fold2 _ _ _ (fun a x => ?_)).trans ?_)
    | (refine State.ingest_mem _ _ _ _ _ _ (fun u c => ?_) (fun u c => ?_))
    | (refine State.sessionWrite_mem _ _ _ _ _ _ (fun u => ?_))
    | (refine State.request_mem _ _ _ _ _ _ (fun u => ?_))
    | split
    | simp [*]
theorem execRepairBacking_mem {sid : Nat} {value : Nat} {s : State} {s1 : State} (h : execRepairBacking sid value s = .next s1) : s1.mem = s.mem := by
  unfold execRepairBacking at h
  cases h
  refine State.sessionWrite_mem _ _ _ _ _ _ (fun _ => ?_)
  repeat' first | with_reducible rfl | split | simp [*]
theorem execFlagData_mem {p : Nat} {l : Nat} {data : Nat} {s : State} {s1 : State} (h : execFlagData p l data s = .next s1) : s1.mem = s.mem := by
  unfold execFlagData at h
  repeat' split at h
  all_goals (cases h; simp)
theorem execFlushCtrl_mem {p : Nat} {l : Nat} {seq : Nat} {s : State} {s1 : State} (h : execFlushCtrl p l seq s = .next s1) : s1.mem = s.mem := by
  unfold execFlushCtrl at h
  repeat' split at h
  all_goals (cases h; simp)
theorem execFlushComplete_mem {p : Nat} {l : Nat} {s : State} {s1 : State} (h : execFlushComplete p l s = .next s1) : s1.mem = s.mem := by
  unfold execFlushComplete at h
  (try dsimp only at h)
  repeat' split at h
  all_goals (cases h; simp [*])
theorem execRdShared_mem {a : Sys2Proof.Agent} {r : Sys2Proof.LineRead} {s : Sys2Proof.Machine.State} {s1 : State} (h : execRdShared a r s = .next s1) : s1.mem = s.mem := by
  unfold execRdShared at h
  (try dsimp only at h)
  repeat' split at h
  all_goals (simp only [Host.Outcome.next.injEq] at h; subst h)
  all_goals repeat' first
    | with_reducible rfl
    | (simp; done)
    | (refine (mem_foldl _ _ _ (fun a x => ?_)).trans ?_)
    | (refine (mem_fold1 _ _ _ (fun a x => ?_)).trans ?_)
    | (refine (mem_fold2 _ _ _ (fun a x => ?_)).trans ?_)
    | (refine State.ingest_mem _ _ _ _ _ _ (fun u c => ?_) (fun u c => ?_))
    | (refine State.sessionWrite_mem _ _ _ _ _ _ (fun u => ?_))
    | (refine State.request_mem _ _ _ _ _ _ (fun u => ?_))
    | split
    | simp [*]
theorem execRdOwn_mem {a : Sys2Proof.Agent} {r : Sys2Proof.LineOwn} {s : Sys2Proof.Machine.State} {s1 : State} (h : execRdOwn a r s = .next s1) : s1.mem = s.mem := by
  unfold execRdOwn at h
  (try dsimp only at h)
  repeat' split at h
  all_goals (simp only [Host.Outcome.next.injEq] at h; subst h)
  all_goals repeat' first
    | with_reducible rfl
    | (simp; done)
    | (refine (mem_foldl _ _ _ (fun a x => ?_)).trans ?_)
    | (refine (mem_fold1 _ _ _ (fun a x => ?_)).trans ?_)
    | (refine (mem_fold2 _ _ _ (fun a x => ?_)).trans ?_)
    | (refine State.ingest_mem _ _ _ _ _ _ (fun u c => ?_) (fun u c => ?_))
    | (refine State.sessionWrite_mem _ _ _ _ _ _ (fun u => ?_))
    | (refine State.request_mem _ _ _ _ _ _ (fun u => ?_))
    | split
    | simp [*]
theorem execUpgrade_mem {a : Sys2Proof.Agent} {r : Sys2Proof.LineOwn} {s : Sys2Proof.Machine.State} {s1 : State} (h : execUpgrade a r s = .next s1) : s1.mem = s.mem := by
  unfold execUpgrade at h
  (try dsimp only at h)
  repeat' split at h
  all_goals (simp only [Host.Outcome.next.injEq] at h; subst h)
  all_goals repeat' first
    | with_reducible rfl
    | (simp; done)
    | (refine (mem_foldl _ _ _ (fun a x => ?_)).trans ?_)
    | (refine (mem_fold1 _ _ _ (fun a x => ?_)).trans ?_)
    | (refine (mem_fold2 _ _ _ (fun a x => ?_)).trans ?_)
    | (refine State.ingest_mem _ _ _ _ _ _ (fun u c => ?_) (fun u c => ?_))
    | (refine State.sessionWrite_mem _ _ _ _ _ _ (fun u => ?_))
    | (refine State.request_mem _ _ _ _ _ _ (fun u => ?_))
    | split
    | simp [*]
theorem execWb_mem {a : Sys2Proof.Agent} {r : Sys2Proof.LineBack} {s : Sys2Proof.Machine.State} {s1 : State} (h : execWb a r s = .next s1) : s1.mem = s.mem := by
  unfold execWb at h
  (try dsimp only at h)
  repeat' split at h
  all_goals (simp only [Host.Outcome.next.injEq] at h; subst h)
  all_goals repeat' first
    | with_reducible rfl
    | (simp; done)
    | (refine (mem_foldl _ _ _ (fun a x => ?_)).trans ?_)
    | (refine (mem_fold1 _ _ _ (fun a x => ?_)).trans ?_)
    | (refine (mem_fold2 _ _ _ (fun a x => ?_)).trans ?_)
    | (refine State.ingest_mem _ _ _ _ _ _ (fun u c => ?_) (fun u c => ?_))
    | (refine State.sessionWrite_mem _ _ _ _ _ _ (fun u => ?_))
    | (refine State.request_mem _ _ _ _ _ _ (fun u => ?_))
    | split
    | simp [*]
theorem execSnpInv_mem {a : Agent} {line : Nat} {s : State} {s1 : State} (h : execSnpInv a line s = .next s1) : s1.mem = s.mem := by
  unfold execSnpInv at h
  split at h
  all_goals first
    | (simp only [Host.Outcome.next.injEq] at h; subst h; rfl)
    | (rename_i hr
       have e1 := State.receive_mem hr
       (try dsimp only at h)
       repeat' split at h
       all_goals (simp only [Host.Outcome.next.injEq] at h; subst h; simp [e1]))
theorem execSnpData_mem {a : Agent} {line : Nat} {s : State} {s1 : State} (h : execSnpData a line s = .next s1) : s1.mem = s.mem := by
  unfold execSnpData at h
  split at h
  all_goals first
    | (simp only [Host.Outcome.next.injEq] at h; subst h; rfl)
    | (rename_i hr
       have e1 := State.receive_mem hr
       (try dsimp only at h)
       repeat' split at h
       all_goals (simp only [Host.Outcome.next.injEq] at h; subst h; simp [e1]))
theorem execSnoopResponse_mem {a : Agent} {line : Nat} {rsp : SnpRsp} {s : State} {s1 : State} (h : execSnoopResponse a line rsp s = .next s1) : s1.mem = s.mem := by
  unfold execSnoopResponse at h
  extract_lets k at h
  clear_value k
  split at h
  · rename_i hr
    have e1 := State.receive_mem hr
    simp only [Host.Outcome.next.injEq] at h; subst h; simp [e1]
  · simp only [Host.Outcome.next.injEq] at h; subst h; rfl
theorem execWbPending_mem {a : Agent} {line : Nat} {s : State} {s1 : State} (h : execWbPending a line s = .next s1) : s1.mem = s.mem := by
  unfold execWbPending at h
  split at h
  all_goals first
    | (simp only [Host.Outcome.next.injEq] at h; subst h; rfl)
    | (rename_i hr
       have e1 := State.receive_mem hr
       (try dsimp only at h)
       repeat' split at h
       all_goals (simp only [Host.Outcome.next.injEq] at h; subst h; simp [e1]))
theorem execDataCmp_mem {a : Agent} {line : Nat} {s : State} {s1 : State} (h : execDataCmp a line s = .next s1) : s1.mem = s.mem := by
  unfold execDataCmp at h
  split at h
  all_goals first
    | (simp only [Host.Outcome.next.injEq] at h; subst h; rfl)
    | (rename_i hr
       have e1 := State.receive_mem hr
       (try dsimp only at h)
       repeat' split at h
       all_goals (simp only [Host.Outcome.next.injEq] at h; subst h; simp [e1]))
theorem execWbAck_mem {a : Agent} {line : Nat} {s : State} {s1 : State} (h : execWbAck a line s = .next s1) : s1.mem = s.mem := by
  unfold execWbAck at h
  split at h
  all_goals first
    | (simp only [Host.Outcome.next.injEq] at h; subst h; rfl)
    | (rename_i hr
       have e1 := State.receive_mem hr
       (try dsimp only at h)
       repeat' split at h
       all_goals (simp only [Host.Outcome.next.injEq] at h; subst h; simp [e1]))
theorem execBirsp_mem {p : Nat} {l : Nat} {line : Nat} {s : State} {s1 : State} (h : execBirsp p l line s = .next s1) : s1.mem = s.mem := by
  unfold execBirsp at h
  (try dsimp only at h)
  repeat' split at h
  all_goals (cases h; simp [*])
theorem execBiTimeout_mem {p : Nat} {l : Nat} {line : Nat} {s : State} {s1 : State} (h : execBiTimeout p l line s = .next s1) : s1.mem = s.mem := by
  unfold execBiTimeout at h
  (try dsimp only at h)
  repeat' split at h
  all_goals (cases h; simp [*])
theorem execViewRead_mem {p : Nat} {l : Nat} {line : Nat} {s : State} {s1 : State} (h : execViewRead p l line s = .next s1) : s1.mem = s.mem := by
  unfold execViewRead at h
  repeat' split at h
  all_goals (cases h; simp)
theorem execViewRestore_mem {sid : Nat} {value : Nat} {s : State} {s1 : State} (h : execViewRestore sid value s = .next s1) : s1.mem = s.mem := by
  unfold execViewRestore at h
  cases h
  exact State.sessionWrite_mem _ _ _ _ _ _ (fun _ => by simp)
theorem execFence_mem {src : Source} {scope : Scope} {s : State} {s1 : State} (h : execFence src scope s = .next s1) : s1.mem = s.mem := by
  unfold execFence at h
  cases h
  simp
theorem execSqTail_mem {p : Nat} {l : Nat} {r : Nat} {value : Nat} {s : State} {s1 : State} (h : execSqTail p l r value s = .next s1) : s1.mem = s.mem := by
  unfold execSqTail at h
  repeat' split at h
  all_goals (cases h; simp)
theorem execSqEnable_mem {p : Nat} {l : Nat} {r : Nat} {s : State} {s1 : State} (h : execSqEnable p l r s = .next s1) : s1.mem = s.mem := by
  unfold execSqEnable at h
  repeat' split at h
  all_goals (cases h; simp)
theorem execSqDisable_mem {p : Nat} {l : Nat} {r : Nat} {s : State} {s1 : State} (h : execSqDisable p l r s = .next s1) : s1.mem = s.mem := by
  unfold execSqDisable at h
  repeat' split at h
  all_goals (cases h; simp)
theorem execSqDrained_mem {p : Nat} {l : Nat} {r : Nat} {s : State} {s1 : State} (h : execSqDrained p l r s = .next s1) : s1.mem = s.mem := by
  unfold execSqDrained at h
  cases h
  repeat' first | with_reducible rfl | split | simp [*]
theorem execCqCfg_mem {p : Nat} {l : Nat} {r : Nat} {value : Nat} {s : State} {s1 : State} (h : execCqCfg p l r value s = .next s1) : s1.mem = s.mem := by
  unfold execCqCfg at h
  repeat' split at h
  all_goals (cases h; simp)
theorem execCqHead_mem {p : Nat} {l : Nat} {r : Nat} {value : Nat} {s : State} {s1 : State} (h : execCqHead p l r value s = .next s1) : s1.mem = s.mem := by
  unfold execCqHead at h
  repeat' split at h
  all_goals (cases h; simp)
theorem execEqHead_mem {p : Nat} {l : Nat} {value : Nat} {s : State} {s1 : State} (h : execEqHead p l value s = .next s1) : s1.mem = s.mem := by
  unfold execEqHead at h
  repeat' split at h
  all_goals (cases h; simp)
theorem execCqWriteFail_mem {p : Nat} {l : Nat} {r : Nat} {s : State} {s1 : State} (h : execCqWriteFail p l r s = .next s1) : s1.mem = s.mem := by
  unfold execCqWriteFail at h
  repeat' split at h
  all_goals (cases h; simp)
theorem execPad_mem {p : Nat} {l : Nat} {r : Nat} {s : State} {s1 : State} (h : execPad p l r s = .next s1) : s1.mem = s.mem := by
  unfold execPad at h
  split at h
  · simp only [Host.Outcome.next.injEq] at h; subst h; rfl
  · rename_i hr
    have e1 := State.turn_mem hr
    (try dsimp only at h)
    repeat' split at h
    all_goals (simp only [Host.Outcome.next.injEq] at h; subst h)
    all_goals (try split) <;> simp [e1]
theorem execAttend_mem {p : Nat} {l : Nat} {r : Nat} {s : State} {s1 : State} (h : execAttend p l r s = .next s1) : s1.mem = s.mem := by
  unfold execAttend at h
  cases h
  exact State.ingest_mem _ _ _ _ _ _ (fun _ _ => by simp) (fun _ _ => by simp)
theorem execAppend_mem {p : Nat} {l : Nat} {r : Nat} {s : State} {s1 : State} (h : execAppend p l r s = .next s1) : s1.mem = s.mem := by
  unfold execAppend at h
  cases h
  exact State.ingest_mem _ _ _ _ _ _ (fun _ _ => by simp) (fun _ _ => by simp)
theorem execMirror_mem {m : Mirror} {s : State} {s1 : State} (h : execMirror m s = .next s1) : s1.mem = s.mem := by
  unfold execMirror at h
  cases h
  simp
theorem execMirrorAck_mem {cmd : Nat} {item : Nat} {page : Nat} {s : State} {s1 : State} (h : execMirrorAck cmd item page s = .next s1) : s1.mem = s.mem := by
  unfold execMirrorAck at h
  (try dsimp only at h)
  repeat' split at h
  all_goals (cases h; simp [*])
theorem execMirrorTimeout_mem {cmd : Nat} {item : Nat} {s : State} {s1 : State} (h : execMirrorTimeout cmd item s = .next s1) : s1.mem = s.mem := by
  unfold execMirrorTimeout at h
  repeat' split at h
  all_goals (cases h; simp)
theorem execLookupPrefix_mem {p : Nat} {l : Nat} {r : Nat} {s : State} {s1 : State} (h : execLookupPrefix p l r s = .next s1) : s1.mem = s.mem := by
  unfold execLookupPrefix at h
  cases h
  exact State.ingest_mem _ _ _ _ _ _ (fun _ _ => by simp) (fun _ _ => by simp)
theorem execPublishPrefix_mem {p : Nat} {l : Nat} {r : Nat} {s : State} {s1 : State} (h : execPublishPrefix p l r s = .next s1) : s1.mem = s.mem := by
  unfold execPublishPrefix at h
  cases h
  exact State.ingest_mem _ _ _ _ _ _ (fun _ _ => by simp) (fun _ _ => by simp)
theorem execPin_mem {p : Nat} {l : Nat} {r : Nat} {s : State} {s1 : State} (h : execPin p l r s = .next s1) : s1.mem = s.mem := by
  unfold execPin at h
  cases h
  exact State.ingest_mem _ _ _ _ _ _ (fun _ _ => by simp) (fun _ _ => by simp)
theorem execUnpin_mem {p : Nat} {l : Nat} {r : Nat} {s : State} {s1 : State} (h : execUnpin p l r s = .next s1) : s1.mem = s.mem := by
  unfold execUnpin at h
  cases h
  exact State.ingest_mem _ _ _ _ _ _ (fun _ _ => by simp) (fun _ _ => by simp)
theorem execMigrate_mem {p : Nat} {l : Nat} {r : Nat} {s : State} {s1 : State} (h : execMigrate p l r s = .next s1) : s1.mem = s.mem := by
  unfold execMigrate at h
  cases h
  exact State.ingest_mem _ _ _ _ _ _ (fun _ _ => by simp) (fun _ _ => by simp)
theorem execOpenSeq_mem {p : Nat} {l : Nat} {r : Nat} {s : State} {s1 : State} (h : execOpenSeq p l r s = .next s1) : s1.mem = s.mem := by
  unfold execOpenSeq at h
  cases h
  exact State.ingest_mem _ _ _ _ _ _ (fun _ _ => by simp) (fun _ _ => by simp)
theorem execCloseSeq_mem {p : Nat} {l : Nat} {r : Nat} {s : State} {s1 : State} (h : execCloseSeq p l r s = .next s1) : s1.mem = s.mem := by
  unfold execCloseSeq at h
  cases h
  exact State.ingest_mem _ _ _ _ _ _ (fun _ _ => by simp) (fun _ _ => by simp)
theorem execSeqCloseFinal_mem {fabTag : Nat} {seqId : Nat} {s : State} {s1 : State} (h : execSeqCloseFinal fabTag seqId s = .next s1) : s1.mem = s.mem := by
  unfold execSeqCloseFinal at h
  (try dsimp only at h)
  repeat' split at h
  all_goals (cases h; simp [*])
theorem execAllreduce_mem {p : Nat} {l : Nat} {r : Nat} {s : State} {s1 : State} (h : execAllreduce p l r s = .next s1) : s1.mem = s.mem := by
  unfold execAllreduce at h
  cases h
  exact State.ingest_mem _ _ _ _ _ _ (fun _ _ => by simp) (fun _ _ => by simp)
theorem execReduceScatter_mem {p : Nat} {l : Nat} {r : Nat} {s : State} {s1 : State} (h : execReduceScatter p l r s = .next s1) : s1.mem = s.mem := by
  unfold execReduceScatter at h
  cases h
  exact State.ingest_mem _ _ _ _ _ _ (fun _ _ => by simp) (fun _ _ => by simp)
theorem execAllgather_mem {p : Nat} {l : Nat} {r : Nat} {s : State} {s1 : State} (h : execAllgather p l r s = .next s1) : s1.mem = s.mem := by
  unfold execAllgather at h
  cases h
  exact State.ingest_mem _ _ _ _ _ _ (fun _ _ => by simp) (fun _ _ => by simp)
theorem execFilterTopk_mem {p : Nat} {l : Nat} {r : Nat} {s : State} {s1 : State} (h : execFilterTopk p l r s = .next s1) : s1.mem = s.mem := by
  unfold execFilterTopk at h
  cases h
  exact State.ingest_mem _ _ _ _ _ _ (fun _ _ => by simp) (fun _ _ => by simp)
theorem execCollContribution_mem {c : Sys2Proof.TiledContribution} {s : Sys2Proof.Machine.State} {s1 : State} (h : execCollContribution c s = .next s1) : s1.mem = s.mem := by
  unfold execCollContribution at h
  (try dsimp only at h)
  repeat' split at h
  all_goals (simp only [Host.Outcome.next.injEq] at h; subst h)
  all_goals repeat' first
    | with_reducible rfl
    | (simp; done)
    | (refine (mem_foldl _ _ _ (fun a x => ?_)).trans ?_)
    | (refine (mem_fold1 _ _ _ (fun a x => ?_)).trans ?_)
    | (refine (mem_fold2 _ _ _ (fun a x => ?_)).trans ?_)
    | (refine State.ingest_mem _ _ _ _ _ _ (fun u c => ?_) (fun u c => ?_))
    | (refine State.sessionWrite_mem _ _ _ _ _ _ (fun u => ?_))
    | (refine State.request_mem _ _ _ _ _ _ (fun u => ?_))
    | split
    | simp [*]
theorem execCollBlockPartial_mem {key : Sys2Proof.CollKey} {par : Sys2Proof.CollParams} {block : Nat} {timeoutMs : Nat} {b : Sys2Proof.BlockSum} {hdrs : List Sys2Proof.Bytes} {s : Sys2Proof.Machine.State} {s1 : State} (h : execCollBlockPartial key par block timeoutMs b hdrs s = .next s1) : s1.mem = s.mem := by
  unfold execCollBlockPartial at h
  (try dsimp only at h)
  repeat' split at h
  all_goals (simp only [Host.Outcome.next.injEq] at h; subst h)
  all_goals repeat' first
    | with_reducible rfl
    | (simp; done)
    | (refine (mem_foldl _ _ _ (fun a x => ?_)).trans ?_)
    | (refine (mem_fold1 _ _ _ (fun a x => ?_)).trans ?_)
    | (refine (mem_fold2 _ _ _ (fun a x => ?_)).trans ?_)
    | (refine State.ingest_mem _ _ _ _ _ _ (fun u c => ?_) (fun u c => ?_))
    | (refine State.sessionWrite_mem _ _ _ _ _ _ (fun u => ?_))
    | (refine State.request_mem _ _ _ _ _ _ (fun u => ?_))
    | split
    | simp [*]
theorem execCollResult_mem {key : Sys2Proof.CollKey} {a : Sys2Proof.CollAnswer} {hdrs : List Sys2Proof.Bytes} {s : Sys2Proof.Machine.State} {s1 : State} (h : execCollResult key a hdrs s = .next s1) : s1.mem = s.mem := by
  unfold execCollResult at h
  (try dsimp only at h)
  repeat' split at h
  all_goals (simp only [Host.Outcome.next.injEq] at h; subst h)
  all_goals repeat' first
    | with_reducible rfl
    | (simp; done)
    | (refine (mem_foldl _ _ _ (fun a x => ?_)).trans ?_)
    | (refine (mem_fold1 _ _ _ (fun a x => ?_)).trans ?_)
    | (refine (mem_fold2 _ _ _ (fun a x => ?_)).trans ?_)
    | (refine State.ingest_mem _ _ _ _ _ _ (fun u c => ?_) (fun u c => ?_))
    | (refine State.sessionWrite_mem _ _ _ _ _ _ (fun u => ?_))
    | (refine State.request_mem _ _ _ _ _ _ (fun u => ?_))
    | split
    | simp [*]
theorem execCollRecordTimeout_mem {key : CollKey} {isTop : RecordAt} {s : State} {s1 : State} (h : execCollRecordTimeout key isTop s = .next s1) : s1.mem = s.mem := by
  unfold execCollRecordTimeout at h
  (try dsimp only at h)
  repeat' split at h
  all_goals (cases h; simp [*])
theorem execCollRankTimeout_mem {cmd : Nat} {s : State} {s1 : State} (h : execCollRankTimeout cmd s = .next s1) : s1.mem = s.mem := by
  unfold execCollRankTimeout at h
  repeat' split at h
  all_goals (cases h; simp)
theorem execGatherRows_mem {p : Nat} {l : Nat} {r : Nat} {s : State} {s1 : State} (h : execGatherRows p l r s = .next s1) : s1.mem = s.mem := by
  unfold execGatherRows at h
  cases h
  exact State.ingest_mem _ _ _ _ _ _ (fun _ _ => by simp) (fun _ _ => by simp)
theorem execLoadTensor_mem {p : Nat} {l : Nat} {r : Nat} {s : State} {s1 : State} (h : execLoadTensor p l r s = .next s1) : s1.mem = s.mem := by
  unfold execLoadTensor at h
  cases h
  exact State.ingest_mem _ _ _ _ _ _ (fun _ _ => by simp) (fun _ _ => by simp)
theorem execFreeTensor_mem {p : Nat} {l : Nat} {r : Nat} {s : State} {s1 : State} (h : execFreeTensor p l r s = .next s1) : s1.mem = s.mem := by
  unfold execFreeTensor at h
  cases h
  exact State.ingest_mem _ _ _ _ _ _ (fun _ _ => by simp) (fun _ _ => by simp)
theorem execTensorScrub_mem {tenant : Nat} {id : Nat} {s : State} {s1 : State} (h : execTensorScrub tenant id s = .next s1) : s1.mem = s.mem := by
  unfold execTensorScrub at h
  cases h
  simp
theorem execInstallPalette_mem {p : Nat} {l : Nat} {r : Nat} {s : State} {s1 : State} (h : execInstallPalette p l r s = .next s1) : s1.mem = s.mem := by
  unfold execInstallPalette at h
  cases h
  exact State.ingest_mem _ _ _ _ _ _ (fun _ _ => by simp) (fun _ _ => by simp)
theorem execFreePalette_mem {p : Nat} {l : Nat} {r : Nat} {s : State} {s1 : State} (h : execFreePalette p l r s = .next s1) : s1.mem = s.mem := by
  unfold execFreePalette at h
  cases h
  exact State.ingest_mem _ _ _ _ _ _ (fun _ _ => by simp) (fun _ _ => by simp)
theorem execDescribe_mem {p : Nat} {l : Nat} {r : Nat} {s : State} {s1 : State} (h : execDescribe p l r s = .next s1) : s1.mem = s.mem := by
  unfold execDescribe at h
  cases h
  exact State.ingest_mem _ _ _ _ _ _ (fun _ _ => by simp) (fun _ _ => by simp)
theorem execInstallRecipe_mem {p : Nat} {l : Nat} {r : Nat} {s : State} {s1 : State} (h : execInstallRecipe p l r s = .next s1) : s1.mem = s.mem := by
  unfold execInstallRecipe at h
  cases h
  exact State.ingest_mem _ _ _ _ _ _ (fun _ _ => by simp) (fun _ _ => by simp)
theorem execRemoveRecipe_mem {p : Nat} {l : Nat} {r : Nat} {s : State} {s1 : State} (h : execRemoveRecipe p l r s = .next s1) : s1.mem = s.mem := by
  unfold execRemoveRecipe at h
  cases h
  exact State.ingest_mem _ _ _ _ _ _ (fun _ _ => by simp) (fun _ _ => by simp)
theorem execRecipeIdFree_mem {tenant : Nat} {id : Nat} {s : State} {s1 : State} (h : execRecipeIdFree tenant id s = .next s1) : s1.mem = s.mem := by
  unfold execRecipeIdFree at h
  repeat' split at h
  all_goals (cases h; simp)
theorem execComposedRecipe_mem {p : Nat} {l : Nat} {r : Nat} {s : State} {s1 : State} (h : execComposedRecipe p l r s = .next s1) : s1.mem = s.mem := by
  unfold execComposedRecipe at h
  cases h
  exact State.ingest_mem _ _ _ _ _ _ (fun _ _ => by simp) (fun _ _ => by simp)
theorem execTileReceive_mem {q : Nat} {t : Tile} {s : State} {s1 : State} (h : execTileReceive q t s = .next s1) : s1.mem = s.mem := by
  unfold execTileReceive at h
  (try dsimp only at h)
  repeat' split at h
  all_goals (simp only [Host.Outcome.next.injEq] at h; subst h)
  all_goals repeat' first
    | with_reducible rfl
    | (simp; done)
    | (refine (mem_foldl _ _ _ (fun a x => ?_)).trans ?_)
    | (refine (mem_fold1 _ _ _ (fun a x => ?_)).trans ?_)
    | (refine (mem_fold2 _ _ _ (fun a x => ?_)).trans ?_)
    | (refine State.ingest_mem _ _ _ _ _ _ (fun u c => ?_) (fun u c => ?_))
    | (refine State.sessionWrite_mem _ _ _ _ _ _ (fun u => ?_))
    | (refine State.request_mem _ _ _ _ _ _ (fun u => ?_))
    | split
    | simp [*]
theorem execTierDemotion_mem {tier : Nat} {s : State} {s1 : State} (h : execTierDemotion tier s = .next s1) : s1.mem = s.mem := by
  unfold execTierDemotion at h
  repeat' split at h
  all_goals (cases h; simp)
theorem execPageMoveComplete_mem {page : Nat} {s : State} {s1 : State} (h : execPageMoveComplete page s = .next s1) : s1.mem = s.mem := by
  unfold execPageMoveComplete at h
  repeat' split at h
  all_goals (cases h; simp)
theorem execPageReadFail_mem {page : Nat} {tier : Nat} {revoked : Bool} {codeError : Bool} {s : State} {s1 : State} (h : execPageReadFail page tier revoked codeError s = .next s1) : s1.mem = s.mem := by
  unfold execPageReadFail at h
  (try dsimp only at h)
  repeat' split at h
  all_goals (cases h; simp [*])
theorem execSealCoding_mem {page : Nat} {s : State} {s1 : State} (h : execSealCoding page s = .next s1) : s1.mem = s.mem := by
  unfold execSealCoding at h
  (try dsimp only at h)
  repeat' split at h
  all_goals (cases h; simp [*])
theorem execPaletteTraining_mem {tenant : Nat} {set : Nat} {s : State} {s1 : State} (h : execPaletteTraining tenant set s = .next s1) : s1.mem = s.mem := by
  unfold execPaletteTraining at h
  (try dsimp only at h)
  repeat' split at h
  all_goals (cases h; simp [*])
theorem execSweepRecode_mem {die : Nat} {s : State} {s1 : State} (h : execSweepRecode die s = .next s1) : s1.mem = s.mem := by
  unfold execSweepRecode at h
  (try dsimp only at h)
  repeat' split at h
  all_goals (cases h; simp [*])
theorem execSlotFree_mem {slot : Nat} {s : State} {s1 : State} (h : execSlotFree slot s = .next s1) : s1.mem = s.mem := by
  unfold execSlotFree at h
  repeat' split at h
  all_goals (cases h; simp)
theorem execMapGossip_mem {q : Nat} {m : FMap} {resetting : Option Nat} {s : State} {s1 : State} (h : execMapGossip q m resetting s = .next s1) : s1.mem = s.mem := by
  unfold execMapGossip at h
  (try dsimp only at h)
  repeat' split at h
  all_goals (cases h; simp [*])
theorem execMapLossTimeout_mem {dev : Nat} {s : State} {s1 : State} (h : execMapLossTimeout dev s = .next s1) : s1.mem = s.mem := by
  unfold execMapLossTimeout at h
  repeat' split at h
  all_goals (cases h; simp)
theorem execHandoffReceive_mem {src : Nat} {seqs : List SeqImage} {entries : List PrefixImage} {s : State} {s1 : State} (h : execHandoffReceive src seqs entries s = .next s1) : s1.mem = s.mem := by
  unfold execHandoffReceive at h
  (try dsimp only at h)
  repeat' split at h
  all_goals (simp only [Host.Outcome.next.injEq] at h; subst h)
  all_goals repeat' first
    | with_reducible rfl
    | (simp; done)
    | (refine (mem_foldl _ _ _ (fun a x => ?_)).trans ?_)
    | (refine (mem_fold1 _ _ _ (fun a x => ?_)).trans ?_)
    | (refine (mem_fold2 _ _ _ (fun a x => ?_)).trans ?_)
    | (refine State.ingest_mem _ _ _ _ _ _ (fun u c => ?_) (fun u c => ?_))
    | (refine State.sessionWrite_mem _ _ _ _ _ _ (fun u => ?_))
    | (refine State.request_mem _ _ _ _ _ _ (fun u => ?_))
    | split
    | simp [*]
theorem execHandoffAck_mem {src : Nat} {s : State} {s1 : State} (h : execHandoffAck src s = .next s1) : s1.mem = s.mem := by
  unfold execHandoffAck at h
  (try dsimp only at h)
  repeat' split at h
  all_goals (simp only [Host.Outcome.next.injEq] at h; subst h)
  all_goals repeat' first
    | with_reducible rfl
    | (simp; done)
    | (refine (mem_foldl _ _ _ (fun a x => ?_)).trans ?_)
    | (refine (mem_fold1 _ _ _ (fun a x => ?_)).trans ?_)
    | (refine (mem_fold2 _ _ _ (fun a x => ?_)).trans ?_)
    | (refine State.ingest_mem _ _ _ _ _ _ (fun u c => ?_) (fun u c => ?_))
    | (refine State.sessionWrite_mem _ _ _ _ _ _ (fun u => ?_))
    | (refine State.request_mem _ _ _ _ _ _ (fun u => ?_))
    | split
    | simp [*]
theorem execCatchUpComplete_mem {fabTag : Nat} {seqId : Nat} {s : State} {s1 : State} (h : execCatchUpComplete fabTag seqId s = .next s1) : s1.mem = s.mem := by
  unfold execCatchUpComplete at h
  (try dsimp only at h)
  repeat' split at h
  all_goals (cases h; simp [*])
theorem execLinkMessage_mem {k : Sys2Proof.GroupLink} {s : Sys2Proof.Machine.State} {s1 : State} (h : execLinkMessage k s = .next s1) : s1.mem = s.mem := by
  unfold execLinkMessage at h
  (try dsimp only at h)
  repeat' split at h
  all_goals (simp only [Host.Outcome.next.injEq] at h; subst h)
  all_goals repeat' first
    | with_reducible rfl
    | (simp; done)
    | (refine (mem_foldl _ _ _ (fun a x => ?_)).trans ?_)
    | (refine (mem_fold1 _ _ _ (fun a x => ?_)).trans ?_)
    | (refine (mem_fold2 _ _ _ (fun a x => ?_)).trans ?_)
    | (refine State.ingest_mem _ _ _ _ _ _ (fun u c => ?_) (fun u c => ?_))
    | (refine State.sessionWrite_mem _ _ _ _ _ _ (fun u => ?_))
    | (refine State.request_mem _ _ _ _ _ _ (fun u => ?_))
    | split
    | simp [*]
theorem execTenantEnable_mem {sid : Nat} {s : State} {s1 : State} (h : execTenantEnable sid s = .next s1) : s1.mem = s.mem := by
  unfold execTenantEnable at h
  cases h
  exact State.sessionWrite_mem _ _ _ _ _ _ (fun _ => by simp)
theorem execTenantDisable_mem {sid : Nat} {s : State} {s1 : State} (h : execTenantDisable sid s = .next s1) : s1.mem = s.mem := by
  unfold execTenantDisable at h
  cases h
  exact State.sessionWrite_mem _ _ _ _ _ _ (fun _ => by simp)
theorem execShapeWrite_mem {sid : Nat} {sub : Nat} {value : Nat} {s : State} {s1 : State} (h : execShapeWrite sid sub value s = .next s1) : s1.mem = s.mem := by
  unfold execShapeWrite at h
  (try dsimp only at h)
  repeat' split at h
  all_goals (simp only [Host.Outcome.next.injEq] at h; subst h)
  all_goals repeat' first
    | with_reducible rfl
    | (simp; done)
    | (refine (mem_foldl _ _ _ (fun a x => ?_)).trans ?_)
    | (refine (mem_fold1 _ _ _ (fun a x => ?_)).trans ?_)
    | (refine (mem_fold2 _ _ _ (fun a x => ?_)).trans ?_)
    | (refine State.ingest_mem _ _ _ _ _ _ (fun u c => ?_) (fun u c => ?_))
    | (refine State.sessionWrite_mem _ _ _ _ _ _ (fun u => ?_))
    | (refine State.request_mem _ _ _ _ _ _ (fun u => ?_))
    | split
    | simp [*]
theorem execLdEnable_mem {sid : Nat} {p : Nat} {l : Nat} {s : State} {s1 : State} (h : execLdEnable sid p l s = .next s1) : s1.mem = s.mem := by
  unfold execLdEnable at h
  (try dsimp only at h)
  repeat' split at h
  all_goals (simp only [Host.Outcome.next.injEq] at h; subst h)
  all_goals repeat' first
    | with_reducible rfl
    | (simp; done)
    | (refine (mem_foldl _ _ _ (fun a x => ?_)).trans ?_)
    | (refine (mem_fold1 _ _ _ (fun a x => ?_)).trans ?_)
    | (refine (mem_fold2 _ _ _ (fun a x => ?_)).trans ?_)
    | (refine State.ingest_mem _ _ _ _ _ _ (fun u c => ?_) (fun u c => ?_))
    | (refine State.sessionWrite_mem _ _ _ _ _ _ (fun u => ?_))
    | (refine State.request_mem _ _ _ _ _ _ (fun u => ?_))
    | split
    | simp [*]
theorem execLdDisable_mem {sid : Nat} {p : Nat} {l : Nat} {s : State} {s1 : State} (h : execLdDisable sid p l s = .next s1) : s1.mem = s.mem := by
  unfold execLdDisable at h
  (try dsimp only at h)
  repeat' split at h
  all_goals (simp only [Host.Outcome.next.injEq] at h; subst h)
  all_goals repeat' first
    | with_reducible rfl
    | (simp; done)
    | (refine (mem_foldl _ _ _ (fun a x => ?_)).trans ?_)
    | (refine (mem_fold1 _ _ _ (fun a x => ?_)).trans ?_)
    | (refine (mem_fold2 _ _ _ (fun a x => ?_)).trans ?_)
    | (refine State.ingest_mem _ _ _ _ _ _ (fun u c => ?_) (fun u c => ?_))
    | (refine State.sessionWrite_mem _ _ _ _ _ _ (fun u => ?_))
    | (refine State.request_mem _ _ _ _ _ _ (fun u => ?_))
    | split
    | simp [*]
theorem execGetTdispVersion_mem {p : Nat} {l : Nat} {s : State} {s1 : State} (h : execGetTdispVersion p l s = .next s1) : s1.mem = s.mem := by
  unfold execGetTdispVersion at h
  cases h
  simp
theorem execGetTdispCapabilities_mem {p : Nat} {l : Nat} {s : State} {s1 : State} (h : execGetTdispCapabilities p l s = .next s1) : s1.mem = s.mem := by
  unfold execGetTdispCapabilities at h
  cases h
  simp
theorem execLockInterfaceRequest_mem {p : Nat} {l : Nat} {s : State} {s1 : State} (h : execLockInterfaceRequest p l s = .next s1) : s1.mem = s.mem := by
  unfold execLockInterfaceRequest at h
  (try dsimp only at h)
  repeat' split at h
  all_goals (cases h; simp [*])
theorem execGetDeviceInterfaceReport_mem {p : Nat} {l : Nat} {s : State} {s1 : State} (h : execGetDeviceInterfaceReport p l s = .next s1) : s1.mem = s.mem := by
  unfold execGetDeviceInterfaceReport at h
  (try dsimp only at h)
  repeat' split at h
  all_goals (cases h; simp [*])
theorem execGetDeviceInterfaceState_mem {p : Nat} {l : Nat} {s : State} {s1 : State} (h : execGetDeviceInterfaceState p l s = .next s1) : s1.mem = s.mem := by
  unfold execGetDeviceInterfaceState at h
  cases h
  simp
theorem execStartInterfaceRequest_mem {p : Nat} {l : Nat} {s : State} {s1 : State} (h : execStartInterfaceRequest p l s = .next s1) : s1.mem = s.mem := by
  unfold execStartInterfaceRequest at h
  (try dsimp only at h)
  repeat' split at h
  all_goals (cases h; simp [*])
theorem execStopInterfaceRequest_mem {p : Nat} {l : Nat} {s : State} {s1 : State} (h : execStopInterfaceRequest p l s = .next s1) : s1.mem = s.mem := by
  unfold execStopInterfaceRequest at h
  repeat' split at h
  all_goals (cases h; simp)
theorem execTdiError_mem {p : Nat} {what : TdiCause} {s : State} {s1 : State} (h : execTdiError p what s = .next s1) : s1.mem = s.mem := by
  unfold execTdiError at h
  cases h
  repeat' first | with_reducible rfl | split | simp [*]
theorem execIdeKmKeyProg_mem {p : Nat} {stream : Nat} {keySet : Nat} {key : IdeKey} {s : State} {s1 : State} (h : execIdeKmKeyProg p stream keySet key s = .next s1) : s1.mem = s.mem := by
  unfold execIdeKmKeyProg at h
  repeat' split at h
  all_goals (cases h; simp)
theorem execKSetGo_mem {p : Nat} {stream : Nat} {s : State} {s1 : State} (h : execKSetGo p stream s = .next s1) : s1.mem = s.mem := by
  unfold execKSetGo at h
  cases h
  repeat' first | with_reducible rfl | split | simp [*]
theorem execNonceExpiry_mem {nonce : Nat} {s : State} {s1 : State} (h : execNonceExpiry nonce s = .next s1) : s1.mem = s.mem := by
  unfold execNonceExpiry at h
  repeat' split at h
  all_goals (cases h; simp)
theorem execShadowCompare_mem {engine : Nat} {shadow : Nat} {third : Nat} {cmd : Nat} {item : Nat} {thirdAvailable : Bool} {equal : Bool} {s : State} {s1 : State} (h : execShadowCompare engine shadow third cmd item thirdAvailable equal s = .next s1) : s1.mem = s.mem := by
  unfold execShadowCompare at h
  extract_lets d g s1 s2 v src at h
  have e1 : s1.mem = s.mem := (State.sample_mem _ _ _ _).trans ((State.drawNs_mem _).trans (State.bump_mem _ _ _ _))
  clear_value s1 g
  have e2 : s2.mem = s.mem := (State.flag_mem _ _ _ _).trans ((State.bump_mem _ _ _ _).trans e1)
  clear_value s2
  repeat' split at h
  all_goals (simp only [Host.Outcome.next.injEq] at h; subst h)
  all_goals simp [e1, e2]
theorem execShadowVote_mem {cmd : Nat} {item : Nat} {minority : Option Nat} {s : State} {s1 : State} (h : execShadowVote cmd item minority s = .next s1) : s1.mem = s.mem := by
  unfold execShadowVote at h
  (try dsimp only at h)
  repeat' split at h
  all_goals (cases h; simp [*])
theorem execEngineHardEvent_mem {e : Nat} {s : State} {s1 : State} (h : execEngineHardEvent e s = .next s1) : s1.mem = s.mem := by
  unfold execEngineHardEvent at h
  repeat' split at h
  all_goals (cases h; simp)
theorem execEngineWatchdog_mem {e : Nat} {s : State} {s1 : State} (h : execEngineWatchdog e s = .next s1) : s1.mem = s.mem := by
  unfold execEngineWatchdog at h
  repeat' split at h
  all_goals (cases h; simp)
theorem execEngineSelftestDone_mem {e : Nat} {ok : Bool} {s : State} {s1 : State} (h : execEngineSelftestDone e ok s = .next s1) : s1.mem = s.mem := by
  unfold execEngineSelftestDone at h
  repeat' split at h
  all_goals (cases h; simp)
theorem execEngineDrained_mem {e : Nat} {s : State} {s1 : State} (h : execEngineDrained e s = .next s1) : s1.mem = s.mem := by
  unfold execEngineDrained at h
  repeat' split at h
  all_goals (cases h; simp)
theorem execMemoryError_mem {u : MemUnit} {corrected : Bool} {s : State} {s1 : State} (h : execMemoryError u corrected s = .next s1) : s1.mem = s.mem := by
  unfold execMemoryError at h
  (try dsimp only at h)
  repeat' split at h
  all_goals (cases h; simp [*])
theorem execHbmChannelMoveDone_mem {die : Nat} {channel : Nat} {s : State} {s1 : State} (h : execHbmChannelMoveDone die channel s = .next s1) : s1.mem = s.mem := by
  unfold execHbmChannelMoveDone at h
  cases h
  simp
theorem execD2dWireFault_mem {dieA : Nat} {dieB : Nat} {member : Nat} {s : State} {s1 : State} (h : execD2dWireFault dieA dieB member s = .next s1) : s1.mem = s.mem := by
  unfold execD2dWireFault at h
  (try dsimp only at h)
  repeat' split at h
  all_goals (cases h; simp [*])
theorem execDieLoss_mem {die : Nat} {s : State} {s1 : State} (h : execDieLoss die s = .next s1) : s1.mem = s.mem := by
  unfold execDieLoss at h
  repeat' split at h
  all_goals (cases h; simp)
theorem execDieReturn_mem {die : Nat} {s : State} {s1 : State} (h : execDieReturn die s = .next s1) : s1.mem = s.mem := by
  unfold execDieReturn at h
  repeat' split at h
  all_goals (cases h; simp)
theorem execSelftest_mem {sid : Nat} {value : Nat} {s : State} {s1 : State} (h : execSelftest sid value s = .next s1) : s1.mem = s.mem := by
  unfold execSelftest at h
  cases h
  exact State.sessionWrite_mem _ _ _ _ _ _ (fun _ => by simp)
theorem execSelftestComplete_mem {failDie : Option Nat} {s : State} {s1 : State} (h : execSelftestComplete failDie s = .next s1) : s1.mem = s.mem := by
  unfold execSelftestComplete at h
  (try dsimp only at h)
  repeat' split at h
  all_goals (cases h; simp [*])
theorem execAdmitLoaded_mem {spillGroups : List (Nat × Bool)} {s : State} {s1 : State} (h : execAdmitLoaded spillGroups s = .next s1) : s1.mem = s.mem := by
  unfold execAdmitLoaded at h
  (try dsimp only at h)
  repeat' split at h
  all_goals (simp only [Host.Outcome.next.injEq] at h; subst h)
  all_goals repeat' first
    | with_reducible rfl
    | (simp; done)
    | (refine (mem_foldl _ _ _ (fun a x => ?_)).trans ?_)
    | (refine (mem_fold1 _ _ _ (fun a x => ?_)).trans ?_)
    | (refine (mem_fold2 _ _ _ (fun a x => ?_)).trans ?_)
    | (refine State.ingest_mem _ _ _ _ _ _ (fun u c => ?_) (fun u c => ?_))
    | (refine State.sessionWrite_mem _ _ _ _ _ _ (fun u => ?_))
    | (refine State.request_mem _ _ _ _ _ _ (fun u => ?_))
    | split
    | simp [*]
theorem execDtlsHandshake_mem {port : Nat} {configured : Bool} {cert : ClientCert} {s : State} {s1 : State} (h : execDtlsHandshake port configured cert s = .next s1) : s1.mem = s.mem := by
  unfold execDtlsHandshake at h
  cases h
  simp
theorem execSessionIdleTimeout_mem {sid : Nat} {s : State} {s1 : State} (h : execSessionIdleTimeout sid s = .next s1) : s1.mem = s.mem := by
  unfold execSessionIdleTimeout at h
  repeat' split at h
  all_goals (cases h; simp)
theorem execGet_mem {sid : Nat} {reqId : Nat} {entries : List GetEntry} {s : State} {s1 : State} (h : execGet sid reqId entries s = .next s1) : s1.mem = s.mem := by
  unfold execGet at h
  (try dsimp only at h)
  repeat' split at h
  all_goals (simp only [Host.Outcome.next.injEq] at h; subst h)
  all_goals repeat' first
    | with_reducible rfl
    | (simp; done)
    | (refine (mem_foldl _ _ _ (fun a x => ?_)).trans ?_)
    | (refine (mem_fold1 _ _ _ (fun a x => ?_)).trans ?_)
    | (refine (mem_fold2 _ _ _ (fun a x => ?_)).trans ?_)
    | (refine State.ingest_mem _ _ _ _ _ _ (fun u c => ?_) (fun u c => ?_))
    | (refine State.sessionWrite_mem _ _ _ _ _ _ (fun u => ?_))
    | (refine State.request_mem _ _ _ _ _ _ (fun u => ?_))
    | split
    | simp [*]
theorem execPropose_mem {sid : Nat} {reqId : Nat} {idx : Nat} {sub : Nat} {flags : Nat} {off : Nat} {val : Bytes} {s : State} {s1 : State} (h : execPropose sid reqId idx sub flags off val s = .next s1) : s1.mem = s.mem := by
  unfold execPropose at h
  (try dsimp only at h)
  repeat' split at h
  all_goals (simp only [Host.Outcome.next.injEq] at h; subst h)
  all_goals repeat' first
    | with_reducible rfl
    | (simp; done)
    | (refine (mem_foldl _ _ _ (fun a x => ?_)).trans ?_)
    | (refine (mem_fold1 _ _ _ (fun a x => ?_)).trans ?_)
    | (refine (mem_fold2 _ _ _ (fun a x => ?_)).trans ?_)
    | (refine State.ingest_mem _ _ _ _ _ _ (fun u c => ?_) (fun u c => ?_))
    | (refine State.sessionWrite_mem _ _ _ _ _ _ (fun u => ?_))
    | (refine State.request_mem _ _ _ _ _ _ (fun u => ?_))
    | split
    | simp [*]
theorem execSubscribe_mem {sid : Nat} {reqId : Nat} {mask : Nat} {s : State} {s1 : State} (h : execSubscribe sid reqId mask s = .next s1) : s1.mem = s.mem := by
  unfold execSubscribe at h
  cases h
  exact State.request_mem _ _ _ _ _ _ (fun _ => by simp)
theorem execKeepalive_mem {sid : Nat} {reqId : Nat} {s : State} {s1 : State} (h : execKeepalive sid reqId s = .next s1) : s1.mem = s.mem := by
  unfold execKeepalive at h
  cases h
  exact State.request_mem _ _ _ _ _ _ (fun _ => by simp)
theorem execDropped_mem {sid : Nat} {s : State} {s1 : State} (h : execDropped sid s = .next s1) : s1.mem = s.mem := by
  unfold execDropped at h
  repeat' split at h
  all_goals (cases h; simp)
theorem execRelayGet_mem {r : RelayMsg} {s : State} {s1 : State} (h : execRelayGet r s = .next s1) : s1.mem = s.mem := by
  unfold execRelayGet at h
  repeat' split at h
  all_goals (cases h; simp)
theorem execRelayTimeout_mem {sid : Nat} {reqId : Nat} {s : State} {s1 : State} (h : execRelayTimeout sid reqId s = .next s1) : s1.mem = s.mem := by
  unfold execRelayTimeout at h
  repeat' split at h
  all_goals (cases h; simp)
theorem execReadWord_mem {ctrl : Nat} {cmd : Nat} {idx : Nat} {sub : Nat} {word : Nat} {s : State} {s1 : State} (h : execReadWord ctrl cmd idx sub word s = .next s1) : s1.mem = s.mem := by
  unfold execReadWord at h
  repeat' split at h
  all_goals (cases h; simp)
theorem execAddrDup_mem {port : Nat} {configured : Bool} {s : State} {s1 : State} (h : execAddrDup port configured s = .next s1) : s1.mem = s.mem := by
  unfold execAddrDup at h
  repeat' split at h
  all_goals (cases h; simp)
theorem execSnapshotTake_mem {sid : Nat} {reqId : Nat} {t : Nat} {clear : Bool} {s : State} {s1 : State} (h : execSnapshotTake sid reqId t clear s = .next s1) : s1.mem = s.mem := by
  unfold execSnapshotTake at h
  cases h
  exact State.request_mem _ _ _ _ _ _ (fun _ => by simp)
theorem execSnapshotRead_mem {sid : Nat} {reqId : Nat} {id : Nat} {entries : List GetEntry} {s : State} {s1 : State} (h : execSnapshotRead sid reqId id entries s = .next s1) : s1.mem = s.mem := by
  unfold execSnapshotRead at h
  (try dsimp only at h)
  repeat' split at h
  all_goals (simp only [Host.Outcome.next.injEq] at h; subst h)
  all_goals repeat' first
    | with_reducible rfl
    | (simp; done)
    | (refine (mem_foldl _ _ _ (fun a x => ?_)).trans ?_)
    | (refine (mem_fold1 _ _ _ (fun a x => ?_)).trans ?_)
    | (refine (mem_fold2 _ _ _ (fun a x => ?_)).trans ?_)
    | (refine State.ingest_mem _ _ _ _ _ _ (fun u c => ?_) (fun u c => ?_))
    | (refine State.sessionWrite_mem _ _ _ _ _ _ (fun u => ?_))
    | (refine State.request_mem _ _ _ _ _ _ (fun u => ?_))
    | split
    | simp [*]
theorem execSnapshotCancel_mem {sid : Nat} {reqId : Nat} {id : Nat} {s : State} {s1 : State} (h : execSnapshotCancel sid reqId id s = .next s1) : s1.mem = s.mem := by
  unfold execSnapshotCancel at h
  cases h
  exact State.request_mem _ _ _ _ _ _ (fun _ => by simp)
theorem execSnapshotEdge_mem {id : Nat} {s : State} {s1 : State} (h : execSnapshotEdge id s = .next s1) : s1.mem = s.mem := by
  unfold execSnapshotEdge at h
  repeat' split at h
  all_goals (cases h; simp)
theorem execRefclkRestored_mem {clk : Nat} {s : State} {s1 : State} (h : execRefclkRestored clk s = .next s1) : s1.mem = s.mem := by
  unfold execRefclkRestored at h
  (try dsimp only at h)
  repeat' split at h
  all_goals (simp only [Host.Outcome.next.injEq] at h; subst h)
  all_goals repeat' first
    | with_reducible rfl
    | (simp; done)
    | (refine (mem_foldl _ _ _ (fun a x => ?_)).trans ?_)
    | (refine (mem_fold1 _ _ _ (fun a x => ?_)).trans ?_)
    | (refine (mem_fold2 _ _ _ (fun a x => ?_)).trans ?_)
    | (refine State.ingest_mem _ _ _ _ _ _ (fun u c => ?_) (fun u c => ?_))
    | (refine State.sessionWrite_mem _ _ _ _ _ _ (fun u => ?_))
    | (refine State.request_mem _ _ _ _ _ _ (fun u => ?_))
    | split
    | simp [*]
theorem execPeerSignalDetect_mem {q : Nat} {s : State} {s1 : State} (h : execPeerSignalDetect q s = .next s1) : s1.mem = s.mem := by
  unfold execPeerSignalDetect at h
  repeat' split at h
  all_goals (cases h; simp)
theorem execFastRetrainDone_mem {q : Nat} {s : State} {s1 : State} (h : execFastRetrainDone q s = .next s1) : s1.mem = s.mem := by
  unfold execFastRetrainDone at h
  repeat' split at h
  all_goals (cases h; simp)
theorem execPeerPortDisable_mem {sid : Nat} {q : Nat} {s : State} {s1 : State} (h : execPeerPortDisable sid q s = .next s1) : s1.mem = s.mem := by
  unfold execPeerPortDisable at h
  (try dsimp only at h)
  repeat' split at h
  all_goals (simp only [Host.Outcome.next.injEq] at h; subst h)
  all_goals repeat' first
    | with_reducible rfl
    | (simp; done)
    | (refine (mem_foldl _ _ _ (fun a x => ?_)).trans ?_)
    | (refine (mem_fold1 _ _ _ (fun a x => ?_)).trans ?_)
    | (refine (mem_fold2 _ _ _ (fun a x => ?_)).trans ?_)
    | (refine State.ingest_mem _ _ _ _ _ _ (fun u c => ?_) (fun u c => ?_))
    | (refine State.sessionWrite_mem _ _ _ _ _ _ (fun u => ?_))
    | (refine State.request_mem _ _ _ _ _ _ (fun u => ?_))
    | split
    | simp [*]
theorem execFlexLinkDown_mem {p : Nat} {s : State} {s1 : State} (h : execFlexLinkDown p s = .next s1) : s1.mem = s.mem := by
  unfold execFlexLinkDown at h
  repeat' split at h
  all_goals (cases h; simp)
theorem execCollChunkAbort_mem {k : Sys2Proof.ChunkAbort} {s : Sys2Proof.Machine.State} {s1 : State} (h : execCollChunkAbort k s = .next s1) : s1.mem = s.mem := by
  unfold execCollChunkAbort at h
  (try dsimp only at h)
  repeat' split at h
  all_goals (simp only [Host.Outcome.next.injEq] at h; subst h)
  all_goals repeat' first
    | with_reducible rfl
    | (simp; done)
    | (refine (mem_foldl _ _ _ (fun a x => ?_)).trans ?_)
    | (refine (mem_fold1 _ _ _ (fun a x => ?_)).trans ?_)
    | (refine (mem_fold2 _ _ _ (fun a x => ?_)).trans ?_)
    | (refine State.ingest_mem _ _ _ _ _ _ (fun u c => ?_) (fun u c => ?_))
    | (refine State.sessionWrite_mem _ _ _ _ _ _ (fun u => ?_))
    | (refine State.request_mem _ _ _ _ _ _ (fun u => ?_))
    | split
    | simp [*]
theorem execUnknownRecipe_mem {p : Nat} {l : Nat} {r : Nat} {s : State} {s1 : State} (h : execUnknownRecipe p l r s = .next s1) : s1.mem = s.mem := by
  unfold execUnknownRecipe at h
  split at h
  · simp only [Host.Outcome.next.injEq] at h; subst h; rfl
  · rename_i hr
    have e1 := State.turn_mem hr
    (try dsimp only at h)
    repeat' split at h
    all_goals (simp only [Host.Outcome.next.injEq] at h; subst h)
    all_goals (try split) <;> simp [e1]
theorem execSyncTimer_mem {s : State} {s1 : State} (h : execSyncTimer s = .next s1) : s1.mem = s.mem := by
  unfold execSyncTimer at h
  repeat' split at h
  all_goals (cases h; simp)
theorem execMapGossipTimer_mem {s : State} {s1 : State} (h : execMapGossipTimer s = .next s1) : s1.mem = s.mem := by
  unfold execMapGossipTimer at h
  repeat' split at h
  all_goals (cases h; simp)
theorem execHandoffTimeout_mem {s : State} {s1 : State} (h : execHandoffTimeout s = .next s1) : s1.mem = s.mem := by
  unfold execHandoffTimeout at h
  (try dsimp only at h)
  repeat' split at h
  all_goals (cases h; simp [*])
theorem execShaperRefill_mem {s : State} {s1 : State} (h : execShaperRefill s = .next s1) : s1.mem = s.mem := by
  unfold execShaperRefill at h
  cases h
  simp
theorem execReportWindowEnd_mem {s : State} {s1 : State} (h : execReportWindowEnd s = .next s1) : s1.mem = s.mem := by
  unfold execReportWindowEnd at h
  cases h
  simp
theorem execClaimWindowExpiry_mem {s : State} {s1 : State} (h : execClaimWindowExpiry s = .next s1) : s1.mem = s.mem := by
  unfold execClaimWindowExpiry at h
  repeat' split at h
  all_goals (cases h; simp)
theorem execHealthWindowEnd_mem {s : State} {s1 : State} (h : execHealthWindowEnd s = .next s1) : s1.mem = s.mem := by
  unfold execHealthWindowEnd at h
  simp only [Host.Outcome.next.injEq] at h
  subst h
  exact (State.windowFlags_mem _).trans ((mem_foldl _ _ _ (fun a x => State.symbolWindow_mem _ _)).trans ((State.setObj_mem _ _ _ _).trans (State.atTime_mem s ((s.rel.windowAt / 1000000000 + 1) * 1000000000))))
theorem execStepBoundary_mem {s : State} {s1 : State} (h : execStepBoundary s = .next s1) : s1.mem = s.mem := by
  unfold execStepBoundary at h
  (try dsimp only at h)
  repeat' split at h
  all_goals (cases h; simp [*])
theorem execWarmHoldExpiry_mem {s : State} {s1 : State} (h : execWarmHoldExpiry s = .next s1) : s1.mem = s.mem := by
  unfold execWarmHoldExpiry at h
  cases h
  repeat' first | with_reducible rfl | split | simp [*]
theorem execPowerTransitionDone_mem {s : State} {s1 : State} (h : execPowerTransitionDone s = .next s1) : s1.mem = s.mem := by
  unfold execPowerTransitionDone at h
  cases h
  simp
theorem execPor_wf {mv : Nat} {straps : Nat} {dbgEn : Bool} {s : State} {s1 : State} (h : execPor mv straps dbgEn s = .next s1) (hm : Memory.wf s.mem = true) : Memory.wf s1.mem = true := by
  simp only [execPor, Host.Outcome.next.injEq] at h
  subst h
  split
  · exact State.porReset_wf _ _ _ _
  · exact hm
theorem execModrstNPulse_wf {ns : Nat} {s : Sys2Proof.Machine.State} {s1 : State} (h : execModrstNPulse ns s = .next s1) (hm : Memory.wf s.mem = true) : Memory.wf s1.mem = true := by
  unfold execModrstNPulse at h
  (try dsimp only at h)
  repeat' split at h
  all_goals (simp only [Host.Outcome.next.injEq] at h; subst h)
  all_goals repeat' first
    | exact hm
    | (simp [hm]; done)
    | (simp only [State.releaseParts_mem, State.settleAttend_mem, State.settlePublish_mem, State.sample_mem, State.flag_mem, State.atTime_mem])
    | (refine State.quorumRow_wf _ _ _ _ _ _ ?_)
    | (refine State.sessWrite_wf _ _ _ _ _ ?_)
    | (refine State.signMsg_wf _ _ _ _ _ _ ?_)
    | (refine State.atomicAt_wf _ _ _ ?_)
    | (refine State.scrubbed_wf _ _ _ ?_)
    | (refine State.applyWrite_wf _ _ _ ?_)
    | (refine State.resetEnd_wf _ _ ?_)
    | (refine State.moduleReset_wf _ ?_)
    | (refine State.modrstLow_wf _ _ ?_)
    | (refine State.modrst_wf _ ?_)
    | (refine State.settleOrdered_wf _ ?_)
    | (refine State.setEntry_wf _ _ _ ?_)
    | (refine State.ingest_wf _ _ _ _ _ _ (fun _ _ => by simp) (fun _ _ hu => State.bwdStart_wf _ _ hu) ?_)
    | (refine State.request_wf _ _ _ _ _ _ (fun _ hu => State.setAll_wf _ _ _ hu) ?_)
    | split
theorem execOverVoltageShutdown_wf {mv : Nat} {s : State} {s1 : State} (h : execOverVoltageShutdown mv s = .next s1) (hm : Memory.wf s.mem = true) : Memory.wf s1.mem = true := by
  simp only [execOverVoltageShutdown, Host.Outcome.next.injEq] at h
  subst h
  split
  · exact State.powerOff_wf _ _
  · exact hm
theorem execUnderVoltageLockout_wf {mv : Nat} {s : State} {s1 : State} (h : execUnderVoltageLockout mv s = .next s1) (hm : Memory.wf s.mem = true) : Memory.wf s1.mem = true := by
  simp only [execUnderVoltageLockout, Host.Outcome.next.injEq] at h
  subst h
  split
  · exact State.powerOff_wf _ _
  · exact hm
theorem execScrubComplete_wf {eid : Nat} {s : State} {s1 : State} (h : execScrubComplete eid s = .next s1) (hm : Memory.wf s.mem = true) : Memory.wf s1.mem = true := by
  unfold execScrubComplete at h
  (try dsimp only at h)
  repeat' split at h
  all_goals (simp only [Host.Outcome.next.injEq] at h; subst h)
  all_goals repeat' first
    | exact hm
    | (simp [hm]; done)
    | (simp only [State.releaseParts_mem, State.settleAttend_mem, State.settlePublish_mem, State.sample_mem, State.flag_mem, State.atTime_mem])
    | (refine State.quorumRow_wf _ _ _ _ _ _ ?_)
    | (refine State.sessWrite_wf _ _ _ _ _ ?_)
    | (refine State.signMsg_wf _ _ _ _ _ _ ?_)
    | (refine State.atomicAt_wf _ _ _ ?_)
    | (refine State.scrubbed_wf _ _ _ ?_)
    | (refine State.applyWrite_wf _ _ _ ?_)
    | (refine State.resetEnd_wf _ _ ?_)
    | (refine State.moduleReset_wf _ ?_)
    | (refine State.modrst_wf _ ?_)
    | (refine State.settleOrdered_wf _ ?_)
    | (refine State.setEntry_wf _ _ _ ?_)
    | (refine State.ingest_wf _ _ _ _ _ _ (fun _ _ => by simp) (fun _ _ hu => State.bwdStart_wf _ _ hu) ?_)
    | (refine State.request_wf _ _ _ _ _ _ (fun _ hu => State.setAll_wf _ _ _ hu) ?_)
    | split
theorem execMemWriteApply_wf {wid : Nat} {s : State} {s1 : State} (h : execMemWriteApply wid s = .next s1) (hm : Memory.wf s.mem = true) : Memory.wf s1.mem = true := by
  unfold execMemWriteApply at h
  (try dsimp only at h)
  repeat' split at h
  all_goals (simp only [Host.Outcome.next.injEq] at h; subst h)
  all_goals repeat' first
    | exact hm
    | (simp [hm]; done)
    | (simp only [State.releaseParts_mem, State.settleAttend_mem, State.sendReady_mem, State.settlePublish_mem, State.sample_mem, State.flag_mem, State.atTime_mem])
    | (refine State.quorumRow_wf _ _ _ _ _ _ ?_)
    | (refine State.sessWrite_wf _ _ _ _ _ ?_)
    | (refine State.signMsg_wf _ _ _ _ _ _ ?_)
    | (refine State.perform_wf _ _ ?_)
    | (refine State.atomicAt_wf _ _ _ ?_)
    | (refine State.scrubbed_wf _ _ _ ?_)
    | (refine State.applyWrite_wf _ _ _ ?_)
    | (refine State.resetEnd_wf _ _ ?_)
    | (refine State.moduleReset_wf _ ?_)
    | (refine State.modrst_wf _ ?_)
    | (refine State.settleOrdered_wf _ ?_)
    | (refine State.setEntry_wf _ _ _ ?_)
    | (refine State.ingest_wf _ _ _ _ _ _ (fun _ _ => by simp) (fun _ _ hu => State.bwdStart_wf _ _ hu) ?_)
    | (refine State.request_wf _ _ _ _ _ _ (fun _ hu => State.setAll_wf _ _ _ hu) ?_)
    | split
theorem execAtomic_wf {src : Source} {op : AtomicOp} {addr : Nat} {size : Nat} {operand : Nat} {compare : Nat} {s : State} {s1 : State} (h : execAtomic src op addr size operand compare s = .next s1) (hm : Memory.wf s.mem = true) : Memory.wf s1.mem = true := by
  unfold execAtomic at h
  (try dsimp only at h)
  repeat' split at h
  all_goals (simp only [Host.Outcome.next.injEq] at h; subst h)
  all_goals repeat' first
    | exact hm
    | (simp [hm]; done)
    | (simp only [State.releaseParts_mem, State.settleAttend_mem, State.settlePublish_mem, State.sample_mem, State.flag_mem, State.atTime_mem])
    | (refine State.quorumRow_wf _ _ _ _ _ _ ?_)
    | (refine State.sessWrite_wf _ _ _ _ _ ?_)
    | (refine State.signMsg_wf _ _ _ _ _ _ ?_)
    | (refine State.atomicAt_wf _ _ _ ?_)
    | (refine State.scrubbed_wf _ _ _ ?_)
    | (refine State.applyWrite_wf _ _ _ ?_)
    | (refine State.resetEnd_wf _ _ ?_)
    | (refine State.moduleReset_wf _ ?_)
    | (refine State.modrst_wf _ ?_)
    | (refine State.settleOrdered_wf _ ?_)
    | (refine State.setEntry_wf _ _ _ ?_)
    | (refine State.ingest_wf _ _ _ _ _ _ (fun _ _ => by simp) (fun _ _ hu => State.bwdStart_wf _ _ hu) ?_)
    | (refine State.request_wf _ _ _ _ _ _ (fun _ hu => State.setAll_wf _ _ _ hu) ?_)
    | split
theorem execRepairTestComplete_wf {eid : Nat} {ok : Bool} {s : State} {s1 : State} (h : execRepairTestComplete eid ok s = .next s1) (hm : Memory.wf s.mem = true) : Memory.wf s1.mem = true := by
  unfold execRepairTestComplete at h
  (try dsimp only at h)
  repeat' split at h
  all_goals (simp only [Host.Outcome.next.injEq] at h; subst h)
  all_goals repeat' first
    | exact hm
    | (simp [hm]; done)
    | (simp only [State.releaseParts_mem, State.settleAttend_mem, State.settlePublish_mem, State.sample_mem, State.flag_mem, State.atTime_mem])
    | (refine State.quorumRow_wf _ _ _ _ _ _ ?_)
    | (refine State.sessWrite_wf _ _ _ _ _ ?_)
    | (refine State.signMsg_wf _ _ _ _ _ _ ?_)
    | (refine State.atomicAt_wf _ _ _ ?_)
    | (refine State.scrubbed_wf _ _ _ ?_)
    | (refine State.applyWrite_wf _ _ _ ?_)
    | (refine State.resetEnd_wf _ _ ?_)
    | (refine State.moduleReset_wf _ ?_)
    | (refine State.modrst_wf _ ?_)
    | (refine State.settleOrdered_wf _ ?_)
    | (refine State.setEntry_wf _ _ _ ?_)
    | (refine State.ingest_wf _ _ _ _ _ _ (fun _ _ => by simp) (fun _ _ hu => State.bwdStart_wf _ _ hu) ?_)
    | (refine State.request_wf _ _ _ _ _ _ (fun _ hu => State.setAll_wf _ _ _ hu) ?_)
    | split
theorem execFlaggedStoreApply_wf {src : Source} {s : State} {s1 : State} (h : execFlaggedStoreApply src s = .next s1) (hm : Memory.wf s.mem = true) : Memory.wf s1.mem = true := by
  unfold execFlaggedStoreApply at h
  (try dsimp only at h)
  repeat' split at h
  all_goals (simp only [Host.Outcome.next.injEq] at h; subst h)
  all_goals repeat' first
    | exact hm
    | (simp [hm]; done)
    | (simp only [State.releaseParts_mem, State.settleAttend_mem, State.sendReady_mem, State.settlePublish_mem, State.sample_mem, State.flag_mem, State.atTime_mem])
    | (refine State.quorumRow_wf _ _ _ _ _ _ ?_)
    | (refine State.sessWrite_wf _ _ _ _ _ ?_)
    | (refine State.signMsg_wf _ _ _ _ _ _ ?_)
    | (refine State.perform_wf _ _ ?_)
    | (refine State.atomicAt_wf _ _ _ ?_)
    | (refine State.scrubbed_wf _ _ _ ?_)
    | (refine State.applyWrite_wf _ _ _ ?_)
    | (refine State.resetEnd_wf _ _ ?_)
    | (refine State.moduleReset_wf _ ?_)
    | (refine State.modrst_wf _ ?_)
    | (refine State.settleOrdered_wf _ ?_)
    | (refine State.setEntry_wf _ _ _ ?_)
    | (refine State.ingest_wf _ _ _ _ _ _ (fun _ _ => by simp) (fun _ _ hu => State.bwdStart_wf _ _ hu) ?_)
    | (refine State.request_wf _ _ _ _ _ _ (fun _ hu => State.setAll_wf _ _ _ hu) ?_)
    | split
theorem execAttendBwd_wf {p : Nat} {l : Nat} {r : Nat} {s : State} {s1 : State} (h : execAttendBwd p l r s = .next s1) (hm : Memory.wf s.mem = true) : Memory.wf s1.mem = true := by
  unfold execAttendBwd at h
  (try dsimp only at h)
  repeat' split at h
  all_goals (simp only [Host.Outcome.next.injEq] at h; subst h)
  all_goals repeat' first
    | exact hm
    | (simp [hm]; done)
    | (simp only [State.releaseParts_mem, State.settleAttend_mem, State.settlePublish_mem, State.sample_mem, State.flag_mem, State.atTime_mem])
    | (refine State.quorumRow_wf _ _ _ _ _ _ ?_)
    | (refine State.sessWrite_wf _ _ _ _ _ ?_)
    | (refine State.signMsg_wf _ _ _ _ _ _ ?_)
    | (refine State.atomicAt_wf _ _ _ ?_)
    | (refine State.scrubbed_wf _ _ _ ?_)
    | (refine State.applyWrite_wf _ _ _ ?_)
    | (refine State.resetEnd_wf _ _ ?_)
    | (refine State.moduleReset_wf _ ?_)
    | (refine State.modrst_wf _ ?_)
    | (refine State.settleOrdered_wf _ ?_)
    | (refine State.setEntry_wf _ _ _ ?_)
    | (refine State.ingest_wf _ _ _ _ _ _ (fun _ _ => by simp) (fun _ _ hu => State.bwdStart_wf _ _ hu) ?_)
    | (refine State.request_wf _ _ _ _ _ _ (fun _ hu => State.setAll_wf _ _ _ hu) ?_)
    | split
theorem execCommandComplete_wf {cmd : Nat} {resultWriteOk : Bool} {recordWriteOk : Bool} {s : State} {s1 : State} (h : execCommandComplete cmd resultWriteOk recordWriteOk s = .next s1) (hm : Memory.wf s.mem = true) : Memory.wf s1.mem = true := by
  unfold execCommandComplete at h
  (try dsimp only at h)
  repeat' split at h
  all_goals (simp only [Host.Outcome.next.injEq] at h; subst h)
  all_goals repeat' first
    | exact hm
    | (simp [hm]; done)
    | (simp only [State.releaseParts_mem, State.settleAttend_mem, State.settlePublish_mem, State.sample_mem, State.flag_mem, State.atTime_mem])
    | (refine State.quorumRow_wf _ _ _ _ _ _ ?_)
    | (refine State.sessWrite_wf _ _ _ _ _ ?_)
    | (refine State.signMsg_wf _ _ _ _ _ _ ?_)
    | (refine State.atomicAt_wf _ _ _ ?_)
    | (refine State.scrubbed_wf _ _ _ ?_)
    | (refine State.applyWrite_wf _ _ _ ?_)
    | (refine State.resetEnd_wf _ _ ?_)
    | (refine State.moduleReset_wf _ ?_)
    | (refine State.modrst_wf _ ?_)
    | (refine State.settleOrdered_wf _ ?_)
    | (refine State.setEntry_wf _ _ _ ?_)
    | (refine State.ingest_wf _ _ _ _ _ _ (fun _ _ => by simp) (fun _ _ hu => State.bwdStart_wf _ _ hu) ?_)
    | (refine State.request_wf _ _ _ _ _ _ (fun _ hu => State.setAll_wf _ _ _ hu) ?_)
    | split
theorem execTenantRemove_wf {sid : Nat} {q : QSrc} {s : State} {s1 : State} (h : execTenantRemove sid q s = .next s1) (hm : Memory.wf s.mem = true) : Memory.wf s1.mem = true := by
  unfold execTenantRemove at h
  (try dsimp only at h)
  repeat' split at h
  all_goals (simp only [Host.Outcome.next.injEq] at h; subst h)
  all_goals repeat' first
    | exact hm
    | (simp [hm]; done)
    | (simp only [State.releaseParts_mem, State.settleAttend_mem, State.settlePublish_mem, State.sample_mem, State.flag_mem, State.atTime_mem])
    | (refine State.quorumRow_wf _ _ _ _ _ _ ?_)
    | (refine State.sessWrite_wf _ _ _ _ _ ?_)
    | (refine State.signMsg_wf _ _ _ _ _ _ ?_)
    | (refine State.atomicAt_wf _ _ _ ?_)
    | (refine State.scrubbed_wf _ _ _ ?_)
    | (refine State.applyWrite_wf _ _ _ ?_)
    | (refine State.resetEnd_wf _ _ ?_)
    | (refine State.moduleReset_wf _ ?_)
    | (refine State.modrst_wf _ ?_)
    | (refine State.settleOrdered_wf _ ?_)
    | (refine State.setEntry_wf _ _ _ ?_)
    | (refine State.ingest_wf _ _ _ _ _ _ (fun _ _ => by simp) (fun _ _ hu => State.bwdStart_wf _ _ hu) ?_)
    | (refine State.request_wf _ _ _ _ _ _ (fun _ hu => State.setAll_wf _ _ _ hu) ?_)
    | split
theorem execEnroll_wf {sid : Nat} {q : QSrc} {s : State} {s1 : State} (h : execEnroll sid q s = .next s1) (hm : Memory.wf s.mem = true) : Memory.wf s1.mem = true := by
  unfold execEnroll at h
  (try dsimp only at h)
  repeat' split at h
  all_goals (simp only [Host.Outcome.next.injEq] at h; subst h)
  all_goals repeat' first
    | exact hm
    | (simp [hm]; done)
    | (simp only [State.releaseParts_mem, State.settleAttend_mem, State.settlePublish_mem, State.sample_mem, State.flag_mem, State.atTime_mem])
    | (refine State.quorumRow_wf _ _ _ _ _ _ ?_)
    | (refine State.sessWrite_wf _ _ _ _ _ ?_)
    | (refine State.signMsg_wf _ _ _ _ _ _ ?_)
    | (refine State.atomicAt_wf _ _ _ ?_)
    | (refine State.scrubbed_wf _ _ _ ?_)
    | (refine State.applyWrite_wf _ _ _ ?_)
    | (refine State.resetEnd_wf _ _ ?_)
    | (refine State.moduleReset_wf _ ?_)
    | (refine State.modrst_wf _ ?_)
    | (refine State.settleOrdered_wf _ ?_)
    | (refine State.setEntry_wf _ _ _ ?_)
    | (refine State.ingest_wf _ _ _ _ _ _ (fun _ _ => by simp) (fun _ _ hu => State.bwdStart_wf _ _ hu) ?_)
    | (refine State.request_wf _ _ _ _ _ _ (fun _ hu => State.setAll_wf _ _ _ hu) ?_)
    | split
theorem execUnenroll_wf {sid : Nat} {q : QSrc} {s : State} {s1 : State} (h : execUnenroll sid q s = .next s1) (hm : Memory.wf s.mem = true) : Memory.wf s1.mem = true := by
  unfold execUnenroll at h
  (try dsimp only at h)
  repeat' split at h
  all_goals (simp only [Host.Outcome.next.injEq] at h; subst h)
  all_goals repeat' first
    | exact hm
    | (simp [hm]; done)
    | (simp only [State.releaseParts_mem, State.settleAttend_mem, State.settlePublish_mem, State.sample_mem, State.flag_mem, State.atTime_mem])
    | (refine State.quorumRow_wf _ _ _ _ _ _ ?_)
    | (refine State.sessWrite_wf _ _ _ _ _ ?_)
    | (refine State.signMsg_wf _ _ _ _ _ _ ?_)
    | (refine State.atomicAt_wf _ _ _ ?_)
    | (refine State.scrubbed_wf _ _ _ ?_)
    | (refine State.applyWrite_wf _ _ _ ?_)
    | (refine State.resetEnd_wf _ _ ?_)
    | (refine State.moduleReset_wf _ ?_)
    | (refine State.modrst_wf _ ?_)
    | (refine State.settleOrdered_wf _ ?_)
    | (refine State.setEntry_wf _ _ _ ?_)
    | (refine State.ingest_wf _ _ _ _ _ _ (fun _ _ => by simp) (fun _ _ hu => State.bwdStart_wf _ _ hu) ?_)
    | (refine State.request_wf _ _ _ _ _ _ (fun _ hu => State.setAll_wf _ _ _ hu) ?_)
    | split
theorem execQuorumK_wf {sid : Nat} {q : QSrc} {s : State} {s1 : State} (h : execQuorumK sid q s = .next s1) (hm : Memory.wf s.mem = true) : Memory.wf s1.mem = true := by
  unfold execQuorumK at h
  (try dsimp only at h)
  repeat' split at h
  all_goals (simp only [Host.Outcome.next.injEq] at h; subst h)
  all_goals repeat' first
    | exact hm
    | (simp [hm]; done)
    | (simp only [State.releaseParts_mem, State.settleAttend_mem, State.settlePublish_mem, State.sample_mem, State.flag_mem, State.atTime_mem])
    | (refine State.quorumRow_wf _ _ _ _ _ _ ?_)
    | (refine State.sessWrite_wf _ _ _ _ _ ?_)
    | (refine State.signMsg_wf _ _ _ _ _ _ ?_)
    | (refine State.atomicAt_wf _ _ _ ?_)
    | (refine State.scrubbed_wf _ _ _ ?_)
    | (refine State.applyWrite_wf _ _ _ ?_)
    | (refine State.resetEnd_wf _ _ ?_)
    | (refine State.moduleReset_wf _ ?_)
    | (refine State.modrst_wf _ ?_)
    | (refine State.settleOrdered_wf _ ?_)
    | (refine State.setEntry_wf _ _ _ ?_)
    | (refine State.ingest_wf _ _ _ _ _ _ (fun _ _ => by simp) (fun _ _ hu => State.bwdStart_wf _ _ hu) ?_)
    | (refine State.request_wf _ _ _ _ _ _ (fun _ hu => State.setAll_wf _ _ _ hu) ?_)
    | split
theorem execClaimDone_wf {sid : Nat} {value : Nat} {s : State} {s1 : State} (h : execClaimDone sid value s = .next s1) (hm : Memory.wf s.mem = true) : Memory.wf s1.mem = true := by
  unfold execClaimDone at h
  (try dsimp only at h)
  repeat' split at h
  all_goals (simp only [Host.Outcome.next.injEq] at h; subst h)
  all_goals repeat' first
    | exact hm
    | (simp [hm]; done)
    | (simp only [State.releaseParts_mem, State.settleAttend_mem, State.settlePublish_mem, State.sample_mem, State.flag_mem, State.atTime_mem])
    | (refine State.quorumRow_wf _ _ _ _ _ _ ?_)
    | (refine State.sessWrite_wf _ _ _ _ _ ?_)
    | (refine State.signMsg_wf _ _ _ _ _ _ ?_)
    | (refine State.atomicAt_wf _ _ _ ?_)
    | (refine State.scrubbed_wf _ _ _ ?_)
    | (refine State.applyWrite_wf _ _ _ ?_)
    | (refine State.resetEnd_wf _ _ ?_)
    | (refine State.moduleReset_wf _ ?_)
    | (refine State.modrst_wf _ ?_)
    | (refine State.settleOrdered_wf _ ?_)
    | (refine State.setEntry_wf _ _ _ ?_)
    | (refine State.ingest_wf _ _ _ _ _ _ (fun _ _ => by simp) (fun _ _ hu => State.bwdStart_wf _ _ hu) ?_)
    | (refine State.request_wf _ _ _ _ _ _ (fun _ hu => State.setAll_wf _ _ _ hu) ?_)
    | split
theorem execCertSlot1_wf {sid : Nat} {q : QSrc} {s : State} {s1 : State} (h : execCertSlot1 sid q s = .next s1) (hm : Memory.wf s.mem = true) : Memory.wf s1.mem = true := by
  unfold execCertSlot1 at h
  (try dsimp only at h)
  repeat' split at h
  all_goals (simp only [Host.Outcome.next.injEq] at h; subst h)
  all_goals repeat' first
    | exact hm
    | (simp [hm]; done)
    | (simp only [State.releaseParts_mem, State.settleAttend_mem, State.settlePublish_mem, State.sample_mem, State.flag_mem, State.atTime_mem])
    | (refine State.quorumRow_wf _ _ _ _ _ _ ?_)
    | (refine State.sessWrite_wf _ _ _ _ _ ?_)
    | (refine State.signMsg_wf _ _ _ _ _ _ ?_)
    | (refine State.atomicAt_wf _ _ _ ?_)
    | (refine State.scrubbed_wf _ _ _ ?_)
    | (refine State.applyWrite_wf _ _ _ ?_)
    | (refine State.resetEnd_wf _ _ ?_)
    | (refine State.moduleReset_wf _ ?_)
    | (refine State.modrst_wf _ ?_)
    | (refine State.settleOrdered_wf _ ?_)
    | (refine State.setEntry_wf _ _ _ ?_)
    | (refine State.ingest_wf _ _ _ _ _ _ (fun _ _ => by simp) (fun _ _ hu => State.bwdStart_wf _ _ hu) ?_)
    | (refine State.request_wf _ _ _ _ _ _ (fun _ hu => State.setAll_wf _ _ _ hu) ?_)
    | split
theorem execFabricAnchor_wf {sid : Nat} {q : QSrc} {s : State} {s1 : State} (h : execFabricAnchor sid q s = .next s1) (hm : Memory.wf s.mem = true) : Memory.wf s1.mem = true := by
  unfold execFabricAnchor at h
  (try dsimp only at h)
  repeat' split at h
  all_goals (simp only [Host.Outcome.next.injEq] at h; subst h)
  all_goals repeat' first
    | exact hm
    | (simp [hm]; done)
    | (simp only [State.releaseParts_mem, State.settleAttend_mem, State.settlePublish_mem, State.sample_mem, State.flag_mem, State.atTime_mem])
    | (refine State.quorumRow_wf _ _ _ _ _ _ ?_)
    | (refine State.sessWrite_wf _ _ _ _ _ ?_)
    | (refine State.signMsg_wf _ _ _ _ _ _ ?_)
    | (refine State.atomicAt_wf _ _ _ ?_)
    | (refine State.scrubbed_wf _ _ _ ?_)
    | (refine State.applyWrite_wf _ _ _ ?_)
    | (refine State.resetEnd_wf _ _ ?_)
    | (refine State.moduleReset_wf _ ?_)
    | (refine State.modrst_wf _ ?_)
    | (refine State.settleOrdered_wf _ ?_)
    | (refine State.setEntry_wf _ _ _ ?_)
    | (refine State.ingest_wf _ _ _ _ _ _ (fun _ _ => by simp) (fun _ _ hu => State.bwdStart_wf _ _ hu) ?_)
    | (refine State.request_wf _ _ _ _ _ _ (fun _ hu => State.setAll_wf _ _ _ hu) ?_)
    | split
theorem execSdKey_wf {sid : Nat} {blob : Bytes} {s : State} {s1 : State} (h : execSdKey sid blob s = .next s1) (hm : Memory.wf s.mem = true) : Memory.wf s1.mem = true := by
  unfold execSdKey at h
  (try dsimp only at h)
  repeat' split at h
  all_goals (simp only [Host.Outcome.next.injEq] at h; subst h)
  all_goals repeat' first
    | exact hm
    | (simp [hm]; done)
    | (simp only [State.releaseParts_mem, State.settleAttend_mem, State.settlePublish_mem, State.sample_mem, State.flag_mem, State.atTime_mem])
    | (refine State.quorumRow_wf _ _ _ _ _ _ ?_)
    | (refine State.sessWrite_wf _ _ _ _ _ ?_)
    | (refine State.signMsg_wf _ _ _ _ _ _ ?_)
    | (refine State.atomicAt_wf _ _ _ ?_)
    | (refine State.scrubbed_wf _ _ _ ?_)
    | (refine State.applyWrite_wf _ _ _ ?_)
    | (refine State.resetEnd_wf _ _ ?_)
    | (refine State.moduleReset_wf _ ?_)
    | (refine State.modrst_wf _ ?_)
    | (refine State.settleOrdered_wf _ ?_)
    | (refine State.setEntry_wf _ _ _ ?_)
    | (refine State.ingest_wf _ _ _ _ _ _ (fun _ _ => by simp) (fun _ _ hu => State.bwdStart_wf _ _ hu) ?_)
    | (refine State.request_wf _ _ _ _ _ _ (fun _ hu => State.setAll_wf _ _ _ hu) ?_)
    | split
theorem execSdKeyClear_wf {sid : Nat} {q : QSrc} {s : State} {s1 : State} (h : execSdKeyClear sid q s = .next s1) (hm : Memory.wf s.mem = true) : Memory.wf s1.mem = true := by
  unfold execSdKeyClear at h
  (try dsimp only at h)
  repeat' split at h
  all_goals (simp only [Host.Outcome.next.injEq] at h; subst h)
  all_goals repeat' first
    | exact hm
    | (simp [hm]; done)
    | (simp only [State.releaseParts_mem, State.settleAttend_mem, State.settlePublish_mem, State.sample_mem, State.flag_mem, State.atTime_mem])
    | (refine State.quorumRow_wf _ _ _ _ _ _ ?_)
    | (refine State.sessWrite_wf _ _ _ _ _ ?_)
    | (refine State.signMsg_wf _ _ _ _ _ _ ?_)
    | (refine State.atomicAt_wf _ _ _ ?_)
    | (refine State.scrubbed_wf _ _ _ ?_)
    | (refine State.applyWrite_wf _ _ _ ?_)
    | (refine State.resetEnd_wf _ _ ?_)
    | (refine State.moduleReset_wf _ ?_)
    | (refine State.modrst_wf _ ?_)
    | (refine State.settleOrdered_wf _ ?_)
    | (refine State.setEntry_wf _ _ _ ?_)
    | (refine State.ingest_wf _ _ _ _ _ _ (fun _ _ => by simp) (fun _ _ hu => State.bwdStart_wf _ _ hu) ?_)
    | (refine State.request_wf _ _ _ _ _ _ (fun _ hu => State.setAll_wf _ _ _ hu) ?_)
    | split
theorem execLockWrite_wf {sid : Nat} {sub : Nat} {value : Nat} {s : State} {s1 : State} (h : execLockWrite sid sub value s = .next s1) (hm : Memory.wf s.mem = true) : Memory.wf s1.mem = true := by
  unfold execLockWrite at h
  (try dsimp only at h)
  repeat' split at h
  all_goals (simp only [Host.Outcome.next.injEq] at h; subst h)
  all_goals repeat' first
    | exact hm
    | (simp [hm]; done)
    | (simp only [State.releaseParts_mem, State.settleAttend_mem, State.settlePublish_mem, State.sample_mem, State.flag_mem, State.atTime_mem])
    | (refine State.quorumRow_wf _ _ _ _ _ _ ?_)
    | (refine State.sessWrite_wf _ _ _ _ _ ?_)
    | (refine State.signMsg_wf _ _ _ _ _ _ ?_)
    | (refine State.atomicAt_wf _ _ _ ?_)
    | (refine State.scrubbed_wf _ _ _ ?_)
    | (refine State.applyWrite_wf _ _ _ ?_)
    | (refine State.resetEnd_wf _ _ ?_)
    | (refine State.moduleReset_wf _ ?_)
    | (refine State.modrst_wf _ ?_)
    | (refine State.settleOrdered_wf _ ?_)
    | (refine State.setEntry_wf _ _ _ ?_)
    | (refine State.ingest_wf _ _ _ _ _ _ (fun _ _ => by simp) (fun _ _ hu => State.bwdStart_wf _ _ hu) ?_)
    | (refine State.request_wf _ _ _ _ _ _ (fun _ hu => State.setAll_wf _ _ _ hu) ?_)
    | split
theorem execDebugOpen_wf {sid : Nat} {q : QSrc} {s : State} {s1 : State} (h : execDebugOpen sid q s = .next s1) (hm : Memory.wf s.mem = true) : Memory.wf s1.mem = true := by
  unfold execDebugOpen at h
  (try dsimp only at h)
  repeat' split at h
  all_goals (simp only [Host.Outcome.next.injEq] at h; subst h)
  all_goals repeat' first
    | exact hm
    | (simp [hm]; done)
    | (simp only [State.releaseParts_mem, State.settleAttend_mem, State.settlePublish_mem, State.sample_mem, State.flag_mem, State.atTime_mem])
    | (refine State.quorumRow_wf _ _ _ _ _ _ ?_)
    | (refine State.sessWrite_wf _ _ _ _ _ ?_)
    | (refine State.signMsg_wf _ _ _ _ _ _ ?_)
    | (refine State.atomicAt_wf _ _ _ ?_)
    | (refine State.scrubbed_wf _ _ _ ?_)
    | (refine State.applyWrite_wf _ _ _ ?_)
    | (refine State.resetEnd_wf _ _ ?_)
    | (refine State.moduleReset_wf _ ?_)
    | (refine State.modrst_wf _ ?_)
    | (refine State.settleOrdered_wf _ ?_)
    | (refine State.setEntry_wf _ _ _ ?_)
    | (refine State.ingest_wf _ _ _ _ _ _ (fun _ _ => by simp) (fun _ _ hu => State.bwdStart_wf _ _ hu) ?_)
    | (refine State.request_wf _ _ _ _ _ _ (fun _ hu => State.setAll_wf _ _ _ hu) ?_)
    | split
theorem execAdmitDevice_wf {sid : Nat} {q : QSrc} {s : State} {s1 : State} (h : execAdmitDevice sid q s = .next s1) (hm : Memory.wf s.mem = true) : Memory.wf s1.mem = true := by
  unfold execAdmitDevice at h
  (try dsimp only at h)
  repeat' split at h
  all_goals (simp only [Host.Outcome.next.injEq] at h; subst h)
  all_goals repeat' first
    | exact hm
    | (simp [hm]; done)
    | (simp only [State.releaseParts_mem, State.settleAttend_mem, State.settlePublish_mem, State.sample_mem, State.flag_mem, State.atTime_mem])
    | (refine State.quorumRow_wf _ _ _ _ _ _ ?_)
    | (refine State.sessWrite_wf _ _ _ _ _ ?_)
    | (refine State.signMsg_wf _ _ _ _ _ _ ?_)
    | (refine State.atomicAt_wf _ _ _ ?_)
    | (refine State.scrubbed_wf _ _ _ ?_)
    | (refine State.applyWrite_wf _ _ _ ?_)
    | (refine State.resetEnd_wf _ _ ?_)
    | (refine State.moduleReset_wf _ ?_)
    | (refine State.modrst_wf _ ?_)
    | (refine State.settleOrdered_wf _ ?_)
    | (refine State.setEntry_wf _ _ _ ?_)
    | (refine State.ingest_wf _ _ _ _ _ _ (fun _ _ => by simp) (fun _ _ hu => State.bwdStart_wf _ _ hu) ?_)
    | (refine State.request_wf _ _ _ _ _ _ (fun _ hu => State.setAll_wf _ _ _ hu) ?_)
    | split
theorem execExpel_wf {sid : Nat} {q : QSrc} {s : State} {s1 : State} (h : execExpel sid q s = .next s1) (hm : Memory.wf s.mem = true) : Memory.wf s1.mem = true := by
  unfold execExpel at h
  (try dsimp only at h)
  repeat' split at h
  all_goals (simp only [Host.Outcome.next.injEq] at h; subst h)
  all_goals repeat' first
    | exact hm
    | (simp [hm]; done)
    | (simp only [State.releaseParts_mem, State.settleAttend_mem, State.settlePublish_mem, State.sample_mem, State.flag_mem, State.atTime_mem])
    | (refine State.quorumRow_wf _ _ _ _ _ _ ?_)
    | (refine State.sessWrite_wf _ _ _ _ _ ?_)
    | (refine State.signMsg_wf _ _ _ _ _ _ ?_)
    | (refine State.atomicAt_wf _ _ _ ?_)
    | (refine State.scrubbed_wf _ _ _ ?_)
    | (refine State.applyWrite_wf _ _ _ ?_)
    | (refine State.resetEnd_wf _ _ ?_)
    | (refine State.moduleReset_wf _ ?_)
    | (refine State.modrst_wf _ ?_)
    | (refine State.settleOrdered_wf _ ?_)
    | (refine State.setEntry_wf _ _ _ ?_)
    | (refine State.ingest_wf _ _ _ _ _ _ (fun _ _ => by simp) (fun _ _ hu => State.bwdStart_wf _ _ hu) ?_)
    | (refine State.request_wf _ _ _ _ _ _ (fun _ hu => State.setAll_wf _ _ _ hu) ?_)
    | split
theorem execSet_wf {sid : Nat} {reqId : Nat} {entries : List SetEntry} {s : State} {s1 : State} (h : execSet sid reqId entries s = .next s1) (hm : Memory.wf s.mem = true) : Memory.wf s1.mem = true := by
  unfold execSet at h
  (try dsimp only at h)
  repeat' split at h
  all_goals (simp only [Host.Outcome.next.injEq] at h; subst h)
  all_goals repeat' first
    | exact hm
    | (simp [hm]; done)
    | (simp only [State.releaseParts_mem, State.settleAttend_mem, State.settlePublish_mem, State.sample_mem, State.flag_mem, State.atTime_mem])
    | (refine State.quorumRow_wf _ _ _ _ _ _ ?_)
    | (refine State.sessWrite_wf _ _ _ _ _ ?_)
    | (refine State.signMsg_wf _ _ _ _ _ _ ?_)
    | (refine State.atomicAt_wf _ _ _ ?_)
    | (refine State.scrubbed_wf _ _ _ ?_)
    | (refine State.applyWrite_wf _ _ _ ?_)
    | (refine State.resetEnd_wf _ _ ?_)
    | (refine State.moduleReset_wf _ ?_)
    | (refine State.modrst_wf _ ?_)
    | (refine State.settleOrdered_wf _ ?_)
    | (refine State.setEntry_wf _ _ _ ?_)
    | (refine State.ingest_wf _ _ _ _ _ _ (fun _ _ => by simp) (fun _ _ hu => State.bwdStart_wf _ _ hu) ?_)
    | (refine State.request_wf _ _ _ _ _ _ (fun _ hu => State.setAll_wf _ _ _ hu) ?_)
    | split
theorem execSign_wf {sid : Nat} {reqId : Nat} {nonce : Nat} {slot : Nat} {sig : Bytes} {s : State} {s1 : State} (h : execSign sid reqId nonce slot sig s = .next s1) (hm : Memory.wf s.mem = true) : Memory.wf s1.mem = true := by
  unfold execSign at h
  (try dsimp only at h)
  repeat' split at h
  all_goals (simp only [Host.Outcome.next.injEq] at h; subst h)
  all_goals repeat' first
    | exact hm
    | (simp [hm]; done)
    | (simp only [State.releaseParts_mem, State.settleAttend_mem, State.settlePublish_mem, State.sample_mem, State.flag_mem, State.atTime_mem])
    | (refine State.quorumRow_wf _ _ _ _ _ _ ?_)
    | (refine State.sessWrite_wf _ _ _ _ _ ?_)
    | (refine State.signMsg_wf _ _ _ _ _ _ ?_)
    | (refine State.atomicAt_wf _ _ _ ?_)
    | (refine State.scrubbed_wf _ _ _ ?_)
    | (refine State.applyWrite_wf _ _ _ ?_)
    | (refine State.resetEnd_wf _ _ ?_)
    | (refine State.moduleReset_wf _ ?_)
    | (refine State.modrst_wf _ ?_)
    | (refine State.settleOrdered_wf _ ?_)
    | (refine State.setEntry_wf _ _ _ ?_)
    | (refine State.ingest_wf _ _ _ _ _ _ (fun _ _ => by simp) (fun _ _ hu => State.bwdStart_wf _ _ hu) ?_)
    | (refine State.request_wf _ _ _ _ _ _ (fun _ hu => State.setAll_wf _ _ _ hu) ?_)
    | split
theorem execMgmtAddrWrite_wf {sid : Nat} {port : Nat} {blob : Bytes} {s : State} {s1 : State} (h : execMgmtAddrWrite sid port blob s = .next s1) (hm : Memory.wf s.mem = true) : Memory.wf s1.mem = true := by
  unfold execMgmtAddrWrite at h
  (try dsimp only at h)
  repeat' split at h
  all_goals (simp only [Host.Outcome.next.injEq] at h; subst h)
  all_goals repeat' first
    | exact hm
    | (simp [hm]; done)
    | (simp only [State.releaseParts_mem, State.settleAttend_mem, State.settlePublish_mem, State.sample_mem, State.flag_mem, State.atTime_mem])
    | (refine State.quorumRow_wf _ _ _ _ _ _ ?_)
    | (refine State.sessWrite_wf _ _ _ _ _ ?_)
    | (refine State.signMsg_wf _ _ _ _ _ _ ?_)
    | (refine State.atomicAt_wf _ _ _ ?_)
    | (refine State.scrubbed_wf _ _ _ ?_)
    | (refine State.applyWrite_wf _ _ _ ?_)
    | (refine State.resetEnd_wf _ _ ?_)
    | (refine State.moduleReset_wf _ ?_)
    | (refine State.modrst_wf _ ?_)
    | (refine State.settleOrdered_wf _ ?_)
    | (refine State.setEntry_wf _ _ _ ?_)
    | (refine State.ingest_wf _ _ _ _ _ _ (fun _ _ => by simp) (fun _ _ hu => State.bwdStart_wf _ _ hu) ?_)
    | (refine State.request_wf _ _ _ _ _ _ (fun _ hu => State.setAll_wf _ _ _ hu) ?_)
    | split
theorem execWsqAck_wf {sid : Nat} {idx : Nat} {sub : Nat} {value : Nat} {s : State} {s1 : State} (h : execWsqAck sid idx sub value s = .next s1) (hm : Memory.wf s.mem = true) : Memory.wf s1.mem = true := by
  unfold execWsqAck at h
  (try dsimp only at h)
  repeat' split at h
  all_goals (simp only [Host.Outcome.next.injEq] at h; subst h)
  all_goals repeat' first
    | exact hm
    | (simp [hm]; done)
    | (simp only [State.releaseParts_mem, State.settleAttend_mem, State.settlePublish_mem, State.sample_mem, State.flag_mem, State.atTime_mem])
    | (refine State.quorumRow_wf _ _ _ _ _ _ ?_)
    | (refine State.sessWrite_wf _ _ _ _ _ ?_)
    | (refine State.signMsg_wf _ _ _ _ _ _ ?_)
    | (refine State.atomicAt_wf _ _ _ ?_)
    | (refine State.scrubbed_wf _ _ _ ?_)
    | (refine State.applyWrite_wf _ _ _ ?_)
    | (refine State.resetEnd_wf _ _ ?_)
    | (refine State.moduleReset_wf _ ?_)
    | (refine State.modrst_wf _ ?_)
    | (refine State.settleOrdered_wf _ ?_)
    | (refine State.setEntry_wf _ _ _ ?_)
    | (refine State.ingest_wf _ _ _ _ _ _ (fun _ _ => by simp) (fun _ _ hu => State.bwdStart_wf _ _ hu) ?_)
    | (refine State.request_wf _ _ _ _ _ _ (fun _ hu => State.setAll_wf _ _ _ hu) ?_)
    | split
theorem execBlockSelect_wf {sid : Nat} {value : Nat} {s : State} {s1 : State} (h : execBlockSelect sid value s = .next s1) (hm : Memory.wf s.mem = true) : Memory.wf s1.mem = true := by
  unfold execBlockSelect at h
  (try dsimp only at h)
  repeat' split at h
  all_goals (simp only [Host.Outcome.next.injEq] at h; subst h)
  all_goals repeat' first
    | exact hm
    | (simp [hm]; done)
    | (simp only [State.releaseParts_mem, State.settleAttend_mem, State.settlePublish_mem, State.sample_mem, State.flag_mem, State.atTime_mem])
    | (refine State.quorumRow_wf _ _ _ _ _ _ ?_)
    | (refine State.sessWrite_wf _ _ _ _ _ ?_)
    | (refine State.signMsg_wf _ _ _ _ _ _ ?_)
    | (refine State.atomicAt_wf _ _ _ ?_)
    | (refine State.scrubbed_wf _ _ _ ?_)
    | (refine State.applyWrite_wf _ _ _ ?_)
    | (refine State.resetEnd_wf _ _ ?_)
    | (refine State.moduleReset_wf _ ?_)
    | (refine State.modrst_wf _ ?_)
    | (refine State.settleOrdered_wf _ ?_)
    | (refine State.setEntry_wf _ _ _ ?_)
    | (refine State.ingest_wf _ _ _ _ _ _ (fun _ _ => by simp) (fun _ _ hu => State.bwdStart_wf _ _ hu) ?_)
    | (refine State.request_wf _ _ _ _ _ _ (fun _ hu => State.setAll_wf _ _ _ hu) ?_)
    | split
theorem execFwStage_wf {sid : Nat} {off : Nat} {piece : Bytes} {s : State} {s1 : State} (h : execFwStage sid off piece s = .next s1) (hm : Memory.wf s.mem = true) : Memory.wf s1.mem = true := by
  simp only [execFwStage, Host.Outcome.next.injEq] at h
  subst h
  split
  · exact hm
  · exact State.setEntry_wf _ _ _ (by rw [State.respond_mem]; exact hm)
theorem execFwCommit_wf {sid : Nat} {q : QSrc} {s : State} {s1 : State} (h : execFwCommit sid q s = .next s1) (hm : Memory.wf s.mem = true) : Memory.wf s1.mem = true := by
  unfold execFwCommit at h
  (try dsimp only at h)
  repeat' split at h
  all_goals (simp only [Host.Outcome.next.injEq] at h; subst h)
  all_goals repeat' first
    | exact hm
    | (simp [hm]; done)
    | (simp only [State.releaseParts_mem, State.settleAttend_mem, State.settlePublish_mem, State.sample_mem, State.flag_mem, State.atTime_mem])
    | (refine State.quorumRow_wf _ _ _ _ _ _ ?_)
    | (refine State.sessWrite_wf _ _ _ _ _ ?_)
    | (refine State.signMsg_wf _ _ _ _ _ _ ?_)
    | (refine State.atomicAt_wf _ _ _ ?_)
    | (refine State.scrubbed_wf _ _ _ ?_)
    | (refine State.applyWrite_wf _ _ _ ?_)
    | (refine State.resetEnd_wf _ _ ?_)
    | (refine State.moduleReset_wf _ ?_)
    | (refine State.modrst_wf _ ?_)
    | (refine State.settleOrdered_wf _ ?_)
    | (refine State.setEntry_wf _ _ _ ?_)
    | (refine State.ingest_wf _ _ _ _ _ _ (fun _ _ => by simp) (fun _ _ hu => State.bwdStart_wf _ _ hu) ?_)
    | (refine State.request_wf _ _ _ _ _ _ (fun _ hu => State.setAll_wf _ _ _ hu) ?_)
    | split
theorem execMonCtrlClear_wf {sid : Nat} {m : Nat} {s : State} {s1 : State} (h : execMonCtrlClear sid m s = .next s1) (hm : Memory.wf s.mem = true) : Memory.wf s1.mem = true := by
  unfold execMonCtrlClear at h
  (try dsimp only at h)
  repeat' split at h
  all_goals (simp only [Host.Outcome.next.injEq] at h; subst h)
  all_goals repeat' first
    | exact hm
    | (simp [hm]; done)
    | (simp only [State.releaseParts_mem, State.settleAttend_mem, State.settlePublish_mem, State.sample_mem, State.flag_mem, State.atTime_mem])
    | (refine State.quorumRow_wf _ _ _ _ _ _ ?_)
    | (refine State.sessWrite_wf _ _ _ _ _ ?_)
    | (refine State.signMsg_wf _ _ _ _ _ _ ?_)
    | (refine State.atomicAt_wf _ _ _ ?_)
    | (refine State.scrubbed_wf _ _ _ ?_)
    | (refine State.applyWrite_wf _ _ _ ?_)
    | (refine State.resetEnd_wf _ _ ?_)
    | (refine State.moduleReset_wf _ ?_)
    | (refine State.modrst_wf _ ?_)
    | (refine State.settleOrdered_wf _ ?_)
    | (refine State.setEntry_wf _ _ _ ?_)
    | (refine State.ingest_wf _ _ _ _ _ _ (fun _ _ => by simp) (fun _ _ hu => State.bwdStart_wf _ _ hu) ?_)
    | (refine State.request_wf _ _ _ _ _ _ (fun _ hu => State.setAll_wf _ _ _ hu) ?_)
    | split
theorem execMonScopeWrite_wf {sid : Nat} {m : Nat} {value : Nat} {s : State} {s1 : State} (h : execMonScopeWrite sid m value s = .next s1) (hm : Memory.wf s.mem = true) : Memory.wf s1.mem = true := by
  unfold execMonScopeWrite at h
  (try dsimp only at h)
  repeat' split at h
  all_goals (simp only [Host.Outcome.next.injEq] at h; subst h)
  all_goals repeat' first
    | exact hm
    | (simp [hm]; done)
    | (simp only [State.releaseParts_mem, State.settleAttend_mem, State.settlePublish_mem, State.sample_mem, State.flag_mem, State.atTime_mem])
    | (refine State.quorumRow_wf _ _ _ _ _ _ ?_)
    | (refine State.sessWrite_wf _ _ _ _ _ ?_)
    | (refine State.signMsg_wf _ _ _ _ _ _ ?_)
    | (refine State.atomicAt_wf _ _ _ ?_)
    | (refine State.scrubbed_wf _ _ _ ?_)
    | (refine State.applyWrite_wf _ _ _ ?_)
    | (refine State.resetEnd_wf _ _ ?_)
    | (refine State.moduleReset_wf _ ?_)
    | (refine State.modrst_wf _ ?_)
    | (refine State.settleOrdered_wf _ ?_)
    | (refine State.setEntry_wf _ _ _ ?_)
    | (refine State.ingest_wf _ _ _ _ _ _ (fun _ _ => by simp) (fun _ _ hu => State.bwdStart_wf _ _ hu) ?_)
    | (refine State.request_wf _ _ _ _ _ _ (fun _ hu => State.setAll_wf _ _ _ hu) ?_)
    | split
theorem execResetModule_wf {sid : Nat} {q : QSrc} {s : State} {s1 : State} (h : execResetModule sid q s = .next s1) (hm : Memory.wf s.mem = true) : Memory.wf s1.mem = true := by
  unfold execResetModule at h
  (try dsimp only at h)
  repeat' split at h
  all_goals (simp only [Host.Outcome.next.injEq] at h; subst h)
  all_goals repeat' first
    | exact hm
    | (simp [hm]; done)
    | (simp only [State.releaseParts_mem, State.settleAttend_mem, State.settlePublish_mem, State.sample_mem, State.flag_mem, State.atTime_mem])
    | (refine State.quorumRow_wf _ _ _ _ _ _ ?_)
    | (refine State.sessWrite_wf _ _ _ _ _ ?_)
    | (refine State.signMsg_wf _ _ _ _ _ _ ?_)
    | (refine State.atomicAt_wf _ _ _ ?_)
    | (refine State.scrubbed_wf _ _ _ ?_)
    | (refine State.applyWrite_wf _ _ _ ?_)
    | (refine State.resetEnd_wf _ _ ?_)
    | (refine State.moduleReset_wf _ ?_)
    | (refine State.modrst_wf _ ?_)
    | (refine State.settleOrdered_wf _ ?_)
    | (refine State.setEntry_wf _ _ _ ?_)
    | (refine State.ingest_wf _ _ _ _ _ _ (fun _ _ => by simp) (fun _ _ hu => State.bwdStart_wf _ _ hu) ?_)
    | (refine State.request_wf _ _ _ _ _ _ (fun _ hu => State.setAll_wf _ _ _ hu) ?_)
    | split
theorem execResetWarm_wf {sid : Nat} {q : QSrc} {s : State} {s1 : State} (h : execResetWarm sid q s = .next s1) (hm : Memory.wf s.mem = true) : Memory.wf s1.mem = true := by
  unfold execResetWarm at h
  (try dsimp only at h)
  repeat' split at h
  all_goals (simp only [Host.Outcome.next.injEq] at h; subst h)
  all_goals repeat' first
    | exact hm
    | (simp [hm]; done)
    | (simp only [State.releaseParts_mem, State.settleAttend_mem, State.settlePublish_mem, State.sample_mem, State.flag_mem, State.atTime_mem])
    | (refine State.quorumRow_wf _ _ _ _ _ _ ?_)
    | (refine State.sessWrite_wf _ _ _ _ _ ?_)
    | (refine State.signMsg_wf _ _ _ _ _ _ ?_)
    | (refine State.atomicAt_wf _ _ _ ?_)
    | (refine State.scrubbed_wf _ _ _ ?_)
    | (refine State.applyWrite_wf _ _ _ ?_)
    | (refine State.resetEnd_wf _ _ ?_)
    | (refine State.moduleReset_wf _ ?_)
    | (refine State.modrst_wf _ ?_)
    | (refine State.settleOrdered_wf _ ?_)
    | (refine State.setEntry_wf _ _ _ ?_)
    | (refine State.ingest_wf _ _ _ _ _ _ (fun _ _ => by simp) (fun _ _ hu => State.bwdStart_wf _ _ hu) ?_)
    | (refine State.request_wf _ _ _ _ _ _ (fun _ hu => State.setAll_wf _ _ _ hu) ?_)
    | split
theorem execResetDie_wf {sid : Nat} {q : QSrc} {s : State} {s1 : State} (h : execResetDie sid q s = .next s1) (hm : Memory.wf s.mem = true) : Memory.wf s1.mem = true := by
  unfold execResetDie at h
  (try dsimp only at h)
  repeat' split at h
  all_goals (simp only [Host.Outcome.next.injEq] at h; subst h)
  all_goals repeat' first
    | exact hm
    | (simp [hm]; done)
    | (simp only [State.releaseParts_mem, State.settleAttend_mem, State.settlePublish_mem, State.sample_mem, State.flag_mem, State.atTime_mem])
    | (refine State.quorumRow_wf _ _ _ _ _ _ ?_)
    | (refine State.sessWrite_wf _ _ _ _ _ ?_)
    | (refine State.signMsg_wf _ _ _ _ _ _ ?_)
    | (refine State.atomicAt_wf _ _ _ ?_)
    | (refine State.scrubbed_wf _ _ _ ?_)
    | (refine State.applyWrite_wf _ _ _ ?_)
    | (refine State.resetEnd_wf _ _ ?_)
    | (refine State.moduleReset_wf _ ?_)
    | (refine State.modrst_wf _ ?_)
    | (refine State.settleOrdered_wf _ ?_)
    | (refine State.setEntry_wf _ _ _ ?_)
    | (refine State.ingest_wf _ _ _ _ _ _ (fun _ _ => by simp) (fun _ _ hu => State.bwdStart_wf _ _ hu) ?_)
    | (refine State.request_wf _ _ _ _ _ _ (fun _ hu => State.setAll_wf _ _ _ hu) ?_)
    | split
theorem execResetPort_wf {sid : Option Nat} {isPeer : Bool} {port : Nat} {s : State} {s1 : State} (h : execResetPort sid isPeer port s = .next s1) (hm : Memory.wf s.mem = true) : Memory.wf s1.mem = true := by
  simp only [execResetPort, Host.Outcome.next.injEq] at h
  subst h
  generalize decide (port < (if isPeer = true then 64 else 128)) = b
  split
  · split
    · exact State.sessWrite_wf _ _ _ _ _ hm
    · exact State.resetOp_wf _ _ hm
  · exact hm
theorem execResetEngine_wf {sid : Option Nat} {e : Nat} {s : State} {s1 : State} (h : execResetEngine sid e s = .next s1) (hm : Memory.wf s.mem = true) : Memory.wf s1.mem = true := by
  simp only [execResetEngine, Host.Outcome.next.injEq] at h
  subst h
  split
  · split
    · exact State.sessWrite_wf _ _ _ _ _ hm
    · exact State.resetOp_wf _ _ hm
  · exact hm
theorem execResetDone_wf {kind : Nat} {unit : Nat} {s : State} {s1 : State} (h : execResetDone kind unit s = .next s1) (hm : Memory.wf s.mem = true) : Memory.wf s1.mem = true := by
  unfold execResetDone at h
  (try dsimp only at h)
  repeat' split at h
  all_goals (simp only [Host.Outcome.next.injEq] at h; subst h)
  all_goals repeat' first
    | exact hm
    | (simp [hm]; done)
    | (simp only [State.releaseParts_mem, State.settleAttend_mem, State.settlePublish_mem, State.sample_mem, State.flag_mem, State.atTime_mem])
    | (refine State.quorumRow_wf _ _ _ _ _ _ ?_)
    | (refine State.sessWrite_wf _ _ _ _ _ ?_)
    | (refine State.signMsg_wf _ _ _ _ _ _ ?_)
    | (refine State.atomicAt_wf _ _ _ ?_)
    | (refine State.scrubbed_wf _ _ _ ?_)
    | (refine State.applyWrite_wf _ _ _ ?_)
    | (refine State.resetEnd_wf _ _ ?_)
    | (refine State.moduleReset_wf _ ?_)
    | (refine State.modrst_wf _ ?_)
    | (refine State.settleOrdered_wf _ ?_)
    | (refine State.setEntry_wf _ _ _ ?_)
    | (refine State.ingest_wf _ _ _ _ _ _ (fun _ _ => by simp) (fun _ _ hu => State.bwdStart_wf _ _ hu) ?_)
    | (refine State.request_wf _ _ _ _ _ _ (fun _ hu => State.setAll_wf _ _ _ hu) ?_)
    | split
theorem execPowerD0_wf {sid : Nat} {s : State} {s1 : State} (h : execPowerD0 sid s = .next s1) (hm : Memory.wf s.mem = true) : Memory.wf s1.mem = true := by
  unfold execPowerD0 at h
  (try dsimp only at h)
  repeat' split at h
  all_goals (simp only [Host.Outcome.next.injEq] at h; subst h)
  all_goals repeat' first
    | exact hm
    | (simp [hm]; done)
    | (simp only [State.releaseParts_mem, State.settleAttend_mem, State.settlePublish_mem, State.sample_mem, State.flag_mem, State.atTime_mem])
    | (refine State.quorumRow_wf _ _ _ _ _ _ ?_)
    | (refine State.sessWrite_wf _ _ _ _ _ ?_)
    | (refine State.signMsg_wf _ _ _ _ _ _ ?_)
    | (refine State.atomicAt_wf _ _ _ ?_)
    | (refine State.scrubbed_wf _ _ _ ?_)
    | (refine State.applyWrite_wf _ _ _ ?_)
    | (refine State.resetEnd_wf _ _ ?_)
    | (refine State.moduleReset_wf _ ?_)
    | (refine State.modrst_wf _ ?_)
    | (refine State.settleOrdered_wf _ ?_)
    | (refine State.setEntry_wf _ _ _ ?_)
    | (refine State.ingest_wf _ _ _ _ _ _ (fun _ _ => by simp) (fun _ _ hu => State.bwdStart_wf _ _ hu) ?_)
    | (refine State.request_wf _ _ _ _ _ _ (fun _ hu => State.setAll_wf _ _ _ hu) ?_)
    | split
theorem execPowerD1_wf {sid : Nat} {s : State} {s1 : State} (h : execPowerD1 sid s = .next s1) (hm : Memory.wf s.mem = true) : Memory.wf s1.mem = true := by
  unfold execPowerD1 at h
  (try dsimp only at h)
  repeat' split at h
  all_goals (simp only [Host.Outcome.next.injEq] at h; subst h)
  all_goals repeat' first
    | exact hm
    | (simp [hm]; done)
    | (simp only [State.releaseParts_mem, State.settleAttend_mem, State.settlePublish_mem, State.sample_mem, State.flag_mem, State.atTime_mem])
    | (refine State.quorumRow_wf _ _ _ _ _ _ ?_)
    | (refine State.sessWrite_wf _ _ _ _ _ ?_)
    | (refine State.signMsg_wf _ _ _ _ _ _ ?_)
    | (refine State.atomicAt_wf _ _ _ ?_)
    | (refine State.scrubbed_wf _ _ _ ?_)
    | (refine State.applyWrite_wf _ _ _ ?_)
    | (refine State.resetEnd_wf _ _ ?_)
    | (refine State.moduleReset_wf _ ?_)
    | (refine State.modrst_wf _ ?_)
    | (refine State.settleOrdered_wf _ ?_)
    | (refine State.setEntry_wf _ _ _ ?_)
    | (refine State.ingest_wf _ _ _ _ _ _ (fun _ _ => by simp) (fun _ _ hu => State.bwdStart_wf _ _ hu) ?_)
    | (refine State.request_wf _ _ _ _ _ _ (fun _ hu => State.setAll_wf _ _ _ hu) ?_)
    | split
theorem execPowerD2_wf {sid : Nat} {q : QSrc} {s : State} {s1 : State} (h : execPowerD2 sid q s = .next s1) (hm : Memory.wf s.mem = true) : Memory.wf s1.mem = true := by
  unfold execPowerD2 at h
  (try dsimp only at h)
  repeat' split at h
  all_goals (simp only [Host.Outcome.next.injEq] at h; subst h)
  all_goals repeat' first
    | exact hm
    | (simp [hm]; done)
    | (simp only [State.releaseParts_mem, State.settleAttend_mem, State.settlePublish_mem, State.sample_mem, State.flag_mem, State.atTime_mem])
    | (refine State.quorumRow_wf _ _ _ _ _ _ ?_)
    | (refine State.sessWrite_wf _ _ _ _ _ ?_)
    | (refine State.signMsg_wf _ _ _ _ _ _ ?_)
    | (refine State.atomicAt_wf _ _ _ ?_)
    | (refine State.scrubbed_wf _ _ _ ?_)
    | (refine State.applyWrite_wf _ _ _ ?_)
    | (refine State.resetEnd_wf _ _ ?_)
    | (refine State.moduleReset_wf _ ?_)
    | (refine State.modrst_wf _ ?_)
    | (refine State.settleOrdered_wf _ ?_)
    | (refine State.setEntry_wf _ _ _ ?_)
    | (refine State.ingest_wf _ _ _ _ _ _ (fun _ _ => by simp) (fun _ _ hu => State.bwdStart_wf _ _ hu) ?_)
    | (refine State.request_wf _ _ _ _ _ _ (fun _ hu => State.setAll_wf _ _ _ hu) ?_)
    | split
theorem execPowerD3_wf {sid : Nat} {q : QSrc} {s : State} {s1 : State} (h : execPowerD3 sid q s = .next s1) (hm : Memory.wf s.mem = true) : Memory.wf s1.mem = true := by
  unfold execPowerD3 at h
  (try dsimp only at h)
  repeat' split at h
  all_goals (simp only [Host.Outcome.next.injEq] at h; subst h)
  all_goals repeat' first
    | exact hm
    | (simp [hm]; done)
    | (simp only [State.releaseParts_mem, State.settleAttend_mem, State.settlePublish_mem, State.sample_mem, State.flag_mem, State.atTime_mem])
    | (refine State.quorumRow_wf _ _ _ _ _ _ ?_)
    | (refine State.sessWrite_wf _ _ _ _ _ ?_)
    | (refine State.signMsg_wf _ _ _ _ _ _ ?_)
    | (refine State.atomicAt_wf _ _ _ ?_)
    | (refine State.scrubbed_wf _ _ _ ?_)
    | (refine State.applyWrite_wf _ _ _ ?_)
    | (refine State.resetEnd_wf _ _ ?_)
    | (refine State.moduleReset_wf _ ?_)
    | (refine State.modrst_wf _ ?_)
    | (refine State.settleOrdered_wf _ ?_)
    | (refine State.setEntry_wf _ _ _ ?_)
    | (refine State.ingest_wf _ _ _ _ _ _ (fun _ _ => by simp) (fun _ _ hu => State.bwdStart_wf _ _ hu) ?_)
    | (refine State.request_wf _ _ _ _ _ _ (fun _ hu => State.setAll_wf _ _ _ hu) ?_)
    | split
theorem execModEnFall_wf {s : State} {s1 : State} (h : execModEnFall s = .next s1) (hm : Memory.wf s.mem = true) : Memory.wf s1.mem = true := by
  simp only [execModEnFall, Host.Outcome.next.injEq] at h
  subst h
  split
  · exact State.darkLoss_wf _ (by rw [State.domainsOff_mem]; exact hm)
  · exact hm
theorem execModEnRise_wf {s : State} {s1 : State} (h : execModEnRise s = .next s1) (hm : Memory.wf s.mem = true) : Memory.wf s1.mem = true := by
  unfold execModEnRise at h
  extract_lets src s2 at h
  have e2 : s2.mem = s.mem := rfl
  clear_value s2
  simp only [Host.Outcome.next.injEq] at h
  subst h
  split
  · exact hm
  · split
    · exact State.moduleReset_wf _ (by rw [e2]; exact hm)
    · rw [e2]; exact hm
theorem execThermalTrip_wf {s : State} {s1 : State} (h : execThermalTrip s = .next s1) (hm : Memory.wf s.mem = true) : Memory.wf s1.mem = true := by
  simp only [execThermalTrip, Host.Outcome.next.injEq] at h
  subst h
  have e2 : Memory.wf s.domainsOff.darkLoss.mem = true := State.darkLoss_wf _ (by rw [State.domainsOff_mem]; exact hm)
  generalize s.domainsOff.darkLoss = z at e2 ⊢
  split
  · exact hm
  · exact e2

end Sys2Proof.Machine
end

