-- ==== Sys2Proof/Laws/Queue.lean ====
section
/-! SUPPORT. What the shared operations leave of the queue of waiting commands: all of it. One lemma per operation. -/

set_option maxRecDepth 8000
set_option linter.all false

namespace Sys2Proof.Machine

open Sys2Proof

theorem pending_foldl {α : Type} (f : State → α → State) (l : List α) (s : State) (h : ∀ a x, (f a x).pending = a.pending) : (l.foldl f s).pending = s.pending := by
  induction l generalizing s with
  | nil => rfl
  | cons x t ih => simp only [List.foldl]; rw [ih, h]
theorem pending_fold1 {α β : Type} (f : State × β → α → State × β) (l : List α) (s : State × β) (h : ∀ a x, (f a x).1.pending = a.1.pending) :
    (l.foldl f s).1.pending = s.1.pending := by
  induction l generalizing s with
  | nil => rfl
  | cons x t ih => simp only [List.foldl]; rw [ih, h]
theorem pending_fold2 {α β : Type} (f : β × State → α → β × State) (l : List α) (s : β × State) (h : ∀ a x, (f a x).2.pending = a.2.pending) :
    (l.foldl f s).2.pending = s.2.pending := by
  induction l generalizing s with
  | nil => rfl
  | cons x t ih => simp only [List.foldl]; rw [ih, h]
theorem pending_ite {s : State} {c : Prop} [Decidable c] {a b : State} (h1 : a.pending = s.pending) (h2 : b.pending = s.pending) :
    (if c then a else b).pending = s.pending := by split <;> assumption
theorem pending_ite2 {β : Type} {s : State} {c : Prop} [Decidable c] {a b : β × State} (h1 : a.2.pending = s.pending) (h2 : b.2.pending = s.pending) :
    (if c then a else b).2.pending = s.pending := by split <;> assumption
@[simp] theorem State.setObj_pending (s : State) (idx : Nat) (sub : Nat) (v : Nat) : (State.setObj s idx sub v).pending = s.pending := by simp [State.setObj]
@[simp] theorem State.setObjI_pending (s : State) (idx : Nat) (sub : Nat) (i : Nat) (v : Nat) : (State.setObjI s idx sub i v).pending = s.pending := by simp [State.setObjI]
@[simp] theorem State.bump_pending (s : State) (idx : Nat) (sub : Nat) (n : Nat) : (State.bump s idx sub n).pending = s.pending := by simp [State.bump]
@[simp] theorem State.bumpI_pending (s : State) (idx : Nat) (sub : Nat) (i : Nat) (n : Nat) : (State.bumpI s idx sub i n).pending = s.pending := by simp [State.bumpI]
@[simp] theorem State.noteAll_pending (s : State) (code : Nat) (f : Bytes) : (State.noteAll s code f).1.pending = s.pending := by
  unfold State.noteAll
  repeat' first | with_reducible rfl | refine (pending_fold1 _ _ _ (fun _ _ => ?_)).trans ?_ | split | simp
@[simp] theorem State.flagOnly_pending (s : State) (k : Nat) (b : Nat) : (State.flagOnly s k b).pending = s.pending := by simp [State.flagOnly]
@[simp] theorem State.notify_pending (s : State) (code : Nat) (f : Bytes) : (State.notify s code f).pending = s.pending := by
  unfold State.notify
  repeat' first | with_reducible rfl | split | simp
@[simp] theorem State.flagK_pending (s : State) (k : Nat) (b : Nat) : (State.flagK s k b).pending = s.pending := by simp [State.flagK]
@[simp] theorem State.flag_pending (s : State) (idx : Nat) (sub : Nat) (b : Nat) : (State.flag s idx sub b).pending = s.pending := by simp [State.flag]
@[simp] theorem State.condition_pending (s : State) (holds : Bool) (bitNo : Nat) (idx : Nat) (sub : Nat) (b : Nat) : (State.condition s holds bitNo idx sub b).pending = s.pending := by
  unfold State.condition
  repeat' first | with_reducible rfl | split | simp
@[simp] theorem State.restored_pending (s : State) (kind : Nat) (classes : Nat) (scope : Nat) (scopeId : Nat) : (State.restored s kind classes scope scopeId).pending = s.pending := by simp [State.restored]
@[simp] theorem State.respond_pending (s : State) (sid : Nat) (idx : Nat) (sub : Nat) (rc : Nat) : (State.respond s sid idx sub rc).pending = s.pending := by unfold State.respond; split <;> simp
@[simp] theorem State.ldFlag_pending (s : State) (p : Nat) (l : Nat) (b : Nat) : (State.ldFlag s p l b).pending = s.pending := by simp [State.ldFlag]
@[simp] theorem State.draw_pending (s : State) (n : Nat) : (State.draw s n).2.pending = s.pending := by simp [State.draw]
@[simp] theorem State.drawNs_pending (s : State) : (State.drawNs s).2.pending = s.pending := by simp [State.drawNs]
@[simp] theorem State.drawWord_pending (s : State) : (State.drawWord s).2.pending = s.pending := by simp [State.drawWord]
@[simp] theorem State.applyWrite_pending (s : State) (a : Nat) (d : Bytes) : (State.applyWrite s a d).pending = s.pending := by simp [State.applyWrite]
@[simp] theorem State.sample_pending (s : State) (m : Nat) (v : Nat) (sc : SampleScope) : (State.sample s m v sc).pending = s.pending := by
  unfold State.sample
  repeat' first | with_reducible rfl | split | simp
@[simp] theorem State.throttle_pending (s : State) (t : Nat) (tc : Nat) (bytes : Nat) (hit : Bool) : (State.throttle s t tc bytes hit).pending = s.pending := by simp [State.throttle]
@[simp] theorem State.take_pending (s : Sys2Proof.Machine.State) (t : Nat) (tc : Nat) (d : Nat) (cost : Nat) : (Sys2Proof.Machine.State.take s t tc d cost).2.pending = s.pending := by
  unfold State.take
  repeat' first
    | with_reducible rfl
    | refine (pending_foldl _ _ _ (fun _ _ => ?_)).trans ?_
    | refine (pending_fold1 _ _ _ (fun _ _ => ?_)).trans ?_
    | refine (pending_fold2 _ _ _ (fun _ _ => ?_)).trans ?_
    | split
    | simp
    | rfl
@[simp] theorem State.dropObjs_pending (s : State) (f : Nat → Cls → Bool) : (State.dropObjs s f).pending = s.pending := by simp [State.dropObjs]
@[simp] theorem State.setRing_pending (s : State) (p : Nat) (l : Nat) (r : Nat) (x : SRing) : (State.setRing s p l r x).pending = s.pending := by simp [State.setRing]
@[simp] theorem State.setCq_pending (s : State) (p : Nat) (l : Nat) (r : Nat) (x : CRing) : (State.setCq s p l r x).pending = s.pending := by simp [State.setCq]
@[simp] theorem State.eventRecord_pending (s : State) (p : Nat) (l : Nat) (status : Nat) (detail : Nat) (hint : Nat) : (State.eventRecord s p l status detail hint).pending = s.pending := by
  unfold State.eventRecord
  repeat' first | with_reducible rfl | split | simp
@[simp] theorem State.flushEvents_pending (s : State) (p : Nat) (l : Nat) (x3 : Nat) : (State.flushEvents s p l x3).pending = s.pending := by
  induction x3 generalizing s with
  | zero => rfl
  | succ n ih =>
    unfold State.flushEvents
    repeat' first
      | with_reducible rfl
      | (refine (pending_foldl _ _ _ (fun a x => ?_)).trans ?_)
      | (refine (pending_fold1 _ _ _ (fun a x => ?_)).trans ?_)
      | (refine (pending_fold2 _ _ _ (fun a x => ?_)).trans ?_)
      | split
      | simp [ih]
@[simp] theorem State.breakRing_pending (s : State) (p : Nat) (l : Nat) (r : Nat) (reason : Nat) : (State.breakRing s p l r reason).pending = s.pending := by simp [State.breakRing]
theorem State.turn_pending {s t : State} {p l r : Nat} (h : s.turn p l r = some t) : t.pending = s.pending := by
  unfold State.turn at h
  repeat' split at h
  all_goals simp at h
  all_goals (subst h; simp)
@[simp] theorem State.consume_pending (s : State) (p : Nat) (l : Nat) (r : Nat) (n : Nat) (pad : Bool) : (State.consume s p l r n pad).pending = s.pending := by simp [State.consume]
@[simp] theorem State.modCmd_pending (s : State) (c : Nat) (f : Cmd → Cmd) : (State.modCmd s c f).pending = s.pending := by unfold State.modCmd; split <;> simp
@[simp] theorem State.cqFail_pending (s : State) (p : Nat) (l : Nat) (c : Nat) : (State.cqFail s p l c).pending = s.pending := by
  unfold State.cqFail
  repeat' first | with_reducible rfl | refine (pending_foldl _ _ _ (fun _ _ => ?_)).trans ?_ | split | simp
@[simp] theorem State.appendDone_pending (s : Sys2Proof.Machine.State) (c : Nat) (x : Sys2Proof.Machine.Cmd) (st : Nat) : (Sys2Proof.Machine.State.appendDone s c x st).pending = s.pending := by
  unfold State.appendDone
  repeat' first
    | with_reducible rfl
    | refine (pending_foldl _ _ _ (fun _ _ => ?_)).trans ?_
    | refine (pending_fold1 _ _ _ (fun _ _ => ?_)).trans ?_
    | refine (pending_fold2 _ _ _ (fun _ _ => ?_)).trans ?_
    | split
    | simp
    | rfl
@[simp] theorem State.writeRecord_pending (s : Sys2Proof.Machine.State) (c : Nat) (x : Sys2Proof.Machine.Cmd) (resultOk : Bool) (recordOk : Bool) : (Sys2Proof.Machine.State.writeRecord s c x resultOk recordOk).pending = s.pending := by
  unfold State.writeRecord
  repeat' first
    | with_reducible rfl
    | refine (pending_foldl _ _ _ (fun _ _ => ?_)).trans ?_
    | refine (pending_fold1 _ _ _ (fun _ _ => ?_)).trans ?_
    | refine (pending_fold2 _ _ _ (fun _ _ => ?_)).trans ?_
    | split
    | simp
    | rfl
@[simp] theorem State.failCmd_pending (s : Sys2Proof.Machine.State) (c : Nat) (st : Nat) (reason : Nat) (hint : optParam Nat 0) : (Sys2Proof.Machine.State.failCmd s c st reason hint).pending = s.pending := by
  unfold State.failCmd
  repeat' first
    | with_reducible rfl
    | refine (pending_foldl _ _ _ (fun _ _ => ?_)).trans ?_
    | refine (pending_fold1 _ _ _ (fun _ _ => ?_)).trans ?_
    | refine (pending_fold2 _ _ _ (fun _ _ => ?_)).trans ?_
    | split
    | simp
    | rfl
@[simp] theorem State.cutItem_pending (s : State) (ref : Nat) (i : Nat) (st : Nat) (reason : Nat) : (State.cutItem s ref i st reason).pending = s.pending := by
  unfold State.cutItem
  repeat' split
  all_goals simp
@[simp] theorem State.cutItems_pending (s : State) (f : Nat → Cmd → Nat → Bool) (st : Nat) (reason : Nat) : (State.cutItems s f st reason).pending = s.pending := by
  unfold State.cutItems
  repeat' first | with_reducible rfl | refine (pending_foldl _ _ _ (fun _ _ => ?_)).trans ?_ | split | simp
@[simp] theorem State.policed_pending (s : State) (p l base : Nat) (var : Option Recipe) (h : Bytes) : (State.policed s p l base var h).2.pending = s.pending := by
  unfold State.policed
  repeat' first | with_reducible rfl | split | simp
@[simp] theorem State.enter_pending (s : State) (c : Cmd) : (State.enter s c).pending = s.pending := by simp [State.enter]
@[simp] theorem State.refuse_pending (s : State) (p : Nat) (l : Nat) (r : Nat) (base : Nat) (h : Bytes) (pay : Bytes) (st : Nat) (stage : Nat) (reason : Nat) (hint : Nat) : (State.refuse s p l r base h pay st stage reason hint).pending = s.pending := by simp [State.refuse]
theorem State.ingest_pending (s : State) (p l r : Nat) (mine : Nat → Bool) (run : Recipe.Run) (ha : ∀ u c, (run.atAdmit u c).pending = u.pending)
    (hs : ∀ u c, (run.start u c).pending = u.pending) : (s.ingest p l r mine run).pending = s.pending := by
  unfold State.ingest
  split
  · rfl
  · rename_i s0 h0
    have h1 := State.turn_pending h0
    dsimp only
    split
    · rfl
    · simp [h1]
    · split
      · rfl
      · split
        · rfl
        · rename_i base var _
          split
          · rfl
          · split
            · rename_i h2
              have h3 := congrArg (fun z => z.2.pending) h2
              simp at h3
              simp [← h3, h1]
            · rename_i h2
              have h3 := congrArg (fun z => z.2.pending) h2
              simp at h3
              split
              · simp [← h3, h1]
              · split <;> simp [ha, hs, ← h3, h1]
@[simp] theorem State.releaseParts_pending (s : State) : (State.releaseParts s).pending = s.pending := by simp [State.releaseParts]
@[simp] theorem State.tc0Note_pending (s : Sys2Proof.Machine.State) (d : Nat) (x : Nat) : (Sys2Proof.Machine.State.tc0Note s d x).pending = s.pending := by
  unfold State.tc0Note
  repeat' first
    | with_reducible rfl
    | refine (pending_foldl _ _ _ (fun _ _ => ?_)).trans ?_
    | refine (pending_fold1 _ _ _ (fun _ _ => ?_)).trans ?_
    | refine (pending_fold2 _ _ _ (fun _ _ => ?_)).trans ?_
    | split
    | simp
    | rfl
@[simp] theorem State.tc0Gate_pending (s : Sys2Proof.Machine.State) (p : Nat) : (Sys2Proof.Machine.State.tc0Gate s p).pending = s.pending := by
  unfold State.tc0Gate
  repeat' first
    | with_reducible rfl
    | refine (pending_foldl _ _ _ (fun _ _ => ?_)).trans ?_
    | refine (pending_fold1 _ _ _ (fun _ _ => ?_)).trans ?_
    | refine (pending_fold2 _ _ _ (fun _ _ => ?_)).trans ?_
    | split
    | simp
    | rfl
@[simp] theorem State.deny_pending (s : State) (p : Nat) (l : Nat) (ro : Bool) : (State.deny s p l ro).pending = s.pending := by unfold State.deny; split <;> simp
@[simp] theorem State.renew_pending (s : State) (p : Nat) (l : Nat) : (State.renew s p l).pending = s.pending := by simp [State.renew]
@[simp] theorem State.askPeer_pending (s : Sys2Proof.Machine.State) (src : Sys2Proof.Source) (kind : Nat) (dev : Nat) (a : Nat) (tag : Nat) (flag : Bool) (want : Nat) (d : Sys2Proof.Bytes) : (Sys2Proof.Machine.State.askPeer s src kind dev a tag flag want d).pending = s.pending := by
  unfold State.askPeer
  repeat' first
    | with_reducible rfl
    | refine (pending_foldl _ _ _ (fun _ _ => ?_)).trans ?_
    | refine (pending_fold1 _ _ _ (fun _ _ => ?_)).trans ?_
    | refine (pending_fold2 _ _ _ (fun _ _ => ?_)).trans ?_
    | split
    | simp
    | rfl
@[simp] theorem State.await_pending (s : Sys2Proof.Machine.State) (src : Sys2Proof.Source) (kind : Nat) (dev : Nat) (a : Nat) (back : Nat) (ctl : Bool) (want : Nat) (d : Sys2Proof.Bytes) : (Sys2Proof.Machine.State.await s src kind dev a back ctl want d).pending = s.pending := by
  unfold State.await
  repeat' first
    | with_reducible rfl
    | refine (pending_foldl _ _ _ (fun _ _ => ?_)).trans ?_
    | refine (pending_fold1 _ _ _ (fun _ _ => ?_)).trans ?_
    | refine (pending_fold2 _ _ _ (fun _ _ => ?_)).trans ?_
    | split
    | simp
    | rfl
@[simp] theorem State.atomicReply_pending (s : State) (r : AtomReq) (data : Bytes) (poison : Bool) : (State.atomicReply s r data poison).pending = s.pending := by unfold State.atomicReply; split <;> simp
@[simp] theorem State.sendOne_pending (s : Sys2Proof.Machine.State) (w : Sys2Proof.Machine.WrOut) : (Sys2Proof.Machine.State.sendOne s w).pending = s.pending := by
  unfold State.sendOne
  repeat' first
    | with_reducible rfl
    | refine (pending_foldl _ _ _ (fun _ _ => ?_)).trans ?_
    | refine (pending_fold1 _ _ _ (fun _ _ => ?_)).trans ?_
    | refine (pending_fold2 _ _ _ (fun _ _ => ?_)).trans ?_
    | split
    | simp
    | rfl
@[simp] theorem State.sendReady_pending (s : Sys2Proof.Machine.State) : (Sys2Proof.Machine.State.sendReady s).pending = s.pending := by
  unfold State.sendReady
  repeat' first
    | with_reducible rfl
    | refine (pending_foldl _ _ _ (fun _ _ => ?_)).trans ?_
    | refine (pending_fold1 _ _ _ (fun _ _ => ?_)).trans ?_
    | refine (pending_fold2 _ _ _ (fun _ _ => ?_)).trans ?_
    | split
    | simp
    | rfl
@[simp] theorem State.admitWrite_pending (s : State) (src : Source) (a : Nat) (dpa : Nat) (d : Bytes) (flag : Bool) (e : Option Nat) : (State.admitWrite s src a dpa d flag e).pending = s.pending := by simp [State.admitWrite]
@[simp] theorem State.noteLost_pending (s : State) (p : Nat) (l : Nat) (wid : Nat) (dpa : Nat) (n : Nat) : (State.noteLost s p l wid dpa n).pending = s.pending := by simp [State.noteLost]
@[simp] theorem State.countWaits_pending (s : State) : (State.countWaits s).pending = s.pending := by
  unfold State.countWaits
  repeat' first | with_reducible rfl | split | simp
@[simp] theorem State.loseWrites_pending (s : Sys2Proof.Machine.State) (f : Sys2Proof.Machine.WrOut → Bool) : (Sys2Proof.Machine.State.loseWrites s f).pending = s.pending := by
  unfold State.loseWrites
  repeat' first
    | with_reducible rfl
    | refine (pending_foldl _ _ _ (fun _ _ => ?_)).trans ?_
    | refine (pending_fold1 _ _ _ (fun _ _ => ?_)).trans ?_
    | refine (pending_fold2 _ _ _ (fun _ _ => ?_)).trans ?_
    | split
    | simp
    | rfl
@[simp] theorem State.freeExt_pending (s : Sys2Proof.Machine.State) (e : Nat) (x : Sys2Proof.Machine.Extent) : (Sys2Proof.Machine.State.freeExt s e x).pending = s.pending := by
  unfold State.freeExt
  repeat' first
    | with_reducible rfl
    | refine (pending_foldl _ _ _ (fun _ _ => ?_)).trans ?_
    | refine (pending_fold1 _ _ _ (fun _ _ => ?_)).trans ?_
    | refine (pending_fold2 _ _ _ (fun _ _ => ?_)).trans ?_
    | split
    | simp
    | rfl
@[simp] theorem State.toScrub_pending (s : Sys2Proof.Machine.State) (e : Nat) (x : Sys2Proof.Machine.Extent) : (Sys2Proof.Machine.State.toScrub s e x).pending = s.pending := by
  unfold State.toScrub
  repeat' first
    | with_reducible rfl
    | refine (pending_foldl _ _ _ (fun _ _ => ?_)).trans ?_
    | refine (pending_fold1 _ _ _ (fun _ _ => ?_)).trans ?_
    | refine (pending_fold2 _ _ _ (fun _ _ => ?_)).trans ?_
    | split
    | simp
    | rfl
@[simp] theorem State.toFailed_pending (s : Sys2Proof.Machine.State) (e : Nat) (x : Sys2Proof.Machine.Extent) : (Sys2Proof.Machine.State.toFailed s e x).pending = s.pending := by
  unfold State.toFailed
  repeat' first
    | with_reducible rfl
    | refine (pending_foldl _ _ _ (fun _ _ => ?_)).trans ?_
    | refine (pending_fold1 _ _ _ (fun _ _ => ?_)).trans ?_
    | refine (pending_fold2 _ _ _ (fun _ _ => ?_)).trans ?_
    | split
    | simp
    | rfl
@[simp] theorem State.toDrain_pending (s : Sys2Proof.Machine.State) (e : Nat) (x : Sys2Proof.Machine.Extent) (n : Option (Nat × Nat × Nat × Bool)) : (Sys2Proof.Machine.State.toDrain s e x n).pending = s.pending := by
  unfold State.toDrain
  repeat' first
    | with_reducible rfl
    | refine (pending_foldl _ _ _ (fun _ _ => ?_)).trans ?_
    | refine (pending_fold1 _ _ _ (fun _ _ => ?_)).trans ?_
    | refine (pending_fold2 _ _ _ (fun _ _ => ?_)).trans ?_
    | split
    | simp
    | rfl
@[simp] theorem State.revokeNotice_pending (s : State) (x : Extent) : (State.revokeNotice s x).pending = s.pending := by unfold State.revokeNotice; split <;> simp
@[simp] theorem State.dropMaps_pending (s : State) (x : Extent) (byLease : Bool) : (State.dropMaps s x byLease).pending = s.pending := pending_foldl _ _ _ (fun _ _ => by simp)
@[simp] theorem State.dropUnheld_pending (s : State) : (State.dropUnheld s).pending = s.pending := by simp [State.dropUnheld]
@[simp] theorem State.revoke_pending (s : Sys2Proof.Machine.State) (e : Nat) (byLease : Bool) (notify : Bool) : (Sys2Proof.Machine.State.revoke s e byLease notify).pending = s.pending := by
  unfold State.revoke
  repeat' first
    | with_reducible rfl
    | refine (pending_foldl _ _ _ (fun _ _ => ?_)).trans ?_
    | refine (pending_fold1 _ _ _ (fun _ _ => ?_)).trans ?_
    | refine (pending_fold2 _ _ _ (fun _ _ => ?_)).trans ?_
    | split
    | simp
    | rfl
@[simp] theorem State.leaveVersion_pending (s : Sys2Proof.Machine.State) (e : Nat) (x : Sys2Proof.Machine.Extent) (mine : Option (Nat × Nat) → Nat × Nat × Nat → Bool) : (Sys2Proof.Machine.State.leaveVersion s e x mine).pending = s.pending := by
  unfold State.leaveVersion
  repeat' first
    | with_reducible rfl
    | refine (pending_foldl _ _ _ (fun _ _ => ?_)).trans ?_
    | refine (pending_fold1 _ _ _ (fun _ _ => ?_)).trans ?_
    | refine (pending_fold2 _ _ _ (fun _ _ => ?_)).trans ?_
    | split
    | simp
    | rfl
@[simp] theorem State.revokeAll_pending (s : State) (p : Nat) (l : Nat) (byLease : Bool) (notify : Bool) : (State.revokeAll s p l byLease notify).pending = s.pending := by
  unfold State.revokeAll
  repeat' first | with_reducible rfl | refine (pending_foldl _ _ _ (fun _ _ => ?_)).trans ?_ | split | simp
@[simp] theorem State.failExt_pending (s : Sys2Proof.Machine.State) (e : Nat) : (Sys2Proof.Machine.State.failExt s e).pending = s.pending := by
  unfold State.failExt
  repeat' first
    | with_reducible rfl
    | refine (pending_foldl _ _ _ (fun _ _ => ?_)).trans ?_
    | refine (pending_fold1 _ _ _ (fun _ _ => ?_)).trans ?_
    | refine (pending_fold2 _ _ _ (fun _ _ => ?_)).trans ?_
    | split
    | simp
    | rfl
@[simp] theorem State.extentsOut_pending (s : State) (f : Extent → Bool) : (State.extentsOut s f).pending = s.pending := by simp [State.extentsOut]
@[simp] theorem State.extentsBack_pending (s : State) (f : Extent → Bool) : (State.extentsBack s f).pending = s.pending := by simp [State.extentsBack]
@[simp] theorem State.offer_pending (s : State) (p : Nat) (l : Nat) (e : Nat) (slot : Nat) : (State.offer s p l e slot).pending = s.pending := by unfold State.offer; split <;> simp
@[simp] theorem State.offerShared_pending (s : State) (p : Nat) (l : Nat) (e : Nat) (slot : Nat) : (State.offerShared s p l e slot).pending = s.pending := by unfold State.offerShared; split <;> simp
@[simp] theorem State.allocAway_pending (s : Sys2Proof.Machine.State) (p : Nat) (l : Nat) (v : Nat) (kind : Nat) (argv : Nat) (n : Nat) : (Sys2Proof.Machine.State.allocAway s p l v kind argv n).2.pending = s.pending := by
  unfold State.allocAway
  repeat' first
    | with_reducible rfl
    | refine (pending_foldl _ _ _ (fun _ _ => ?_)).trans ?_
    | refine (pending_fold1 _ _ _ (fun _ _ => ?_)).trans ?_
    | refine (pending_fold2 _ _ _ (fun _ _ => ?_)).trans ?_
    | split
    | simp
    | rfl
@[simp] theorem State.allocOp_pending (s : Sys2Proof.Machine.State) (b : Sys2Proof.Bytes) : (Sys2Proof.Machine.State.allocOp s b).2.pending = s.pending := by
  unfold State.allocOp
  repeat' first
    | with_reducible rfl
    | refine (pending_foldl _ _ _ (fun _ _ => ?_)).trans ?_
    | refine (pending_fold1 _ _ _ (fun _ _ => ?_)).trans ?_
    | refine (pending_fold2 _ _ _ (fun _ _ => ?_)).trans ?_
    | split
    | simp
    | rfl
@[simp] theorem State.revokeOp_pending (s : State) (v : Nat) : (State.revokeOp s v).2.pending = s.pending := by
  unfold State.revokeOp
  repeat' split
  all_goals simp
@[simp] theorem State.setSpare_pending (s : State) (k : Nat) (v : Nat) : (State.setSpare s k v).pending = s.pending := by simp [State.setSpare]
@[simp] theorem State.hbmChannel_pending (s : State) (die : Nat) (channel : Nat) : (State.hbmChannel s die channel).pending = s.pending := by
  unfold State.hbmChannel
  repeat' first | with_reducible rfl | split | simp
@[simp] theorem State.hbmRow_pending (s : State) (die : Nat) (row : Nat) : (State.hbmRow s die row).pending = s.pending := by
  unfold State.hbmRow
  repeat' first | with_reducible rfl | split | simp
@[simp] theorem State.repairRows_pending (s : Sys2Proof.Machine.State) (x : Sys2Proof.Machine.Extent) : (Sys2Proof.Machine.State.repairRows s x).pending = s.pending := by
  unfold State.repairRows
  repeat' first
    | with_reducible rfl
    | refine (pending_foldl _ _ _ (fun _ _ => ?_)).trans ?_
    | refine (pending_fold1 _ _ _ (fun _ _ => ?_)).trans ?_
    | refine (pending_fold2 _ _ _ (fun _ _ => ?_)).trans ?_
    | split
    | simp
    | rfl
@[simp] theorem State.repairOp_pending (s : Sys2Proof.Machine.State) (v : Nat) : (Sys2Proof.Machine.State.repairOp s v).2.pending = s.pending := by
  unfold State.repairOp
  repeat' first
    | with_reducible rfl
    | refine (pending_foldl _ _ _ (fun _ _ => ?_)).trans ?_
    | refine (pending_fold1 _ _ _ (fun _ _ => ?_)).trans ?_
    | refine (pending_fold2 _ _ _ (fun _ _ => ?_)).trans ?_
    | split
    | simp
    | rfl
theorem State.sessionWrite_pending (s : State) (sid idx sub : Nat) (claimMay : Bool) (op : State → Nat × State) (h : ∀ u, (op u).2.pending = u.pending) :
    (s.sessionWrite sid idx sub claimMay op).pending = s.pending := by
  unfold State.sessionWrite
  repeat' first
    | with_reducible rfl
    | (refine (pending_foldl _ _ _ (fun a x => ?_)).trans ?_)
    | (refine (pending_fold1 _ _ _ (fun a x => ?_)).trans ?_)
    | (refine (pending_fold2 _ _ _ (fun a x => ?_)).trans ?_)
    | split
    | simp [*]
@[simp] theorem State.wsqWrite_pending (s : State) (k : Nat) (v : Nat) : (State.wsqWrite s k v).2.pending = s.pending := by
  unfold State.wsqWrite
  repeat' first | with_reducible rfl | refine (pending_foldl _ _ _ (fun _ _ => ?_)).trans ?_ | split | simp
@[simp] theorem State.scrubbed_pending (s : State) (eid : Nat) (x : Extent) : (State.scrubbed s eid x).pending = s.pending := by simp [State.scrubbed]
@[simp] theorem State.doorbell_pending (s : State) (p : Nat) (l : Nat) (value : Nat) (size : Nat) : (State.doorbell s p l value size).pending = s.pending := by
  unfold State.doorbell
  repeat' first | with_reducible rfl | split | simp
@[simp] theorem State.donorOffer_pending (s : State) (p : Nat) (l : Nat) (i : Nat) : (State.donorOffer s p l i).pending = s.pending := by
  unfold State.donorOffer
  repeat' first | with_reducible rfl | split | simp
@[simp] theorem State.dropRegion_pending (s : State) (region : Nat) : (State.dropRegion s region).pending = s.pending := by simp [State.dropRegion]
@[simp] theorem State.forgetRegion_pending (s : Sys2Proof.Machine.State) (region : Nat) : (Sys2Proof.Machine.State.forgetRegion s region).pending = s.pending := by
  unfold State.forgetRegion
  repeat' first
    | with_reducible rfl
    | refine (pending_foldl _ _ _ (fun _ _ => ?_)).trans ?_
    | refine (pending_fold1 _ _ _ (fun _ _ => ?_)).trans ?_
    | refine (pending_fold2 _ _ _ (fun _ _ => ?_)).trans ?_
    | split
    | simp
    | rfl
@[simp] theorem State.donorRevoke_pending (s : State) (p : Nat) (l : Nat) (i : Nat) : (State.donorRevoke s p l i).pending = s.pending := by
  unfold State.donorRevoke
  repeat' first | with_reducible rfl | split | simp
@[simp] theorem State.dropDonors_pending (s : State) (p : Nat) : (State.dropDonors s p).pending = s.pending := by
  unfold State.dropDonors
  repeat' first | with_reducible rfl | refine (pending_foldl _ _ _ (fun _ _ => ?_)).trans ?_ | split | simp
@[simp] theorem State.trayFail_pending (s : State) (p : Nat) : (State.trayFail s p).pending = s.pending := by
  unfold State.trayFail
  repeat' first | with_reducible rfl | refine (pending_foldl _ _ _ (fun _ _ => ?_)).trans ?_ | split | simp
@[simp] theorem State.setLine_pending (s : State) (o : Nat) (x : HLine) : (State.setLine s o x).pending = s.pending := by simp [State.setLine]
@[simp] theorem State.setCached_pending (s : State) (c : CLine) : (State.setCached s c).pending = s.pending := by unfold State.setCached; split <;> simp
@[simp] theorem State.send_pending (s : State) (m : CohMsg) : (State.send s m).pending = s.pending := by simp [State.send]
@[simp] theorem State.biSnoop_pending (s : State) (o : Nat) (hs : List (Nat × Nat)) : (State.biSnoop s o hs).pending = s.pending := pending_foldl _ _ _ (fun _ _ => by simp)
@[simp] theorem State.snoopFor_pending (s : State) (o : Nat) (t : Txn) : (State.snoopFor s o t).pending = s.pending := by
  unfold State.snoopFor
  repeat' first | with_reducible rfl | refine (pending_foldl _ _ _ (fun _ _ => ?_)).trans ?_ | split | simp
@[simp] theorem State.grantTxn_pending (s : State) (o : Nat) (t : Txn) : (State.grantTxn s o t).pending = s.pending := by
  unfold State.grantTxn
  repeat' split
  all_goals simp
@[simp] theorem State.runLine_pending (s : State) (o : Nat) (x2 : Nat) : (State.runLine s o x2).pending = s.pending := by
  induction x2 generalizing s with
  | zero => rfl
  | succ n ih =>
    unfold State.runLine
    repeat' first
      | with_reducible rfl
      | (refine (pending_foldl _ _ _ (fun a x => ?_)).trans ?_)
      | (refine (pending_fold1 _ _ _ (fun a x => ?_)).trans ?_)
      | (refine (pending_fold2 _ _ _ (fun a x => ?_)).trans ?_)
      | split
      | simp [ih]
@[simp] theorem State.makeRoom_pending (s : State) (o : Nat) : (State.makeRoom s o).pending = s.pending := by
  unfold State.makeRoom
  repeat' first | with_reducible rfl | split | simp
@[simp] theorem State.queueAt_pending (s : Sys2Proof.Machine.State) (o : Nat) (t : Sys2Proof.Machine.Txn) : (Sys2Proof.Machine.State.queueAt s o t).pending = s.pending := by
  unfold State.queueAt
  repeat' first
    | with_reducible rfl
    | refine (pending_foldl _ _ _ (fun _ _ => ?_)).trans ?_
    | refine (pending_fold1 _ _ _ (fun _ _ => ?_)).trans ?_
    | refine (pending_fold2 _ _ _ (fun _ _ => ?_)).trans ?_
    | split
    | simp
    | rfl
@[simp] theorem State.freshLine_pending (s : Sys2Proof.Machine.State) (o : Nat) (v : Sys2Proof.Bytes) : (Sys2Proof.Machine.State.freshLine s o v).pending = s.pending := by
  unfold State.freshLine
  repeat' first
    | with_reducible rfl
    | refine (pending_foldl _ _ _ (fun _ _ => ?_)).trans ?_
    | refine (pending_fold1 _ _ _ (fun _ _ => ?_)).trans ?_
    | refine (pending_fold2 _ _ _ (fun _ _ => ?_)).trans ?_
    | split
    | simp
    | rfl
@[simp] theorem State.bringLine_pending (s : Sys2Proof.Machine.State) (o : Nat) : (Sys2Proof.Machine.State.bringLine s o).pending = s.pending := by
  unfold State.bringLine
  repeat' first
    | with_reducible rfl
    | refine (pending_foldl _ _ _ (fun _ _ => ?_)).trans ?_
    | refine (pending_fold1 _ _ _ (fun _ _ => ?_)).trans ?_
    | refine (pending_fold2 _ _ _ (fun _ _ => ?_)).trans ?_
    | split
    | simp
    | rfl
@[simp] theorem State.freshViews_pending (s : Sys2Proof.Machine.State) : (Sys2Proof.Machine.State.freshViews s).pending = s.pending := by
  unfold State.freshViews
  repeat' first
    | with_reducible rfl
    | refine (pending_foldl _ _ _ (fun _ _ => ?_)).trans ?_
    | refine (pending_fold1 _ _ _ (fun _ _ => ?_)).trans ?_
    | refine (pending_fold2 _ _ _ (fun _ _ => ?_)).trans ?_
    | split
    | simp
    | rfl
@[simp] theorem State.atHome_pending (s : State) (o : Nat) (t : Txn) : (State.atHome s o t).pending = s.pending := by simp [State.atHome]
@[simp] theorem State.answered_pending (s : State) (a : Nat) (o : Nat) (v : Option Bytes) (fwd : Bool) : (State.answered s a o v fwd).pending = s.pending := by
  unfold State.answered
  repeat' first | with_reducible rfl | split | simp
@[simp] theorem State.settleFences_pending (s : State) : (State.settleFences s).pending = s.pending := by simp [State.settleFences]
theorem State.cacheRoom_of_pending {s s1 : State} {i line : Nat} (h : s.cacheRoom i line = some s1) : s1.pending = s.pending := by
  unfold State.cacheRoom at h
  by_cases hl : ((s.caches.filter (fun c => c.agent == i && c.line != line && (c.st != 0 || c.req != 0))).length < cacheLines i)
  · rw [if_pos hl] at h; cases h; rfl
  · rw [if_neg hl] at h
    obtain ⟨c, _, rfl⟩ := Option.map_eq_some_iff.mp h
    simp
@[simp] theorem State.sqTailOp_pending (s : State) (p : Nat) (l : Nat) (r : Nat) (v : Nat) : (State.sqTailOp s p l r v).pending = s.pending := by
  unfold State.sqTailOp
  repeat' first | with_reducible rfl | split | simp
@[simp] theorem State.sqEnableOp_pending (s : State) (p : Nat) (l : Nat) (r : Nat) : (State.sqEnableOp s p l r).pending = s.pending := by
  unfold State.sqEnableOp
  repeat' first | with_reducible rfl | split | simp
@[simp] theorem State.sqDisableOp_pending (s : State) (p : Nat) (l : Nat) (r : Nat) : (State.sqDisableOp s p l r).pending = s.pending := by
  unfold State.sqDisableOp
  repeat' first | with_reducible rfl | split | simp
@[simp] theorem State.sqCfgOp_pending (s : State) (p : Nat) (l : Nat) (r : Nat) (v : Nat) : (State.sqCfgOp s p l r v).pending = s.pending := by
  unfold State.sqCfgOp
  repeat' first | with_reducible rfl | split | simp
@[simp] theorem State.cqCfgOp_pending (s : State) (p : Nat) (l : Nat) (r : Nat) (v : Nat) : (State.cqCfgOp s p l r v).pending = s.pending := by
  unfold State.cqCfgOp
  repeat' first | with_reducible rfl | split | simp
@[simp] theorem State.cqBaseOp_pending (s : State) (p : Nat) (l : Nat) (r : Nat) (v : Nat) : (State.cqBaseOp s p l r v).pending = s.pending := by
  unfold State.cqBaseOp
  repeat' first | with_reducible rfl | split | simp
@[simp] theorem State.cqHeadOp_pending (s : State) (p : Nat) (l : Nat) (r : Nat) (v : Nat) : (State.cqHeadOp s p l r v).pending = s.pending := by
  unfold State.cqHeadOp
  repeat' first | with_reducible rfl | split | simp
@[simp] theorem State.eqHeadOp_pending (s : State) (p : Nat) (l : Nat) (v : Nat) : (State.eqHeadOp s p l v).pending = s.pending := by
  unfold State.eqHeadOp
  repeat' first | with_reducible rfl | split | simp
@[simp] theorem State.eqCfgOp_pending (s : State) (p : Nat) (l : Nat) (v : Nat) : (State.eqCfgOp s p l v).pending = s.pending := by
  unfold State.eqCfgOp
  repeat' first | with_reducible rfl | split | simp
@[simp] theorem State.readAway_pending (s : Sys2Proof.Machine.State) (p : Nat) (l : Nat) (dev : Nat) (a : Nat) (dpa : Nat) (n : Nat) : (Sys2Proof.Machine.State.readAway s p l dev a dpa n).pending = s.pending := by
  unfold State.readAway
  repeat' first
    | with_reducible rfl
    | refine (pending_foldl _ _ _ (fun _ _ => ?_)).trans ?_
    | refine (pending_fold1 _ _ _ (fun _ _ => ?_)).trans ?_
    | refine (pending_fold2 _ _ _ (fun _ _ => ?_)).trans ?_
    | split
    | simp
    | rfl
@[simp] theorem State.writeAway_pending (s : Sys2Proof.Machine.State) (src : Sys2Proof.Source) (e : Nat) (dev : Nat) (a : Nat) (dpa : Nat) (d : Sys2Proof.Bytes) (flag : Bool) : (Sys2Proof.Machine.State.writeAway s src e dev a dpa d flag).pending = s.pending := by
  unfold State.writeAway
  repeat' first
    | with_reducible rfl
    | refine (pending_foldl _ _ _ (fun _ _ => ?_)).trans ?_
    | refine (pending_fold1 _ _ _ (fun _ _ => ?_)).trans ?_
    | refine (pending_fold2 _ _ _ (fun _ _ => ?_)).trans ?_
    | split
    | simp
    | rfl
@[simp] theorem State.peerAnswer_pending (s : Sys2Proof.Machine.State) (k : Sys2Proof.Packet) : (Sys2Proof.Machine.State.peerAnswer s k).pending = s.pending := by
  unfold State.peerAnswer
  repeat' first
    | with_reducible rfl
    | refine (pending_foldl _ _ _ (fun _ _ => ?_)).trans ?_
    | refine (pending_fold1 _ _ _ (fun _ _ => ?_)).trans ?_
    | refine (pending_fold2 _ _ _ (fun _ _ => ?_)).trans ?_
    | split
    | simp
    | rfl
@[simp] theorem State.endRequest_pending (s : Sys2Proof.Machine.State) (k : Sys2Proof.Packet) : (Sys2Proof.Machine.State.endRequest s k).pending = s.pending := by
  unfold State.endRequest
  repeat' first
    | with_reducible rfl
    | refine (pending_foldl _ _ _ (fun _ _ => ?_)).trans ?_
    | refine (pending_fold1 _ _ _ (fun _ _ => ?_)).trans ?_
    | refine (pending_fold2 _ _ _ (fun _ _ => ?_)).trans ?_
    | split
    | simp
    | rfl
@[simp] theorem State.losePackets_pending (s : Sys2Proof.Machine.State) (l : List Sys2Proof.Packet) : (Sys2Proof.Machine.State.losePackets s l).pending = s.pending := by
  unfold State.losePackets
  repeat' first
    | with_reducible rfl
    | refine (pending_foldl _ _ _ (fun _ _ => ?_)).trans ?_
    | refine (pending_fold1 _ _ _ (fun _ _ => ?_)).trans ?_
    | refine (pending_fold2 _ _ _ (fun _ _ => ?_)).trans ?_
    | split
    | simp
    | rfl
@[simp] theorem State.homePerform_pending (s : Sys2Proof.Machine.State) (d : Nat) (x : Nat) (k : Sys2Proof.Packet) : (Sys2Proof.Machine.State.homePerform s d x k).pending = s.pending := by
  unfold State.homePerform
  repeat' first
    | with_reducible rfl
    | refine (pending_foldl _ _ _ (fun _ _ => ?_)).trans ?_
    | refine (pending_fold1 _ _ _ (fun _ _ => ?_)).trans ?_
    | refine (pending_fold2 _ _ _ (fun _ _ => ?_)).trans ?_
    | split
    | simp
    | rfl
@[simp] theorem State.serveRead_pending (s : Sys2Proof.Machine.State) (p : Nat) (l : Nat) (dpa : Nat) (n : Nat) : (Sys2Proof.Machine.State.serveRead s p l dpa n).pending = s.pending := by
  unfold State.serveRead
  repeat' first
    | with_reducible rfl
    | refine (pending_foldl _ _ _ (fun _ _ => ?_)).trans ?_
    | refine (pending_fold1 _ _ _ (fun _ _ => ?_)).trans ?_
    | refine (pending_fold2 _ _ _ (fun _ _ => ?_)).trans ?_
    | split
    | simp
    | rfl
@[simp] theorem State.serveWrite_pending (s : Sys2Proof.Machine.State) (p : Nat) (l : Nat) (dpa : Nat) (d : Sys2Proof.Bytes) (flag : Bool) : (Sys2Proof.Machine.State.serveWrite s p l dpa d flag).pending = s.pending := by
  unfold State.serveWrite
  repeat' first
    | with_reducible rfl
    | refine (pending_foldl _ _ _ (fun _ _ => ?_)).trans ?_
    | refine (pending_fold1 _ _ _ (fun _ _ => ?_)).trans ?_
    | refine (pending_fold2 _ _ _ (fun _ _ => ?_)).trans ?_
    | split
    | simp
    | rfl
@[simp] theorem State.flushStart_pending (s : State) (p : Nat) (l : Nat) (seq : Nat) : (State.flushStart s p l seq).pending = s.pending := by simp [State.flushStart]
@[simp] theorem State.dropCopies_pending (s : Sys2Proof.Machine.State) (p : Nat) (l : Nat) (b : Nat) (n : Nat) : (Sys2Proof.Machine.State.dropCopies s p l b n).pending = s.pending := by
  unfold State.dropCopies
  repeat' first
    | with_reducible rfl
    | refine (pending_foldl _ _ _ (fun _ _ => ?_)).trans ?_
    | refine (pending_fold1 _ _ _ (fun _ _ => ?_)).trans ?_
    | refine (pending_fold2 _ _ _ (fun _ _ => ?_)).trans ?_
    | split
    | simp
    | rfl
@[simp] theorem State.newVersion_pending (s : State) (c : Nat) (e : Nat) (y : Extent) (g : Nat) (v : Nat) (digest : Bytes) (st : SharedSet) (prev : Option SVersion) : (State.newVersion s c e y g v digest st prev).pending = s.pending := by
  unfold State.newVersion
  repeat' first | with_reducible rfl | refine (pending_foldl _ _ _ (fun _ _ => ?_)).trans ?_ | split | simp
@[simp] theorem State.publishNow_pending (s : State) (c : Nat) (x : Cmd) (e : Nat) : (State.publishNow s c x e).pending = s.pending := by
  unfold State.publishNow
  repeat' first | with_reducible rfl | split | simp
@[simp] theorem State.settlePublish_pending (s : State) : (State.settlePublish s).pending = s.pending := by
  unfold State.settlePublish
  repeat' first | with_reducible rfl | refine (pending_foldl _ _ _ (fun _ _ => ?_)).trans ?_ | split | simp
@[simp] theorem State.bar2Write_pending (s : Sys2Proof.Machine.State) (p : Nat) (l : Nat) (o : Nat) (v : Nat) : (Sys2Proof.Machine.State.bar2Write s p l o v).pending = s.pending := by
  unfold State.bar2Write
  repeat' first
    | with_reducible rfl
    | refine (pending_foldl _ _ _ (fun _ _ => ?_)).trans ?_
    | refine (pending_fold1 _ _ _ (fun _ _ => ?_)).trans ?_
    | refine (pending_fold2 _ _ _ (fun _ _ => ?_)).trans ?_
    | split
    | simp
    | rfl
@[simp] theorem State.pageWrite_pending (s : State) (p : Nat) (l : Nat) (o : Nat) (v : Nat) : (State.pageWrite s p l o v).pending = s.pending := by
  unfold State.pageWrite
  repeat' split
  all_goals simp
@[simp] theorem State.bar0Read_pending (s : State) (p : Nat) (l : Nat) (o : Nat) (n : Nat) : (State.bar0Read s p l o n).pending = s.pending := by
  unfold State.bar0Read
  repeat' split
  all_goals simp
@[simp] theorem State.bar0Write_pending (s : State) (p : Nat) (l : Nat) (o : Nat) (d : Bytes) : (State.bar0Write s p l o d).pending = s.pending := by
  unfold State.bar0Write
  repeat' split
  all_goals simp
@[simp] theorem State.bar2Get_pending (s : State) (p : Nat) (l : Nat) (o : Nat) (n : Nat) : (State.bar2Get s p l o n).pending = s.pending := by unfold State.bar2Get; split <;> simp
@[simp] theorem State.serveAtomic_pending (s : Sys2Proof.Machine.State) (p : Nat) (l : Nat) (r : Sys2Proof.Machine.AtomReq) : (Sys2Proof.Machine.State.serveAtomic s p l r).pending = s.pending := by
  unfold State.serveAtomic
  repeat' first
    | with_reducible rfl
    | refine (pending_foldl _ _ _ (fun _ _ => ?_)).trans ?_
    | refine (pending_fold1 _ _ _ (fun _ _ => ?_)).trans ?_
    | refine (pending_fold2 _ _ _ (fun _ _ => ?_)).trans ?_
    | split
    | simp
    | rfl
@[simp] theorem State.serve_pending (s : State) (x : HeldAcc) : (State.serve s x).pending = s.pending := by
  unfold State.serve
  repeat' first
    | with_reducible rfl
    | refine (pending_foldl _ _ _ (fun _ _ => ?_)).trans ?_
    | refine (pending_fold1 _ _ _ (fun _ _ => ?_)).trans ?_
    | refine (pending_fold2 _ _ _ (fun _ _ => ?_)).trans ?_
    | split
    | simp
    | rfl
@[simp] theorem State.shape_pending (s : State) (x : HeldAcc) : (State.shape s x).pending = s.pending := by
  unfold State.shape
  repeat' first | with_reducible rfl | split | simp
@[simp] theorem State.releaseHeld_pending (s : State) : (State.releaseHeld s).pending = s.pending := by
  unfold State.releaseHeld
  repeat' first | with_reducible rfl | refine (pending_fold1 _ _ _ (fun _ _ => ?_)).trans ?_ | split | simp
@[simp] theorem State.flagStore_pending (s : Sys2Proof.Machine.State) (p : Nat) (l : Nat) (v : Nat) : (Sys2Proof.Machine.State.flagStore s p l v).pending = s.pending := by
  unfold State.flagStore
  repeat' first
    | with_reducible rfl
    | refine (pending_foldl _ _ _ (fun _ _ => ?_)).trans ?_
    | refine (pending_fold1 _ _ _ (fun _ _ => ?_)).trans ?_
    | refine (pending_fold2 _ _ _ (fun _ _ => ?_)).trans ?_
    | split
    | simp
    | rfl
@[simp] theorem State.atomicAt_pending (s : State) (r : AtomReq) (a : Nat) : (State.atomicAt s r a).pending = s.pending := by unfold State.atomicAt; split <;> simp
@[simp] theorem State.perform_pending (s : Sys2Proof.Machine.State) (w : Sys2Proof.Machine.WrOut) : (Sys2Proof.Machine.State.perform s w).pending = s.pending := by
  unfold State.perform
  repeat' first
    | with_reducible rfl
    | refine (pending_foldl _ _ _ (fun _ _ => ?_)).trans ?_
    | refine (pending_fold1 _ _ _ (fun _ _ => ?_)).trans ?_
    | refine (pending_fold2 _ _ _ (fun _ _ => ?_)).trans ?_
    | split
    | simp
    | rfl
@[simp] theorem State.askLine_pending (s : Sys2Proof.Machine.State) (a : Sys2Proof.Agent) (line : Nat) (ctx : Nat) (kind : Nat) (store : Sys2Proof.LineStore) : (Sys2Proof.Machine.State.askLine s a line ctx kind store).pending = s.pending := by
  unfold State.askLine
  dsimp only
  split
  · generalize hc : s.cacheRoom (agentNum a) line = o
    cases o with
    | none => rfl
    | some s1 => simp [State.cacheRoom_of_pending hc]
  · rfl
@[simp] theorem State.answerSnoop_pending (s : State) (c : CLine) (inv : Bool) (fwd : Option Nat) : (State.answerSnoop s c inv fwd).pending = s.pending := by
  unfold State.answerSnoop
  repeat' split
  all_goals simp
@[simp] theorem State.answerAside_pending (s : State) (a : Nat) (o : Nat) (x3 : List (Bool × Option Nat)) : (State.answerAside s a o x3).pending = s.pending := by
  induction x3 generalizing s with
  | nil => rfl
  | cons y t ih =>
    unfold State.answerAside
    repeat' first
      | with_reducible rfl
      | (refine (pending_foldl _ _ _ (fun a x => ?_)).trans ?_)
      | (refine (pending_fold1 _ _ _ (fun a x => ?_)).trans ?_)
      | (refine (pending_fold2 _ _ _ (fun a x => ?_)).trans ?_)
      | split
      | simp [ih]
@[simp] theorem State.viewRestoreOp_pending (s : State) (v : Nat) : (State.viewRestoreOp s v).2.pending = s.pending := by
  unfold State.viewRestoreOp
  repeat' first | with_reducible rfl | split | simp
@[simp] theorem State.setSeq_pending (s : State) (x : Seq) : (State.setSeq s x).pending = s.pending := by simp [State.setSeq]
@[simp] theorem State.modGroup_pending (s : State) (gid : Nat) (f : Group → Group) : (State.modGroup s gid f).pending = s.pending := by unfold State.modGroup; split <;> simp
@[simp] theorem State.modPage_pending (s : State) (gid : Nat) (m : Nat) (f : Page → Page) : (State.modPage s gid m f).pending = s.pending := by simp [State.modPage]
@[simp] theorem State.putPage_pending (s : State) (gid : Nat) (m : Nat) (y : Page) : (State.putPage s gid m y).pending = s.pending := by simp [State.putPage]
@[simp] theorem State.sendTile_pending (s : Sys2Proof.Machine.State) (dev : Nat) (t : Sys2Proof.Tile) : (Sys2Proof.Machine.State.sendTile s dev t).pending = s.pending := by
  unfold State.sendTile
  repeat' first
    | with_reducible rfl
    | refine (pending_foldl _ _ _ (fun _ _ => ?_)).trans ?_
    | refine (pending_fold1 _ _ _ (fun _ _ => ?_)).trans ?_
    | refine (pending_fold2 _ _ _ (fun _ _ => ?_)).trans ?_
    | split
    | simp
    | rfl
@[simp] theorem State.setPset_pending (s : State) (t : Nat) (set : Nat) (x : PSet) : (State.setPset s t set x).pending = s.pending := by simp [State.setPset]
@[simp] theorem State.nvmeSubmit_pending (s : Sys2Proof.Machine.State) (p : Nat) (op : Nat) (page : Nat) (loc : Nat) : (Sys2Proof.Machine.State.nvmeSubmit s p op page loc).pending = s.pending := by
  unfold State.nvmeSubmit
  repeat' first
    | with_reducible rfl
    | refine (pending_foldl _ _ _ (fun _ _ => ?_)).trans ?_
    | refine (pending_fold1 _ _ _ (fun _ _ => ?_)).trans ?_
    | refine (pending_fold2 _ _ _ (fun _ _ => ?_)).trans ?_
    | split
    | simp
    | rfl
@[simp] theorem State.nvmeNext_pending (s : Sys2Proof.Machine.State) (p : Nat) : (Sys2Proof.Machine.State.nvmeNext s p).pending = s.pending := by
  unfold State.nvmeNext
  repeat' first
    | with_reducible rfl
    | refine (pending_foldl _ _ _ (fun _ _ => ?_)).trans ?_
    | refine (pending_fold1 _ _ _ (fun _ _ => ?_)).trans ?_
    | refine (pending_fold2 _ _ _ (fun _ _ => ?_)).trans ?_
    | split
    | simp
    | rfl
@[simp] theorem State.nvmeBringUp_pending (s : Sys2Proof.Machine.State) (p : Nat) : (Sys2Proof.Machine.State.nvmeBringUp s p).pending = s.pending := by
  unfold State.nvmeBringUp
  repeat' first | with_reducible rfl | split | simp
@[simp] theorem State.nvmeAt_pending (s : Sys2Proof.Machine.State) (op : Nat) (page : Nat) (loc : Nat) : (Sys2Proof.Machine.State.nvmeAt s op page loc).pending = s.pending := by
  unfold State.nvmeAt
  repeat' first
    | with_reducible rfl
    | refine (pending_foldl _ _ _ (fun _ _ => ?_)).trans ?_
    | refine (pending_fold1 _ _ _ (fun _ _ => ?_)).trans ?_
    | refine (pending_fold2 _ _ _ (fun _ _ => ?_)).trans ?_
    | split
    | simp
    | rfl
@[simp] theorem State.nvmeWrite_pending (s : Sys2Proof.Machine.State) (gid : Nat) (m : Nat) (form : Sys2Proof.Machine.PCopy) : (Sys2Proof.Machine.State.nvmeWrite s gid m form).pending = s.pending := by
  unfold State.nvmeWrite
  repeat' first
    | with_reducible rfl
    | refine (pending_foldl _ _ _ (fun _ _ => ?_)).trans ?_
    | refine (pending_fold1 _ _ _ (fun _ _ => ?_)).trans ?_
    | refine (pending_fold2 _ _ _ (fun _ _ => ?_)).trans ?_
    | split
    | simp
    | rfl
@[simp] theorem State.setOff_pending (s : State) (gid : Nat) (m : Nat) (tier : Nat) : (State.setOff s gid m tier).pending = s.pending := by
  unfold State.setOff
  repeat' split
  all_goals simp
@[simp] theorem State.spillGroup_pending (s : Sys2Proof.Machine.State) (gid : Nat) : (Sys2Proof.Machine.State.spillGroup s gid).pending = s.pending := by
  unfold State.spillGroup
  repeat' first
    | with_reducible rfl
    | refine (pending_foldl _ _ _ (fun _ _ => ?_)).trans ?_
    | refine (pending_fold1 _ _ _ (fun _ _ => ?_)).trans ?_
    | refine (pending_fold2 _ _ _ (fun _ _ => ?_)).trans ?_
    | split
    | simp
    | rfl
@[simp] theorem State.deallocate_pending (s : Sys2Proof.Machine.State) (gid : Nat) : (Sys2Proof.Machine.State.deallocate s gid).pending = s.pending := by
  unfold State.deallocate
  repeat' first
    | with_reducible rfl
    | refine (pending_foldl _ _ _ (fun _ _ => ?_)).trans ?_
    | refine (pending_fold1 _ _ _ (fun _ _ => ?_)).trans ?_
    | refine (pending_fold2 _ _ _ (fun _ _ => ?_)).trans ?_
    | split
    | simp
    | rfl
@[simp] theorem State.dropGroup_pending (s : Sys2Proof.Machine.State) (gid : Nat) : (Sys2Proof.Machine.State.dropGroup s gid).pending = s.pending := by
  unfold State.dropGroup
  repeat' first
    | with_reducible rfl
    | refine (pending_foldl _ _ _ (fun _ _ => ?_)).trans ?_
    | refine (pending_fold1 _ _ _ (fun _ _ => ?_)).trans ?_
    | refine (pending_fold2 _ _ _ (fun _ _ => ?_)).trans ?_
    | split
    | simp
    | rfl
@[simp] theorem State.makeT3_pending (s : State) (n readAt x3 : Nat) : (State.makeT3 s n readAt x3).pending = s.pending := by
  induction x3 generalizing s with
  | zero => rfl
  | succ k ih =>
    unfold State.makeT3
    split
    · rfl
    · split <;> simp [ih]
@[simp] theorem State.donorCopy_pending (s : State) (gid m : Nat) : (State.donorCopy s gid m).pending = s.pending := by
  unfold State.donorCopy
  split
  · split
    · rfl
    · dsimp only
      split <;> simp
  · rfl
@[simp] theorem State.settlePress_pending (s : State) : (State.settlePress s).pending = s.pending := by unfold State.settlePress; split <;> simp
@[simp] theorem State.moved_pending (s : Sys2Proof.Machine.State) (gid : Nat) (m : Nat) (tier : Nat) : (Sys2Proof.Machine.State.moved s gid m tier).pending = s.pending := by
  unfold State.moved
  repeat' first
    | with_reducible rfl
    | refine (pending_foldl _ _ _ (fun _ _ => ?_)).trans ?_
    | refine (pending_fold1 _ _ _ (fun _ _ => ?_)).trans ?_
    | refine (pending_fold2 _ _ _ (fun _ _ => ?_)).trans ?_
    | split
    | simp
    | rfl
@[simp] theorem State.evictPrefix_pending (s : Sys2Proof.Machine.State) (gid : Nat) : (Sys2Proof.Machine.State.evictPrefix s gid).pending = s.pending := by
  unfold State.evictPrefix
  repeat' first
    | with_reducible rfl
    | refine (pending_foldl _ _ _ (fun _ _ => ?_)).trans ?_
    | refine (pending_fold1 _ _ _ (fun _ _ => ?_)).trans ?_
    | refine (pending_fold2 _ _ _ (fun _ _ => ?_)).trans ?_
    | split
    | simp
    | rfl
theorem State.demoteOne_pending {s s1 : State} {t : Nat} (h : s.demoteOne t = some s1) : s1.pending = s.pending := by
  unfold State.demoteOne at h
  split at h
  · cases h
  · split at h
    · cases h; simp
    · split at h
      · cases h
      · obtain ⟨z, -, hz⟩ := Option.bind_eq_some_iff.1 h
        obtain ⟨u, -, hu⟩ := Option.map_eq_some_iff.1 hz
        rw [← hu]; simp
@[simp] theorem State.makeT1_pending (s : State) (t n x3 : Nat) : (State.makeT1 s t n x3).pending = s.pending := by
  induction x3 generalizing s with
  | zero => rfl
  | succ k ih =>
    unfold State.makeT1
    dsimp only
    split
    · rfl
    · split
      · rename_i s1 h1
        rw [ih]
        split at h1
        · cases h1
        · exact State.demoteOne_pending h1
      · split <;> simp [ih]
@[simp] theorem State.newGid_pending (s : State) : (State.newGid s).2.pending = s.pending := by simp [State.newGid]
@[simp] theorem State.stall_pending (s : State) (tier : Nat) (cause : Nat) (t : Nat) : (State.stall s tier cause t).pending = s.pending := by simp [State.stall]
@[simp] theorem State.readPage_pending (s : State) (gid : Nat) (m : Nat) (t : Nat) (mirrored : Bool) : (State.readPage s gid m t mirrored).2.pending = s.pending := by
  unfold State.readPage
  repeat' first | with_reducible rfl | split | simp
@[simp] theorem State.useSeq_pending (s0 : Sys2Proof.Machine.State) (x : Sys2Proof.Machine.Seq) : (Sys2Proof.Machine.State.useSeq s0 x).pending = s0.pending := by
  unfold State.useSeq
  repeat' first
    | with_reducible rfl
    | refine (pending_foldl _ _ _ (fun _ _ => ?_)).trans ?_
    | refine (pending_fold1 _ _ _ (fun _ _ => ?_)).trans ?_
    | refine (pending_fold2 _ _ _ (fun _ _ => ?_)).trans ?_
    | split
    | simp
    | rfl
@[simp] theorem State.touchSeq_pending (s : Sys2Proof.Machine.State) (x : Sys2Proof.Machine.Seq) : (Sys2Proof.Machine.State.touchSeq s x).pending = s.pending := by
  unfold State.touchSeq
  repeat' first
    | with_reducible rfl
    | refine (pending_foldl _ _ _ (fun _ _ => ?_)).trans ?_
    | refine (pending_fold1 _ _ _ (fun _ _ => ?_)).trans ?_
    | refine (pending_fold2 _ _ _ (fun _ _ => ?_)).trans ?_
    | split
    | simp
    | rfl
@[simp] theorem State.sealPage_pending (s : State) (gid : Nat) (m : Nat) : (State.sealPage s gid m).pending = s.pending := by unfold State.sealPage; split <;> simp
@[simp] theorem State.storePage_pending (s0 : Sys2Proof.Machine.State) (t : Nat) (sh : Sys2Proof.Shape) (shared : Bool) (partner : Bool) (away : Option Nat) (y : Sys2Proof.PageImage) : (Sys2Proof.Machine.State.storePage s0 t sh shared partner away y).pending = s0.pending := by
  unfold State.storePage
  repeat' first
    | with_reducible rfl
    | refine (pending_foldl _ _ _ (fun _ _ => ?_)).trans ?_
    | refine (pending_fold1 _ _ _ (fun _ _ => ?_)).trans ?_
    | refine (pending_fold2 _ _ _ (fun _ _ => ?_)).trans ?_
    | split
    | simp
    | rfl
@[simp] theorem State.storeImage_pending (s : State) (im : SeqImage) (st : Nat) (partnerOf : Option Nat) (incoming : Option Nat) : (State.storeImage s im st partnerOf incoming).pending = s.pending := pending_foldl _ _ _ (fun _ _ => by simp)
@[simp] theorem State.unlinkFar_pending (s : Sys2Proof.Machine.State) (x : Sys2Proof.Machine.Seq) : (Sys2Proof.Machine.State.unlinkFar s x).pending = s.pending := by
  unfold State.unlinkFar
  repeat' first
    | with_reducible rfl
    | refine (pending_foldl _ _ _ (fun _ _ => ?_)).trans ?_
    | refine (pending_fold1 _ _ _ (fun _ _ => ?_)).trans ?_
    | refine (pending_fold2 _ _ _ (fun _ _ => ?_)).trans ?_
    | split
    | simp
    | rfl
@[simp] theorem State.dropMeta_pending (s : Sys2Proof.Machine.State) (x : Sys2Proof.Machine.Seq) : (Sys2Proof.Machine.State.dropMeta s x).pending = s.pending := by
  unfold State.dropMeta
  repeat' first
    | with_reducible rfl
    | refine (pending_foldl _ _ _ (fun _ _ => ?_)).trans ?_
    | refine (pending_fold1 _ _ _ (fun _ _ => ?_)).trans ?_
    | refine (pending_fold2 _ _ _ (fun _ _ => ?_)).trans ?_
    | split
    | simp
    | rfl
@[simp] theorem State.freeSeq_pending (s : Sys2Proof.Machine.State) (x : Sys2Proof.Machine.Seq) : (Sys2Proof.Machine.State.freeSeq s x).pending = s.pending := by
  unfold State.freeSeq
  repeat' first
    | with_reducible rfl
    | refine (pending_foldl _ _ _ (fun _ _ => ?_)).trans ?_
    | refine (pending_fold1 _ _ _ (fun _ _ => ?_)).trans ?_
    | refine (pending_fold2 _ _ _ (fun _ _ => ?_)).trans ?_
    | split
    | simp
    | rfl
@[simp] theorem State.notePaths_pending (s : State) : (State.notePaths s).pending = s.pending := by simp [State.notePaths]
@[simp] theorem State.abortPend_pending (s : State) (f : PendItem → Bool) : (State.abortPend s f).pending = s.pending := pending_foldl _ _ _ (fun _ _ => by simp)
@[simp] theorem State.claim_pending (s : State) (x : Seq) (h : Home) : (State.claim s x h).pending = s.pending := by
  unfold State.claim
  repeat' split
  all_goals simp
@[simp] theorem State.takeOver_pending (s : State) (x : Seq) (h : Home) : (State.takeOver s x h).pending = s.pending := by
  unfold State.takeOver
  repeat' first | with_reducible rfl | refine (pending_foldl _ _ _ (fun _ _ => ?_)).trans ?_ | split | simp
@[simp] theorem State.mirrorStore_pending (s : State) (x : Seq) (m : Mirror) : (State.mirrorStore s x m).pending = s.pending := by
  unfold State.mirrorStore
  repeat' first | with_reducible rfl | split | simp
@[simp] theorem State.mirrorIn_pending (s : State) (m : Mirror) : (State.mirrorIn s m).pending = s.pending := by
  unfold State.mirrorIn
  repeat' first | with_reducible rfl | split | simp
@[simp] theorem State.retryMirrors_pending (s : State) : (State.retryMirrors s).pending = s.pending := pending_foldl _ _ _ (fun _ _ => by simp)
@[simp] theorem State.reseat_pending (a : State × List (Nat × Nat)) (m : FMap) (ring : List RPoint) (was : Option Home) (k : Nat) (x : Seq) : (State.reseat a m ring was k x).1.pending = a.1.pending := by
  unfold State.reseat
  repeat' first | with_reducible rfl | split | simp
@[simp] theorem State.dropPrefixes_pending (s : State) (m : FMap) : (State.dropPrefixes s m).1.pending = s.pending := by
  unfold State.dropPrefixes
  repeat' first | with_reducible rfl | split | simp
@[simp] theorem State.leaveMap_pending (s : State) : (State.leaveMap s).pending = s.pending := by
  unfold State.leaveMap
  repeat' first | with_reducible rfl | refine (pending_foldl _ _ _ (fun _ _ => ?_)).trans ?_ | split | simp
@[simp] theorem State.adoptMap_pending (s : State) (m : FMap) : (s.adoptMap m).pending = s.pending := by
  have h3 : ∀ (u : State) (c : Bool), (if c then u.flag 0x9000 8 7 else u).pending = u.pending := by intro u c; split <;> simp
  unfold State.adoptMap
  extract_lets old oldMembers isIn left lost exp keepExp src s1 s2 s3 ring oldRing took r d devs srcD srcF s4 s5 gone s6 fresh s7
  have e3 : s3.pending = s.pending := (h3 s2 lost).trans ((State.emits_pending _ _).trans (State.flag_pending _ _ _ _))
  split
  · simp [e3]
  · clear_value oldMembers isIn left lost exp keepExp src ring oldRing took
    have er : r.1.pending = s3.pending := pending_fold1 _ _ _ (fun a x => State.reseat_pending _ _ _ _ _ _)
    have ed : d.1.pending = s3.pending := (State.dropPrefixes_pending _ _).trans er
    have e4 : s4.pending = s3.pending := (pending_foldl _ _ _ (fun a x => by simp)).trans ed
    have e5 : s5.pending = s3.pending := by
      simp only [s5]
      split
      · exact e4
      · exact (State.flag_pending _ _ _ _).trans e4
    have e6 : s6.pending = s3.pending := by
      refine (pending_foldl _ _ _ (fun a x => ?_)).trans e5
      dsimp only
      refine pending_ite rfl (pending_ite ?_ ?_) <;> simp
    have e7 : s7.pending = s3.pending := (pending_foldl _ _ _ (fun a x => State.emits_pending _ _)).trans e6
    exact (State.retryMirrors_pending _).trans ((State.notePaths_pending _).trans (e7.trans e3))
@[simp] theorem State.adopt_pending (s : State) (m : FMap) : (s.adopt m).pending = s.pending := by
  unfold State.adopt
  simp [State.adoptMap_pending]
@[simp] theorem State.propose_pending (s : State) (epoch : Nat) (members : List FMember) (overrides : List (Nat × Nat × Nat)) (lastExpel : Option Nat) : (State.propose s epoch members overrides lastExpel).pending = s.pending := by simp [State.propose]
@[simp] theorem State.proposeDies_pending (s : State) : (State.proposeDies s).pending = s.pending := by
  unfold State.proposeDies
  repeat' split
  all_goals simp
@[simp] theorem State.proposeWithout_pending (s : State) (d : Nat) (expelAt : Option Nat) : (State.proposeWithout s d expelAt).pending = s.pending := by unfold State.proposeWithout; split <;> simp
@[simp] theorem State.readPages_pending (s : State) (m : Nat) (t : Nat) (mirrored : Bool) (pages : List APage) : (State.readPages s m t mirrored pages).2.pending = s.pending := by
  unfold State.readPages
  repeat' first | with_reducible rfl | refine (pending_fold2 _ _ _ (fun _ _ => ?_)).trans ?_ | split | simp
@[simp] theorem State.askPages_pending (s : Sys2Proof.Machine.State) (t : Nat) (ref : Nat) (item : Nat) (fmt : Nat) (dim : Nat) (m : Nat) (pages : List Sys2Proof.Machine.APage) : (Sys2Proof.Machine.State.askPages s t ref item fmt dim m pages).pending = s.pending := by
  unfold State.askPages
  repeat' first
    | with_reducible rfl
    | refine (pending_foldl _ _ _ (fun _ _ => ?_)).trans ?_
    | refine (pending_fold1 _ _ _ (fun _ _ => ?_)).trans ?_
    | refine (pending_fold2 _ _ _ (fun _ _ => ?_)).trans ?_
    | split
    | simp
    | rfl
@[simp] theorem State.countSkips_pending (s : Sys2Proof.Machine.State) (a : Sys2Proof.Machine.AttArgs) (pages : List Sys2Proof.Machine.APage) : (Sys2Proof.Machine.State.countSkips s a pages).pending = s.pending := by
  unfold State.countSkips
  repeat' first
    | with_reducible rfl
    | refine (pending_foldl _ _ _ (fun _ _ => ?_)).trans ?_
    | refine (pending_fold1 _ _ _ (fun _ _ => ?_)).trans ?_
    | refine (pending_fold2 _ _ _ (fun _ _ => ?_)).trans ?_
    | split
    | simp
    | rfl
@[simp] theorem State.attWork_pending (s : Sys2Proof.Machine.State) (a : Sys2Proof.Machine.AttArgs) (rows : Nat) (pages : List Sys2Proof.Machine.APage) : (Sys2Proof.Machine.State.attWork s a rows pages).pending = s.pending := by
  unfold State.attWork
  repeat' first
    | with_reducible rfl
    | refine (pending_foldl _ _ _ (fun _ _ => ?_)).trans ?_
    | refine (pending_fold1 _ _ _ (fun _ _ => ?_)).trans ?_
    | refine (pending_fold2 _ _ _ (fun _ _ => ?_)).trans ?_
    | split
    | simp
    | rfl
@[simp] theorem State.attCount_pending (s : State) (a : AttArgs) (rows : Nat) (pages : List APage) : (State.attCount s a rows pages).pending = s.pending := by
  unfold State.attCount
  repeat' split
  all_goals simp
@[simp] theorem State.countPart_pending (s : Sys2Proof.Machine.State) (a : Sys2Proof.Machine.AttArgs) (rows : Nat) (pages : List Sys2Proof.Machine.APage) : (Sys2Proof.Machine.State.countPart s a rows pages).pending = s.pending := by
  unfold State.countPart
  repeat' first
    | with_reducible rfl
    | refine (pending_foldl _ _ _ (fun _ _ => ?_)).trans ?_
    | refine (pending_fold1 _ _ _ (fun _ _ => ?_)).trans ?_
    | refine (pending_fold2 _ _ _ (fun _ _ => ?_)).trans ?_
    | split
    | simp
    | rfl
@[simp] theorem State.attLocate_pending (s : Sys2Proof.Machine.State) (ref : Nat) (t : Nat) (epoch : Nat) (i : Nat) (a : Sys2Proof.Machine.AttArgs) (it : Sys2Proof.Machine.AttItem) (qs : List (List Sys2Proof.Machine.Fbits)) : (Sys2Proof.Machine.State.attLocate s ref t epoch i a it qs).2.pending = s.pending := by
  unfold State.attLocate
  repeat' first
    | with_reducible rfl
    | refine (pending_foldl _ _ _ (fun _ _ => ?_)).trans ?_
    | refine (pending_fold1 _ _ _ (fun _ _ => ?_)).trans ?_
    | refine (pending_fold2 _ _ _ (fun _ _ => ?_)).trans ?_
    | split
    | simp
    | rfl
@[simp] theorem State.attItemRun_pending (s : State) (ref : Nat) (c : Cmd) (i : Nat) : (State.attItemRun s ref c i).2.pending = s.pending := by
  unfold State.attItemRun
  repeat' first | with_reducible rfl | split | simp
@[simp] theorem State.attendRun_pending (s : State) (ref : Nat) : (State.attendRun s ref).pending = s.pending := by
  unfold State.attendRun
  repeat' first | with_reducible rfl | refine (pending_fold2 _ _ _ (fun _ _ => ?_)).trans ?_ | split | simp
@[simp] theorem State.noteDeps_pending (s : Sys2Proof.Machine.State) (ref : Nat) : (Sys2Proof.Machine.State.noteDeps s ref).pending = s.pending := by
  unfold State.noteDeps
  repeat' first
    | with_reducible rfl
    | refine (pending_foldl _ _ _ (fun _ _ => ?_)).trans ?_
    | refine (pending_fold1 _ _ _ (fun _ _ => ?_)).trans ?_
    | refine (pending_fold2 _ _ _ (fun _ _ => ?_)).trans ?_
    | split
    | simp
    | rfl
@[simp] theorem State.attendTry_pending (s : State) (ref : Nat) (deps : List Nat) : (State.attendTry s ref deps).pending = s.pending := by
  unfold State.attendTry
  repeat' first | with_reducible rfl | split | simp
@[simp] theorem State.settleAttend_pending (s : State) : (State.settleAttend s).pending = s.pending := by
  unfold State.settleAttend
  repeat' first | with_reducible rfl | refine (pending_foldl _ _ _ (fun _ _ => ?_)).trans ?_ | split | simp
@[simp] theorem State.attendStart_pending (s : State) (ref : Nat) : (State.attendStart s ref).pending = s.pending := by unfold State.attendStart; split <;> simp
@[simp] theorem State.gradWrite_pending (s : Sys2Proof.Machine.State) (ref : Nat) (p : Nat) (l : Nat) (x4 : Nat) (x5 : Nat) (x6 : Sys2Proof.Bytes) : (Sys2Proof.Machine.State.gradWrite s ref p l x4 x5 x6).1.pending = s.pending := by
  induction x4 generalizing s x5 x6 with
  | zero => rfl
  | succ n ih =>
    unfold State.gradWrite
    split
    · rfl
    · dsimp only; split <;> (try rw [ih]) <;> simp
@[simp] theorem State.bwdLocate_pending (s : Sys2Proof.Machine.State) (ref : Nat) (c : Sys2Proof.Machine.Cmd) (i : Nat) : (Sys2Proof.Machine.State.bwdLocate s ref c i).2.pending = s.pending := by
  unfold State.bwdLocate
  repeat' first
    | with_reducible rfl
    | refine (pending_foldl _ _ _ (fun _ _ => ?_)).trans ?_
    | refine (pending_fold1 _ _ _ (fun _ _ => ?_)).trans ?_
    | refine (pending_fold2 _ _ _ (fun _ _ => ?_)).trans ?_
    | split
    | simp
    | rfl
@[simp] theorem State.bwdItemRun_pending (s : Sys2Proof.Machine.State) (ref : Nat) (c : Sys2Proof.Machine.Cmd) (all : List Sys2Proof.Machine.BwdItem) (i : Nat) (y : Sys2Proof.Machine.BwdItem) : (Sys2Proof.Machine.State.bwdItemRun s ref c all i y).2.pending = s.pending := by
  unfold State.bwdItemRun
  repeat' first
    | with_reducible rfl
    | refine (pending_foldl _ _ _ (fun _ _ => ?_)).trans ?_
    | refine (pending_fold1 _ _ _ (fun _ _ => ?_)).trans ?_
    | refine (pending_fold2 _ _ _ (fun _ _ => ?_)).trans ?_
    | split
    | simp
    | rfl
@[simp] theorem State.bwdStart_pending (s : Sys2Proof.Machine.State) (ref : Nat) : (Sys2Proof.Machine.State.bwdStart s ref).pending = s.pending := by
  unfold State.bwdStart
  repeat' first
    | with_reducible rfl
    | refine (pending_foldl _ _ _ (fun _ _ => ?_)).trans ?_
    | refine (pending_fold1 _ _ _ (fun _ _ => ?_)).trans ?_
    | refine (pending_fold2 _ _ _ (fun _ _ => ?_)).trans ?_
    | split
    | simp
    | rfl
@[simp] theorem State.prefetchLayer_pending (s : State) (x : Seq) (layer : Nat) : (State.prefetchLayer s x layer).pending = s.pending := by
  unfold State.prefetchLayer
  repeat' first | with_reducible rfl | refine (pending_foldl _ _ _ (fun _ _ => ?_)).trans ?_ | split | simp
@[simp] theorem State.prefetch_pending (s : State) (c : Ctx) : (State.prefetch s c).pending = s.pending := by
  unfold State.prefetch
  repeat' first | with_reducible rfl | refine (pending_foldl _ _ _ (fun _ _ => ?_)).trans ?_ | split | simp
@[simp] theorem attendRecipe_start_pending (s : State) (c : Ctx) : (attendRecipe.start s c).pending = s.pending := by
  simp only [attendRecipe]
  first
    | rfl
    | (simp; done)
    | (refine State.oneWork_pending _ _ _ (fun u c => ?_); simp; done)
    | (refine State.oneItem_pending _ _ _ (fun u c => ?_); simp; done)
    | (refine State.eachItem_pending _ _ _ (fun u c i => ?_); simp; done)
    | (refine (State.eachItem_pending _ _ _ (fun u c i => ?_)).trans ?_ <;> simp; done)
    | (repeat' split <;> simp)
@[simp] theorem attendRecipe_admit_pending (s : State) (c : Ctx) : (attendRecipe.atAdmit s c).pending = s.pending := by
  simp only [attendRecipe]
  first
    | rfl
    | (simp; done)
    | (refine State.oneWork_pending _ _ _ (fun u c => ?_); simp; done)
    | (refine State.oneItem_pending _ _ _ (fun u c => ?_); simp; done)
    | (refine State.eachItem_pending _ _ _ (fun u c i => ?_); simp; done)
    | (refine (State.eachItem_pending _ _ _ (fun u c i => ?_)).trans ?_ <;> simp; done)
    | (repeat' split <;> simp)
@[simp] theorem bwdRecipe_start_pending (s : State) (c : Ctx) : (bwdRecipe.start s c).pending = s.pending := by
  simp only [bwdRecipe]
  first
    | rfl
    | (simp; done)
    | (refine State.oneWork_pending _ _ _ (fun u c => ?_); simp; done)
    | (refine State.oneItem_pending _ _ _ (fun u c => ?_); simp; done)
    | (refine State.eachItem_pending _ _ _ (fun u c i => ?_); simp; done)
    | (refine (State.eachItem_pending _ _ _ (fun u c i => ?_)).trans ?_ <;> simp; done)
    | (repeat' split <;> simp)
@[simp] theorem bwdRecipe_admit_pending (s : State) (c : Ctx) : (bwdRecipe.atAdmit s c).pending = s.pending := by
  simp only [bwdRecipe]
  first
    | rfl
    | (simp; done)
    | (refine State.oneWork_pending _ _ _ (fun u c => ?_); simp; done)
    | (refine State.oneItem_pending _ _ _ (fun u c => ?_); simp; done)
    | (refine State.eachItem_pending _ _ _ (fun u c i => ?_); simp; done)
    | (refine (State.eachItem_pending _ _ _ (fun u c i => ?_)).trans ?_ <;> simp; done)
    | (repeat' split <;> simp)
@[simp] theorem State.ensureGroup_pending (s : State) (x : Seq) (b : Nat) : (State.ensureGroup s x b).2.2.pending = s.pending := by
  unfold State.ensureGroup
  repeat' split
  all_goals simp
@[simp] theorem State.ensurePage_pending (s : State) (x : Seq) (b : Nat) (m : Nat) : (State.ensurePage s x b m).2.pending = s.pending := by
  unfold State.ensurePage
  repeat' first | with_reducible rfl | split | simp
@[simp] theorem State.commitItem_pending (s : State) (q : PendItem) : (State.commitItem s q).pending = s.pending := by
  unfold State.commitItem
  repeat' first | with_reducible rfl | refine (pending_foldl _ _ _ (fun _ _ => ?_)).trans ?_ | split | simp
@[simp] theorem State.sendMirrors_pending (s : State) (x : Seq) (layer : Nat) (head : Nat) (d : Nat) (q : PendItem) : (State.sendMirrors s x layer head d q).pending = s.pending := by simp [State.sendMirrors]
@[simp] theorem State.compareItem_pending (s : State) (x : Seq) (m : Nat) (t : Nat) (pos0 : Nat) (ps : List Pos) (tail : List Nat) : (State.compareItem s x m t pos0 ps tail).2.pending = s.pending := by
  unfold State.compareItem
  repeat' first | with_reducible rfl | refine (pending_fold2 _ _ _ (fun _ _ => ?_)).trans ?_ | split | simp
@[simp] theorem State.appendItem_pending (s : State) (ref : Nat) (c : Cmd) (i : Nat) : (s.appendItem ref c i).pending = s.pending := by
  unfold State.appendItem
  extract_lets a it fail
  have hf : ∀ u st h, (fail u st h).pending = u.pending := fun u st h => State.modCmd_pending _ _ _
  clear_value fail
  split
  · exact hf _ _ _
  · rename_i x0 _
    extract_lets s1 x m n
    have e1 : s1.pending = s.pending := State.touchSeq_pending _ _
    clear_value s1
    split
    · simp [hf, e1]
    · split
      · simp [hf, e1]
      extract_lets r new bs fresh s2 e q old src
      have er : r.2.pending = s.pending := (State.compareItem_pending _ _ _ _ _ _ _).trans e1
      have e2 : s2.pending = s.pending := by
        simp only [s2]
        split
        · exact er
        · exact (State.makeT1_pending _ _ _ _).trans er
      have ee : e.2.pending = s.pending := (pending_fold2 _ _ _ (fun a x => State.ensurePage_pending _ _ _ _)).trans e2
      have es : src.pending = s.pending := ee
      clear_value src old e s2 new
      clear_value r
      split
      · simp [hf, er]
      · simp [hf, er]
      · split
        · simp [er]
        · split
          · simp [hf, er]
          · split
            · simp [hf, e2]
            · split <;> simp [ee, es]
@[simp] theorem State.appendStart_pending (s : State) (ref : Nat) : (State.appendStart s ref).pending = s.pending := by
  unfold State.appendStart
  repeat' first | with_reducible rfl | refine (pending_foldl _ _ _ (fun _ _ => ?_)).trans ?_ | split | simp
@[simp] theorem appendRecipe_start_pending (s : State) (c : Ctx) : (appendRecipe.start s c).pending = s.pending := by
  simp only [appendRecipe]
  first
    | rfl
    | (simp; done)
    | (refine State.oneWork_pending _ _ _ (fun u c => ?_); simp; done)
    | (refine State.oneItem_pending _ _ _ (fun u c => ?_); simp; done)
    | (refine State.eachItem_pending _ _ _ (fun u c i => ?_); simp; done)
    | (refine (State.eachItem_pending _ _ _ (fun u c i => ?_)).trans ?_ <;> simp; done)
    | (repeat' split <;> simp)
@[simp] theorem appendRecipe_admit_pending (s : State) (c : Ctx) : (appendRecipe.atAdmit s c).pending = s.pending := by
  simp only [appendRecipe]
  first
    | rfl
    | (simp; done)
    | (refine State.oneWork_pending _ _ _ (fun u c => ?_); simp; done)
    | (refine State.oneItem_pending _ _ _ (fun u c => ?_); simp; done)
    | (refine State.eachItem_pending _ _ _ (fun u c i => ?_); simp; done)
    | (refine (State.eachItem_pending _ _ _ (fun u c i => ?_)).trans ?_ <;> simp; done)
    | (repeat' split <;> simp)
@[simp] theorem State.linkBlock_pending (s : State) (x : Seq) (b : Nat) (gid : Nat) : (State.linkBlock s x b gid).2.pending = s.pending := by unfold State.linkBlock; split <;> simp
@[simp] theorem State.lookupRun_pending (s : State) (ref : Nat) (c : Cmd) : (State.lookupRun s ref c).pending = s.pending := by
  unfold State.lookupRun
  repeat' first | with_reducible rfl | refine (pending_fold2 _ _ _ (fun _ _ => ?_)).trans ?_ | split | simp
@[simp] theorem State.sdRoom_pending (s : State) (d : Nat) (n : Nat) (x3 : Nat) : (State.sdRoom s d n x3).2.pending = s.pending := by
  induction x3 generalizing s with
  | zero => rfl
  | succ n ih =>
    unfold State.sdRoom
    repeat' first
      | with_reducible rfl
      | (refine (pending_foldl _ _ _ (fun a x => ?_)).trans ?_)
      | (refine (pending_fold1 _ _ _ (fun a x => ?_)).trans ?_)
      | (refine (pending_fold2 _ _ _ (fun a x => ?_)).trans ?_)
      | split
      | simp [ih]
@[simp] theorem State.publishBlock_pending (s : Sys2Proof.Machine.State) (x : Sys2Proof.Machine.Seq) (d : Nat) (b : Nat) (k : Sys2Proof.Bytes) : (Sys2Proof.Machine.State.publishBlock s x d b k).2.2.pending = s.pending := by
  unfold State.publishBlock
  repeat' first
    | with_reducible rfl
    | refine (pending_foldl _ _ _ (fun _ _ => ?_)).trans ?_
    | refine (pending_fold1 _ _ _ (fun _ _ => ?_)).trans ?_
    | refine (pending_fold2 _ _ _ (fun _ _ => ?_)).trans ?_
    | split
    | simp
    | rfl
@[simp] theorem State.publishBlocks_pending (s : State) (x : Seq) (d n : Nat) (l : List Bytes) : (s.publishBlocks x d n l).2.2.2.pending = s.pending := by
  induction l generalizing s x n with
  | nil => rfl
  | cons k t ih =>
    unfold State.publishBlocks
    dsimp only
    split
    · rw [ih]; simp
    · simp
@[simp] theorem State.publishRun_pending (s : State) (ref : Nat) (c : Cmd) : (State.publishRun s ref c).pending = s.pending := by
  unfold State.publishRun
  repeat' first | with_reducible rfl | split | simp
theorem State.eachTodo_pending (s : State) (ref n : Nat) (f : State → Nat → State) (h : ∀ u i, (f u i).pending = u.pending) :
    (s.eachTodo ref n f).pending = s.pending := pending_foldl _ _ _ (fun a x => by split; exact h _ _; rfl)
theorem State.oneItem_pending (s : State) (ref : Nat) (f : State → Cmd → State) (h : ∀ u c, (f u c).pending = u.pending) : (s.oneItem ref f).pending = s.pending := by
  unfold State.oneItem
  split
  · dsimp only
    split <;> simp [h]
  · rfl
@[simp] theorem lookupRecipe_start_pending (s : State) (c : Ctx) : (lookupRecipe.start s c).pending = s.pending := by
  simp only [lookupRecipe]
  first
    | rfl
    | (simp; done)
    | (refine State.oneWork_pending _ _ _ (fun u c => ?_); simp; done)
    | (refine State.oneItem_pending _ _ _ (fun u c => ?_); simp; done)
    | (refine State.eachItem_pending _ _ _ (fun u c i => ?_); simp; done)
    | (refine (State.eachItem_pending _ _ _ (fun u c i => ?_)).trans ?_ <;> simp; done)
    | (repeat' split <;> simp)
@[simp] theorem lookupRecipe_admit_pending (s : State) (c : Ctx) : (lookupRecipe.atAdmit s c).pending = s.pending := by
  simp only [lookupRecipe]
  first
    | rfl
    | (simp; done)
    | (refine State.oneWork_pending _ _ _ (fun u c => ?_); simp; done)
    | (refine State.oneItem_pending _ _ _ (fun u c => ?_); simp; done)
    | (refine State.eachItem_pending _ _ _ (fun u c i => ?_); simp; done)
    | (refine (State.eachItem_pending _ _ _ (fun u c i => ?_)).trans ?_ <;> simp; done)
    | (repeat' split <;> simp)
@[simp] theorem publishPrefixRecipe_start_pending (s : State) (c : Ctx) : (publishPrefixRecipe.start s c).pending = s.pending := by
  simp only [publishPrefixRecipe]
  first
    | rfl
    | (simp; done)
    | (refine State.oneWork_pending _ _ _ (fun u c => ?_); simp; done)
    | (refine State.oneItem_pending _ _ _ (fun u c => ?_); simp; done)
    | (refine State.eachItem_pending _ _ _ (fun u c i => ?_); simp; done)
    | (refine (State.eachItem_pending _ _ _ (fun u c i => ?_)).trans ?_ <;> simp; done)
    | (repeat' split <;> simp)
@[simp] theorem publishPrefixRecipe_admit_pending (s : State) (c : Ctx) : (publishPrefixRecipe.atAdmit s c).pending = s.pending := by
  simp only [publishPrefixRecipe]
  first
    | rfl
    | (simp; done)
    | (refine State.oneWork_pending _ _ _ (fun u c => ?_); simp; done)
    | (refine State.oneItem_pending _ _ _ (fun u c => ?_); simp; done)
    | (refine State.eachItem_pending _ _ _ (fun u c i => ?_); simp; done)
    | (refine (State.eachItem_pending _ _ _ (fun u c i => ?_)).trans ?_ <;> simp; done)
    | (repeat' split <;> simp)
@[simp] theorem State.startMove_pending (s : Sys2Proof.Machine.State) (gid : Nat) (m : Nat) (tier : Nat) (pin : Bool) : (Sys2Proof.Machine.State.startMove s gid m tier pin).pending = s.pending := by
  unfold State.startMove
  repeat' first
    | with_reducible rfl
    | refine (pending_foldl _ _ _ (fun _ _ => ?_)).trans ?_
    | refine (pending_fold1 _ _ _ (fun _ _ => ?_)).trans ?_
    | refine (pending_fold2 _ _ _ (fun _ _ => ?_)).trans ?_
    | split
    | simp
    | rfl
@[simp] theorem State.unpin_pending (s : Sys2Proof.Machine.State) (x : Sys2Proof.Machine.Seq) (q : Nat × Nat) : (Sys2Proof.Machine.State.unpin s x q).pending = s.pending := by
  unfold State.unpin
  repeat' first
    | with_reducible rfl
    | refine (pending_foldl _ _ _ (fun _ _ => ?_)).trans ?_
    | refine (pending_fold1 _ _ _ (fun _ _ => ?_)).trans ?_
    | refine (pending_fold2 _ _ _ (fun _ _ => ?_)).trans ?_
    | split
    | simp
    | rfl
@[simp] theorem State.pinItem_pending (s : State) (ref : Nat) (c : Cmd) (what : Nat) (i : Nat) : (State.pinItem s ref c what i).pending = s.pending := by
  unfold State.pinItem
  repeat' first | with_reducible rfl | refine (pending_foldl _ _ _ (fun _ _ => ?_)).trans ?_ | split | simp
@[simp] theorem State.pinStart_pending (s : State) (ref : Nat) (what : Nat) : (State.pinStart s ref what).pending = s.pending := by
  unfold State.pinStart
  repeat' first | with_reducible rfl | refine (pending_foldl _ _ _ (fun _ _ => ?_)).trans ?_ | split | simp
@[simp] theorem pinRecipe_start_pending (s : State) (c : Ctx) : (pinRecipe.start s c).pending = s.pending := by
  simp only [pinRecipe]
  first
    | rfl
    | (simp; done)
    | (refine State.oneWork_pending _ _ _ (fun u c => ?_); simp; done)
    | (refine State.oneItem_pending _ _ _ (fun u c => ?_); simp; done)
    | (refine State.eachItem_pending _ _ _ (fun u c i => ?_); simp; done)
    | (refine (State.eachItem_pending _ _ _ (fun u c i => ?_)).trans ?_ <;> simp; done)
    | (repeat' split <;> simp)
@[simp] theorem pinRecipe_admit_pending (s : State) (c : Ctx) : (pinRecipe.atAdmit s c).pending = s.pending := by
  simp only [pinRecipe]
  first
    | rfl
    | (simp; done)
    | (refine State.oneWork_pending _ _ _ (fun u c => ?_); simp; done)
    | (refine State.oneItem_pending _ _ _ (fun u c => ?_); simp; done)
    | (refine State.eachItem_pending _ _ _ (fun u c i => ?_); simp; done)
    | (refine (State.eachItem_pending _ _ _ (fun u c i => ?_)).trans ?_ <;> simp; done)
    | (repeat' split <;> simp)
@[simp] theorem unpinRecipe_start_pending (s : State) (c : Ctx) : (unpinRecipe.start s c).pending = s.pending := by
  simp only [unpinRecipe]
  first
    | rfl
    | (simp; done)
    | (refine State.oneWork_pending _ _ _ (fun u c => ?_); simp; done)
    | (refine State.oneItem_pending _ _ _ (fun u c => ?_); simp; done)
    | (refine State.eachItem_pending _ _ _ (fun u c i => ?_); simp; done)
    | (refine (State.eachItem_pending _ _ _ (fun u c i => ?_)).trans ?_ <;> simp; done)
    | (repeat' split <;> simp)
@[simp] theorem unpinRecipe_admit_pending (s : State) (c : Ctx) : (unpinRecipe.atAdmit s c).pending = s.pending := by
  simp only [unpinRecipe]
  first
    | rfl
    | (simp; done)
    | (refine State.oneWork_pending _ _ _ (fun u c => ?_); simp; done)
    | (refine State.oneItem_pending _ _ _ (fun u c => ?_); simp; done)
    | (refine State.eachItem_pending _ _ _ (fun u c i => ?_); simp; done)
    | (refine (State.eachItem_pending _ _ _ (fun u c i => ?_)).trans ?_ <;> simp; done)
    | (repeat' split <;> simp)
@[simp] theorem migrateRecipe_start_pending (s : State) (c : Ctx) : (migrateRecipe.start s c).pending = s.pending := by
  simp only [migrateRecipe]
  first
    | rfl
    | (simp; done)
    | (refine State.oneWork_pending _ _ _ (fun u c => ?_); simp; done)
    | (refine State.oneItem_pending _ _ _ (fun u c => ?_); simp; done)
    | (refine State.eachItem_pending _ _ _ (fun u c i => ?_); simp; done)
    | (refine (State.eachItem_pending _ _ _ (fun u c i => ?_)).trans ?_ <;> simp; done)
    | (repeat' split <;> simp)
@[simp] theorem migrateRecipe_admit_pending (s : State) (c : Ctx) : (migrateRecipe.atAdmit s c).pending = s.pending := by
  simp only [migrateRecipe]
  first
    | rfl
    | (simp; done)
    | (refine State.oneWork_pending _ _ _ (fun u c => ?_); simp; done)
    | (refine State.oneItem_pending _ _ _ (fun u c => ?_); simp; done)
    | (refine State.eachItem_pending _ _ _ (fun u c i => ?_); simp; done)
    | (refine (State.eachItem_pending _ _ _ (fun u c i => ?_)).trans ?_ <;> simp; done)
    | (repeat' split <;> simp)
@[simp] theorem State.newSeq_pending (s : Sys2Proof.Machine.State) (t : Nat) (tag : Nat) (id : Nat) (sh : Sys2Proof.Shape) : (Sys2Proof.Machine.State.newSeq s t tag id sh).pending = s.pending := by
  unfold State.newSeq
  repeat' first
    | with_reducible rfl
    | refine (pending_foldl _ _ _ (fun _ _ => ?_)).trans ?_
    | refine (pending_fold1 _ _ _ (fun _ _ => ?_)).trans ?_
    | refine (pending_fold2 _ _ _ (fun _ _ => ?_)).trans ?_
    | split
    | simp
    | rfl
@[simp] theorem State.openItem_pending (s : State) (ref : Nat) (c : Cmd) (i : Nat) : (State.openItem s ref c i).pending = s.pending := by
  unfold State.openItem
  repeat' first | with_reducible rfl | split | simp
theorem State.eachItem_pending (s : State) (ref : Nat) (f : State → Cmd → Nat → State) (h : ∀ u c i, (f u c i).pending = u.pending) :
    (s.eachItem ref f).pending = s.pending := by
  unfold State.eachItem
  split
  · rfl
  · exact (State.eachTodo_pending _ _ _ _ (fun a x => h _ _ _)).trans (by simp)
@[simp] theorem openRecipe_start_pending (s : State) (c : Ctx) : (openRecipe.start s c).pending = s.pending := by
  simp only [openRecipe]
  first
    | rfl
    | (simp; done)
    | (refine State.oneWork_pending _ _ _ (fun u c => ?_); simp; done)
    | (refine State.oneItem_pending _ _ _ (fun u c => ?_); simp; done)
    | (refine State.eachItem_pending _ _ _ (fun u c i => ?_); simp; done)
    | (refine (State.eachItem_pending _ _ _ (fun u c i => ?_)).trans ?_ <;> simp; done)
    | (repeat' split <;> simp)
@[simp] theorem openRecipe_admit_pending (s : State) (c : Ctx) : (openRecipe.atAdmit s c).pending = s.pending := by
  simp only [openRecipe]
  first
    | rfl
    | (simp; done)
    | (refine State.oneWork_pending _ _ _ (fun u c => ?_); simp; done)
    | (refine State.oneItem_pending _ _ _ (fun u c => ?_); simp; done)
    | (refine State.eachItem_pending _ _ _ (fun u c i => ?_); simp; done)
    | (refine (State.eachItem_pending _ _ _ (fun u c i => ?_)).trans ?_ <;> simp; done)
    | (repeat' split <;> simp)
@[simp] theorem State.closeSeq_pending (s : State) (x : Seq) (gen : Nat) (keep : List Nat) : (State.closeSeq s x gen keep).pending = s.pending := by
  unfold State.closeSeq
  repeat' first | with_reducible rfl | refine (pending_foldl _ _ _ (fun _ _ => ?_)).trans ?_ | split | simp
@[simp] theorem State.closeItem_pending (s : State) (ref : Nat) (c : Cmd) (i : Nat) : (State.closeItem s ref c i).pending = s.pending := by
  unfold State.closeItem
  repeat' first | with_reducible rfl | split | simp
@[simp] theorem closeRecipe_start_pending (s : State) (c : Ctx) : (closeRecipe.start s c).pending = s.pending := by
  simp only [closeRecipe]
  first
    | rfl
    | (simp; done)
    | (refine State.oneWork_pending _ _ _ (fun u c => ?_); simp; done)
    | (refine State.oneItem_pending _ _ _ (fun u c => ?_); simp; done)
    | (refine State.eachItem_pending _ _ _ (fun u c i => ?_); simp; done)
    | (refine (State.eachItem_pending _ _ _ (fun u c i => ?_)).trans ?_ <;> simp; done)
    | (repeat' split <;> simp)
@[simp] theorem closeRecipe_admit_pending (s : State) (c : Ctx) : (closeRecipe.atAdmit s c).pending = s.pending := by
  simp only [closeRecipe]
  first
    | rfl
    | (simp; done)
    | (refine State.oneWork_pending _ _ _ (fun u c => ?_); simp; done)
    | (refine State.oneItem_pending _ _ _ (fun u c => ?_); simp; done)
    | (refine State.eachItem_pending _ _ _ (fun u c i => ?_); simp; done)
    | (refine (State.eachItem_pending _ _ _ (fun u c i => ?_)).trans ?_ <;> simp; done)
    | (repeat' split <;> simp)
@[simp] theorem State.demote_pending (s : State) (t x2 : Nat) : (State.demote s t x2).pending = s.pending := by
  induction x2 generalizing s with
  | zero => rfl
  | succ k ih =>
    unfold State.demote
    split
    · rfl
    · split
      · rename_i s1 h1
        rw [ih, State.demoteOne_pending h1]
      · rfl
@[simp] theorem State.settleMoves_pending (s : State) (page : Nat) (st : Nat) : (State.settleMoves s page st).pending = s.pending := by simp [State.settleMoves]
@[simp] theorem State.codePage_pending (s : State) (gid : Nat) (m : Nat) (gen : Nat) : (State.codePage s gid m gen).pending = s.pending := by
  unfold State.codePage
  repeat' first | with_reducible rfl | split | simp
theorem State.payMove_pending (s : State) (t page d cost : Nat) (f : State → State) (h0 : ∀ a, (f a).pending = a.pending) :
    (State.payMove s t page d cost f).pending = s.pending := by
  unfold State.payMove
  dsimp only
  split
  · simp
  · split
    · rw [h0]; simp
    · simp
@[simp] theorem State.makeT0_pending (s : State) (d n x3 : Nat) : (State.makeT0 s d n x3).2.pending = s.pending := by
  induction x3 generalizing s with
  | zero => rfl
  | succ k ih =>
    unfold State.makeT0
    split
    · rfl
    · split
      · rfl
      · split <;> simp [ih]
@[simp] theorem State.endMove_pending (s : Sys2Proof.Machine.State) (gid : Nat) (m : Nat) : (Sys2Proof.Machine.State.endMove s gid m).pending = s.pending := by
  unfold State.endMove
  repeat' first
    | with_reducible rfl
    | refine (pending_foldl _ _ _ (fun _ _ => ?_)).trans ?_
    | refine (pending_fold1 _ _ _ (fun _ _ => ?_)).trans ?_
    | refine (pending_fold2 _ _ _ (fun _ _ => ?_)).trans ?_
    | split
    | simp
    | rfl
@[simp] theorem State.recoded_pending (s : Sys2Proof.Machine.State) (gid : Nat) (m : Nat) (gen : Nat) : (Sys2Proof.Machine.State.recoded s gid m gen).pending = s.pending := by
  unfold State.recoded
  repeat' first
    | with_reducible rfl
    | refine (pending_foldl _ _ _ (fun _ _ => ?_)).trans ?_
    | refine (pending_fold1 _ _ _ (fun _ _ => ?_)).trans ?_
    | refine (pending_fold2 _ _ _ (fun _ _ => ?_)).trans ?_
    | split
    | simp
    | rfl
@[simp] theorem State.finishMove_pending (s : State) (page : Nat) : (State.finishMove s page).pending = s.pending := by
  unfold State.finishMove
  dsimp only
  split
  · split
    · exact State.payMove_pending _ _ _ _ _ _ (fun a => by simp)
    · split
      · exact State.payMove_pending _ _ _ _ _ _ (fun a => by simp)
      · split
        · exact State.payMove_pending _ _ _ _ _ _ (fun a => by simp)
        · rfl
      · split
        · rfl
        · refine State.payMove_pending _ _ _ _ _ _ (fun a => ?_)
          split
          · simp
          · split <;> simp
  · rfl
@[simp] theorem State.releaseMoves_pending (s : Sys2Proof.Machine.State) : (Sys2Proof.Machine.State.releaseMoves s).pending = s.pending := by
  unfold State.releaseMoves
  repeat' first
    | with_reducible rfl
    | refine (pending_foldl _ _ _ (fun _ _ => ?_)).trans ?_
    | refine (pending_fold1 _ _ _ (fun _ _ => ?_)).trans ?_
    | refine (pending_fold2 _ _ _ (fun _ _ => ?_)).trans ?_
    | split
    | simp
    | rfl
@[simp] theorem State.wrote_pending (s : Sys2Proof.Machine.State) (page : Nat) : (Sys2Proof.Machine.State.wrote s page).pending = s.pending := by
  unfold State.wrote
  repeat' first
    | with_reducible rfl
    | refine (pending_foldl _ _ _ (fun _ _ => ?_)).trans ?_
    | refine (pending_fold1 _ _ _ (fun _ _ => ?_)).trans ?_
    | refine (pending_fold2 _ _ _ (fun _ _ => ?_)).trans ?_
    | split
    | simp
    | rfl
@[simp] theorem State.losePage_pending (s : State) (gid : Nat) : (State.losePage s gid).pending = s.pending := by simp [State.losePage]
@[simp] theorem State.copyFails_pending (s : State) (gid : Nat) (m : Nat) (tier : Nat) : (State.copyFails s gid m tier).pending = s.pending := by
  unfold State.copyFails
  repeat' first | with_reducible rfl | split | simp
@[simp] theorem State.modTensor_pending (s : State) (t : Nat) (id : Nat) (f : Tensor → Tensor) : (State.modTensor s t id f).pending = s.pending := by simp [State.modTensor]
@[simp] theorem State.loadInto_pending (s : State) (t : Nat) (a : LoadArgs) (pay : Bytes) : (State.loadInto s t a pay).pending = s.pending := by simp [State.loadInto]
@[simp] theorem State.loadRun_pending (s : State) (ref : Nat) (c : Cmd) : (State.loadRun s ref c).pending = s.pending := by
  unfold State.loadRun
  repeat' first | with_reducible rfl | split | simp
theorem State.oneWork_pending (s : State) (ref : Nat) (f : State → Cmd → State) (h : ∀ u c, (f u c).pending = u.pending) : (s.oneWork ref f).pending = s.pending := by
  unfold State.oneWork; split <;> simp [h]
@[simp] theorem loadRecipe_start_pending (s : State) (c : Ctx) : (loadRecipe.start s c).pending = s.pending := by
  simp only [loadRecipe]
  first
    | rfl
    | (simp; done)
    | (refine State.oneWork_pending _ _ _ (fun u c => ?_); simp; done)
    | (refine State.oneItem_pending _ _ _ (fun u c => ?_); simp; done)
    | (refine State.eachItem_pending _ _ _ (fun u c i => ?_); simp; done)
    | (refine (State.eachItem_pending _ _ _ (fun u c i => ?_)).trans ?_ <;> simp; done)
    | (repeat' split <;> simp)
@[simp] theorem loadRecipe_admit_pending (s : State) (c : Ctx) : (loadRecipe.atAdmit s c).pending = s.pending := by
  simp only [loadRecipe]
  first
    | rfl
    | (simp; done)
    | (refine State.oneWork_pending _ _ _ (fun u c => ?_); simp; done)
    | (refine State.oneItem_pending _ _ _ (fun u c => ?_); simp; done)
    | (refine State.eachItem_pending _ _ _ (fun u c i => ?_); simp; done)
    | (refine (State.eachItem_pending _ _ _ (fun u c i => ?_)).trans ?_ <;> simp; done)
    | (repeat' split <;> simp)
@[simp] theorem State.freeTensor_pending (s : State) (c : Ctx) : (State.freeTensor s c).pending = s.pending := by
  unfold State.freeTensor
  repeat' first | with_reducible rfl | split | simp
@[simp] theorem freeTensorRecipe_start_pending (s : State) (c : Ctx) : (freeTensorRecipe.start s c).pending = s.pending := by
  simp only [freeTensorRecipe]
  first
    | rfl
    | (simp; done)
    | (refine State.oneWork_pending _ _ _ (fun u c => ?_); simp; done)
    | (refine State.oneItem_pending _ _ _ (fun u c => ?_); simp; done)
    | (refine State.eachItem_pending _ _ _ (fun u c i => ?_); simp; done)
    | (refine (State.eachItem_pending _ _ _ (fun u c i => ?_)).trans ?_ <;> simp; done)
    | (repeat' split <;> simp)
@[simp] theorem freeTensorRecipe_admit_pending (s : State) (c : Ctx) : (freeTensorRecipe.atAdmit s c).pending = s.pending := by
  simp only [freeTensorRecipe]
  first
    | rfl
    | (simp; done)
    | (refine State.oneWork_pending _ _ _ (fun u c => ?_); simp; done)
    | (refine State.oneItem_pending _ _ _ (fun u c => ?_); simp; done)
    | (refine State.eachItem_pending _ _ _ (fun u c i => ?_); simp; done)
    | (refine (State.eachItem_pending _ _ _ (fun u c i => ?_)).trans ?_ <;> simp; done)
    | (repeat' split <;> simp)
@[simp] theorem State.keepCopies_pending (s : Sys2Proof.Machine.State) (ref : Nat) (p : Nat) (l : Nat) (g : Sys2Proof.Machine.GSource) (idx : List Nat) : (Sys2Proof.Machine.State.keepCopies s ref p l g idx).pending = s.pending := by
  unfold State.keepCopies
  repeat' first
    | with_reducible rfl
    | refine (pending_foldl _ _ _ (fun _ _ => ?_)).trans ?_
    | refine (pending_fold1 _ _ _ (fun _ _ => ?_)).trans ?_
    | refine (pending_fold2 _ _ _ (fun _ _ => ?_)).trans ?_
    | split
    | simp
    | rfl
@[simp] theorem State.gatherRun_pending (s : Sys2Proof.Machine.State) (ref : Nat) (c : Sys2Proof.Machine.Cmd) : (Sys2Proof.Machine.State.gatherRun s ref c).pending = s.pending := by
  unfold State.gatherRun
  repeat' first
    | with_reducible rfl
    | refine (pending_foldl _ _ _ (fun _ _ => ?_)).trans ?_
    | refine (pending_fold1 _ _ _ (fun _ _ => ?_)).trans ?_
    | refine (pending_fold2 _ _ _ (fun _ _ => ?_)).trans ?_
    | split
    | simp
    | rfl
@[simp] theorem gatherRecipe_start_pending (s : State) (c : Ctx) : (gatherRecipe.start s c).pending = s.pending := by
  simp only [gatherRecipe]
  first
    | rfl
    | (simp; done)
    | (refine State.oneWork_pending _ _ _ (fun u c => ?_); simp; done)
    | (refine State.oneItem_pending _ _ _ (fun u c => ?_); simp; done)
    | (refine State.eachItem_pending _ _ _ (fun u c i => ?_); simp; done)
    | (refine (State.eachItem_pending _ _ _ (fun u c i => ?_)).trans ?_ <;> simp; done)
    | (repeat' split <;> simp)
@[simp] theorem gatherRecipe_admit_pending (s : State) (c : Ctx) : (gatherRecipe.atAdmit s c).pending = s.pending := by
  simp only [gatherRecipe]
  first
    | rfl
    | (simp; done)
    | (refine State.oneWork_pending _ _ _ (fun u c => ?_); simp; done)
    | (refine State.oneItem_pending _ _ _ (fun u c => ?_); simp; done)
    | (refine State.eachItem_pending _ _ _ (fun u c i => ?_); simp; done)
    | (refine (State.eachItem_pending _ _ _ (fun u c i => ?_)).trans ?_ <;> simp; done)
    | (repeat' split <;> simp)
@[simp] theorem State.makeCurrent_pending (s : State) (t : Nat) (set : Nat) (gen : Nat) : (State.makeCurrent s t set gen).pending = s.pending := by simp [State.makeCurrent]
@[simp] theorem State.installPal_pending (s : State) (t : Nat) (set : Nat) (bytes : Bytes) (trained : Bool) : (State.installPal s t set bytes trained).2.2.pending = s.pending := by
  unfold State.installPal
  repeat' first | with_reducible rfl | split | simp
@[simp] theorem State.retireGen_pending (s : State) (t : Nat) (set : Nat) (gen : Nat) : (State.retireGen s t set gen).pending = s.pending := by
  unfold State.retireGen
  repeat' first | with_reducible rfl | split | simp
@[simp] theorem State.palRun_pending (s : State) (ref : Nat) (c : Cmd) : (State.palRun s ref c).pending = s.pending := by
  unfold State.palRun
  repeat' first | with_reducible rfl | split | simp
@[simp] theorem palRecipe_start_pending (s : State) (c : Ctx) : (palRecipe.start s c).pending = s.pending := by
  simp only [palRecipe]
  first
    | rfl
    | (simp; done)
    | (refine State.oneWork_pending _ _ _ (fun u c => ?_); simp; done)
    | (refine State.oneItem_pending _ _ _ (fun u c => ?_); simp; done)
    | (refine State.eachItem_pending _ _ _ (fun u c i => ?_); simp; done)
    | (refine (State.eachItem_pending _ _ _ (fun u c i => ?_)).trans ?_ <;> simp; done)
    | (repeat' split <;> simp)
@[simp] theorem palRecipe_admit_pending (s : State) (c : Ctx) : (palRecipe.atAdmit s c).pending = s.pending := by
  simp only [palRecipe]
  first
    | rfl
    | (simp; done)
    | (refine State.oneWork_pending _ _ _ (fun u c => ?_); simp; done)
    | (refine State.oneItem_pending _ _ _ (fun u c => ?_); simp; done)
    | (refine State.eachItem_pending _ _ _ (fun u c i => ?_); simp; done)
    | (refine (State.eachItem_pending _ _ _ (fun u c i => ?_)).trans ?_ <;> simp; done)
    | (repeat' split <;> simp)
@[simp] theorem State.freePalRun_pending (s : State) (ref : Nat) (c : Cmd) : (State.freePalRun s ref c).pending = s.pending := by
  unfold State.freePalRun
  repeat' first | with_reducible rfl | split | simp
@[simp] theorem freePalRecipe_start_pending (s : State) (c : Ctx) : (freePalRecipe.start s c).pending = s.pending := by
  simp only [freePalRecipe]
  first
    | rfl
    | (simp; done)
    | (refine State.oneWork_pending _ _ _ (fun u c => ?_); simp; done)
    | (refine State.oneItem_pending _ _ _ (fun u c => ?_); simp; done)
    | (refine State.eachItem_pending _ _ _ (fun u c i => ?_); simp; done)
    | (refine (State.eachItem_pending _ _ _ (fun u c i => ?_)).trans ?_ <;> simp; done)
    | (repeat' split <;> simp)
@[simp] theorem freePalRecipe_admit_pending (s : State) (c : Ctx) : (freePalRecipe.atAdmit s c).pending = s.pending := by
  simp only [freePalRecipe]
  first
    | rfl
    | (simp; done)
    | (refine State.oneWork_pending _ _ _ (fun u c => ?_); simp; done)
    | (refine State.oneItem_pending _ _ _ (fun u c => ?_); simp; done)
    | (refine State.eachItem_pending _ _ _ (fun u c i => ?_); simp; done)
    | (refine (State.eachItem_pending _ _ _ (fun u c i => ?_)).trans ?_ <;> simp; done)
    | (repeat' split <;> simp)
@[simp] theorem State.sweepPage_pending (s : Sys2Proof.Machine.State) (gid : Nat) (m : Nat) (gen : Nat) (g : Sys2Proof.Machine.Group) (y : Sys2Proof.Machine.Page) : (Sys2Proof.Machine.State.sweepPage s gid m gen g y).pending = s.pending := by
  unfold State.sweepPage
  repeat' first
    | with_reducible rfl
    | refine (pending_foldl _ _ _ (fun _ _ => ?_)).trans ?_
    | refine (pending_fold1 _ _ _ (fun _ _ => ?_)).trans ?_
    | refine (pending_fold2 _ _ _ (fun _ _ => ?_)).trans ?_
    | split
    | simp
    | rfl
@[simp] theorem State.credit_pending (s : Sys2Proof.Machine.State) (d : Nat) (x : Nat) (pkt : Sys2Proof.Packet) : (Sys2Proof.Machine.State.credit s d x pkt).pending = s.pending := by
  unfold State.credit
  repeat' first
    | with_reducible rfl
    | refine (pending_foldl _ _ _ (fun _ _ => ?_)).trans ?_
    | refine (pending_fold1 _ _ _ (fun _ _ => ?_)).trans ?_
    | refine (pending_fold2 _ _ _ (fun _ _ => ?_)).trans ?_
    | split
    | simp
    | rfl
theorem State.routeFlow_of_pending {s s1 : State} {d x : Nat} {k : Packet} {o : Option Nat} (h : s.routeFlow d x k = some (o, s1)) :
    s1.pending = s.pending := by
  unfold State.routeFlow at h
  cases hm : s.routeMember k.tenant k.tc d x k.dstDev with
  | none => rw [hm] at h; exact absurd h (by simp)
  | some q =>
    rw [hm] at h
    dsimp only at h
    repeat' split at h
    all_goals (simp only [Option.some.injEq, Prod.mk.injEq] at h; obtain ⟨_, rfl⟩ := h; simp)
@[simp] theorem State.setIngress_pending (s : State) (k : Nat) (g : IngressSt) : (State.setIngress s k g).pending = s.pending := by simp [State.setIngress]
@[simp] theorem State.withhold_pending (s : Sys2Proof.Machine.State) (d : Nat) (x : Nat) (pkt : Sys2Proof.Packet) : (Sys2Proof.Machine.State.withhold s d x pkt).pending = s.pending := by
  unfold State.withhold
  repeat' first
    | with_reducible rfl
    | refine (pending_foldl _ _ _ (fun _ _ => ?_)).trans ?_
    | refine (pending_fold1 _ _ _ (fun _ _ => ?_)).trans ?_
    | refine (pending_fold2 _ _ _ (fun _ _ => ?_)).trans ?_
    | split
    | simp
    | rfl
@[simp] theorem State.withholdAt_pending (s : Sys2Proof.Machine.State) (i : Sys2Proof.Ingress) : (Sys2Proof.Machine.State.withholdAt s i).pending = s.pending := by
  unfold State.withholdAt
  repeat' first
    | with_reducible rfl
    | refine (pending_foldl _ _ _ (fun _ _ => ?_)).trans ?_
    | refine (pending_fold1 _ _ _ (fun _ _ => ?_)).trans ?_
    | refine (pending_fold2 _ _ _ (fun _ _ => ?_)).trans ?_
    | split
    | simp
    | rfl
@[simp] theorem State.quiesceAt_pending (s : State) (i : Ingress) : (State.quiesceAt s i).pending = s.pending := by
  unfold State.quiesceAt
  repeat' first | with_reducible rfl | split | simp
@[simp] theorem State.haltAt_pending (s : Sys2Proof.Machine.State) (i : Sys2Proof.Ingress) : (Sys2Proof.Machine.State.haltAt s i).pending = s.pending := by
  unfold State.haltAt
  repeat' first
    | with_reducible rfl
    | refine (pending_foldl _ _ _ (fun _ _ => ?_)).trans ?_
    | refine (pending_fold1 _ _ _ (fun _ _ => ?_)).trans ?_
    | refine (pending_fold2 _ _ _ (fun _ _ => ?_)).trans ?_
    | split
    | simp
    | rfl
@[simp] theorem State.lend_pending (s : Sys2Proof.Machine.State) (dev : Nat) (backing : Nat) (n : Nat) : (Sys2Proof.Machine.State.lend s dev backing n).pending = s.pending := by
  unfold State.lend
  repeat' first
    | with_reducible rfl
    | refine (pending_foldl _ _ _ (fun _ _ => ?_)).trans ?_
    | refine (pending_fold1 _ _ _ (fun _ _ => ?_)).trans ?_
    | refine (pending_fold2 _ _ _ (fun _ _ => ?_)).trans ?_
    | split
    | simp
    | rfl
@[simp] theorem State.control_pending (s : Sys2Proof.Machine.State) (k : Sys2Proof.Packet) : (Sys2Proof.Machine.State.control s k).pending = s.pending := by
  unfold State.control
  repeat' first
    | with_reducible rfl
    | refine (pending_foldl _ _ _ (fun _ _ => ?_)).trans ?_
    | refine (pending_fold1 _ _ _ (fun _ _ => ?_)).trans ?_
    | refine (pending_fold2 _ _ _ (fun _ _ => ?_)).trans ?_
    | split
    | simp
    | rfl
@[simp] theorem State.arrive_pending (s : Sys2Proof.Machine.State) (d : Nat) (x : Nat) (k : Sys2Proof.Packet) : (Sys2Proof.Machine.State.arrive s d x k).pending = s.pending := by
  unfold State.arrive
  repeat' first
    | with_reducible rfl
    | refine (pending_foldl _ _ _ (fun _ _ => ?_)).trans ?_
    | refine (pending_fold1 _ _ _ (fun _ _ => ?_)).trans ?_
    | refine (pending_fold2 _ _ _ (fun _ _ => ?_)).trans ?_
    | split
    | simp
    | rfl
@[simp] theorem State.deliver_pending (s : Sys2Proof.Machine.State) (d : Nat) (c : Sys2Proof.Machine.Cell) : (Sys2Proof.Machine.State.deliver s d c).pending = s.pending := by
  unfold State.deliver
  repeat' first
    | with_reducible rfl
    | refine (pending_foldl _ _ _ (fun _ _ => ?_)).trans ?_
    | refine (pending_fold1 _ _ _ (fun _ _ => ?_)).trans ?_
    | refine (pending_fold2 _ _ _ (fun _ _ => ?_)).trans ?_
    | split
    | simp
    | rfl
@[simp] theorem State.cross_pending (s : State) (d : Nat) (c : Cell) : (State.cross s d c).pending = s.pending := by
  unfold State.cross
  repeat' split
  all_goals simp
@[simp] theorem State.crossLast_pending (s : State) (d : Nat) (x : Nat) : (State.crossLast s d x).pending = s.pending := by
  unfold State.crossLast
  repeat' first | with_reducible rfl | split | simp
@[simp] theorem State.memberTurn_pending (d : Nat) (w : Sys2Proof.Machine.Turn) (g : Sys2Proof.Machine.State × List Nat) (x : Nat) : (Sys2Proof.Machine.State.memberTurn d w g x).1.pending = g.1.pending := by
  unfold State.memberTurn
  repeat' first
    | with_reducible rfl
    | refine (pending_foldl _ _ _ (fun _ _ => ?_)).trans ?_
    | refine (pending_fold1 _ _ _ (fun _ _ => ?_)).trans ?_
    | refine (pending_fold2 _ _ _ (fun _ _ => ?_)).trans ?_
    | split
    | simp
    | rfl
@[simp] theorem State.outCycle_pending (s0 : Sys2Proof.Machine.State) (d : Nat) (x : Nat) : (Sys2Proof.Machine.State.outCycle s0 d x).pending = s0.pending := by
  unfold State.outCycle
  repeat' first
    | with_reducible rfl
    | refine (pending_foldl _ _ _ (fun _ _ => ?_)).trans ?_
    | refine (pending_fold1 _ _ _ (fun _ _ => ?_)).trans ?_
    | refine (pending_fold2 _ _ _ (fun _ _ => ?_)).trans ?_
    | split
    | simp
    | rfl
@[simp] theorem State.countBp_pending (s : Sys2Proof.Machine.State) (d : Nat) : (Sys2Proof.Machine.State.countBp s d).pending = s.pending := by
  unfold State.countBp
  repeat' first
    | with_reducible rfl
    | refine (pending_foldl _ _ _ (fun _ _ => ?_)).trans ?_
    | refine (pending_fold1 _ _ _ (fun _ _ => ?_)).trans ?_
    | refine (pending_fold2 _ _ _ (fun _ _ => ?_)).trans ?_
    | split
    | simp
    | rfl
@[simp] theorem State.noteLow_pending (s : Sys2Proof.Machine.State) (old : Sys2Proof.Machine.State) : (Sys2Proof.Machine.State.noteLow s old).pending = s.pending := by
  unfold State.noteLow
  repeat' first
    | with_reducible rfl
    | refine (pending_foldl _ _ _ (fun _ _ => ?_)).trans ?_
    | refine (pending_fold1 _ _ _ (fun _ _ => ?_)).trans ?_
    | refine (pending_fold2 _ _ _ (fun _ _ => ?_)).trans ?_
    | split
    | simp
    | rfl
@[simp] theorem State.tdiErr_pending (s : State) (p : Nat) (l : Nat) : (State.tdiErr s p l).pending = s.pending := by
  unfold State.tdiErr
  repeat' first | with_reducible rfl | split | simp
@[simp] theorem State.dropIde_pending (s : State) (p : Nat) : (State.dropIde s p).pending = s.pending := pending_foldl _ _ _ (fun _ _ => by simp)
@[simp] theorem State.dropStream_pending (s : Sys2Proof.Machine.State) (p : Nat) (k : Nat) : (Sys2Proof.Machine.State.dropStream s p k).pending = s.pending := by
  unfold State.dropStream
  repeat' first
    | with_reducible rfl
    | refine (pending_foldl _ _ _ (fun _ _ => ?_)).trans ?_
    | refine (pending_fold1 _ _ _ (fun _ _ => ?_)).trans ?_
    | refine (pending_fold2 _ _ _ (fun _ _ => ?_)).trans ?_
    | split
    | simp
    | rfl
@[simp] theorem State.trayIde_pending (s : Sys2Proof.Machine.State) (p : Nat) : (Sys2Proof.Machine.State.trayIde s p).pending = s.pending := by
  unfold State.trayIde
  repeat' first
    | with_reducible rfl
    | refine (pending_foldl _ _ _ (fun _ _ => ?_)).trans ?_
    | refine (pending_fold1 _ _ _ (fun _ _ => ?_)).trans ?_
    | refine (pending_fold2 _ _ _ (fun _ _ => ?_)).trans ?_
    | split
    | simp
    | rfl
@[simp] theorem State.dropSpdm_pending (s : State) (peer : Bool) (p : Nat) : (State.dropSpdm s peer p).pending = s.pending := by simp [State.dropSpdm]
@[simp] theorem State.writeFails_pending (s : State) (page : Nat) : (State.writeFails s page).pending = s.pending := by simp [State.writeFails]
@[simp] theorem State.nvmeFail_pending (s : State) (p : Nat) (c : NvmeCmd) : (State.nvmeFail s p c).pending = s.pending := by
  unfold State.nvmeFail
  repeat' first | with_reducible rfl | refine (pending_foldl _ _ _ (fun _ _ => ?_)).trans ?_ | split | simp
@[simp] theorem State.readDone_pending (s : Sys2Proof.Machine.State) (page : Nat) : (Sys2Proof.Machine.State.readDone s page).pending = s.pending := by
  unfold State.readDone
  repeat' first
    | with_reducible rfl
    | refine (pending_foldl _ _ _ (fun _ _ => ?_)).trans ?_
    | refine (pending_fold1 _ _ _ (fun _ _ => ?_)).trans ?_
    | refine (pending_fold2 _ _ _ (fun _ _ => ?_)).trans ?_
    | split
    | simp
    | rfl
@[simp] theorem State.nvmeClose_pending (s : Sys2Proof.Machine.State) (p : Nat) : (Sys2Proof.Machine.State.nvmeClose s p).pending = s.pending := by
  unfold State.nvmeClose
  repeat' first
    | with_reducible rfl
    | refine (pending_foldl _ _ _ (fun _ _ => ?_)).trans ?_
    | refine (pending_fold1 _ _ _ (fun _ _ => ?_)).trans ?_
    | refine (pending_fold2 _ _ _ (fun _ _ => ?_)).trans ?_
    | split
    | simp
    | rfl
@[simp] theorem State.nvmeAll_pending (s : State) (p : Nat) : (State.nvmeAll s p).pending = s.pending := by
  unfold State.nvmeAll
  repeat' first | with_reducible rfl | refine (pending_foldl _ _ _ (fun _ _ => ?_)).trans ?_ | split | simp
@[simp] theorem State.flexDown_pending (s : State) (p st : Nat) : (s.flexDown p st).pending = s.pending := by
  unfold State.flexDown
  dsimp only
  split
  · simp
  · split
    · exact (State.extentsOut_pending _ _).trans ((State.loseWrites_pending _ _).trans ((State.nvmeAll_pending _ _).trans ((State.dropIde_pending _ _).trans (State.setFlex_pending _ _ _))))
    · exact (State.nvmeAll_pending _ _).trans ((State.dropIde_pending _ _).trans (State.setFlex_pending _ _ _))
@[simp] theorem State.flexEnableOp_pending (s : Sys2Proof.Machine.State) (p : Nat) : (Sys2Proof.Machine.State.flexEnableOp s p).2.pending = s.pending := by
  unfold State.flexEnableOp
  repeat' first
    | with_reducible rfl
    | refine (pending_foldl _ _ _ (fun _ _ => ?_)).trans ?_
    | refine (pending_fold1 _ _ _ (fun _ _ => ?_)).trans ?_
    | refine (pending_fold2 _ _ _ (fun _ _ => ?_)).trans ?_
    | split
    | simp
    | rfl
@[simp] theorem State.flexDisableOp_pending (s : State) (p : Nat) : (State.flexDisableOp s p).2.pending = s.pending := by simp [State.flexDisableOp]
@[simp] theorem State.trayUp_pending (s : State) (p : Nat) (t : FlexPartner) : (State.trayUp s p t).pending = s.pending := by
  unfold State.trayUp
  repeat' first | with_reducible rfl | split | simp
@[simp] theorem State.flashOn_pending (s : Sys2Proof.Machine.State) (p : Nat) (t : Sys2Proof.FlexPartner) : (Sys2Proof.Machine.State.flashOn s p t).pending = s.pending := by
  unfold State.flashOn
  repeat' first | with_reducible rfl | split | simp
@[simp] theorem State.flexTrained_pending (s : Sys2Proof.Machine.State) (p : Nat) (t : Sys2Proof.FlexPartner) : (Sys2Proof.Machine.State.flexTrained s p t).pending = s.pending := by
  unfold State.flexTrained
  repeat' first | with_reducible rfl | split | simp
@[simp] theorem State.syncSelect_pending (s : State) : (State.syncSelect s).pending = s.pending := by
  unfold State.syncSelect
  repeat' first | with_reducible rfl | split | simp
@[simp] theorem State.syncCorrect_pending (s : State) (ps : Int) : (State.syncCorrect s ps).pending = s.pending := by
  unfold State.syncCorrect
  repeat' first | with_reducible rfl | split | simp
@[simp] theorem State.peerFlag_pending (s : State) (q : Nat) (b : Nat) : (State.peerFlag s q b).pending = s.pending := by simp [State.peerFlag]
@[simp] theorem State.sendHandover_pending (s : Sys2Proof.Machine.State) (via : Nat) (failed : Nat) (last : Nat) : (Sys2Proof.Machine.State.sendHandover s via failed last).pending = s.pending := by
  unfold State.sendHandover
  repeat' first
    | with_reducible rfl
    | refine (pending_foldl _ _ _ (fun _ _ => ?_)).trans ?_
    | refine (pending_fold1 _ _ _ (fun _ _ => ?_)).trans ?_
    | refine (pending_fold2 _ _ _ (fun _ _ => ?_)).trans ?_
    | split
    | simp
    | rfl
@[simp] theorem State.peerStart_pending (s : State) (q : Nat) : (State.peerStart s q).pending = s.pending := by simp [State.peerStart]
@[simp] theorem State.dropHold_pending (s : Sys2Proof.Machine.State) (q : Nat) : (Sys2Proof.Machine.State.dropHold s q).pending = s.pending := by
  unfold State.dropHold
  repeat' first
    | with_reducible rfl
    | refine (pending_foldl _ _ _ (fun _ _ => ?_)).trans ?_
    | refine (pending_fold1 _ _ _ (fun _ _ => ?_)).trans ?_
    | refine (pending_fold2 _ _ _ (fun _ _ => ?_)).trans ?_
    | split
    | simp
    | rfl
@[simp] theorem State.peerDrop_pending (s0 : State) (q : Nat) (st : Nat) : (State.peerDrop s0 q st).pending = s0.pending := by
  unfold State.peerDrop
  repeat' first | with_reducible rfl | split | simp
@[simp] theorem State.peerLost_pending (s : State) (q : Nat) : (State.peerLost s q).pending = s.pending := by simp [State.peerLost]
@[simp] theorem State.peerGone_pending (s : Sys2Proof.Machine.State) (q : Nat) : (Sys2Proof.Machine.State.peerGone s q).pending = s.pending := by
  unfold State.peerGone
  repeat' first
    | with_reducible rfl
    | refine (pending_foldl _ _ _ (fun _ _ => ?_)).trans ?_
    | refine (pending_fold1 _ _ _ (fun _ _ => ?_)).trans ?_
    | refine (pending_fold2 _ _ _ (fun _ _ => ?_)).trans ?_
    | split
    | simp
    | rfl
@[simp] theorem State.peerActive_pending (s : State) (q : Nat) (dev : Nat) : (State.peerActive s q dev).pending = s.pending := by
  unfold State.peerActive
  repeat' first | with_reducible rfl | split | simp
@[simp] theorem State.fastRetrain_pending (s : State) (q : Nat) : (State.fastRetrain s q).pending = s.pending := by simp [State.fastRetrain]
@[simp] theorem State.laneFail_pending (s : Sys2Proof.Machine.State) (q : Nat) (lane : Nat) : (Sys2Proof.Machine.State.laneFail s q lane).pending = s.pending := by
  unfold State.laneFail
  repeat' first
    | with_reducible rfl
    | refine (pending_foldl _ _ _ (fun _ _ => ?_)).trans ?_
    | refine (pending_fold1 _ _ _ (fun _ _ => ?_)).trans ?_
    | refine (pending_fold2 _ _ _ (fun _ _ => ?_)).trans ?_
    | split
    | simp
    | rfl
@[simp] theorem State.symbolWindow_pending (s : Sys2Proof.Machine.State) (q : Nat) : (Sys2Proof.Machine.State.symbolWindow s q).pending = s.pending := by
  unfold State.symbolWindow
  repeat' first
    | with_reducible rfl
    | refine (pending_foldl _ _ _ (fun _ _ => ?_)).trans ?_
    | refine (pending_fold1 _ _ _ (fun _ _ => ?_)).trans ?_
    | refine (pending_fold2 _ _ _ (fun _ _ => ?_)).trans ?_
    | split
    | simp
    | rfl
@[simp] theorem State.peerEnableOp_pending (s : Sys2Proof.Machine.State) (q : Nat) : (Sys2Proof.Machine.State.peerEnableOp s q).2.pending = s.pending := by
  unfold State.peerEnableOp
  repeat' first
    | with_reducible rfl
    | refine (pending_foldl _ _ _ (fun _ _ => ?_)).trans ?_
    | refine (pending_fold1 _ _ _ (fun _ _ => ?_)).trans ?_
    | refine (pending_fold2 _ _ _ (fun _ _ => ?_)).trans ?_
    | split
    | simp
    | rfl
@[simp] theorem State.peerDisableOp_pending (s : State) (q : Nat) : (State.peerDisableOp s q).2.pending = s.pending := by simp [State.peerDisableOp]
@[simp] theorem State.replayFrom_pending (s : State) (q : Nat) : (State.replayFrom s q).pending = s.pending := by
  unfold State.replayFrom
  repeat' first | with_reducible rfl | split | simp
@[simp] theorem State.flitFields_pending (s : State) (q : Nat) (f : Flit) : (State.flitFields s q f).pending = s.pending := by unfold State.flitFields; split <;> simp
@[simp] theorem State.badFlit_pending (s : State) (q : Nat) : (State.badFlit s q).pending = s.pending := by
  unfold State.badFlit
  repeat' first | with_reducible rfl | split | simp
@[simp] theorem State.takePackets_pending (s : State) (q : Nat) (f : Flit) : (State.takePackets s q f).pending = s.pending := by
  unfold State.takePackets
  repeat' first | with_reducible rfl | refine (pending_foldl _ _ _ (fun _ _ => ?_)).trans ?_ | split | simp
@[simp] theorem State.dataFlit_pending (s : State) (q : Nat) (f : Flit) : (State.dataFlit s q f).pending = s.pending := by
  unfold State.dataFlit
  repeat' first | with_reducible rfl | split | simp
@[simp] theorem State.setSpdm_pending (s : State) (ch : SpdmCh) (x : Spdm) : (State.setSpdm s ch x).pending = s.pending := by simp [State.setSpdm]
@[simp] theorem State.sendSpdm_pending (s : Sys2Proof.Machine.State) (ch : Sys2Proof.SpdmCh) (msg : Nat) (data : Sys2Proof.Bytes) : (Sys2Proof.Machine.State.sendSpdm s ch msg data).pending = s.pending := by
  unfold State.sendSpdm
  repeat' first
    | with_reducible rfl
    | refine (pending_foldl _ _ _ (fun _ _ => ?_)).trans ?_
    | refine (pending_fold1 _ _ _ (fun _ _ => ?_)).trans ?_
    | refine (pending_fold2 _ _ _ (fun _ _ => ?_)).trans ?_
    | split
    | simp
    | rfl
@[simp] theorem State.spdmAsk_pending (s : Sys2Proof.Machine.State) (ch : Sys2Proof.SpdmCh) (msg : Nat) (data : Sys2Proof.Bytes) : (Sys2Proof.Machine.State.spdmAsk s ch msg data).pending = s.pending := by
  unfold State.spdmAsk
  repeat' first
    | with_reducible rfl
    | refine (pending_foldl _ _ _ (fun _ _ => ?_)).trans ?_
    | refine (pending_fold1 _ _ _ (fun _ _ => ?_)).trans ?_
    | refine (pending_fold2 _ _ _ (fun _ _ => ?_)).trans ?_
    | split
    | simp
    | rfl
@[simp] theorem State.spdmNext_pending (s : Sys2Proof.Machine.State) (q : Nat) (b : Sys2Proof.Bytes) : (Sys2Proof.Machine.State.spdmNext s q b).pending = s.pending := by
  unfold State.spdmNext
  repeat' first
    | with_reducible rfl
    | refine (pending_foldl _ _ _ (fun _ _ => ?_)).trans ?_
    | refine (pending_fold1 _ _ _ (fun _ _ => ?_)).trans ?_
    | refine (pending_fold2 _ _ _ (fun _ _ => ?_)).trans ?_
    | split
    | simp
    | rfl
@[simp] theorem State.spdmIn_pending (s : Sys2Proof.Machine.State) (q : Nat) (k : Sys2Proof.Packet) : (Sys2Proof.Machine.State.spdmIn s q k).pending = s.pending := by
  unfold State.spdmIn
  repeat' first
    | with_reducible rfl
    | refine (pending_foldl _ _ _ (fun _ _ => ?_)).trans ?_
    | refine (pending_fold1 _ _ _ (fun _ _ => ?_)).trans ?_
    | refine (pending_fold2 _ _ _ (fun _ _ => ?_)).trans ?_
    | split
    | simp
    | rfl
@[simp] theorem State.authStart_pending (s : Sys2Proof.Machine.State) (q : Nat) : (Sys2Proof.Machine.State.authStart s q).pending = s.pending := by
  unfold State.authStart
  repeat' first
    | with_reducible rfl
    | refine (pending_foldl _ _ _ (fun _ _ => ?_)).trans ?_
    | refine (pending_fold1 _ _ _ (fun _ _ => ?_)).trans ?_
    | refine (pending_fold2 _ _ _ (fun _ _ => ?_)).trans ?_
    | split
    | simp
    | rfl
@[simp] theorem State.spdmAnswer_pending (s : Sys2Proof.Machine.State) (ch : Sys2Proof.SpdmCh) (ok : Bool) (err : Nat) (nxt : Nat) (msg : Nat) (data : Sys2Proof.Bytes) : (Sys2Proof.Machine.State.spdmAnswer s ch ok err nxt msg data).pending = s.pending := by
  unfold State.spdmAnswer
  repeat' first
    | with_reducible rfl
    | refine (pending_foldl _ _ _ (fun _ _ => ?_)).trans ?_
    | refine (pending_fold1 _ _ _ (fun _ _ => ?_)).trans ?_
    | refine (pending_fold2 _ _ _ (fun _ _ => ?_)).trans ?_
    | split
    | simp
    | rfl
@[simp] theorem State.sendTiles_pending (s : Sys2Proof.Machine.State) (tag : Nat) (dev : Nat) (ts : List Sys2Proof.Tile) (o : Sys2Proof.Machine.Output) : (Sys2Proof.Machine.State.sendTiles s tag dev ts o).pending = s.pending := by
  unfold State.sendTiles
  repeat' first
    | with_reducible rfl
    | refine (pending_foldl _ _ _ (fun _ _ => ?_)).trans ?_
    | refine (pending_fold1 _ _ _ (fun _ _ => ?_)).trans ?_
    | refine (pending_fold2 _ _ _ (fun _ _ => ?_)).trans ?_
    | split
    | simp
    | rfl
@[simp] theorem State.releaseTiles_pending (s : State) : (State.releaseTiles s).pending = s.pending := by
  unfold State.releaseTiles
  repeat' first | with_reducible rfl | refine (pending_foldl _ _ _ (fun _ _ => ?_)).trans ?_ | split | simp
@[simp] theorem State.collCmds_pending (s : Sys2Proof.Machine.State) (key : Sys2Proof.CollKey) (pick : Nat → Bool) (f : Nat → Sys2Proof.Machine.Cmd → Sys2Proof.Machine.Cmd) : (Sys2Proof.Machine.State.collCmds s key pick f).pending = s.pending := by
  unfold State.collCmds
  repeat' first
    | with_reducible rfl
    | refine (pending_foldl _ _ _ (fun _ _ => ?_)).trans ?_
    | refine (pending_fold1 _ _ _ (fun _ _ => ?_)).trans ?_
    | refine (pending_fold2 _ _ _ (fun _ _ => ?_)).trans ?_
    | split
    | simp
    | rfl
@[simp] theorem State.collEnd_pending (s : Sys2Proof.Machine.State) (key : Sys2Proof.CollKey) (rank : Nat) (ref : Nat) (st : Nat) (reason : Nat) : (Sys2Proof.Machine.State.collEnd s key rank ref st reason).pending = s.pending := by
  unfold State.collEnd
  repeat' first
    | with_reducible rfl
    | refine (pending_foldl _ _ _ (fun _ _ => ?_)).trans ?_
    | refine (pending_fold1 _ _ _ (fun _ _ => ?_)).trans ?_
    | refine (pending_fold2 _ _ _ (fun _ _ => ?_)).trans ?_
    | split
    | simp
    | rfl
@[simp] theorem State.collStatus_pending (s : Sys2Proof.Machine.State) (key : Sys2Proof.CollKey) (dev : Nat) (rank : Nat) (ref : Nat) (st : Nat) (reason : Nat) : (Sys2Proof.Machine.State.collStatus s key dev rank ref st reason).pending = s.pending := by
  unfold State.collStatus
  repeat' first
    | with_reducible rfl
    | refine (pending_foldl _ _ _ (fun _ _ => ?_)).trans ?_
    | refine (pending_fold1 _ _ _ (fun _ _ => ?_)).trans ?_
    | refine (pending_fold2 _ _ _ (fun _ _ => ?_)).trans ?_
    | split
    | simp
    | rfl
@[simp] theorem State.collRefuse_pending (s : State) (src : Option Nat) (c : Contribution) (st : Nat) (reason : Nat) : (State.collRefuse s src c st reason).pending = s.pending := by unfold State.collRefuse; split <;> simp
@[simp] theorem State.collDeliver_pending (s : Sys2Proof.Machine.State) (key : Sys2Proof.CollKey) (data : Sys2Proof.Bytes) (poison : Bool) : (Sys2Proof.Machine.State.collDeliver s key data poison).pending = s.pending := by
  unfold State.collDeliver
  repeat' first
    | with_reducible rfl
    | refine (pending_foldl _ _ _ (fun _ _ => ?_)).trans ?_
    | refine (pending_fold1 _ _ _ (fun _ _ => ?_)).trans ?_
    | refine (pending_fold2 _ _ _ (fun _ _ => ?_)).trans ?_
    | split
    | simp
    | rfl
@[simp] theorem State.dropRec_pending (s : State) (r : CollRec) : (State.dropRec s r).pending = s.pending := by simp [State.dropRec]
@[simp] theorem State.putRec_pending (s : State) (r : CollRec) : (State.putRec s r).pending = s.pending := by simp [State.putRec]
@[simp] theorem State.abortRec_pending (s : Sys2Proof.Machine.State) (r : Sys2Proof.Machine.CollRec) : (Sys2Proof.Machine.State.abortRec s r).pending = s.pending := by
  unfold State.abortRec
  repeat' first
    | with_reducible rfl
    | refine (pending_foldl _ _ _ (fun _ _ => ?_)).trans ?_
    | refine (pending_fold1 _ _ _ (fun _ _ => ?_)).trans ?_
    | refine (pending_fold2 _ _ _ (fun _ _ => ?_)).trans ?_
    | split
    | simp
    | rfl
@[simp] theorem State.abortKey_pending (s : State) (key : CollKey) : (State.abortKey s key).pending = s.pending := pending_foldl _ _ _ (fun _ _ => by simp)
@[simp] theorem State.abortAll_pending (s : Sys2Proof.Machine.State) (key : Sys2Proof.CollKey) (q : Sys2Proof.CollParams) (timeoutMs : Nat) : (Sys2Proof.Machine.State.abortAll s key q timeoutMs).pending = s.pending := by
  unfold State.abortAll
  repeat' first
    | with_reducible rfl
    | refine (pending_foldl _ _ _ (fun _ _ => ?_)).trans ?_
    | refine (pending_fold1 _ _ _ (fun _ _ => ?_)).trans ?_
    | refine (pending_fold2 _ _ _ (fun _ _ => ?_)).trans ?_
    | split
    | simp
    | rfl
@[simp] theorem State.scatter_pending (s : Sys2Proof.Machine.State) (key : Sys2Proof.CollKey) (q : Sys2Proof.CollParams) (devs : List Nat) (opened : Nat) (data : Sys2Proof.Bytes) (sat : Bool) (poison : Bool) : (Sys2Proof.Machine.State.scatter s key q devs opened data sat poison).pending = s.pending := by
  unfold State.scatter
  repeat' first
    | with_reducible rfl
    | refine (pending_foldl _ _ _ (fun _ _ => ?_)).trans ?_
    | refine (pending_fold1 _ _ _ (fun _ _ => ?_)).trans ?_
    | refine (pending_fold2 _ _ _ (fun _ _ => ?_)).trans ?_
    | split
    | simp
    | rfl
@[simp] theorem State.blockRefused_pending (s : Sys2Proof.Machine.State) (key : Sys2Proof.CollKey) (block : Nat) (st : Nat) (reason : Nat) : (Sys2Proof.Machine.State.blockRefused s key block st reason).pending = s.pending := by
  unfold State.blockRefused
  repeat' first
    | with_reducible rfl
    | refine (pending_foldl _ _ _ (fun _ _ => ?_)).trans ?_
    | refine (pending_fold1 _ _ _ (fun _ _ => ?_)).trans ?_
    | refine (pending_fold2 _ _ _ (fun _ _ => ?_)).trans ?_
    | split
    | simp
    | rfl
@[simp] theorem State.partRefuse_pending (s : Sys2Proof.Machine.State) (key : Sys2Proof.CollKey) (dev : Nat) (block : Nat) (st : Nat) (reason : Nat) : (Sys2Proof.Machine.State.partRefuse s key dev block st reason).pending = s.pending := by
  unfold State.partRefuse
  repeat' first
    | with_reducible rfl
    | refine (pending_foldl _ _ _ (fun _ _ => ?_)).trans ?_
    | refine (pending_fold1 _ _ _ (fun _ _ => ?_)).trans ?_
    | refine (pending_fold2 _ _ _ (fun _ _ => ?_)).trans ?_
    | split
    | simp
    | rfl
@[simp] theorem State.topAdd_pending (s : Sys2Proof.Machine.State) (r : Sys2Proof.Machine.CollRec) (h : Sys2Proof.Machine.CollHeld) : (Sys2Proof.Machine.State.topAdd s r h).pending = s.pending := by
  unfold State.topAdd
  repeat' first
    | with_reducible rfl
    | refine (pending_foldl _ _ _ (fun _ _ => ?_)).trans ?_
    | refine (pending_fold1 _ _ _ (fun _ _ => ?_)).trans ?_
    | refine (pending_fold2 _ _ _ (fun _ _ => ?_)).trans ?_
    | split
    | simp
    | rfl
@[simp] theorem State.topOpen_pending (s : Sys2Proof.Machine.State) (key : Sys2Proof.CollKey) (q : Sys2Proof.CollParams) (timeoutMs : Nat) (h : Sys2Proof.Machine.CollHeld) : (Sys2Proof.Machine.State.topOpen s key q timeoutMs h).pending = s.pending := by
  unfold State.topOpen
  repeat' first
    | with_reducible rfl
    | refine (pending_foldl _ _ _ (fun _ _ => ?_)).trans ?_
    | refine (pending_fold1 _ _ _ (fun _ _ => ?_)).trans ?_
    | refine (pending_fold2 _ _ _ (fun _ _ => ?_)).trans ?_
    | split
    | simp
    | rfl
@[simp] theorem State.topIn_pending (s : Sys2Proof.Machine.State) (key : Sys2Proof.CollKey) (q : Sys2Proof.CollParams) (timeoutMs : Nat) (h : Sys2Proof.Machine.CollHeld) : (Sys2Proof.Machine.State.topIn s key q timeoutMs h).pending = s.pending := by
  unfold State.topIn
  repeat' first
    | with_reducible rfl
    | refine (pending_foldl _ _ _ (fun _ _ => ?_)).trans ?_
    | refine (pending_fold1 _ _ _ (fun _ _ => ?_)).trans ?_
    | refine (pending_fold2 _ _ _ (fun _ _ => ?_)).trans ?_
    | split
    | simp
    | rfl
@[simp] theorem State.sendPart_pending (s : Sys2Proof.Machine.State) (r : Sys2Proof.Machine.CollRec) (devs : List Nat) : (Sys2Proof.Machine.State.sendPart s r devs).pending = s.pending := by
  unfold State.sendPart
  repeat' first
    | with_reducible rfl
    | refine (pending_foldl _ _ _ (fun _ _ => ?_)).trans ?_
    | refine (pending_fold1 _ _ _ (fun _ _ => ?_)).trans ?_
    | refine (pending_fold2 _ _ _ (fun _ _ => ?_)).trans ?_
    | split
    | simp
    | rfl
@[simp] theorem State.blockDone_pending (s : Sys2Proof.Machine.State) (r : Sys2Proof.Machine.CollRec) : (Sys2Proof.Machine.State.blockDone s r).pending = s.pending := by
  unfold State.blockDone
  repeat' first
    | with_reducible rfl
    | refine (pending_foldl _ _ _ (fun _ _ => ?_)).trans ?_
    | refine (pending_fold1 _ _ _ (fun _ _ => ?_)).trans ?_
    | refine (pending_fold2 _ _ _ (fun _ _ => ?_)).trans ?_
    | split
    | simp
    | rfl
@[simp] theorem State.collAdd_pending (s : State) (r : CollRec) (c : Contribution) : (State.collAdd s r c).pending = s.pending := by
  unfold State.collAdd
  repeat' first | with_reducible rfl | split | simp
@[simp] theorem State.collOpen_pending (s : State) (src : Option Nat) (c : Contribution) : (State.collOpen s src c).pending = s.pending := by
  unfold State.collOpen
  repeat' first | with_reducible rfl | split | simp
@[simp] theorem State.collIn_pending (s : State) (src : Option Nat) (c : Contribution) : (State.collIn s src c).pending = s.pending := by
  unfold State.collIn
  repeat' split
  all_goals simp
@[simp] theorem State.collStart_pending (s : Sys2Proof.Machine.State) (ref : Nat) (what : Nat) : (Sys2Proof.Machine.State.collStart s ref what).pending = s.pending := by
  unfold State.collStart
  repeat' first
    | with_reducible rfl
    | refine (pending_foldl _ _ _ (fun _ _ => ?_)).trans ?_
    | refine (pending_fold1 _ _ _ (fun _ _ => ?_)).trans ?_
    | refine (pending_fold2 _ _ _ (fun _ _ => ?_)).trans ?_
    | split
    | simp
    | rfl
@[simp] theorem collRecipe_start_pending (w : Nat) (s : State) (c : Ctx) : ((collRecipe w).start s c).pending = s.pending := by
  simp only [collRecipe]
  first
    | rfl
    | (simp; done)
    | (refine State.oneWork_pending _ _ _ (fun u c => ?_); simp; done)
    | (refine State.oneItem_pending _ _ _ (fun u c => ?_); simp; done)
    | (refine State.eachItem_pending _ _ _ (fun u c i => ?_); simp; done)
    | (refine (State.eachItem_pending _ _ _ (fun u c i => ?_)).trans ?_ <;> simp; done)
    | (repeat' split <;> simp)
@[simp] theorem collRecipe_admit_pending (w : Nat) (s : State) (c : Ctx) : ((collRecipe w).atAdmit s c).pending = s.pending := by
  simp only [collRecipe]
  first
    | rfl
    | (simp; done)
    | (refine State.oneWork_pending _ _ _ (fun u c => ?_); simp; done)
    | (refine State.oneItem_pending _ _ _ (fun u c => ?_); simp; done)
    | (refine State.eachItem_pending _ _ _ (fun u c i => ?_); simp; done)
    | (refine (State.eachItem_pending _ _ _ (fun u c i => ?_)).trans ?_ <;> simp; done)
    | (repeat' split <;> simp)
@[simp] theorem State.takeParts_pending (s : State) (t : Nat) : (State.takeParts s t).pending = s.pending := by simp [State.takeParts]
@[simp] theorem State.giveKey_pending (s : State) (t : Nat) : (State.giveKey s t).pending = s.pending := by unfold State.giveKey; split <;> simp
@[simp] theorem State.touchLd_pending (s : State) (p : Nat) (l : Nat) : (State.touchLd s p l).pending = s.pending := by simp [State.touchLd]
@[simp] theorem State.touchTenant_pending (s : State) (t : Nat) : (State.touchTenant s t).pending = s.pending := by
  unfold State.touchTenant
  repeat' first | with_reducible rfl | refine (pending_foldl _ _ _ (fun _ _ => ?_)).trans ?_ | split | simp
@[simp] theorem State.tenantEnableOp_pending (s : State) (t : Nat) : (State.tenantEnableOp s t).2.pending = s.pending := by
  unfold State.tenantEnableOp
  repeat' first | with_reducible rfl | split | simp
@[simp] theorem State.tenantDisableOp_pending (s : State) (t : Nat) : (s.tenantDisableOp t).2.pending = s.pending :=
  (State.releaseParts_pending _).trans ((State.setObjI_pending _ _ _ _ _).trans (State.touchTenant_pending _ _))
@[simp] theorem State.closeTenant_pending (s : Sys2Proof.Machine.State) (t : Nat) : (Sys2Proof.Machine.State.closeTenant s t).pending = s.pending := by
  unfold State.closeTenant
  repeat' first
    | with_reducible rfl
    | refine (pending_foldl _ _ _ (fun _ _ => ?_)).trans ?_
    | refine (pending_fold1 _ _ _ (fun _ _ => ?_)).trans ?_
    | refine (pending_fold2 _ _ _ (fun _ _ => ?_)).trans ?_
    | split
    | simp
    | rfl
@[simp] theorem State.tenantRemoveOp_pending (s : State) (v : Nat) : (State.tenantRemoveOp s v).2.pending = s.pending := by
  unfold State.tenantRemoveOp
  repeat' first | with_reducible rfl | split | simp
@[simp] theorem State.refillAll_pending (s : State) (at_ : Nat) : (State.refillAll s at_).pending = s.pending := by simp [State.refillAll]
@[simp] theorem State.shapeOp_pending (s : State) (t : Nat) (sub : Nat) (v : Nat) : (State.shapeOp s t sub v).2.pending = s.pending := by simp [State.shapeOp]
@[simp] theorem State.sampleFree_pending (s : State) : (State.sampleFree s).pending = s.pending := by
  unfold State.sampleFree
  repeat' first | with_reducible rfl | split | simp
@[simp] theorem State.ldEnableOp_pending (s : State) (p : Nat) (l : Nat) : (State.ldEnableOp s p l).2.pending = s.pending := by
  unfold State.ldEnableOp
  repeat' split
  all_goals simp
@[simp] theorem State.ldDisableOp_pending (s : State) (p : Nat) (l : Nat) : (State.ldDisableOp s p l).2.pending = s.pending := by unfold State.ldDisableOp; split <;> simp
@[simp] theorem State.enrollOp_pending (s : State) (b : Bytes) : (State.enrollOp s b).2.pending = s.pending := by
  unfold State.enrollOp
  repeat' split
  all_goals simp
@[simp] theorem State.unenrollOp_pending (s : State) (v : Nat) : (State.unenrollOp s v).2.pending = s.pending := by
  unfold State.unenrollOp
  repeat' split
  all_goals simp
@[simp] theorem State.quorumKOp_pending (s : State) (v : Nat) (claim : Bool) : (State.quorumKOp s v claim).2.pending = s.pending := by
  unfold State.quorumKOp
  repeat' split
  all_goals simp
@[simp] theorem State.certSlot1Op_pending (s : State) (b : Bytes) : (State.certSlot1Op s b).2.pending = s.pending := by
  unfold State.certSlot1Op
  repeat' split
  all_goals simp
@[simp] theorem State.fabricAnchorOp_pending (s : State) (b : Bytes) : (State.fabricAnchorOp s b).2.pending = s.pending := by
  unfold State.fabricAnchorOp
  repeat' split
  all_goals simp
@[simp] theorem State.sdKeyOp_pending (s : State) (b : Bytes) : (State.sdKeyOp s b).2.pending = s.pending := by
  unfold State.sdKeyOp
  repeat' first | with_reducible rfl | split | simp
@[simp] theorem State.sdKeyClearOp_pending (s : State) (v : Nat) : (State.sdKeyClearOp s v).2.pending = s.pending := by
  unfold State.sdKeyClearOp
  repeat' first | with_reducible rfl | split | simp
@[simp] theorem State.lockOp_pending (s : State) (sub : Nat) (v : Nat) : (State.lockOp s sub v).2.pending = s.pending := by
  unfold State.lockOp
  repeat' split
  all_goals simp
@[simp] theorem State.endSess_pending (s : State) (sid : Nat) : (State.endSess s sid).pending = s.pending := by unfold State.endSess; split <;> simp
@[simp] theorem State.closeClaim_pending (s : State) : (State.closeClaim s).pending = s.pending := by simp [State.closeClaim]
@[simp] theorem State.endClaim_pending (s : State) : (State.endClaim s).pending = s.pending := by
  unfold State.endClaim
  repeat' first | with_reducible rfl | refine (pending_foldl _ _ _ (fun _ _ => ?_)).trans ?_ | split | simp
@[simp] theorem State.claimDoneOp_pending (s : State) (sid : Nat) (v : Nat) : (State.claimDoneOp s sid v).2.pending = s.pending := by
  unfold State.claimDoneOp
  repeat' first | with_reducible rfl | split | simp
@[simp] theorem State.openClaim_pending (s : State) : (State.openClaim s).pending = s.pending := by unfold State.openClaim; split <;> simp
@[simp] theorem State.stageKeeps_pending (s : Sys2Proof.Machine.State) (ref : Nat) (c : Sys2Proof.Machine.Cmd) (e : Sys2Proof.Bytes) (l : List Sys2Proof.Machine.Stream) : (Sys2Proof.Machine.State.stageKeeps s ref c e l).pending = s.pending := by
  unfold State.stageKeeps
  repeat' first
    | with_reducible rfl
    | refine (pending_foldl _ _ _ (fun _ _ => ?_)).trans ?_
    | refine (pending_fold1 _ _ _ (fun _ _ => ?_)).trans ?_
    | refine (pending_fold2 _ _ _ (fun _ _ => ?_)).trans ?_
    | split
    | simp
    | rfl
@[simp] theorem State.runStages_pending (s : Sys2Proof.Machine.State) (ref : Nat) (tile : Nat) (c : Sys2Proof.Machine.Cmd) (x4 : List Sys2Proof.Bytes) (x5 : List Sys2Proof.Machine.Stream) (x6 : List Sys2Proof.Machine.Stream) : (Sys2Proof.Machine.State.runStages s ref tile c x4 x5 x6).2.pending = s.pending := by
  induction x4 generalizing s x5 x6 with
  | nil => rfl
  | cons e t ih =>
    unfold State.runStages
    repeat' first | with_reducible rfl | split | (rw [ih]; simp; done) | (simp; done)
@[simp] theorem describeRecipe_start_pending (s : State) (c : Ctx) : (describeRecipe.start s c).pending = s.pending := by
  simp only [describeRecipe]
  first
    | rfl
    | (simp; done)
    | (refine State.oneWork_pending _ _ _ (fun u c => ?_); simp; done)
    | (refine State.oneItem_pending _ _ _ (fun u c => ?_); simp; done)
    | (refine State.eachItem_pending _ _ _ (fun u c i => ?_); simp; done)
    | (refine (State.eachItem_pending _ _ _ (fun u c i => ?_)).trans ?_ <;> simp; done)
    | (repeat' split <;> simp)
@[simp] theorem describeRecipe_admit_pending (s : State) (c : Ctx) : (describeRecipe.atAdmit s c).pending = s.pending := by
  simp only [describeRecipe]
  first
    | rfl
    | (simp; done)
    | (refine State.oneWork_pending _ _ _ (fun u c => ?_); simp; done)
    | (refine State.oneItem_pending _ _ _ (fun u c => ?_); simp; done)
    | (refine State.eachItem_pending _ _ _ (fun u c i => ?_); simp; done)
    | (refine (State.eachItem_pending _ _ _ (fun u c i => ?_)).trans ?_ <;> simp; done)
    | (repeat' split <;> simp)
@[simp] theorem State.installRun_pending (s : State) (ref : Nat) (c : Cmd) : (State.installRun s ref c).pending = s.pending := by
  unfold State.installRun
  repeat' first | with_reducible rfl | split | simp
@[simp] theorem installRecipeRun_start_pending (s : State) (c : Ctx) : (installRecipeRun.start s c).pending = s.pending := by
  simp only [installRecipeRun]
  first
    | rfl
    | (simp; done)
    | (refine State.oneWork_pending _ _ _ (fun u c => ?_); simp; done)
    | (refine State.oneItem_pending _ _ _ (fun u c => ?_); simp; done)
    | (refine State.eachItem_pending _ _ _ (fun u c i => ?_); simp; done)
    | (refine (State.eachItem_pending _ _ _ (fun u c i => ?_)).trans ?_ <;> simp; done)
    | (repeat' split <;> simp)
@[simp] theorem installRecipeRun_admit_pending (s : State) (c : Ctx) : (installRecipeRun.atAdmit s c).pending = s.pending := by
  simp only [installRecipeRun]
  first
    | rfl
    | (simp; done)
    | (refine State.oneWork_pending _ _ _ (fun u c => ?_); simp; done)
    | (refine State.oneItem_pending _ _ _ (fun u c => ?_); simp; done)
    | (refine State.eachItem_pending _ _ _ (fun u c i => ?_); simp; done)
    | (refine (State.eachItem_pending _ _ _ (fun u c i => ?_)).trans ?_ <;> simp; done)
    | (repeat' split <;> simp)
@[simp] theorem State.removeRun_pending (s : State) (ref : Nat) (c : Cmd) : (State.removeRun s ref c).pending = s.pending := by
  unfold State.removeRun
  repeat' first | with_reducible rfl | split | simp
@[simp] theorem removeRecipeRun_start_pending (s : State) (c : Ctx) : (removeRecipeRun.start s c).pending = s.pending := by
  simp only [removeRecipeRun]
  first
    | rfl
    | (simp; done)
    | (refine State.oneWork_pending _ _ _ (fun u c => ?_); simp; done)
    | (refine State.oneItem_pending _ _ _ (fun u c => ?_); simp; done)
    | (refine State.eachItem_pending _ _ _ (fun u c i => ?_); simp; done)
    | (refine (State.eachItem_pending _ _ _ (fun u c i => ?_)).trans ?_ <;> simp; done)
    | (repeat' split <;> simp)
@[simp] theorem removeRecipeRun_admit_pending (s : State) (c : Ctx) : (removeRecipeRun.atAdmit s c).pending = s.pending := by
  simp only [removeRecipeRun]
  first
    | rfl
    | (simp; done)
    | (refine State.oneWork_pending _ _ _ (fun u c => ?_); simp; done)
    | (refine State.oneItem_pending _ _ _ (fun u c => ?_); simp; done)
    | (refine State.eachItem_pending _ _ _ (fun u c i => ?_); simp; done)
    | (refine (State.eachItem_pending _ _ _ (fun u c i => ?_)).trans ?_ <;> simp; done)
    | (repeat' split <;> simp)
@[simp] theorem State.composedRun_pending (s : Sys2Proof.Machine.State) (ref : Nat) (c : Sys2Proof.Machine.Cmd) : (Sys2Proof.Machine.State.composedRun s ref c).pending = s.pending := by
  unfold State.composedRun
  repeat' first
    | with_reducible rfl
    | refine (pending_foldl _ _ _ (fun _ _ => ?_)).trans ?_
    | refine (pending_fold1 _ _ _ (fun _ _ => ?_)).trans ?_
    | refine (pending_fold2 _ _ _ (fun _ _ => ?_)).trans ?_
    | split
    | simp
    | rfl
@[simp] theorem composedRecipe_start_pending (s : State) (c : Ctx) : (composedRecipe.start s c).pending = s.pending := by
  simp only [composedRecipe]
  first
    | rfl
    | (simp; done)
    | (refine State.oneWork_pending _ _ _ (fun u c => ?_); simp; done)
    | (refine State.oneItem_pending _ _ _ (fun u c => ?_); simp; done)
    | (refine State.eachItem_pending _ _ _ (fun u c i => ?_); simp; done)
    | (refine (State.eachItem_pending _ _ _ (fun u c i => ?_)).trans ?_ <;> simp; done)
    | (repeat' split <;> simp)
@[simp] theorem composedRecipe_admit_pending (s : State) (c : Ctx) : (composedRecipe.atAdmit s c).pending = s.pending := by
  simp only [composedRecipe]
  first
    | rfl
    | (simp; done)
    | (refine State.oneWork_pending _ _ _ (fun u c => ?_); simp; done)
    | (refine State.oneItem_pending _ _ _ (fun u c => ?_); simp; done)
    | (refine State.eachItem_pending _ _ _ (fun u c i => ?_); simp; done)
    | (refine (State.eachItem_pending _ _ _ (fun u c i => ?_)).trans ?_ <;> simp; done)
    | (repeat' split <;> simp)
@[simp] theorem State.fetchFor_pending (s : Sys2Proof.Machine.State) (dev : Nat) (h : Sys2Proof.Machine.TileHdr) : (Sys2Proof.Machine.State.fetchFor s dev h).pending = s.pending := by
  unfold State.fetchFor
  repeat' first
    | with_reducible rfl
    | refine (pending_foldl _ _ _ (fun _ _ => ?_)).trans ?_
    | refine (pending_fold1 _ _ _ (fun _ _ => ?_)).trans ?_
    | refine (pending_fold2 _ _ _ (fun _ _ => ?_)).trans ?_
    | split
    | simp
    | rfl
@[simp] theorem State.meter_pending (s : Sys2Proof.Machine.State) (x : Sys2Proof.Machine.HeldAcc) : (Sys2Proof.Machine.State.meter s x).pending = s.pending := by
  unfold State.meter
  repeat' first
    | with_reducible rfl
    | refine (pending_foldl _ _ _ (fun _ _ => ?_)).trans ?_
    | refine (pending_fold1 _ _ _ (fun _ _ => ?_)).trans ?_
    | refine (pending_fold2 _ _ _ (fun _ _ => ?_)).trans ?_
    | split
    | simp
    | rfl
@[simp] theorem publishRun_start_pending (s : State) (c : Ctx) : (publishRun.start s c).pending = s.pending := by
  simp only [publishRun]
  first
    | rfl
    | (simp; done)
    | (refine State.oneWork_pending _ _ _ (fun u c => ?_); simp; done)
    | (refine State.oneItem_pending _ _ _ (fun u c => ?_); simp; done)
    | (refine State.eachItem_pending _ _ _ (fun u c i => ?_); simp; done)
    | (refine (State.eachItem_pending _ _ _ (fun u c i => ?_)).trans ?_ <;> simp; done)
    | (repeat' split <;> simp)
@[simp] theorem publishRun_admit_pending (s : State) (c : Ctx) : (publishRun.atAdmit s c).pending = s.pending := by
  simp only [publishRun]
  first
    | rfl
    | (simp; done)
    | (refine State.oneWork_pending _ _ _ (fun u c => ?_); simp; done)
    | (refine State.oneItem_pending _ _ _ (fun u c => ?_); simp; done)
    | (refine State.eachItem_pending _ _ _ (fun u c i => ?_); simp; done)
    | (refine (State.eachItem_pending _ _ _ (fun u c i => ?_)).trans ?_ <;> simp; done)
    | (repeat' split <;> simp)
theorem recipeRun_start_pending (b : Nat) (s : State) (c : Ctx) : ((recipeRun b).start s c).pending = s.pending := by
  unfold recipeRun
  split <;> simp
@[simp] theorem State.startOrdered_pending (s : State) (ref : Nat) : (s.startOrdered ref).pending = s.pending := by
  unfold State.startOrdered
  repeat' split
  all_goals simp [recipeRun_start_pending]
@[simp] theorem State.settleOrdered_pending (s : State) : (State.settleOrdered s).pending = s.pending := pending_foldl _ _ _ (fun _ _ => by simp)
@[simp] theorem State.setEngine_pending (s : State) (e : Nat) (x : Engine) : (State.setEngine s e x).pending = s.pending := by simp [State.setEngine]
theorem State.bringSpare_pending {s t : State} {e : Nat} {k : Option Nat} (h : s.bringSpare e k = some t) : t.pending = s.pending := by
  unfold State.bringSpare at h
  split at h
  · simp at h
  · simp at h
    subst h
    split <;> simp
@[simp] theorem State.refillPart_pending (s : State) (d : Nat) (t : Nat) : (State.refillPart s d t).pending = s.pending := by
  unfold State.refillPart
  repeat' split
  all_goals simp
@[simp] theorem State.retireEngine_pending (s : State) (e : Nat) : (s.retireEngine e).pending = s.pending := by
  unfold State.retireEngine
  dsimp only
  split
  · split <;> simp
  · split
    · rename_i h; rw [State.bringSpare_pending h]; simp
    · split <;> simp
@[simp] theorem State.resetEngine_pending (s : State) (e : Nat) (was : Nat) : (State.resetEngine s e was).pending = s.pending := by simp [State.resetEngine]
@[simp] theorem State.hardEvent_pending (s : State) (e : Nat) : (s.hardEvent e).pending = s.pending := by
  unfold State.hardEvent
  dsimp only
  split
  · rfl
  · split
    · rename_i h; rw [State.bringSpare_pending h]; simp
    · simp
@[simp] theorem State.mismatch_pending (s : State) (e : Nat) : (State.mismatch s e).pending = s.pending := by
  unfold State.mismatch
  repeat' first | with_reducible rfl | split | simp
@[simp] theorem State.holdItem_pending (s : State) (ref : Nat) (i : Nat) (on : Bool) : (State.holdItem s ref i on).pending = s.pending := by simp [State.holdItem]
@[simp] theorem State.engineTested_pending (s : State) (e : Nat) (ok : Bool) : (s.engineTested e ok).pending = s.pending := by
  unfold State.engineTested
  dsimp only
  split
  · rfl
  · split
    · split
      · simp
      · split
        · rename_i h; rw [State.bringSpare_pending h]; simp
        · split <;> simp
    · split <;> simp [State.retireEngine_pending]
@[simp] theorem State.countErr_pending (s : State) (k : Nat) : (State.countErr s k).2.pending = s.pending := by simp [State.countErr]
@[simp] theorem State.dropErr_pending (s : State) (k : Nat) : (State.dropErr s k).pending = s.pending := by simp [State.dropErr]
@[simp] theorem State.moveBuckets_pending (s : State) (old : Nat) (new : Nat) : (State.moveBuckets s old new).pending = s.pending := by simp [State.moveBuckets]
@[simp] theorem State.dropCore_pending (s : Sys2Proof.Machine.State) (d : Nat) : (Sys2Proof.Machine.State.dropCore s d).pending = s.pending := by
  unfold State.dropCore
  repeat' first
    | with_reducible rfl
    | refine (pending_foldl _ _ _ (fun _ _ => ?_)).trans ?_
    | refine (pending_fold1 _ _ _ (fun _ _ => ?_)).trans ?_
    | refine (pending_fold2 _ _ _ (fun _ _ => ?_)).trans ?_
    | split
    | simp
    | rfl
@[simp] theorem State.dropAgents_pending (s : State) (d : Nat) (save : Bool) : (State.dropAgents s d save).pending = s.pending := pending_foldl _ _ _ (fun _ _ => by simp)
@[simp] theorem State.dieGone_pending (s : State) (d : Nat) (k : Bool) : (s.dieGone d k).pending = s.pending := by
  unfold State.dieGone
  split
  · rfl
  · extract_lets s1 dies src srcR s2 s3 s4 s5 s6
    have e1 : s1.pending = s.pending := (State.dropAgents_pending _ _ _).trans (State.cutItems_pending _ _ _ _)
    have es : src.pending = s.pending := (State.moveBuckets_pending _ _ _).trans e1
    have e2 : s2.pending = s.pending := es
    clear_value s2
    have e3 : s3.pending = s.pending := by
      refine (pending_foldl _ _ _ (fun a x => ?_)).trans e2
      split <;> simp [State.flexDown_pending]
    clear_value s3
    have e4 : s4.pending = s.pending := by
      refine (pending_foldl _ _ _ (fun a x => ?_)).trans e3
      split <;> simp
    clear_value s4
    have e5 : s5.pending = s.pending := (State.extentsOut_pending _ _).trans ((State.loseWrites_pending _ _).trans e4)
    clear_value s5
    have e6 : s6.pending = s.pending := e5
    clear_value s6
    simp [e6]
@[simp] theorem State.dieOut_pending (s : State) (d : Nat) (save : Bool) : (State.dieOut s d save).pending = s.pending := by unfold State.dieOut; split <;> simp
@[simp] theorem State.dieRetire_pending (s : State) (d : Nat) : (State.dieRetire s d).pending = s.pending := by
  unfold State.dieRetire
  repeat' first | with_reducible rfl | refine (pending_foldl _ _ _ (fun _ _ => ?_)).trans ?_ | split | simp
@[simp] theorem State.discardForeign_pending (s : State) : (State.discardForeign s).pending = s.pending := by
  unfold State.discardForeign
  repeat' first | with_reducible rfl | refine (pending_foldl _ _ _ (fun _ _ => ?_)).trans ?_ | split | simp
@[simp] theorem State.portsUp_pending (s : State) (d : Nat) : (State.portsUp s d).pending = s.pending := by
  unfold State.portsUp
  repeat' first | with_reducible rfl | refine (pending_foldl _ _ _ (fun _ _ => ?_)).trans ?_ | split | simp
@[simp] theorem State.fillParts_pending (s : Sys2Proof.Machine.State) (d : Nat) : (Sys2Proof.Machine.State.fillParts s d).pending = s.pending := by
  unfold State.fillParts
  repeat' first
    | with_reducible rfl
    | refine (pending_foldl _ _ _ (fun _ _ => ?_)).trans ?_
    | refine (pending_fold1 _ _ _ (fun _ _ => ?_)).trans ?_
    | refine (pending_fold2 _ _ _ (fun _ _ => ?_)).trans ?_
    | split
    | simp
    | rfl
@[simp] theorem State.dieBack_pending (s : Sys2Proof.Machine.State) (d : Nat) : (Sys2Proof.Machine.State.dieBack s d).pending = s.pending := by
  unfold State.dieBack
  repeat' first
    | with_reducible rfl
    | refine (pending_foldl _ _ _ (fun _ _ => ?_)).trans ?_
    | refine (pending_fold1 _ _ _ (fun _ _ => ?_)).trans ?_
    | refine (pending_fold2 _ _ _ (fun _ _ => ?_)).trans ?_
    | split
    | simp
    | rfl
@[simp] theorem State.narrow_pending (s : State) (short : Nat → Bool) (flex : List Nat) (peer : List Nat) : (State.narrow s short flex peer).pending = s.pending := by
  unfold State.narrow
  repeat' first | with_reducible rfl | refine (pending_foldl _ _ _ (fun _ _ => ?_)).trans ?_ | split | simp
@[simp] theorem State.arbitrate_pending (s : State) (i : ArbInput) : (State.arbitrate s i).pending = s.pending := by simp [State.arbitrate]
@[simp] theorem State.windowFlags_pending (s : State) : (State.windowFlags s).pending = s.pending := by
  unfold State.windowFlags
  repeat' first | with_reducible rfl | split | simp
@[simp] theorem State.corrected_pending (s : State) (die : Nat) (kind : Nat) : (State.corrected s die kind).pending = s.pending := by simp [State.corrected]
@[simp] theorem State.sramRow_pending (s : State) (die : Nat) (k : SramKind) (bank : Nat) : (State.sramRow s die k bank).pending = s.pending := by
  unfold State.sramRow
  repeat' first | with_reducible rfl | split | simp
@[simp] theorem State.poisonAt_pending (s : Sys2Proof.Machine.State) (a : Nat) : (Sys2Proof.Machine.State.poisonAt s a).pending = s.pending := by
  unfold State.poisonAt
  repeat' first
    | with_reducible rfl
    | refine (pending_foldl _ _ _ (fun _ _ => ?_)).trans ?_
    | refine (pending_fold1 _ _ _ (fun _ _ => ?_)).trans ?_
    | refine (pending_fold2 _ _ _ (fun _ _ => ?_)).trans ?_
    | split
    | simp
    | rfl
@[simp] theorem State.rowFails_pending (s : Sys2Proof.Machine.State) (die : Nat) (channel : Nat) (row : Nat) (addr : Nat) : (Sys2Proof.Machine.State.rowFails s die channel row addr).pending = s.pending := by
  unfold State.rowFails
  repeat' first
    | with_reducible rfl
    | refine (pending_foldl _ _ _ (fun _ _ => ?_)).trans ?_
    | refine (pending_fold1 _ _ _ (fun _ _ => ?_)).trans ?_
    | refine (pending_fold2 _ _ _ (fun _ _ => ?_)).trans ?_
    | split
    | simp
    | rfl
@[simp] theorem State.selftestOp_pending (s : State) (v : Nat) : (State.selftestOp s v).2.pending = s.pending := by
  unfold State.selftestOp
  repeat' split
  all_goals simp
@[simp] theorem State.admitOp_pending (s : State) (v : Nat) : (State.admitOp s v).2.pending = s.pending := by unfold State.admitOp; split <;> simp
@[simp] theorem State.startLoading_pending (s : State) : (State.startLoading s).pending = s.pending := by simp [State.startLoading]
@[simp] theorem State.relink_pending (s : State) (gid : Nat) : (State.relink s gid).pending = s.pending := by unfold State.relink; split <;> simp
@[simp] theorem State.expelOp_pending (s : State) (v : Nat) (all : Bool) : (State.expelOp s v all).2.pending = s.pending := by
  unfold State.expelOp
  repeat' first | with_reducible rfl | split | simp
@[simp] theorem State.snapDropped_pending (s : State) (x : Snap) (st : Nat) : (State.snapDropped s x st).pending = s.pending := by unfold State.snapDropped; split <;> simp
@[simp] theorem State.dropSnaps_pending (s : State) : (State.dropSnaps s).pending = s.pending := pending_foldl _ _ _ (fun _ _ => by simp)
@[simp] theorem State.finishAll_pending (s : State) : (State.finishAll s).pending = s.pending := by
  unfold State.finishAll
  repeat' first | with_reducible rfl | refine (pending_foldl _ _ _ (fun _ _ => ?_)).trans ?_ | split | simp
@[simp] theorem State.endSessions_pending (s : State) : (State.endSessions s).pending = s.pending := pending_foldl _ _ _ (fun _ _ => by simp)
@[simp] theorem State.scrubMem_pending (s : State) : (State.scrubMem s).pending = s.pending := by simp [State.scrubMem]
@[simp] theorem State.wipe_pending (s : State) (debug : Bool) : (State.wipe s debug).pending = s.pending := by simp [State.wipe]
@[simp] theorem State.portsDown_pending (s : State) : (State.portsDown s).pending = s.pending := by simp [State.portsDown]
@[simp] theorem State.repower_pending (s : State) : (State.repower s).pending = s.pending := by simp [State.repower]
@[simp] theorem State.moduleReset_pending (s : State) : (State.moduleReset s).pending = s.pending := by simp [State.moduleReset]
@[simp] theorem State.porReset_pending (s : State) (mv : Nat) (straps : Nat) (dbg : Bool) : (State.porReset s mv straps dbg).pending = s.pending := by simp [State.porReset]
@[simp] theorem State.powerOff_pending (s : State) (mv : Nat) : (State.powerOff s mv).pending = s.pending := by simp [State.powerOff]
@[simp] theorem State.domainsOff_pending (s : State) : s.domainsOff.pending = s.pending := by
  unfold State.domainsOff
  extract_lets s1 s2
  have e1 : s1.pending = s.pending := by
    refine pending_foldl _ _ _ (fun a x => ?_)
    split <;> simp [State.flexDown_pending]
  have e2 : s2.pending = s.pending := by
    refine (pending_foldl _ _ _ (fun a x => ?_)).trans e1
    split <;> simp
  clear_value s2
  exact e2
@[simp] theorem State.startup_pending (s : State) (testOk : Bool) : (State.startup s testOk).pending = s.pending := by
  unfold State.startup
  repeat' first | with_reducible rfl | refine (pending_foldl _ _ _ (fun _ _ => ?_)).trans ?_ | split | simp
@[simp] theorem State.dropScope_pending (s : State) (r : ResetRun) (classW : Bool) : (State.dropScope s r classW).pending = s.pending := by simp [State.dropScope]
@[simp] theorem State.dropPortRings_pending (s : State) (p : Nat) : (s.dropPortRings p).pending = s.pending := by
  unfold State.dropPortRings
  extract_lets gone s1 s2
  have e2 : s2.pending = s.pending := by
    show (if s.role p = 1 then _ else _ : State).pending = _
    split
    · exact State.dropDonors_pending _ _
    · rfl
  exact e2
@[simp] theorem State.beginReset_pending (s : State) (r : ResetRun) : (State.beginReset s r).pending = s.pending := by simp [State.beginReset]
@[simp] theorem State.dieReset_pending (s : State) (d : Nat) : (s.dieReset d).pending = s.pending := by
  unfold State.dieReset
  extract_lets r s1 s2
  have e1 : s1.pending = s.pending := by simp [s1, State.dieOut, State.beginReset_pending]; split <;> simp [State.dieGone_pending, State.proposeDies_pending]
  have e2 : s2.pending = s.pending := (pending_foldl _ _ _ (fun a x => State.dropPortRings_pending _ _)).trans e1
  clear_value s2
  simp [e2]
@[simp] theorem State.portReset_pending (s : Sys2Proof.Machine.State) (isPeer : Bool) (port : Nat) : (Sys2Proof.Machine.State.portReset s isPeer port).pending = s.pending := by
  unfold State.portReset
  repeat' first | with_reducible rfl | split | simp
@[simp] theorem State.warmReset_pending (s : State) : s.warmReset.pending = s.pending := by
  unfold State.warmReset
  extract_lets until_ g r srcF s0 s1 s2 s3 s4 s5 s6
  have e1 : s1.pending = s.pending := (State.beginReset_pending _ _).trans ((State.emits_pending _ _).trans (State.dropSnaps_pending _))
  have e2 : s2.pending = s.pending := by
    refine (pending_foldl _ _ _ (fun a x => ?_)).trans ((State.abortPend_pending _ _).trans e1)
    split <;> simp
  clear_value s2
  have e3 : s3.pending = s.pending := (pending_foldl _ _ _ (fun a x => State.abortRec_pending _ _)).trans e2
  clear_value s3
  have e4 : s4.pending = s.pending := (pending_foldl _ _ _ (fun a x => (State.dropCore_pending _ _).trans (State.dropAgents_pending _ _ _))).trans e3
  clear_value s4
  have e5 : s5.pending = s.pending := (pending_foldl _ _ _ (fun a x => (State.authStart_pending _ _).trans (State.peerDrop_pending _ _ _))).trans e4
  clear_value s5
  have e6 : s6.pending = s.pending := (State.dropObjs_pending _ _).trans e5
  clear_value s6
  exact (State.restored_pending _ _ _ _ _).trans e6
@[simp] theorem State.warmDone_pending (s : State) (since : Nat) : (State.warmDone s since).pending = s.pending := by simp [State.warmDone]
@[simp] theorem State.debugStart_pending (s : State) : (State.debugStart s).pending = s.pending := by
  unfold State.debugStart
  repeat' first | with_reducible rfl | refine (pending_foldl _ _ _ (fun _ _ => ?_)).trans ?_ | split | simp
@[simp] theorem State.debugFinish_pending (s : State) : s.debugFinish.pending = s.pending := by
  unfold State.debugFinish
  extract_lets s1 later s2 s3 k cert srcS s4 s5
  have e1 : s1.pending = s.pending := by
    show (match s.fmap.map with | some m => _ | none => _ : State).pending = _
    split
    · split <;> simp [State.propose, State.adopt_pending]
    · rfl
  clear_value s1
  have e2 : s2.pending = s.pending := (State.wipe_pending _ _).trans e1
  clear_value s2
  have e3 : s3.pending = s.pending := (pending_foldl _ _ _ (fun a x => State.setObj_pending _ _ _ _)).trans e2
  clear_value s3
  have e4 : s4.pending = s.pending := by
    simp only [s4, State.flag_pending]
    exact e3
  clear_value s4
  have e5 : s5.pending = s.pending := (State.restored_pending _ _ _ _ _).trans ((pending_foldl _ _ _ (fun a x => State.trayIde_pending _ _)).trans e4)
  clear_value s5
  split
  · simp [e5]
  · exact e5
@[simp] theorem State.resetOp_pending (s : State) (v : Nat) : (s.resetOp v).2.pending = s.pending := by
  unfold State.resetOp
  extract_lets r die
  clear_value r die
  refine pending_ite2 rfl (pending_ite2 (State.flag_pending _ _ _ _) (pending_ite2 rfl (pending_ite2 rfl (pending_ite2 rfl (pending_ite2 (State.flag_pending _ _ _ _) ?_)))))
  split
  all_goals simp only [State.moduleReset_pending, State.warmReset_pending, State.dieReset_pending, State.portReset_pending,
    State.resetEngine_pending, State.debugStart_pending]
@[simp] theorem State.resetEnd_pending (s : State) (r : ResetRun) : (s.resetEnd r).pending = s.pending := by
  unfold State.resetEnd
  dsimp only
  repeat' split
  all_goals first
    | rfl
    | exact State.warmDone_pending _ _
    | exact State.dieBack_pending _ _
    | exact State.peerStart_pending _ _
    | exact State.setFlex_pending _ _ _
    | exact State.engineTested_pending _ _ _
    | exact State.debugFinish_pending _
@[simp] theorem State.stateRefused_pending (s : State) : (State.stateRefused s).2.pending = s.pending := by simp [State.stateRefused]
@[simp] theorem State.powerD0Op_pending (s : State) : (State.powerD0Op s).2.pending = s.pending := by
  unfold State.powerD0Op
  repeat' split
  all_goals simp
@[simp] theorem State.powerD1Op_pending (s : State) : (State.powerD1Op s).2.pending = s.pending := by
  unfold State.powerD1Op
  repeat' split
  all_goals simp
@[simp] theorem State.powerD2Op_pending (s : State) (mask : Nat) : (s.powerD2Op mask).2.pending = s.pending := by
  unfold State.powerD2Op
  extract_lets bad out s1 s2
  have e1 : s1.pending = s.pending := pending_foldl _ _ _ (fun a x => State.dieGone_pending _ _ _)
  have e2 : s2.pending = s.pending := by
    simp only [s2]
    split
    · exact e1
    · exact (State.proposeDies_pending _).trans e1
  clear_value s2 bad
  repeat' split
  all_goals first | rfl | exact State.stateRefused_pending _ | exact e2
@[simp] theorem State.powerD3Op_pending (s : State) : (State.powerD3Op s).2.pending = s.pending := by
  unfold State.powerD3Op
  repeat' first | with_reducible rfl | split | simp
@[simp] theorem State.powerOp_pending (s : State) (v : Nat) : (State.powerOp s v).2.pending = s.pending := by
  unfold State.powerOp
  repeat' split
  all_goals simp
@[simp] theorem State.dieOff_pending (s : State) (d : Nat) : (s.dieOff d).pending = s.pending := by
  unfold State.dieOff
  extract_lets r s1 s2
  have e1 : s1.pending = s.pending := pending_foldl _ _ _ (fun a x => State.dropPortRings_pending _ _)
  have e2 : s2.pending = s.pending := (State.dropCore_pending _ _).trans ((State.restored_pending _ _ _ _ _).trans ((State.dropScope_pending _ _ _).trans e1))
  clear_value s2
  exact e2
@[simp] theorem State.dieOn_pending (s : State) (d : Nat) : (s.dieOn d).pending = s.pending := by
  unfold State.dieOn
  exact State.dieBack_pending _ _
@[simp] theorem State.transEnd_pending (s : Sys2Proof.Machine.State) : (Sys2Proof.Machine.State.transEnd s).pending = s.pending := by
  unfold State.transEnd
  split
  · rfl
  split
  · rfl
  · extract_lets back s1 src s2
    have e1 : s1.pending = s.pending := pending_foldl _ _ _ (fun a x => State.dieOff_pending _ _)
    clear_value s1
    have e2 : s2.pending = s.pending := (pending_foldl _ _ _ (fun a x => State.dieOn_pending _ _)).trans e1
    clear_value s2
    exact e2
  · split
    · rfl
    extract_lets s1 s2 s3
    have e1 : s1.pending = s.pending := pending_foldl _ _ _ (fun a x => State.dieGone_pending _ _ _)
    clear_value s1
    have e2 : s2.pending = s.pending := (pending_foldl _ _ _ (fun a x => State.dieOff_pending _ _)).trans e1
    clear_value s2
    have e3 : s3.pending = s.pending := (State.dropObjs_pending _ _).trans e2
    clear_value s3
    refine (State.restored_pending _ _ _ _ _).trans ?_
    exact e3
  · extract_lets lanes src s0 s1
    have e1 : s1.pending = s.pending := (pending_foldl _ _ _ (fun a x => State.dieOn_pending _ _)).trans rfl
    clear_value s1
    split
    · exact e1
    · exact e1
@[simp] theorem State.monClear_pending (s : State) (m : Nat) : (State.monClear s m).pending = s.pending := by simp [State.monClear]
@[simp] theorem State.fwStageOp_pending (s : State) (b : Bytes) : (State.fwStageOp s b).2.pending = s.pending := by unfold State.fwStageOp; split <;> simp
@[simp] theorem State.fwCommitOp_pending (s : State) : (State.fwCommitOp s).2.pending = s.pending := by unfold State.fwCommitOp; split <;> simp
@[simp] theorem State.mgmtAddrOp_pending (s : State) (sub : Nat) (b : Bytes) : (State.mgmtAddrOp s sub b).2.pending = s.pending := by
  unfold State.mgmtAddrOp
  repeat' first | with_reducible rfl | refine (pending_foldl _ _ _ (fun _ _ => ?_)).trans ?_ | split | simp
@[simp] theorem State.storeOp_pending (s : State) (r : ORow) (idx : Nat) (sub : Nat) (v : Nat) : (State.storeOp s r idx sub v).2.pending = s.pending := by simp [State.storeOp]
@[simp] theorem State.storeIf_pending (s : State) (ok : Bool) (r : ORow) (idx : Nat) (sub : Nat) (v : Nat) : (State.storeIf s ok r idx sub v).2.pending = s.pending := by unfold State.storeIf; split <;> simp
@[simp] theorem State.writeA_pending (s : State) (r : ORow) (idx : Nat) (sub : Nat) (v : Nat) (val : Bytes) : (State.writeA s r idx sub v val).2.pending = s.pending := by unfold State.writeA; split <;> simp
@[simp] theorem State.writeB_pending (s : State) (r : ORow) (idx sub v : Nat) (val : Bytes) : (s.writeB r idx sub v val).2.pending = s.pending := by
  unfold State.writeB
  refine pending_ite2 (pending_ite2 (State.flexEnableOp_pending _ _) (State.flexDisableOp_pending _ _)) (pending_ite2
    (pending_ite2 (State.peerEnableOp_pending _ _) (State.peerDisableOp_pending _ _)) (pending_ite2 (State.storeOp_pending _ _ _ _ _)
    (pending_ite2 ((State.notePaths_pending _).trans (State.storeOp_pending _ _ _ _ _)) (pending_ite2 (pending_ite2 (State.ldEnableOp_pending _ _ _) (State.ldDisableOp_pending _ _ _)) ?_))))
  split
  · exact State.mgmtAddrOp_pending _ _ _
  · exact State.mgmtAddrOp_pending _ _ _
  · exact pending_ite2 (State.tenantEnableOp_pending _ _) (State.tenantDisableOp_pending _ _)
  · exact pending_ite2 (State.flag_pending _ _ _ _) (State.storeOp_pending _ _ _ _ _)
  · exact State.tenantRemoveOp_pending _ _
  · exact State.shapeOp_pending _ _ _ _
  · exact State.storeIf_pending _ _ _ _ _ _
  · exact State.allocOp_pending _ _
  · exact State.revokeOp_pending _ _
  · exact State.repairOp_pending _ _
  · exact State.viewRestoreOp_pending _ _
  · exact State.storeOp_pending _ _ _ _ _
@[simp] theorem State.writeC_pending (s : State) (c : WCtx) (r : ORow) (idx : Nat) (sub : Nat) (v : Nat) (val : Bytes) : (State.writeC s c r idx sub v val).2.pending = s.pending := by
  unfold State.writeC
  repeat' first | with_reducible rfl | split | simp
@[simp] theorem State.writeD_pending (s : State) (c : WCtx) (r : ORow) (idx : Nat) (sub : Nat) (v : Nat) : (State.writeD s c r idx sub v).2.pending = s.pending := by
  unfold State.writeD
  repeat' split
  all_goals simp
@[simp] theorem State.writeOp_pending (s : State) (c : WCtx) (r : ORow) (idx : Nat) (sub : Nat) (val : Bytes) : (State.writeOp s c r idx sub val).2.pending = s.pending := by
  unfold State.writeOp
  repeat' split
  all_goals simp
@[simp] theorem State.ignoreWrite_pending (s : State) (idx : Nat) (sub : Nat) : (State.ignoreWrite s idx sub).pending = s.pending := by simp [State.ignoreWrite]
@[simp] theorem State.touchFor_pending (s : State) (idx : Nat) (sub : Nat) : (State.touchFor s idx sub).pending = s.pending := by
  unfold State.touchFor
  repeat' split
  all_goals simp
@[simp] theorem State.writeObj_pending (s : State) (c : WCtx) (idx : Nat) (sub : Nat) (val : Bytes) : (State.writeObj s c idx sub val).2.pending = s.pending := by
  unfold State.writeObj
  repeat' split
  all_goals simp
@[simp] theorem State.sessWrite_pending (s : State) (sid : Nat) (idx : Nat) (sub : Nat) (val : Bytes) : (State.sessWrite s sid idx sub val).pending = s.pending := by unfold State.sessWrite; split <;> simp
@[simp] theorem State.keep_pending (s : State) (sid : Nat) (reqId : Nat) (ty : Nat) (body : Bytes) : (State.keep s sid reqId ty body).pending = s.pending := by unfold State.keep; split <;> simp
theorem State.request_pending (s : State) (sid reqId ty : Nat) (claimMay : Bool) (op : State → Bytes × State) (h : ∀ u, (op u).2.pending = u.pending) :
    (s.request sid reqId ty claimMay op).pending = s.pending := by
  unfold State.request
  split
  · rfl
  · dsimp only
    split
    · simp
    · repeat' split
      all_goals simp [h]
@[simp] theorem State.setStage_pending (s : State) (sid : Nat) (key : Nat) (prop : Bool) (b : Bytes) : (State.setStage s sid key prop b).pending = s.pending := by simp [State.setStage]
@[simp] theorem State.takePiece_pending (s : State) (sid : Nat) (key : Nat) (prop : Bool) (final : Bool) (off : Nat) (val : Bytes) : (State.takePiece s sid key prop final off val).2.pending = s.pending := by
  unfold State.takePiece
  repeat' first | with_reducible rfl | split | simp
theorem State.takePiece_of_pending {s t : State} {sid key : Nat} {isProp final : Bool} {off : Nat} {val : Bytes} {o : Option (Option Bytes)}
    (h : s.takePiece sid key isProp final off val = (o, t)) : t.pending = s.pending := by
  have := congrArg (fun z => z.2.pending) h
  simpa using this.symm
@[simp] theorem State.setEntry_pending (s : State) (c : WCtx) (e : SetEntry) :
    (s.setEntry c e).2.pending = s.pending := by
  unfold State.setEntry
  repeat' split
  all_goals first
    | rfl
    | exact State.writeObj_pending _ _ _ _ _
    | (rename_i h; exact State.takePiece_of_pending h)
    | (rename_i h; exact (State.writeObj_pending _ _ _ _ _).trans (State.takePiece_of_pending h))
@[simp] theorem State.setAll_pending (s : State) (c : WCtx) (l : List SetEntry) : (State.setAll s c l).2.pending = s.pending := by
  unfold State.setAll
  repeat' first | with_reducible rfl | refine (pending_fold2 _ _ _ (fun _ _ => ?_)).trans ?_ | split | simp
@[simp] theorem State.noteTo_pending (s : State) (sid : Nat) (code : Nat) (f : Bytes) : (State.noteTo s sid code f).pending = s.pending := by
  unfold State.noteTo
  repeat' first | with_reducible rfl | split | simp
@[simp] theorem State.openSess_pending (s : State) (port : Nat) (conf : Bool) (slot : Nat) (der : Bytes) (claim : Bool) : (State.openSess s port conf slot der claim).pending = s.pending := by
  unfold State.openSess
  repeat' first | with_reducible rfl | split | simp
@[simp] theorem State.handshake_pending (s : Sys2Proof.Machine.State) (port : Nat) (conf : Bool) (c : Sys2Proof.ClientCert) : (Sys2Proof.Machine.State.handshake s port conf c).pending = s.pending := by
  unfold State.handshake
  repeat' first
    | with_reducible rfl
    | refine (pending_foldl _ _ _ (fun _ _ => ?_)).trans ?_
    | refine (pending_fold1 _ _ _ (fun _ _ => ?_)).trans ?_
    | refine (pending_fold2 _ _ _ (fun _ _ => ?_)).trans ?_
    | split
    | simp
    | rfl
@[simp] theorem State.issue_pending (s : State) (idx : Nat) (sub : Nat) (all : Bool) (val : Bytes) : (State.issue s idx sub all val).2.2.pending = s.pending := by
  unfold State.issue
  repeat' split
  all_goals simp
@[simp] theorem State.proposeOp_pending (s : State) (sid idx sub flags off : Nat) (val : Bytes) : (s.proposeOp sid idx sub flags off val).2.pending = s.pending := by
  unfold State.proposeOp
  extract_lets ans early
  clear_value early
  split
  · rfl
  · split
    · simp
    · split
      · rename_i h; exact State.takePiece_of_pending h
      · rename_i h; exact State.takePiece_of_pending h
      · rename_i h
        exact (State.issue_pending _ _ _ _ _).trans (State.takePiece_of_pending h)
theorem State.signOp_pending (s : State) (id slot : Nat) (sig : Bytes) (reply : State → Nat → Nat → Nat → Nat → State)
    (hr : ∀ u a b c d, (reply u a b c d).pending = u.pending) :
    (s.signOp id slot sig reply).pending = s.pending := by
  unfold State.signOp
  split
  · exact hr _ _ _ _ _
  · extract_lets rest src s1 c code
    split
    · exact hr _ _ _ _ _
    · 
      exact (State.writeObj_pending _ _ _ _ _).trans ((State.notify_pending _ _ _).trans (hr _ _ _ _ _))
@[simp] theorem State.signMsg_pending (s : State) (sid reqId nonce slot : Nat) (sig : Bytes) : (s.signMsg sid reqId nonce slot sig).pending = s.pending := by
  unfold State.signMsg
  split
  · rfl
  · dsimp only
    split
    · simp
    · split
      · simp
      · exact (State.signOp_pending _ _ _ _ _ (fun _ _ _ _ _ => by simp)).trans rfl
@[simp] theorem State.quorumRow_pending (s : State) (sid idx sub : Nat) (okv : Nat → Bool) (q : QSrc) : (s.quorumRow sid idx sub okv q).pending = s.pending := by
  unfold State.quorumRow
  split
  · split <;> simp
  · split
    · rfl
    · dsimp only
      split
      · rfl
      · split
        · simp
        · exact (State.signOp_pending _ _ _ _ _ (fun _ _ _ _ _ => by simp)).trans rfl
@[simp] theorem State.readWordOp_pending (s : State) (who : Nat) (idx : Nat) (sub : Nat) (off : Nat) (w : Nat) : (State.readWordOp s who idx sub off w).2.2.pending = s.pending := by
  unfold State.readWordOp
  repeat' first | with_reducible rfl | split | simp
@[simp] theorem State.setMask_pending (s : State) (sid : Nat) (mask : Nat) : (State.setMask s sid mask).pending = s.pending := by unfold State.setMask; split <;> simp
@[simp] theorem State.sendDropped_pending (s : State) (sid : Nat) (x : Sess) : (State.sendDropped s sid x).pending = s.pending := by simp [State.sendDropped]
@[simp] theorem State.relayAsk_pending (s : State) (sid : Nat) (reqId : Nat) (ty : Nat) (target : Nat) (e : GetEntry) : (State.relayAsk s sid reqId ty target e).pending = s.pending := by
  unfold State.relayAsk
  repeat' split
  all_goals simp
@[simp] theorem State.relayServe_pending (s : State) (dev : Nat) (origin : Nat) (digest : Bytes) (e : GetEntry) (word : Nat) : (State.relayServe s dev origin digest e word).pending = s.pending := by unfold State.relayServe; split <;> simp
@[simp] theorem State.relayEnd_pending (s : State) (y : Relay) (rc : Nat) (len : Nat) (words : List Nat) : (State.relayEnd s y rc len words).pending = s.pending := by simp [State.relayEnd]
@[simp] theorem State.syncSent_pending (s : Sys2Proof.Machine.State) (q : Nat) (f : Sys2Proof.Flit) : (Sys2Proof.Machine.State.syncSent s q f).pending = s.pending := by
  unfold State.syncSent
  repeat' first
    | with_reducible rfl
    | refine (pending_foldl _ _ _ (fun _ _ => ?_)).trans ?_
    | refine (pending_fold1 _ _ _ (fun _ _ => ?_)).trans ?_
    | refine (pending_fold2 _ _ _ (fun _ _ => ?_)).trans ?_
    | split
    | simp
    | rfl
@[simp] theorem State.syncReplayed_pending (s : Sys2Proof.Machine.State) (q : Nat) (f : Sys2Proof.Flit) : (Sys2Proof.Machine.State.syncReplayed s q f).pending = s.pending := by
  unfold State.syncReplayed
  repeat' first
    | with_reducible rfl
    | refine (pending_foldl _ _ _ (fun _ _ => ?_)).trans ?_
    | refine (pending_fold1 _ _ _ (fun _ _ => ?_)).trans ?_
    | refine (pending_fold2 _ _ _ (fun _ _ => ?_)).trans ?_
    | split
    | simp
    | rfl
@[simp] theorem State.darkLoss_pending (s : State) : (State.darkLoss s).pending = s.pending := by simp [State.darkLoss]
@[simp] theorem State.modrst_pending (s : State) : (State.modrst s).pending = s.pending := by
  unfold State.modrst
  repeat' split
  all_goals simp
@[simp] theorem State.modrstLow_pending (s : Sys2Proof.Machine.State) (ns : Nat) : (Sys2Proof.Machine.State.modrstLow s ns).pending = s.pending := by
  unfold State.modrstLow
  repeat' first
    | with_reducible rfl
    | refine (pending_foldl _ _ _ (fun _ _ => ?_)).trans ?_
    | refine (pending_fold1 _ _ _ (fun _ _ => ?_)).trans ?_
    | refine (pending_fold2 _ _ _ (fun _ _ => ?_)).trans ?_
    | split
    | simp
    | rfl
@[simp] theorem State.storeCell_pending (s : Sys2Proof.Machine.State) (d : Nat) (c : Sys2Proof.Machine.Cell) (r : Bool × Option Nat) (checked : Bool) : (Sys2Proof.Machine.State.storeCell s d c r checked).pending = s.pending := by
  unfold State.storeCell
  repeat' first
    | with_reducible rfl
    | refine (pending_foldl _ _ _ (fun _ _ => ?_)).trans ?_
    | refine (pending_fold1 _ _ _ (fun _ _ => ?_)).trans ?_
    | refine (pending_fold2 _ _ _ (fun _ _ => ?_)).trans ?_
    | split
    | simp
    | rfl
@[simp] theorem State.releaseTc0_pending (s : Sys2Proof.Machine.State) (d : Nat) : (Sys2Proof.Machine.State.releaseTc0 s d).pending = s.pending := by
  unfold State.releaseTc0
  repeat' first
    | with_reducible rfl
    | refine (pending_foldl _ _ _ (fun _ _ => ?_)).trans ?_
    | refine (pending_fold1 _ _ _ (fun _ _ => ?_)).trans ?_
    | refine (pending_fold2 _ _ _ (fun _ _ => ?_)).trans ?_
    | split
    | simp
    | rfl
@[simp] theorem State.admitCell_pending (s : Sys2Proof.Machine.State) (d : Nat) (c : Sys2Proof.Machine.Cell) : (Sys2Proof.Machine.State.admitCell s d c).pending = s.pending := by
  unfold State.admitCell
  repeat' first
    | with_reducible rfl
    | refine (pending_foldl _ _ _ (fun _ _ => ?_)).trans ?_
    | refine (pending_fold1 _ _ _ (fun _ _ => ?_)).trans ?_
    | refine (pending_fold2 _ _ _ (fun _ _ => ?_)).trans ?_
    | split
    | simp
    | rfl
@[simp] theorem State.linkAdmit_pending (s : Sys2Proof.Machine.State) (d : Nat) (x : Nat) (e : Nat) (pkt : Sys2Proof.Packet) (outPort : Nat) : (Sys2Proof.Machine.State.linkAdmit s d x e pkt outPort).pending = s.pending := by
  unfold State.linkAdmit
  repeat' first
    | with_reducible rfl
    | refine (pending_foldl _ _ _ (fun _ _ => ?_)).trans ?_
    | refine (pending_fold1 _ _ _ (fun _ _ => ?_)).trans ?_
    | refine (pending_fold2 _ _ _ (fun _ _ => ?_)).trans ?_
    | split
    | simp
    | rfl
@[simp] theorem State.refuseCell_pending (s : Sys2Proof.Machine.State) (d : Nat) (x : Nat) (pkt : Sys2Proof.Packet) : (Sys2Proof.Machine.State.refuseCell s d x pkt).pending = s.pending := by
  unfold State.refuseCell
  repeat' first
    | with_reducible rfl
    | refine (pending_foldl _ _ _ (fun _ _ => ?_)).trans ?_
    | refine (pending_fold1 _ _ _ (fun _ _ => ?_)).trans ?_
    | refine (pending_fold2 _ _ _ (fun _ _ => ?_)).trans ?_
    | split
    | simp
    | rfl
@[simp] theorem State.homeAdmit_pending (s : Sys2Proof.Machine.State) (d : Nat) (x : Nat) (pkt : Sys2Proof.Packet) (outPort : Nat) : (Sys2Proof.Machine.State.homeAdmit s d x pkt outPort).pending = s.pending := by
  unfold State.homeAdmit
  repeat' first
    | with_reducible rfl
    | refine (pending_foldl _ _ _ (fun _ _ => ?_)).trans ?_
    | refine (pending_fold1 _ _ _ (fun _ _ => ?_)).trans ?_
    | refine (pending_fold2 _ _ _ (fun _ _ => ?_)).trans ?_
    | split
    | simp
    | rfl
@[simp] theorem State.awayAdmit_pending (s : Sys2Proof.Machine.State) (d : Nat) (x : Nat) (pkt : Sys2Proof.Packet) : (Sys2Proof.Machine.State.awayAdmit s d x pkt).pending = s.pending := by
  unfold State.awayAdmit
  repeat' split
  all_goals first | with_reducible rfl | (rename_i h; simp [State.routeFlow_of_pending h]; done) | (rename_i h _; simp [State.routeFlow_of_pending h]; done) | (simp; done)
@[simp] theorem State.tdispSay_pending (s : State) (p : Nat) (l : Nat) (msg : Nat) (data : Bytes) : (State.tdispSay s p l msg data).pending = s.pending := by unfold State.tdispSay; split <;> simp
@[simp] theorem State.tdispErr_pending (s : State) (p : Nat) (l : Nat) (code : Nat) : (State.tdispErr s p l code).pending = s.pending := by simp [State.tdispErr]
@[simp] theorem State.snapTake_pending (s : State) (sid : Nat) (t : Nat) (clear : Bool) : (State.snapTake s sid t clear).2.pending = s.pending := by
  unfold State.snapTake
  repeat' split
  all_goals simp
@[simp] theorem State.snapRead_pending (s : State) (id : Nat) (l : List GetEntry) : (State.snapRead s id l).2.pending = s.pending := by simp [State.snapRead]
@[simp] theorem State.snapCancel_pending (s : State) (id : Nat) : (State.snapCancel s id).2.pending = s.pending := by unfold State.snapCancel; split <;> simp
@[simp] theorem State.clearMons_pending (s : State) : (State.clearMons s).pending = s.pending := by simp [State.clearMons]
@[simp] theorem State.replaceOld_pending (s : State) : (State.replaceOld s).pending = s.pending := by
  unfold State.replaceOld
  repeat' first | with_reducible rfl | split | simp
@[simp] theorem State.snapEdge_pending (s0 : State) (x : Snap) : (State.snapEdge s0 x).pending = s0.pending := by
  unfold State.snapEdge
  repeat' first | with_reducible rfl | refine (pending_foldl _ _ _ (fun _ _ => ?_)).trans ?_ | split | simp
@[simp] theorem State.tick_pending (s : State) : (State.tick s).pending = s.pending := by simp [State.tick]

end Sys2Proof.Machine
end

