-- ==== Sys2Proof/Laws/CommandsQueue.lean ====
section
/-! SUPPORT. No command touches the queue: one lemma per command. -/

set_option maxRecDepth 8000
set_option linter.all false

namespace Sys2Proof.Machine

open Sys2Proof

theorem State.receive_pending {s t : State} {k : List Nat} {a o : Nat} {m : CohMsg} (h : s.receive k a o = some (m, t)) : t.pending = s.pending := by
  unfold State.receive at h
  repeat' split at h
  all_goals simp at h
  all_goals (obtain ⟨-, rfl⟩ := h; rfl)
theorem State.routeFlow_pending {s t : State} {d x : Nat} {k : Packet} {q : Option Nat} (h : s.routeFlow d x k = some (q, t)) : t.pending = s.pending := by
  unfold State.routeFlow at h
  split at h
  · simp at h
  · dsimp only at h
    repeat' split at h
    all_goals simp only [Option.some.injEq, Prod.mk.injEq] at h
    all_goals (obtain ⟨-, rfl⟩ := h; first | rfl | exact State.setCore_pending _ _ _)
theorem execPor_pending {mv : Nat} {straps : Nat} {dbgEn : Bool} {s : State} {s1 : State} (h : execPor mv straps dbgEn s = .next s1) : s1.pending = s.pending := by
  unfold execPor at h
  repeat' split at h
  all_goals (cases h; simp)
theorem execStartupPhase_pending {selfTestOk : Bool} {s : State} {s1 : State} (h : execStartupPhase selfTestOk s = .next s1) : s1.pending = s.pending := by
  unfold execStartupPhase at h
  cases h
  simp
theorem execModrstNPulse_pending {ns : Nat} {s : State} {s1 : State} (h : execModrstNPulse ns s = .next s1) : s1.pending = s.pending := by
  unfold execModrstNPulse at h
  repeat' split at h
  all_goals (cases h; simp)
theorem execOverVoltageShutdown_pending {mv : Nat} {s : State} {s1 : State} (h : execOverVoltageShutdown mv s = .next s1) : s1.pending = s.pending := by
  unfold execOverVoltageShutdown at h
  repeat' split at h
  all_goals (cases h; simp)
theorem execUnderVoltageLockout_pending {mv : Nat} {s : State} {s1 : State} (h : execUnderVoltageLockout mv s = .next s1) : s1.pending = s.pending := by
  unfold execUnderVoltageLockout at h
  repeat' split at h
  all_goals (cases h; simp)
theorem execUnderVoltageWarning_pending {mv : Nat} {s : State} {s1 : State} (h : execUnderVoltageWarning mv s = .next s1) : s1.pending = s.pending := by
  unfold execUnderVoltageWarning at h
  repeat' split at h
  all_goals (cases h; simp)
theorem execArbiterEpoch_pending {inp : ArbInput} {s : State} {s1 : State} (h : execArbiterEpoch inp s = .next s1) : s1.pending = s.pending := by
  unfold execArbiterEpoch at h
  cases h
  simp
theorem execEnGrantSpent_pending {g : Sys2Proof.SpentGrant} {s : Sys2Proof.Machine.State} {s1 : State} (h : execEnGrantSpent g s = .next s1) : s1.pending = s.pending := by
  unfold execEnGrantSpent at h
  (try dsimp only at h)
  repeat' split at h
  all_goals (simp only [Host.Outcome.next.injEq] at h; subst h)
  all_goals repeat' first
    | with_reducible rfl
    | (simp; done)
    | (refine (pending_foldl _ _ _ (fun a x => ?_)).trans ?_)
    | (refine (pending_fold1 _ _ _ (fun a x => ?_)).trans ?_)
    | (refine (pending_fold2 _ _ _ (fun a x => ?_)).trans ?_)
    | (refine State.ingest_pending _ _ _ _ _ _ (fun u c => ?_) (fun u c => ?_))
    | (refine State.sessionWrite_pending _ _ _ _ _ _ (fun u => ?_))
    | (refine State.request_pending _ _ _ _ _ _ (fun u => ?_))
    | split
    | simp [*]
theorem execSwGrantSpent_pending {d : Nat} {s : State} {s1 : State} (h : execSwGrantSpent d s = .next s1) : s1.pending = s.pending := by
  unfold execSwGrantSpent at h
  repeat' split at h
  all_goals (cases h; simp)
theorem execLinkWiden_pending {isPeer : Bool} {port : Nat} {s : State} {s1 : State} (h : execLinkWiden isPeer port s = .next s1) : s1.pending = s.pending := by
  unfold execLinkWiden at h
  repeat' split at h
  all_goals (cases h; simp)
theorem execThermalDerate_pending {temp : Nat} {s : State} {s1 : State} (h : execThermalDerate temp s = .next s1) : s1.pending = s.pending := by
  unfold execThermalDerate at h
  cases h
  simp
theorem execRefclkLoss_pending {clk : Nat} {s : State} {s1 : State} (h : execRefclkLoss clk s = .next s1) : s1.pending = s.pending := by
  unfold execRefclkLoss at h
  (try dsimp only at h)
  repeat' split at h
  all_goals (simp only [Host.Outcome.next.injEq] at h; subst h)
  all_goals repeat' first
    | with_reducible rfl
    | (simp; done)
    | (refine (pending_foldl _ _ _ (fun a x => ?_)).trans ?_)
    | (refine (pending_fold1 _ _ _ (fun a x => ?_)).trans ?_)
    | (refine (pending_fold2 _ _ _ (fun a x => ?_)).trans ?_)
    | (refine State.ingest_pending _ _ _ _ _ _ (fun u c => ?_) (fun u c => ?_))
    | (refine State.sessionWrite_pending _ _ _ _ _ _ (fun u => ?_))
    | (refine State.request_pending _ _ _ _ _ _ (fun u => ?_))
    | split
    | simp [*]
theorem execFlexPortEnable_pending {sid : Nat} {p : Nat} {s : State} {s1 : State} (h : execFlexPortEnable sid p s = .next s1) : s1.pending = s.pending := by
  unfold execFlexPortEnable at h
  (try dsimp only at h)
  repeat' split at h
  all_goals (simp only [Host.Outcome.next.injEq] at h; subst h)
  all_goals repeat' first
    | with_reducible rfl
    | (simp; done)
    | (refine (pending_foldl _ _ _ (fun a x => ?_)).trans ?_)
    | (refine (pending_fold1 _ _ _ (fun a x => ?_)).trans ?_)
    | (refine (pending_fold2 _ _ _ (fun a x => ?_)).trans ?_)
    | (refine State.ingest_pending _ _ _ _ _ _ (fun u c => ?_) (fun u c => ?_))
    | (refine State.sessionWrite_pending _ _ _ _ _ _ (fun u => ?_))
    | (refine State.request_pending _ _ _ _ _ _ (fun u => ?_))
    | split
    | simp [*]
theorem execFlexPortDisable_pending {sid : Nat} {p : Nat} {s : State} {s1 : State} (h : execFlexPortDisable sid p s = .next s1) : s1.pending = s.pending := by
  unfold execFlexPortDisable at h
  (try dsimp only at h)
  repeat' split at h
  all_goals (simp only [Host.Outcome.next.injEq] at h; subst h)
  all_goals repeat' first
    | with_reducible rfl
    | (simp; done)
    | (refine (pending_foldl _ _ _ (fun a x => ?_)).trans ?_)
    | (refine (pending_fold1 _ _ _ (fun a x => ?_)).trans ?_)
    | (refine (pending_fold2 _ _ _ (fun a x => ?_)).trans ?_)
    | (refine State.ingest_pending _ _ _ _ _ _ (fun u c => ?_) (fun u c => ?_))
    | (refine State.sessionWrite_pending _ _ _ _ _ _ (fun u => ?_))
    | (refine State.request_pending _ _ _ _ _ _ (fun u => ?_))
    | split
    | simp [*]
theorem execFlexLinkTrained_pending {p : Nat} {partner : FlexPartner} {s : State} {s1 : State} (h : execFlexLinkTrained p partner s = .next s1) : s1.pending = s.pending := by
  unfold execFlexLinkTrained at h
  cases h
  repeat' first | with_reducible rfl | split | simp [*]
theorem execFlexLaneFailure_pending {p : Nat} {width : Nat} {s : State} {s1 : State} (h : execFlexLaneFailure p width s = .next s1) : s1.pending = s.pending := by
  unfold execFlexLaneFailure at h
  (try dsimp only at h)
  repeat' split at h
  all_goals (cases h; simp [*])
theorem execNvmeCommandComplete_pending {p : Nat} {cid : Nat} {ok : Bool} {s : State} {s1 : State} (h : execNvmeCommandComplete p cid ok s = .next s1) : s1.pending = s.pending := by
  unfold execNvmeCommandComplete at h
  (try dsimp only at h)
  repeat' split at h
  all_goals (simp only [Host.Outcome.next.injEq] at h; subst h)
  all_goals repeat' first
    | with_reducible rfl
    | (simp; done)
    | (refine (pending_foldl _ _ _ (fun a x => ?_)).trans ?_)
    | (refine (pending_fold1 _ _ _ (fun a x => ?_)).trans ?_)
    | (refine (pending_fold2 _ _ _ (fun a x => ?_)).trans ?_)
    | (refine State.ingest_pending _ _ _ _ _ _ (fun u c => ?_) (fun u c => ?_))
    | (refine State.sessionWrite_pending _ _ _ _ _ _ (fun u => ?_))
    | (refine State.request_pending _ _ _ _ _ _ (fun u => ?_))
    | split
    | simp [*]
theorem execNvmeCommandTimeout_pending {p : Nat} {cid : Nat} {s : State} {s1 : State} (h : execNvmeCommandTimeout p cid s = .next s1) : s1.pending = s.pending := by
  unfold execNvmeCommandTimeout at h
  (try dsimp only at h)
  repeat' split at h
  all_goals (cases h; simp [*])
theorem execNvmeAbortTimeout_pending {p : Nat} {cid : Nat} {s : State} {s1 : State} (h : execNvmeAbortTimeout p cid s = .next s1) : s1.pending = s.pending := by
  unfold execNvmeAbortTimeout at h
  (try dsimp only at h)
  repeat' split at h
  all_goals (cases h; simp [*])
theorem execFlitTransmit_pending {q : Nat} {s : State} {s1 : State} (h : execFlitTransmit q s = .next s1) : s1.pending = s.pending := by
  unfold execFlitTransmit at h
  repeat' split at h
  all_goals (cases h; simp)
theorem execFlitReceive_pending {q : Nat} {f : Flit} {s : State} {s1 : State} (h : execFlitReceive q f s = .next s1) : s1.pending = s.pending := by
  unfold execFlitReceive at h
  (try dsimp only at h)
  repeat' split at h
  all_goals (cases h; first | (simp [*]; done) | (refine (pending_foldl _ _ _ (fun a k => State.spdmIn_pending _ _ _)).trans ?_; simp [*]))
theorem execReplayTimeout_pending {q : Nat} {s : State} {s1 : State} (h : execReplayTimeout q s = .next s1) : s1.pending = s.pending := by
  unfold execReplayTimeout at h
  cases h
  repeat' first | with_reducible rfl | split | simp [*]
theorem execPeerLaneFailure_pending {q : Nat} {lane : Nat} {s : State} {s1 : State} (h : execPeerLaneFailure q lane s = .next s1) : s1.pending = s.pending := by
  unfold execPeerLaneFailure at h
  (try dsimp only at h)
  repeat' split at h
  all_goals (cases h; simp [*])
theorem execPeerLinkLoss_pending {q : Nat} {s : State} {s1 : State} (h : execPeerLinkLoss q s = .next s1) : s1.pending = s.pending := by
  unfold execPeerLinkLoss at h
  cases h
  repeat' first | with_reducible rfl | split | simp [*]
theorem execHandover_pending {via : Nat} {q : Nat} {lastFseq : Nat} {s : State} {s1 : State} (h : execHandover via q lastFseq s = .next s1) : s1.pending = s.pending := by
  unfold execHandover at h
  (try dsimp only at h)
  repeat' split at h
  all_goals (cases h; simp [*])
theorem execLinkHoldExpiry_pending {q : Nat} {s : State} {s1 : State} (h : execLinkHoldExpiry q s = .next s1) : s1.pending = s.pending := by
  unfold execLinkHoldExpiry at h
  repeat' split at h
  all_goals (cases h; simp)
theorem execPeerPortEnable_pending {sid : Nat} {q : Nat} {s : State} {s1 : State} (h : execPeerPortEnable sid q s = .next s1) : s1.pending = s.pending := by
  unfold execPeerPortEnable at h
  (try dsimp only at h)
  repeat' split at h
  all_goals (simp only [Host.Outcome.next.injEq] at h; subst h)
  all_goals repeat' first
    | with_reducible rfl
    | (simp; done)
    | (refine (pending_foldl _ _ _ (fun a x => ?_)).trans ?_)
    | (refine (pending_fold1 _ _ _ (fun a x => ?_)).trans ?_)
    | (refine (pending_fold2 _ _ _ (fun a x => ?_)).trans ?_)
    | (refine State.ingest_pending _ _ _ _ _ _ (fun u c => ?_) (fun u c => ?_))
    | (refine State.sessionWrite_pending _ _ _ _ _ _ (fun u => ?_))
    | (refine State.request_pending _ _ _ _ _ _ (fun u => ?_))
    | split
    | simp [*]
theorem execPresetTimeout_pending {q : Nat} {lane : Nat} {s : State} {s1 : State} (h : execPresetTimeout q lane s = .next s1) : s1.pending = s.pending := by
  unfold execPresetTimeout at h
  cases h
  repeat' first | with_reducible rfl | split | simp [*]
theorem execPeerTrainingDone_pending {q : Nat} {lanes : Nat} {presets : Bytes} {s : State} {s1 : State} (h : execPeerTrainingDone q lanes presets s = .next s1) : s1.pending = s.pending := by
  unfold execPeerTrainingDone at h
  (try dsimp only at h)
  repeat' split at h
  all_goals (cases h; simp [*])
theorem execPeerAuthenticated_pending {q : Nat} {chain : Sys2Proof.Bytes} {peerIdObj : Nat} {peerSerial : Nat} {s : Sys2Proof.Machine.State} {s1 : State} (h : execPeerAuthenticated q chain peerIdObj peerSerial s = .next s1) : s1.pending = s.pending := by
  unfold execPeerAuthenticated at h
  extract_lets anchor noId fail dup loop srcQ s1 s2 s3 s4 s5 s6 at h
  have e1 : s1.pending = s.pending := pending_ite rfl (State.setPeer_pending _ _ _)
  clear_value s1
  have e2 : s2.pending = s.pending := pending_ite ((State.flag_pending _ _ _ _).trans e1) e1
  clear_value s2
  have e3 : s3.pending = s.pending := pending_ite ((State.peerFlag_pending _ _ _).trans e2) e2
  clear_value s3
  have e4 : s4.pending = s.pending := pending_ite ((State.peerFlag_pending _ _ _).trans e3) e3
  clear_value s4
  have e5 : s5.pending = s.pending := pending_ite ((State.peerFlag_pending _ _ _).trans e4) e4
  clear_value s5
  have e6 : s6.pending = s.pending := pending_ite ((State.peerFlag_pending _ _ _).trans e5) e5
  clear_value s6
  split at h
  · simp only [Host.Outcome.next.injEq] at h; subst h; rfl
  · simp only [Host.Outcome.next.injEq] at h; subst h
    exact pending_ite e6 (pending_ite ((State.peerActive_pending _ _ _).trans e6) ((State.setPeer_pending _ _ _).trans e6))
theorem execGetVersion_pending {ch : SpdmCh} {s : State} {s1 : State} (h : execGetVersion ch s = .next s1) : s1.pending = s.pending := by
  unfold execGetVersion at h
  cases h
  repeat' first | with_reducible rfl | split | simp [*]
theorem execGetCapabilities_pending {ch : SpdmCh} {s : State} {s1 : State} (h : execGetCapabilities ch s = .next s1) : s1.pending = s.pending := by
  unfold execGetCapabilities at h
  cases h
  simp
theorem execNegotiateAlgorithms_pending {ch : SpdmCh} {offersSuite : Bool} {s : State} {s1 : State} (h : execNegotiateAlgorithms ch offersSuite s = .next s1) : s1.pending = s.pending := by
  unfold execNegotiateAlgorithms at h
  cases h
  repeat' first | with_reducible rfl | split | simp [*]
theorem execGetCertificate_pending {ch : SpdmCh} {off : Nat} {len : Nat} {s : State} {s1 : State} (h : execGetCertificate ch off len s = .next s1) : s1.pending = s.pending := by
  unfold execGetCertificate at h
  cases h
  simp
theorem execKeyExchange_pending {ch : SpdmCh} {chain : Bytes} {valid : Bool} {s : State} {s1 : State} (h : execKeyExchange ch chain valid s = .next s1) : s1.pending = s.pending := by
  unfold execKeyExchange at h
  (try dsimp only at h)
  repeat' split at h
  all_goals (cases h; simp [*])
theorem execFinish_pending {ch : SpdmCh} {valid : Bool} {s : State} {s1 : State} (h : execFinish ch valid s = .next s1) : s1.pending = s.pending := by
  unfold execFinish at h
  cases h
  repeat' first | with_reducible rfl | split | simp [*]
theorem execGetMeasurements_pending {ch : SpdmCh} {idx : Nat} {s : State} {s1 : State} (h : execGetMeasurements ch idx s = .next s1) : s1.pending = s.pending := by
  unfold execGetMeasurements at h
  repeat' split at h
  all_goals (cases h; simp)
theorem execKeyUpdate_pending {q : Nat} {s : State} {s1 : State} (h : execKeyUpdate q s = .next s1) : s1.pending = s.pending := by
  unfold execKeyUpdate at h
  cases h
  repeat' first | with_reducible rfl | split | simp [*]
theorem execKeyLifeExpiry_pending {q : Nat} {s : State} {s1 : State} (h : execKeyLifeExpiry q s = .next s1) : s1.pending = s.pending := by
  unfold execKeyLifeExpiry at h
  (try dsimp only at h)
  repeat' split at h
  all_goals (cases h; simp [*])
theorem execSyncReq_pending {q : Nat} {t1 : Nat} {s : State} {s1 : State} (h : execSyncReq q t1 s = .next s1) : s1.pending = s.pending := by
  unfold execSyncReq at h
  cases h
  repeat' first | with_reducible rfl | split | simp [*]
theorem execSyncResp_pending {q : Nat} {t1 : Nat} {t2 : Nat} {t3 : Nat} {t4 : Nat} {root : Nat} {hops : Nat} {sender : Nat} {replayed : Bool} {s : State} {s1 : State} (h : execSyncResp q t1 t2 t3 t4 root hops sender replayed s = .next s1) : s1.pending = s.pending := by
  unfold execSyncResp at h
  (try dsimp only at h)
  repeat' split at h
  all_goals (cases h; simp [*])
theorem execCellAdmit_pending {die : Nat} {inPort : Nat} {pkt : Sys2Proof.Packet} {outPort : Nat} {s0 : Sys2Proof.Machine.State} {s1 : State} (h : execCellAdmit die inPort pkt outPort s0 = .next s1) : s1.pending = s0.pending := by
  unfold execCellAdmit at h
  repeat' (first | split at h | dsimp only at h)
  all_goals (simp only [Host.Outcome.next.injEq] at h; subst h)
  all_goals repeat' first | with_reducible rfl | split | (simp; done)
theorem execCellCross_pending {die : Nat} {outPort : Nat} {s : State} {s1 : State} (h : execCellCross die outPort s = .next s1) : s1.pending = s.pending := by
  unfold execCellCross at h
  repeat' split at h
  all_goals (cases h; simp)
theorem execCutThroughCheckResult_pending {die : Nat} {inPort : Nat} {ok : Bool} {s : State} {s1 : State} (h : execCutThroughCheckResult die inPort ok s = .next s1) : s1.pending = s.pending := by
  unfold execCutThroughCheckResult at h
  (try dsimp only at h)
  repeat' split at h
  all_goals (simp only [Host.Outcome.next.injEq] at h; subst h)
  all_goals repeat' first
    | with_reducible rfl
    | (simp; done)
    | (refine (pending_foldl _ _ _ (fun a x => ?_)).trans ?_)
    | (refine (pending_fold1 _ _ _ (fun a x => ?_)).trans ?_)
    | (refine (pending_fold2 _ _ _ (fun a x => ?_)).trans ?_)
    | (refine State.ingest_pending _ _ _ _ _ _ (fun u c => ?_) (fun u c => ?_))
    | (refine State.sessionWrite_pending _ _ _ _ _ _ (fun u => ?_))
    | (refine State.request_pending _ _ _ _ _ _ (fun u => ?_))
    | split
    | simp [*]
theorem execRouteMemberMove_pending {die : Nat} {inPort : Nat} {tc : Nat} {tenant : Nat} {dev : Nat} {s : State} {s1 : State} (h : execRouteMemberMove die inPort tc tenant dev s = .next s1) : s1.pending = s.pending := by
  unfold execRouteMemberMove at h
  (try dsimp only at h)
  repeat' split at h
  all_goals (cases h; simp [*])
theorem execQuiesce_pending {at_ : Ingress} {s : State} {s1 : State} (h : execQuiesce at_ s = .next s1) : s1.pending = s.pending := by
  unfold execQuiesce at h
  repeat' split at h
  all_goals (cases h; simp)
theorem execQuiesced_pending {at_ : Ingress} {s : State} {s1 : State} (h : execQuiesced at_ s = .next s1) : s1.pending = s.pending := by
  unfold execQuiesced at h
  (try dsimp only at h)
  repeat' split at h
  all_goals (cases h; simp [*])
theorem execRevoke_pending {eid : Nat} {s : State} {s1 : State} (h : execRevoke eid s = .next s1) : s1.pending = s.pending := by
  unfold execRevoke at h
  cases h
  simp
theorem execHalt_pending {at_ : Ingress} {s : State} {s1 : State} (h : execHalt at_ s = .next s1) : s1.pending = s.pending := by
  unfold execHalt at h
  repeat' split at h
  all_goals (cases h; simp)
theorem execAlloc_pending {sid : Nat} {blob : Bytes} {s : State} {s1 : State} (h : execAlloc sid blob s = .next s1) : s1.pending = s.pending := by
  unfold execAlloc at h
  cases h
  exact State.sessionWrite_pending _ _ _ _ _ _ (fun _ => by simp)
theorem execExtentAccept_pending {p : Nat} {l : Nat} {slot : Nat} {s : State} {s1 : State} (h : execExtentAccept p l slot s = .next s1) : s1.pending = s.pending := by
  unfold execExtentAccept at h
  (try dsimp only at h)
  repeat' split at h
  all_goals (cases h; simp [*])
theorem execOfferTimeout_pending {eid : Nat} {s : State} {s1 : State} (h : execOfferTimeout eid s = .next s1) : s1.pending = s.pending := by
  unfold execOfferTimeout at h
  repeat' split at h
  all_goals (cases h; simp)
theorem execReleaseDynamicCapacity_pending {p : Nat} {l : Nat} {slot : Nat} {s0 : Sys2Proof.Machine.State} {s1 : State} (h : execReleaseDynamicCapacity p l slot s0 = .next s1) : s1.pending = s0.pending := by
  unfold execReleaseDynamicCapacity at h
  (try dsimp only at h)
  repeat' split at h
  all_goals (simp only [Host.Outcome.next.injEq] at h; subst h)
  all_goals repeat' first
    | with_reducible rfl
    | (simp; done)
    | (refine (pending_foldl _ _ _ (fun a x => ?_)).trans ?_)
    | (refine (pending_fold1 _ _ _ (fun a x => ?_)).trans ?_)
    | (refine (pending_fold2 _ _ _ (fun a x => ?_)).trans ?_)
    | (refine State.ingest_pending _ _ _ _ _ _ (fun u c => ?_) (fun u c => ?_))
    | (refine State.sessionWrite_pending _ _ _ _ _ _ (fun u => ?_))
    | (refine State.request_pending _ _ _ _ _ _ (fun u => ?_))
    | split
    | simp [*]
theorem execRevokeExtent_pending {sid : Nat} {eid : Nat} {s : State} {s1 : State} (h : execRevokeExtent sid eid s = .next s1) : s1.pending = s.pending := by
  unfold execRevokeExtent at h
  cases h
  refine State.sessionWrite_pending _ _ _ _ _ _ (fun _ => ?_)
  repeat' first | with_reducible rfl | split | simp [*]
theorem execDrainComplete_pending {eid : Nat} {s : State} {s1 : State} (h : execDrainComplete eid s = .next s1) : s1.pending = s.pending := by
  unfold execDrainComplete at h
  repeat' split at h
  all_goals (cases h; simp)
theorem execDrainTimeout_pending {eid : Nat} {s : State} {s1 : State} (h : execDrainTimeout eid s = .next s1) : s1.pending = s.pending := by
  unfold execDrainTimeout at h
  repeat' split at h
  all_goals (cases h; simp)
theorem execQuarantineRelease_pending {eid : Nat} {s : State} {s1 : State} (h : execQuarantineRelease eid s = .next s1) : s1.pending = s.pending := by
  unfold execQuarantineRelease at h
  repeat' split at h
  all_goals (cases h; simp)
theorem execScrubComplete_pending {eid : Nat} {s : State} {s1 : State} (h : execScrubComplete eid s = .next s1) : s1.pending = s.pending := by
  unfold execScrubComplete at h
  repeat' split at h
  all_goals (cases h; simp)
theorem execLeaseDoorbell_pending {p : Nat} {l : Nat} {value : Nat} {size : Nat} {s : State} {s1 : State} (h : execLeaseDoorbell p l value size s = .next s1) : s1.pending = s.pending := by
  unfold execLeaseDoorbell at h
  cases h
  simp
theorem execLeaseGrace_pending {p : Nat} {l : Nat} {s : State} {s1 : State} (h : execLeaseGrace p l s = .next s1) : s1.pending = s.pending := by
  unfold execLeaseGrace at h
  (try dsimp only at h)
  repeat' split at h
  all_goals (cases h; simp [*])
theorem execLeaseExpired_pending {p : Nat} {l : Nat} {s : State} {s1 : State} (h : execLeaseExpired p l s = .next s1) : s1.pending = s.pending := by
  unfold execLeaseExpired at h
  (try dsimp only at h)
  repeat' split at h
  all_goals (cases h; simp [*])
theorem execLentPathLoss_pending {eid : Nat} {s : State} {s1 : State} (h : execLentPathLoss eid s = .next s1) : s1.pending = s.pending := by
  unfold execLentPathLoss at h
  repeat' split at h
  all_goals (cases h; simp)
theorem execHostRead_pending {p : Nat} {l : Nat} {space : HostSpace} {addr : Nat} {len : Nat} {s : State} {s1 : State} (h : execHostRead p l space addr len s = .next s1) : s1.pending = s.pending := by
  unfold execHostRead at h
  repeat' split at h
  all_goals (cases h; simp)
theorem execHostWrite_pending {p : Nat} {l : Nat} {space : HostSpace} {addr : Nat} {data : Bytes} {s : State} {s1 : State} (h : execHostWrite p l space addr data s = .next s1) : s1.pending = s.pending := by
  unfold execHostWrite at h
  repeat' split at h
  all_goals (cases h; simp)
theorem execHdmDbWrite_pending {p : Nat} {l : Nat} {addr : Nat} {s : State} {s1 : State} (h : execHdmDbWrite p l addr s = .next s1) : s1.pending = s.pending := by
  unfold execHdmDbWrite at h
  repeat' split at h
  all_goals (cases h; simp)
theorem execMemWriteApply_pending {wid : Nat} {s : State} {s1 : State} (h : execMemWriteApply wid s = .next s1) : s1.pending = s.pending := by
  unfold execMemWriteApply at h
  (try dsimp only at h)
  repeat' split at h
  all_goals (cases h; simp [*])
theorem execAtomic_pending {src : Source} {op : AtomicOp} {addr : Nat} {size : Nat} {operand : Nat} {compare : Nat} {s : State} {s1 : State} (h : execAtomic src op addr size operand compare s = .next s1) : s1.pending = s.pending := by
  unfold execAtomic at h
  (try dsimp only at h)
  repeat' split at h
  all_goals (cases h; simp [*])
theorem execDonorOffer_pending {p : Nat} {l : Nat} {i : Nat} {s : State} {s1 : State} (h : execDonorOffer p l i s = .next s1) : s1.pending = s.pending := by
  unfold execDonorOffer at h
  cases h
  simp
theorem execDonorRevoke_pending {p : Nat} {l : Nat} {i : Nat} {s : State} {s1 : State} (h : execDonorRevoke p l i s = .next s1) : s1.pending = s.pending := by
  unfold execDonorRevoke at h
  cases h
  simp
theorem execDonorReleased_pending {p : Nat} {l : Nat} {i : Nat} {s : State} {s1 : State} (h : execDonorReleased p l i s = .next s1) : s1.pending = s.pending := by
  unfold execDonorReleased at h
  (try dsimp only at h)
  repeat' split at h
  all_goals (cases h; simp [*])
theorem execDonorPortDown_pending {p : Nat} {s : State} {s1 : State} (h : execDonorPortDown p s = .next s1) : s1.pending = s.pending := by
  unfold execDonorPortDown at h
  cases h
  repeat' first | with_reducible rfl | split | simp [*]
theorem execPublishExtent_pending {p : Nat} {l : Nat} {r : Nat} {s : State} {s1 : State} (h : execPublishExtent p l r s = .next s1) : s1.pending = s.pending := by
  unfold execPublishExtent at h
  cases h
  exact State.ingest_pending _ _ _ _ _ _ (fun _ _ => by simp) (fun _ _ => by simp)
theorem execBackingFailure_pending {b : Backing} {s : State} {s1 : State} (h : execBackingFailure b s = .next s1) : s1.pending = s.pending := by
  unfold execBackingFailure at h
  repeat' split at h
  all_goals (cases h; simp)
theorem execCtlCopyLoss_pending {p : Nat} {l : Nat} {second : Bool} {s : State} {s1 : State} (h : execCtlCopyLoss p l second s = .next s1) : s1.pending = s.pending := by
  unfold execCtlCopyLoss at h
  (try dsimp only at h)
  repeat' split at h
  all_goals (simp only [Host.Outcome.next.injEq] at h; subst h)
  all_goals repeat' first
    | with_reducible rfl
    | (simp; done)
    | (refine (pending_foldl _ _ _ (fun a x => ?_)).trans ?_)
    | (refine (pending_fold1 _ _ _ (fun a x => ?_)).trans ?_)
    | (refine (pending_fold2 _ _ _ (fun a x => ?_)).trans ?_)
    | (refine State.ingest_pending _ _ _ _ _ _ (fun u c => ?_) (fun u c => ?_))
    | (refine State.sessionWrite_pending _ _ _ _ _ _ (fun u => ?_))
    | (refine State.request_pending _ _ _ _ _ _ (fun u => ?_))
    | split
    | simp [*]
theorem execRepairBacking_pending {sid : Nat} {value : Nat} {s : State} {s1 : State} (h : execRepairBacking sid value s = .next s1) : s1.pending = s.pending := by
  unfold execRepairBacking at h
  cases h
  refine State.sessionWrite_pending _ _ _ _ _ _ (fun _ => ?_)
  repeat' first | with_reducible rfl | split | simp [*]
theorem execRepairTestComplete_pending {eid : Nat} {ok : Bool} {s : State} {s1 : State} (h : execRepairTestComplete eid ok s = .next s1) : s1.pending = s.pending := by
  unfold execRepairTestComplete at h
  repeat' split at h
  all_goals (cases h; simp)
theorem execFlagData_pending {p : Nat} {l : Nat} {data : Nat} {s : State} {s1 : State} (h : execFlagData p l data s = .next s1) : s1.pending = s.pending := by
  unfold execFlagData at h
  repeat' split at h
  all_goals (cases h; simp)
theorem execFlaggedStoreApply_pending {src : Source} {s : State} {s1 : State} (h : execFlaggedStoreApply src s = .next s1) : s1.pending = s.pending := by
  unfold execFlaggedStoreApply at h
  repeat' split at h
  all_goals (cases h; simp)
theorem execFlushCtrl_pending {p : Nat} {l : Nat} {seq : Nat} {s : State} {s1 : State} (h : execFlushCtrl p l seq s = .next s1) : s1.pending = s.pending := by
  unfold execFlushCtrl at h
  repeat' split at h
  all_goals (cases h; simp)
theorem execFlushComplete_pending {p : Nat} {l : Nat} {s : State} {s1 : State} (h : execFlushComplete p l s = .next s1) : s1.pending = s.pending := by
  unfold execFlushComplete at h
  (try dsimp only at h)
  repeat' split at h
  all_goals (cases h; simp [*])
theorem execRdShared_pending {a : Sys2Proof.Agent} {r : Sys2Proof.LineRead} {s : Sys2Proof.Machine.State} {s1 : State} (h : execRdShared a r s = .next s1) : s1.pending = s.pending := by
  unfold execRdShared at h
  (try dsimp only at h)
  repeat' split at h
  all_goals (simp only [Host.Outcome.next.injEq] at h; subst h)
  all_goals repeat' first
    | with_reducible rfl
    | (simp; done)
    | (refine (pending_foldl _ _ _ (fun a x => ?_)).trans ?_)
    | (refine (pending_fold1 _ _ _ (fun a x => ?_)).trans ?_)
    | (refine (pending_fold2 _ _ _ (fun a x => ?_)).trans ?_)
    | (refine State.ingest_pending _ _ _ _ _ _ (fun u c => ?_) (fun u c => ?_))
    | (refine State.sessionWrite_pending _ _ _ _ _ _ (fun u => ?_))
    | (refine State.request_pending _ _ _ _ _ _ (fun u => ?_))
    | split
    | simp [*]
theorem execRdOwn_pending {a : Sys2Proof.Agent} {r : Sys2Proof.LineOwn} {s : Sys2Proof.Machine.State} {s1 : State} (h : execRdOwn a r s = .next s1) : s1.pending = s.pending := by
  unfold execRdOwn at h
  (try dsimp only at h)
  repeat' split at h
  all_goals (simp only [Host.Outcome.next.injEq] at h; subst h)
  all_goals repeat' first
    | with_reducible rfl
    | (simp; done)
    | (refine (pending_foldl _ _ _ (fun a x => ?_)).trans ?_)
    | (refine (pending_fold1 _ _ _ (fun a x => ?_)).trans ?_)
    | (refine (pending_fold2 _ _ _ (fun a x => ?_)).trans ?_)
    | (refine State.ingest_pending _ _ _ _ _ _ (fun u c => ?_) (fun u c => ?_))
    | (refine State.sessionWrite_pending _ _ _ _ _ _ (fun u => ?_))
    | (refine State.request_pending _ _ _ _ _ _ (fun u => ?_))
    | split
    | simp [*]
theorem execUpgrade_pending {a : Sys2Proof.Agent} {r : Sys2Proof.LineOwn} {s : Sys2Proof.Machine.State} {s1 : State} (h : execUpgrade a r s = .next s1) : s1.pending = s.pending := by
  unfold execUpgrade at h
  (try dsimp only at h)
  repeat' split at h
  all_goals (simp only [Host.Outcome.next.injEq] at h; subst h)
  all_goals repeat' first
    | with_reducible rfl
    | (simp; done)
    | (refine (pending_foldl _ _ _ (fun a x => ?_)).trans ?_)
    | (refine (pending_fold1 _ _ _ (fun a x => ?_)).trans ?_)
    | (refine (pending_fold2 _ _ _ (fun a x => ?_)).trans ?_)
    | (refine State.ingest_pending _ _ _ _ _ _ (fun u c => ?_) (fun u c => ?_))
    | (refine State.sessionWrite_pending _ _ _ _ _ _ (fun u => ?_))
    | (refine State.request_pending _ _ _ _ _ _ (fun u => ?_))
    | split
    | simp [*]
theorem execWb_pending {a : Sys2Proof.Agent} {r : Sys2Proof.LineBack} {s : Sys2Proof.Machine.State} {s1 : State} (h : execWb a r s = .next s1) : s1.pending = s.pending := by
  unfold execWb at h
  (try dsimp only at h)
  repeat' split at h
  all_goals (simp only [Host.Outcome.next.injEq] at h; subst h)
  all_goals repeat' first
    | with_reducible rfl
    | (simp; done)
    | (refine (pending_foldl _ _ _ (fun a x => ?_)).trans ?_)
    | (refine (pending_fold1 _ _ _ (fun a x => ?_)).trans ?_)
    | (refine (pending_fold2 _ _ _ (fun a x => ?_)).trans ?_)
    | (refine State.ingest_pending _ _ _ _ _ _ (fun u c => ?_) (fun u c => ?_))
    | (refine State.sessionWrite_pending _ _ _ _ _ _ (fun u => ?_))
    | (refine State.request_pending _ _ _ _ _ _ (fun u => ?_))
    | split
    | simp [*]
theorem execSnpInv_pending {a : Agent} {line : Nat} {s : State} {s1 : State} (h : execSnpInv a line s = .next s1) : s1.pending = s.pending := by
  unfold execSnpInv at h
  split at h
  all_goals first
    | (simp only [Host.Outcome.next.injEq] at h; subst h; rfl)
    | (rename_i hr
       have e1 := State.receive_pending hr
       (try dsimp only at h)
       repeat' split at h
       all_goals (simp only [Host.Outcome.next.injEq] at h; subst h; simp [e1]))
theorem execSnpData_pending {a : Agent} {line : Nat} {s : State} {s1 : State} (h : execSnpData a line s = .next s1) : s1.pending = s.pending := by
  unfold execSnpData at h
  split at h
  all_goals first
    | (simp only [Host.Outcome.next.injEq] at h; subst h; rfl)
    | (rename_i hr
       have e1 := State.receive_pending hr
       (try dsimp only at h)
       repeat' split at h
       all_goals (simp only [Host.Outcome.next.injEq] at h; subst h; simp [e1]))
theorem execSnoopResponse_pending {a : Agent} {line : Nat} {rsp : SnpRsp} {s : State} {s1 : State} (h : execSnoopResponse a line rsp s = .next s1) : s1.pending = s.pending := by
  unfold execSnoopResponse at h
  extract_lets k at h
  clear_value k
  split at h
  · rename_i hr
    have e1 := State.receive_pending hr
    simp only [Host.Outcome.next.injEq] at h; subst h; simp [e1]
  · simp only [Host.Outcome.next.injEq] at h; subst h; rfl
theorem execWbPending_pending {a : Agent} {line : Nat} {s : State} {s1 : State} (h : execWbPending a line s = .next s1) : s1.pending = s.pending := by
  unfold execWbPending at h
  split at h
  all_goals first
    | (simp only [Host.Outcome.next.injEq] at h; subst h; rfl)
    | (rename_i hr
       have e1 := State.receive_pending hr
       (try dsimp only at h)
       repeat' split at h
       all_goals (simp only [Host.Outcome.next.injEq] at h; subst h; simp [e1]))
theorem execDataCmp_pending {a : Agent} {line : Nat} {s : State} {s1 : State} (h : execDataCmp a line s = .next s1) : s1.pending = s.pending := by
  unfold execDataCmp at h
  split at h
  all_goals first
    | (simp only [Host.Outcome.next.injEq] at h; subst h; rfl)
    | (rename_i hr
       have e1 := State.receive_pending hr
       (try dsimp only at h)
       repeat' split at h
       all_goals (simp only [Host.Outcome.next.injEq] at h; subst h; simp [e1]))
theorem execWbAck_pending {a : Agent} {line : Nat} {s : State} {s1 : State} (h : execWbAck a line s = .next s1) : s1.pending = s.pending := by
  unfold execWbAck at h
  split at h
  all_goals first
    | (simp only [Host.Outcome.next.injEq] at h; subst h; rfl)
    | (rename_i hr
       have e1 := State.receive_pending hr
       (try dsimp only at h)
       repeat' split at h
       all_goals (simp only [Host.Outcome.next.injEq] at h; subst h; simp [e1]))
theorem execBirsp_pending {p : Nat} {l : Nat} {line : Nat} {s : State} {s1 : State} (h : execBirsp p l line s = .next s1) : s1.pending = s.pending := by
  unfold execBirsp at h
  (try dsimp only at h)
  repeat' split at h
  all_goals (cases h; simp [*])
theorem execBiTimeout_pending {p : Nat} {l : Nat} {line : Nat} {s : State} {s1 : State} (h : execBiTimeout p l line s = .next s1) : s1.pending = s.pending := by
  unfold execBiTimeout at h
  (try dsimp only at h)
  repeat' split at h
  all_goals (cases h; simp [*])
theorem execViewRead_pending {p : Nat} {l : Nat} {line : Nat} {s : State} {s1 : State} (h : execViewRead p l line s = .next s1) : s1.pending = s.pending := by
  unfold execViewRead at h
  repeat' split at h
  all_goals (cases h; simp)
theorem execViewRestore_pending {sid : Nat} {value : Nat} {s : State} {s1 : State} (h : execViewRestore sid value s = .next s1) : s1.pending = s.pending := by
  unfold execViewRestore at h
  cases h
  exact State.sessionWrite_pending _ _ _ _ _ _ (fun _ => by simp)
theorem execFence_pending {src : Source} {scope : Scope} {s : State} {s1 : State} (h : execFence src scope s = .next s1) : s1.pending = s.pending := by
  unfold execFence at h
  cases h
  simp
theorem execSqTail_pending {p : Nat} {l : Nat} {r : Nat} {value : Nat} {s : State} {s1 : State} (h : execSqTail p l r value s = .next s1) : s1.pending = s.pending := by
  unfold execSqTail at h
  repeat' split at h
  all_goals (cases h; simp)
theorem execSqEnable_pending {p : Nat} {l : Nat} {r : Nat} {s : State} {s1 : State} (h : execSqEnable p l r s = .next s1) : s1.pending = s.pending := by
  unfold execSqEnable at h
  repeat' split at h
  all_goals (cases h; simp)
theorem execSqDisable_pending {p : Nat} {l : Nat} {r : Nat} {s : State} {s1 : State} (h : execSqDisable p l r s = .next s1) : s1.pending = s.pending := by
  unfold execSqDisable at h
  repeat' split at h
  all_goals (cases h; simp)
theorem execSqDrained_pending {p : Nat} {l : Nat} {r : Nat} {s : State} {s1 : State} (h : execSqDrained p l r s = .next s1) : s1.pending = s.pending := by
  unfold execSqDrained at h
  cases h
  repeat' first | with_reducible rfl | split | simp [*]
theorem execCqCfg_pending {p : Nat} {l : Nat} {r : Nat} {value : Nat} {s : State} {s1 : State} (h : execCqCfg p l r value s = .next s1) : s1.pending = s.pending := by
  unfold execCqCfg at h
  repeat' split at h
  all_goals (cases h; simp)
theorem execCqHead_pending {p : Nat} {l : Nat} {r : Nat} {value : Nat} {s : State} {s1 : State} (h : execCqHead p l r value s = .next s1) : s1.pending = s.pending := by
  unfold execCqHead at h
  repeat' split at h
  all_goals (cases h; simp)
theorem execEqHead_pending {p : Nat} {l : Nat} {value : Nat} {s : State} {s1 : State} (h : execEqHead p l value s = .next s1) : s1.pending = s.pending := by
  unfold execEqHead at h
  repeat' split at h
  all_goals (cases h; simp)
theorem execCqWriteFail_pending {p : Nat} {l : Nat} {r : Nat} {s : State} {s1 : State} (h : execCqWriteFail p l r s = .next s1) : s1.pending = s.pending := by
  unfold execCqWriteFail at h
  repeat' split at h
  all_goals (cases h; simp)
theorem execPad_pending {p : Nat} {l : Nat} {r : Nat} {s : State} {s1 : State} (h : execPad p l r s = .next s1) : s1.pending = s.pending := by
  unfold execPad at h
  split at h
  · simp only [Host.Outcome.next.injEq] at h; subst h; rfl
  · rename_i hr
    have e1 := State.turn_pending hr
    (try dsimp only at h)
    repeat' split at h
    all_goals (simp only [Host.Outcome.next.injEq] at h; subst h)
    all_goals (try split) <;> simp [e1]
theorem execAttend_pending {p : Nat} {l : Nat} {r : Nat} {s : State} {s1 : State} (h : execAttend p l r s = .next s1) : s1.pending = s.pending := by
  unfold execAttend at h
  cases h
  exact State.ingest_pending _ _ _ _ _ _ (fun _ _ => by simp) (fun _ _ => by simp)
theorem execAttendBwd_pending {p : Nat} {l : Nat} {r : Nat} {s : State} {s1 : State} (h : execAttendBwd p l r s = .next s1) : s1.pending = s.pending := by
  unfold execAttendBwd at h
  cases h
  exact State.ingest_pending _ _ _ _ _ _ (fun _ _ => by simp) (fun _ _ => by simp)
theorem execAppend_pending {p : Nat} {l : Nat} {r : Nat} {s : State} {s1 : State} (h : execAppend p l r s = .next s1) : s1.pending = s.pending := by
  unfold execAppend at h
  cases h
  exact State.ingest_pending _ _ _ _ _ _ (fun _ _ => by simp) (fun _ _ => by simp)
theorem execMirror_pending {m : Mirror} {s : State} {s1 : State} (h : execMirror m s = .next s1) : s1.pending = s.pending := by
  unfold execMirror at h
  cases h
  simp
theorem execMirrorAck_pending {cmd : Nat} {item : Nat} {page : Nat} {s : State} {s1 : State} (h : execMirrorAck cmd item page s = .next s1) : s1.pending = s.pending := by
  unfold execMirrorAck at h
  (try dsimp only at h)
  repeat' split at h
  all_goals (cases h; simp [*])
theorem execMirrorTimeout_pending {cmd : Nat} {item : Nat} {s : State} {s1 : State} (h : execMirrorTimeout cmd item s = .next s1) : s1.pending = s.pending := by
  unfold execMirrorTimeout at h
  repeat' split at h
  all_goals (cases h; simp)
theorem execLookupPrefix_pending {p : Nat} {l : Nat} {r : Nat} {s : State} {s1 : State} (h : execLookupPrefix p l r s = .next s1) : s1.pending = s.pending := by
  unfold execLookupPrefix at h
  cases h
  exact State.ingest_pending _ _ _ _ _ _ (fun _ _ => by simp) (fun _ _ => by simp)
theorem execPublishPrefix_pending {p : Nat} {l : Nat} {r : Nat} {s : State} {s1 : State} (h : execPublishPrefix p l r s = .next s1) : s1.pending = s.pending := by
  unfold execPublishPrefix at h
  cases h
  exact State.ingest_pending _ _ _ _ _ _ (fun _ _ => by simp) (fun _ _ => by simp)
theorem execPin_pending {p : Nat} {l : Nat} {r : Nat} {s : State} {s1 : State} (h : execPin p l r s = .next s1) : s1.pending = s.pending := by
  unfold execPin at h
  cases h
  exact State.ingest_pending _ _ _ _ _ _ (fun _ _ => by simp) (fun _ _ => by simp)
theorem execUnpin_pending {p : Nat} {l : Nat} {r : Nat} {s : State} {s1 : State} (h : execUnpin p l r s = .next s1) : s1.pending = s.pending := by
  unfold execUnpin at h
  cases h
  exact State.ingest_pending _ _ _ _ _ _ (fun _ _ => by simp) (fun _ _ => by simp)
theorem execMigrate_pending {p : Nat} {l : Nat} {r : Nat} {s : State} {s1 : State} (h : execMigrate p l r s = .next s1) : s1.pending = s.pending := by
  unfold execMigrate at h
  cases h
  exact State.ingest_pending _ _ _ _ _ _ (fun _ _ => by simp) (fun _ _ => by simp)
theorem execOpenSeq_pending {p : Nat} {l : Nat} {r : Nat} {s : State} {s1 : State} (h : execOpenSeq p l r s = .next s1) : s1.pending = s.pending := by
  unfold execOpenSeq at h
  cases h
  exact State.ingest_pending _ _ _ _ _ _ (fun _ _ => by simp) (fun _ _ => by simp)
theorem execCloseSeq_pending {p : Nat} {l : Nat} {r : Nat} {s : State} {s1 : State} (h : execCloseSeq p l r s = .next s1) : s1.pending = s.pending := by
  unfold execCloseSeq at h
  cases h
  exact State.ingest_pending _ _ _ _ _ _ (fun _ _ => by simp) (fun _ _ => by simp)
theorem execSeqCloseFinal_pending {fabTag : Nat} {seqId : Nat} {s : State} {s1 : State} (h : execSeqCloseFinal fabTag seqId s = .next s1) : s1.pending = s.pending := by
  unfold execSeqCloseFinal at h
  (try dsimp only at h)
  repeat' split at h
  all_goals (cases h; simp [*])
theorem execAllreduce_pending {p : Nat} {l : Nat} {r : Nat} {s : State} {s1 : State} (h : execAllreduce p l r s = .next s1) : s1.pending = s.pending := by
  unfold execAllreduce at h
  cases h
  exact State.ingest_pending _ _ _ _ _ _ (fun _ _ => by simp) (fun _ _ => by simp)
theorem execReduceScatter_pending {p : Nat} {l : Nat} {r : Nat} {s : State} {s1 : State} (h : execReduceScatter p l r s = .next s1) : s1.pending = s.pending := by
  unfold execReduceScatter at h
  cases h
  exact State.ingest_pending _ _ _ _ _ _ (fun _ _ => by simp) (fun _ _ => by simp)
theorem execAllgather_pending {p : Nat} {l : Nat} {r : Nat} {s : State} {s1 : State} (h : execAllgather p l r s = .next s1) : s1.pending = s.pending := by
  unfold execAllgather at h
  cases h
  exact State.ingest_pending _ _ _ _ _ _ (fun _ _ => by simp) (fun _ _ => by simp)
theorem execFilterTopk_pending {p : Nat} {l : Nat} {r : Nat} {s : State} {s1 : State} (h : execFilterTopk p l r s = .next s1) : s1.pending = s.pending := by
  unfold execFilterTopk at h
  cases h
  exact State.ingest_pending _ _ _ _ _ _ (fun _ _ => by simp) (fun _ _ => by simp)
theorem execCollContribution_pending {c : Sys2Proof.TiledContribution} {s : Sys2Proof.Machine.State} {s1 : State} (h : execCollContribution c s = .next s1) : s1.pending = s.pending := by
  unfold execCollContribution at h
  (try dsimp only at h)
  repeat' split at h
  all_goals (simp only [Host.Outcome.next.injEq] at h; subst h)
  all_goals repeat' first
    | with_reducible rfl
    | (simp; done)
    | (refine (pending_foldl _ _ _ (fun a x => ?_)).trans ?_)
    | (refine (pending_fold1 _ _ _ (fun a x => ?_)).trans ?_)
    | (refine (pending_fold2 _ _ _ (fun a x => ?_)).trans ?_)
    | (refine State.ingest_pending _ _ _ _ _ _ (fun u c => ?_) (fun u c => ?_))
    | (refine State.sessionWrite_pending _ _ _ _ _ _ (fun u => ?_))
    | (refine State.request_pending _ _ _ _ _ _ (fun u => ?_))
    | split
    | simp [*]
theorem execCollBlockPartial_pending {key : Sys2Proof.CollKey} {par : Sys2Proof.CollParams} {block : Nat} {timeoutMs : Nat} {b : Sys2Proof.BlockSum} {hdrs : List Sys2Proof.Bytes} {s : Sys2Proof.Machine.State} {s1 : State} (h : execCollBlockPartial key par block timeoutMs b hdrs s = .next s1) : s1.pending = s.pending := by
  unfold execCollBlockPartial at h
  (try dsimp only at h)
  repeat' split at h
  all_goals (simp only [Host.Outcome.next.injEq] at h; subst h)
  all_goals repeat' first
    | with_reducible rfl
    | (simp; done)
    | (refine (pending_foldl _ _ _ (fun a x => ?_)).trans ?_)
    | (refine (pending_fold1 _ _ _ (fun a x => ?_)).trans ?_)
    | (refine (pending_fold2 _ _ _ (fun a x => ?_)).trans ?_)
    | (refine State.ingest_pending _ _ _ _ _ _ (fun u c => ?_) (fun u c => ?_))
    | (refine State.sessionWrite_pending _ _ _ _ _ _ (fun u => ?_))
    | (refine State.request_pending _ _ _ _ _ _ (fun u => ?_))
    | split
    | simp [*]
theorem execCollResult_pending {key : Sys2Proof.CollKey} {a : Sys2Proof.CollAnswer} {hdrs : List Sys2Proof.Bytes} {s : Sys2Proof.Machine.State} {s1 : State} (h : execCollResult key a hdrs s = .next s1) : s1.pending = s.pending := by
  unfold execCollResult at h
  (try dsimp only at h)
  repeat' split at h
  all_goals (simp only [Host.Outcome.next.injEq] at h; subst h)
  all_goals repeat' first
    | with_reducible rfl
    | (simp; done)
    | (refine (pending_foldl _ _ _ (fun a x => ?_)).trans ?_)
    | (refine (pending_fold1 _ _ _ (fun a x => ?_)).trans ?_)
    | (refine (pending_fold2 _ _ _ (fun a x => ?_)).trans ?_)
    | (refine State.ingest_pending _ _ _ _ _ _ (fun u c => ?_) (fun u c => ?_))
    | (refine State.sessionWrite_pending _ _ _ _ _ _ (fun u => ?_))
    | (refine State.request_pending _ _ _ _ _ _ (fun u => ?_))
    | split
    | simp [*]
theorem execCollRecordTimeout_pending {key : CollKey} {isTop : RecordAt} {s : State} {s1 : State} (h : execCollRecordTimeout key isTop s = .next s1) : s1.pending = s.pending := by
  unfold execCollRecordTimeout at h
  (try dsimp only at h)
  repeat' split at h
  all_goals (cases h; simp [*])
theorem execCollRankTimeout_pending {cmd : Nat} {s : State} {s1 : State} (h : execCollRankTimeout cmd s = .next s1) : s1.pending = s.pending := by
  unfold execCollRankTimeout at h
  repeat' split at h
  all_goals (cases h; simp)
theorem execGatherRows_pending {p : Nat} {l : Nat} {r : Nat} {s : State} {s1 : State} (h : execGatherRows p l r s = .next s1) : s1.pending = s.pending := by
  unfold execGatherRows at h
  cases h
  exact State.ingest_pending _ _ _ _ _ _ (fun _ _ => by simp) (fun _ _ => by simp)
theorem execLoadTensor_pending {p : Nat} {l : Nat} {r : Nat} {s : State} {s1 : State} (h : execLoadTensor p l r s = .next s1) : s1.pending = s.pending := by
  unfold execLoadTensor at h
  cases h
  exact State.ingest_pending _ _ _ _ _ _ (fun _ _ => by simp) (fun _ _ => by simp)
theorem execFreeTensor_pending {p : Nat} {l : Nat} {r : Nat} {s : State} {s1 : State} (h : execFreeTensor p l r s = .next s1) : s1.pending = s.pending := by
  unfold execFreeTensor at h
  cases h
  exact State.ingest_pending _ _ _ _ _ _ (fun _ _ => by simp) (fun _ _ => by simp)
theorem execTensorScrub_pending {tenant : Nat} {id : Nat} {s : State} {s1 : State} (h : execTensorScrub tenant id s = .next s1) : s1.pending = s.pending := by
  unfold execTensorScrub at h
  cases h
  simp
theorem execInstallPalette_pending {p : Nat} {l : Nat} {r : Nat} {s : State} {s1 : State} (h : execInstallPalette p l r s = .next s1) : s1.pending = s.pending := by
  unfold execInstallPalette at h
  cases h
  exact State.ingest_pending _ _ _ _ _ _ (fun _ _ => by simp) (fun _ _ => by simp)
theorem execFreePalette_pending {p : Nat} {l : Nat} {r : Nat} {s : State} {s1 : State} (h : execFreePalette p l r s = .next s1) : s1.pending = s.pending := by
  unfold execFreePalette at h
  cases h
  exact State.ingest_pending _ _ _ _ _ _ (fun _ _ => by simp) (fun _ _ => by simp)
theorem execDescribe_pending {p : Nat} {l : Nat} {r : Nat} {s : State} {s1 : State} (h : execDescribe p l r s = .next s1) : s1.pending = s.pending := by
  unfold execDescribe at h
  cases h
  exact State.ingest_pending _ _ _ _ _ _ (fun _ _ => by simp) (fun _ _ => by simp)
theorem execInstallRecipe_pending {p : Nat} {l : Nat} {r : Nat} {s : State} {s1 : State} (h : execInstallRecipe p l r s = .next s1) : s1.pending = s.pending := by
  unfold execInstallRecipe at h
  cases h
  exact State.ingest_pending _ _ _ _ _ _ (fun _ _ => by simp) (fun _ _ => by simp)
theorem execRemoveRecipe_pending {p : Nat} {l : Nat} {r : Nat} {s : State} {s1 : State} (h : execRemoveRecipe p l r s = .next s1) : s1.pending = s.pending := by
  unfold execRemoveRecipe at h
  cases h
  exact State.ingest_pending _ _ _ _ _ _ (fun _ _ => by simp) (fun _ _ => by simp)
theorem execRecipeIdFree_pending {tenant : Nat} {id : Nat} {s : State} {s1 : State} (h : execRecipeIdFree tenant id s = .next s1) : s1.pending = s.pending := by
  unfold execRecipeIdFree at h
  repeat' split at h
  all_goals (cases h; simp)
theorem execComposedRecipe_pending {p : Nat} {l : Nat} {r : Nat} {s : State} {s1 : State} (h : execComposedRecipe p l r s = .next s1) : s1.pending = s.pending := by
  unfold execComposedRecipe at h
  cases h
  exact State.ingest_pending _ _ _ _ _ _ (fun _ _ => by simp) (fun _ _ => by simp)
theorem execTileReceive_pending {q : Nat} {t : Tile} {s : State} {s1 : State} (h : execTileReceive q t s = .next s1) : s1.pending = s.pending := by
  unfold execTileReceive at h
  (try dsimp only at h)
  repeat' split at h
  all_goals (simp only [Host.Outcome.next.injEq] at h; subst h)
  all_goals repeat' first
    | with_reducible rfl
    | (simp; done)
    | (refine (pending_foldl _ _ _ (fun a x => ?_)).trans ?_)
    | (refine (pending_fold1 _ _ _ (fun a x => ?_)).trans ?_)
    | (refine (pending_fold2 _ _ _ (fun a x => ?_)).trans ?_)
    | (refine State.ingest_pending _ _ _ _ _ _ (fun u c => ?_) (fun u c => ?_))
    | (refine State.sessionWrite_pending _ _ _ _ _ _ (fun u => ?_))
    | (refine State.request_pending _ _ _ _ _ _ (fun u => ?_))
    | split
    | simp [*]
theorem execCommandComplete_pending {cmd : Nat} {resultWriteOk : Bool} {recordWriteOk : Bool} {s : Sys2Proof.Machine.State} {s1 : State} (h : execCommandComplete cmd resultWriteOk recordWriteOk s = .next s1) : s1.pending = s.pending := by
  unfold execCommandComplete at h
  (try dsimp only at h)
  repeat' split at h
  all_goals (simp only [Host.Outcome.next.injEq] at h; subst h)
  all_goals repeat' first
    | with_reducible rfl
    | (simp; done)
    | (refine (pending_foldl _ _ _ (fun a x => ?_)).trans ?_)
    | (refine (pending_fold1 _ _ _ (fun a x => ?_)).trans ?_)
    | (refine (pending_fold2 _ _ _ (fun a x => ?_)).trans ?_)
    | (refine State.ingest_pending _ _ _ _ _ _ (fun u c => ?_) (fun u c => ?_))
    | (refine State.sessionWrite_pending _ _ _ _ _ _ (fun u => ?_))
    | (refine State.request_pending _ _ _ _ _ _ (fun u => ?_))
    | split
    | simp [*]
theorem execTierDemotion_pending {tier : Nat} {s : State} {s1 : State} (h : execTierDemotion tier s = .next s1) : s1.pending = s.pending := by
  unfold execTierDemotion at h
  repeat' split at h
  all_goals (cases h; simp)
theorem execPageMoveComplete_pending {page : Nat} {s : State} {s1 : State} (h : execPageMoveComplete page s = .next s1) : s1.pending = s.pending := by
  unfold execPageMoveComplete at h
  repeat' split at h
  all_goals (cases h; simp)
theorem execPageReadFail_pending {page : Nat} {tier : Nat} {revoked : Bool} {codeError : Bool} {s : State} {s1 : State} (h : execPageReadFail page tier revoked codeError s = .next s1) : s1.pending = s.pending := by
  unfold execPageReadFail at h
  (try dsimp only at h)
  repeat' split at h
  all_goals (cases h; simp [*])
theorem execSealCoding_pending {page : Nat} {s : State} {s1 : State} (h : execSealCoding page s = .next s1) : s1.pending = s.pending := by
  unfold execSealCoding at h
  (try dsimp only at h)
  repeat' split at h
  all_goals (cases h; simp [*])
theorem execPaletteTraining_pending {tenant : Nat} {set : Nat} {s : State} {s1 : State} (h : execPaletteTraining tenant set s = .next s1) : s1.pending = s.pending := by
  unfold execPaletteTraining at h
  (try dsimp only at h)
  repeat' split at h
  all_goals (cases h; simp [*])
theorem execSweepRecode_pending {die : Nat} {s : State} {s1 : State} (h : execSweepRecode die s = .next s1) : s1.pending = s.pending := by
  unfold execSweepRecode at h
  (try dsimp only at h)
  repeat' split at h
  all_goals (cases h; simp [*])
theorem execSlotFree_pending {slot : Nat} {s : State} {s1 : State} (h : execSlotFree slot s = .next s1) : s1.pending = s.pending := by
  unfold execSlotFree at h
  repeat' split at h
  all_goals (cases h; simp)
theorem execMapGossip_pending {q : Nat} {m : FMap} {resetting : Option Nat} {s : State} {s1 : State} (h : execMapGossip q m resetting s = .next s1) : s1.pending = s.pending := by
  unfold execMapGossip at h
  (try dsimp only at h)
  repeat' split at h
  all_goals (cases h; simp [*])
theorem execMapLossTimeout_pending {dev : Nat} {s : State} {s1 : State} (h : execMapLossTimeout dev s = .next s1) : s1.pending = s.pending := by
  unfold execMapLossTimeout at h
  repeat' split at h
  all_goals (cases h; simp)
theorem execHandoffReceive_pending {src : Nat} {seqs : List SeqImage} {entries : List PrefixImage} {s : State} {s1 : State} (h : execHandoffReceive src seqs entries s = .next s1) : s1.pending = s.pending := by
  unfold execHandoffReceive at h
  (try dsimp only at h)
  repeat' split at h
  all_goals (simp only [Host.Outcome.next.injEq] at h; subst h)
  all_goals repeat' first
    | with_reducible rfl
    | (simp; done)
    | (refine (pending_foldl _ _ _ (fun a x => ?_)).trans ?_)
    | (refine (pending_fold1 _ _ _ (fun a x => ?_)).trans ?_)
    | (refine (pending_fold2 _ _ _ (fun a x => ?_)).trans ?_)
    | (refine State.ingest_pending _ _ _ _ _ _ (fun u c => ?_) (fun u c => ?_))
    | (refine State.sessionWrite_pending _ _ _ _ _ _ (fun u => ?_))
    | (refine State.request_pending _ _ _ _ _ _ (fun u => ?_))
    | split
    | simp [*]
theorem execHandoffAck_pending {src : Nat} {s : State} {s1 : State} (h : execHandoffAck src s = .next s1) : s1.pending = s.pending := by
  unfold execHandoffAck at h
  (try dsimp only at h)
  repeat' split at h
  all_goals (simp only [Host.Outcome.next.injEq] at h; subst h)
  all_goals repeat' first
    | with_reducible rfl
    | (simp; done)
    | (refine (pending_foldl _ _ _ (fun a x => ?_)).trans ?_)
    | (refine (pending_fold1 _ _ _ (fun a x => ?_)).trans ?_)
    | (refine (pending_fold2 _ _ _ (fun a x => ?_)).trans ?_)
    | (refine State.ingest_pending _ _ _ _ _ _ (fun u c => ?_) (fun u c => ?_))
    | (refine State.sessionWrite_pending _ _ _ _ _ _ (fun u => ?_))
    | (refine State.request_pending _ _ _ _ _ _ (fun u => ?_))
    | split
    | simp [*]
theorem execCatchUpComplete_pending {fabTag : Nat} {seqId : Nat} {s : State} {s1 : State} (h : execCatchUpComplete fabTag seqId s = .next s1) : s1.pending = s.pending := by
  unfold execCatchUpComplete at h
  (try dsimp only at h)
  repeat' split at h
  all_goals (cases h; simp [*])
theorem execLinkMessage_pending {k : Sys2Proof.GroupLink} {s : Sys2Proof.Machine.State} {s1 : State} (h : execLinkMessage k s = .next s1) : s1.pending = s.pending := by
  unfold execLinkMessage at h
  (try dsimp only at h)
  repeat' split at h
  all_goals (simp only [Host.Outcome.next.injEq] at h; subst h)
  all_goals repeat' first
    | with_reducible rfl
    | (simp; done)
    | (refine (pending_foldl _ _ _ (fun a x => ?_)).trans ?_)
    | (refine (pending_fold1 _ _ _ (fun a x => ?_)).trans ?_)
    | (refine (pending_fold2 _ _ _ (fun a x => ?_)).trans ?_)
    | (refine State.ingest_pending _ _ _ _ _ _ (fun u c => ?_) (fun u c => ?_))
    | (refine State.sessionWrite_pending _ _ _ _ _ _ (fun u => ?_))
    | (refine State.request_pending _ _ _ _ _ _ (fun u => ?_))
    | split
    | simp [*]
theorem execTenantEnable_pending {sid : Nat} {s : State} {s1 : State} (h : execTenantEnable sid s = .next s1) : s1.pending = s.pending := by
  unfold execTenantEnable at h
  cases h
  exact State.sessionWrite_pending _ _ _ _ _ _ (fun _ => by simp)
theorem execTenantDisable_pending {sid : Nat} {s : State} {s1 : State} (h : execTenantDisable sid s = .next s1) : s1.pending = s.pending := by
  unfold execTenantDisable at h
  cases h
  exact State.sessionWrite_pending _ _ _ _ _ _ (fun _ => by simp)
theorem execTenantRemove_pending {sid : Nat} {q : QSrc} {s : State} {s1 : State} (h : execTenantRemove sid q s = .next s1) : s1.pending = s.pending := by
  unfold execTenantRemove at h
  cases h
  simp
theorem execShapeWrite_pending {sid : Nat} {sub : Nat} {value : Nat} {s : State} {s1 : State} (h : execShapeWrite sid sub value s = .next s1) : s1.pending = s.pending := by
  unfold execShapeWrite at h
  (try dsimp only at h)
  repeat' split at h
  all_goals (simp only [Host.Outcome.next.injEq] at h; subst h)
  all_goals repeat' first
    | with_reducible rfl
    | (simp; done)
    | (refine (pending_foldl _ _ _ (fun a x => ?_)).trans ?_)
    | (refine (pending_fold1 _ _ _ (fun a x => ?_)).trans ?_)
    | (refine (pending_fold2 _ _ _ (fun a x => ?_)).trans ?_)
    | (refine State.ingest_pending _ _ _ _ _ _ (fun u c => ?_) (fun u c => ?_))
    | (refine State.sessionWrite_pending _ _ _ _ _ _ (fun u => ?_))
    | (refine State.request_pending _ _ _ _ _ _ (fun u => ?_))
    | split
    | simp [*]
theorem execLdEnable_pending {sid : Nat} {p : Nat} {l : Nat} {s : State} {s1 : State} (h : execLdEnable sid p l s = .next s1) : s1.pending = s.pending := by
  unfold execLdEnable at h
  (try dsimp only at h)
  repeat' split at h
  all_goals (simp only [Host.Outcome.next.injEq] at h; subst h)
  all_goals repeat' first
    | with_reducible rfl
    | (simp; done)
    | (refine (pending_foldl _ _ _ (fun a x => ?_)).trans ?_)
    | (refine (pending_fold1 _ _ _ (fun a x => ?_)).trans ?_)
    | (refine (pending_fold2 _ _ _ (fun a x => ?_)).trans ?_)
    | (refine State.ingest_pending _ _ _ _ _ _ (fun u c => ?_) (fun u c => ?_))
    | (refine State.sessionWrite_pending _ _ _ _ _ _ (fun u => ?_))
    | (refine State.request_pending _ _ _ _ _ _ (fun u => ?_))
    | split
    | simp [*]
theorem execLdDisable_pending {sid : Nat} {p : Nat} {l : Nat} {s : State} {s1 : State} (h : execLdDisable sid p l s = .next s1) : s1.pending = s.pending := by
  unfold execLdDisable at h
  (try dsimp only at h)
  repeat' split at h
  all_goals (simp only [Host.Outcome.next.injEq] at h; subst h)
  all_goals repeat' first
    | with_reducible rfl
    | (simp; done)
    | (refine (pending_foldl _ _ _ (fun a x => ?_)).trans ?_)
    | (refine (pending_fold1 _ _ _ (fun a x => ?_)).trans ?_)
    | (refine (pending_fold2 _ _ _ (fun a x => ?_)).trans ?_)
    | (refine State.ingest_pending _ _ _ _ _ _ (fun u c => ?_) (fun u c => ?_))
    | (refine State.sessionWrite_pending _ _ _ _ _ _ (fun u => ?_))
    | (refine State.request_pending _ _ _ _ _ _ (fun u => ?_))
    | split
    | simp [*]
theorem execGetTdispVersion_pending {p : Nat} {l : Nat} {s : State} {s1 : State} (h : execGetTdispVersion p l s = .next s1) : s1.pending = s.pending := by
  unfold execGetTdispVersion at h
  cases h
  simp
theorem execGetTdispCapabilities_pending {p : Nat} {l : Nat} {s : State} {s1 : State} (h : execGetTdispCapabilities p l s = .next s1) : s1.pending = s.pending := by
  unfold execGetTdispCapabilities at h
  cases h
  simp
theorem execLockInterfaceRequest_pending {p : Nat} {l : Nat} {s : State} {s1 : State} (h : execLockInterfaceRequest p l s = .next s1) : s1.pending = s.pending := by
  unfold execLockInterfaceRequest at h
  (try dsimp only at h)
  repeat' split at h
  all_goals (cases h; simp [*])
theorem execGetDeviceInterfaceReport_pending {p : Nat} {l : Nat} {s : State} {s1 : State} (h : execGetDeviceInterfaceReport p l s = .next s1) : s1.pending = s.pending := by
  unfold execGetDeviceInterfaceReport at h
  (try dsimp only at h)
  repeat' split at h
  all_goals (cases h; simp [*])
theorem execGetDeviceInterfaceState_pending {p : Nat} {l : Nat} {s : State} {s1 : State} (h : execGetDeviceInterfaceState p l s = .next s1) : s1.pending = s.pending := by
  unfold execGetDeviceInterfaceState at h
  cases h
  simp
theorem execStartInterfaceRequest_pending {p : Nat} {l : Nat} {s : State} {s1 : State} (h : execStartInterfaceRequest p l s = .next s1) : s1.pending = s.pending := by
  unfold execStartInterfaceRequest at h
  (try dsimp only at h)
  repeat' split at h
  all_goals (cases h; simp [*])
theorem execStopInterfaceRequest_pending {p : Nat} {l : Nat} {s : State} {s1 : State} (h : execStopInterfaceRequest p l s = .next s1) : s1.pending = s.pending := by
  unfold execStopInterfaceRequest at h
  repeat' split at h
  all_goals (cases h; simp)
theorem execTdiError_pending {p : Nat} {what : TdiCause} {s : State} {s1 : State} (h : execTdiError p what s = .next s1) : s1.pending = s.pending := by
  unfold execTdiError at h
  cases h
  repeat' first | with_reducible rfl | split | simp [*]
theorem execIdeKmKeyProg_pending {p : Nat} {stream : Nat} {keySet : Nat} {key : IdeKey} {s : State} {s1 : State} (h : execIdeKmKeyProg p stream keySet key s = .next s1) : s1.pending = s.pending := by
  unfold execIdeKmKeyProg at h
  repeat' split at h
  all_goals (cases h; simp)
theorem execKSetGo_pending {p : Nat} {stream : Nat} {s : State} {s1 : State} (h : execKSetGo p stream s = .next s1) : s1.pending = s.pending := by
  unfold execKSetGo at h
  cases h
  repeat' first | with_reducible rfl | split | simp [*]
theorem execEnroll_pending {sid : Nat} {q : QSrc} {s : State} {s1 : State} (h : execEnroll sid q s = .next s1) : s1.pending = s.pending := by
  unfold execEnroll at h
  cases h
  simp
theorem execUnenroll_pending {sid : Nat} {q : QSrc} {s : State} {s1 : State} (h : execUnenroll sid q s = .next s1) : s1.pending = s.pending := by
  unfold execUnenroll at h
  cases h
  simp
theorem execQuorumK_pending {sid : Nat} {q : QSrc} {s : State} {s1 : State} (h : execQuorumK sid q s = .next s1) : s1.pending = s.pending := by
  unfold execQuorumK at h
  cases h
  simp
theorem execClaimDone_pending {sid : Nat} {value : Nat} {s : State} {s1 : State} (h : execClaimDone sid value s = .next s1) : s1.pending = s.pending := by
  unfold execClaimDone at h
  cases h
  simp
theorem execCertSlot1_pending {sid : Nat} {q : QSrc} {s : State} {s1 : State} (h : execCertSlot1 sid q s = .next s1) : s1.pending = s.pending := by
  unfold execCertSlot1 at h
  cases h
  simp
theorem execFabricAnchor_pending {sid : Nat} {q : QSrc} {s : State} {s1 : State} (h : execFabricAnchor sid q s = .next s1) : s1.pending = s.pending := by
  unfold execFabricAnchor at h
  cases h
  simp
theorem execSdKey_pending {sid : Nat} {blob : Bytes} {s : State} {s1 : State} (h : execSdKey sid blob s = .next s1) : s1.pending = s.pending := by
  unfold execSdKey at h
  cases h
  simp
theorem execSdKeyClear_pending {sid : Nat} {q : QSrc} {s : State} {s1 : State} (h : execSdKeyClear sid q s = .next s1) : s1.pending = s.pending := by
  unfold execSdKeyClear at h
  cases h
  simp
theorem execLockWrite_pending {sid : Nat} {sub : Nat} {value : Nat} {s : State} {s1 : State} (h : execLockWrite sid sub value s = .next s1) : s1.pending = s.pending := by
  unfold execLockWrite at h
  repeat' split at h
  all_goals (cases h; simp)
theorem execDebugOpen_pending {sid : Nat} {q : QSrc} {s : State} {s1 : State} (h : execDebugOpen sid q s = .next s1) : s1.pending = s.pending := by
  unfold execDebugOpen at h
  cases h
  simp
theorem execNonceExpiry_pending {nonce : Nat} {s : State} {s1 : State} (h : execNonceExpiry nonce s = .next s1) : s1.pending = s.pending := by
  unfold execNonceExpiry at h
  repeat' split at h
  all_goals (cases h; simp)
theorem execShadowCompare_pending {engine : Nat} {shadow : Nat} {third : Nat} {cmd : Nat} {item : Nat} {thirdAvailable : Bool} {equal : Bool} {s : State} {s1 : State} (h : execShadowCompare engine shadow third cmd item thirdAvailable equal s = .next s1) : s1.pending = s.pending := by
  unfold execShadowCompare at h
  extract_lets d g s1 s2 v src at h
  have e1 : s1.pending = s.pending := (State.sample_pending _ _ _ _).trans ((State.drawNs_pending _).trans (State.bump_pending _ _ _ _))
  clear_value s1 g
  have e2 : s2.pending = s.pending := (State.flag_pending _ _ _ _).trans ((State.bump_pending _ _ _ _).trans e1)
  clear_value s2
  repeat' split at h
  all_goals (simp only [Host.Outcome.next.injEq] at h; subst h)
  all_goals simp [e1, e2]
theorem execShadowVote_pending {cmd : Nat} {item : Nat} {minority : Option Nat} {s : State} {s1 : State} (h : execShadowVote cmd item minority s = .next s1) : s1.pending = s.pending := by
  unfold execShadowVote at h
  (try dsimp only at h)
  repeat' split at h
  all_goals (cases h; simp [*])
theorem execEngineHardEvent_pending {e : Nat} {s : State} {s1 : State} (h : execEngineHardEvent e s = .next s1) : s1.pending = s.pending := by
  unfold execEngineHardEvent at h
  repeat' split at h
  all_goals (cases h; simp)
theorem execEngineWatchdog_pending {e : Nat} {s : State} {s1 : State} (h : execEngineWatchdog e s = .next s1) : s1.pending = s.pending := by
  unfold execEngineWatchdog at h
  repeat' split at h
  all_goals (cases h; simp)
theorem execEngineSelftestDone_pending {e : Nat} {ok : Bool} {s : State} {s1 : State} (h : execEngineSelftestDone e ok s = .next s1) : s1.pending = s.pending := by
  unfold execEngineSelftestDone at h
  repeat' split at h
  all_goals (cases h; simp)
theorem execEngineDrained_pending {e : Nat} {s : State} {s1 : State} (h : execEngineDrained e s = .next s1) : s1.pending = s.pending := by
  unfold execEngineDrained at h
  repeat' split at h
  all_goals (cases h; simp)
theorem execMemoryError_pending {u : MemUnit} {corrected : Bool} {s : State} {s1 : State} (h : execMemoryError u corrected s = .next s1) : s1.pending = s.pending := by
  unfold execMemoryError at h
  (try dsimp only at h)
  repeat' split at h
  all_goals (cases h; simp [*])
theorem execHbmChannelMoveDone_pending {die : Nat} {channel : Nat} {s : State} {s1 : State} (h : execHbmChannelMoveDone die channel s = .next s1) : s1.pending = s.pending := by
  unfold execHbmChannelMoveDone at h
  cases h
  simp
theorem execD2dWireFault_pending {dieA : Nat} {dieB : Nat} {member : Nat} {s : State} {s1 : State} (h : execD2dWireFault dieA dieB member s = .next s1) : s1.pending = s.pending := by
  unfold execD2dWireFault at h
  (try dsimp only at h)
  repeat' split at h
  all_goals (cases h; simp [*])
theorem execDieLoss_pending {die : Nat} {s : State} {s1 : State} (h : execDieLoss die s = .next s1) : s1.pending = s.pending := by
  unfold execDieLoss at h
  repeat' split at h
  all_goals (cases h; simp)
theorem execDieReturn_pending {die : Nat} {s : State} {s1 : State} (h : execDieReturn die s = .next s1) : s1.pending = s.pending := by
  unfold execDieReturn at h
  repeat' split at h
  all_goals (cases h; simp)
theorem execSelftest_pending {sid : Nat} {value : Nat} {s : State} {s1 : State} (h : execSelftest sid value s = .next s1) : s1.pending = s.pending := by
  unfold execSelftest at h
  cases h
  exact State.sessionWrite_pending _ _ _ _ _ _ (fun _ => by simp)
theorem execSelftestComplete_pending {failDie : Option Nat} {s : State} {s1 : State} (h : execSelftestComplete failDie s = .next s1) : s1.pending = s.pending := by
  unfold execSelftestComplete at h
  (try dsimp only at h)
  repeat' split at h
  all_goals (cases h; simp [*])
theorem execAdmitDevice_pending {sid : Nat} {q : QSrc} {s : State} {s1 : State} (h : execAdmitDevice sid q s = .next s1) : s1.pending = s.pending := by
  unfold execAdmitDevice at h
  cases h
  simp
theorem execAdmitLoaded_pending {spillGroups : List (Nat × Bool)} {s : State} {s1 : State} (h : execAdmitLoaded spillGroups s = .next s1) : s1.pending = s.pending := by
  unfold execAdmitLoaded at h
  (try dsimp only at h)
  repeat' split at h
  all_goals (simp only [Host.Outcome.next.injEq] at h; subst h)
  all_goals repeat' first
    | with_reducible rfl
    | (simp; done)
    | (refine (pending_foldl _ _ _ (fun a x => ?_)).trans ?_)
    | (refine (pending_fold1 _ _ _ (fun a x => ?_)).trans ?_)
    | (refine (pending_fold2 _ _ _ (fun a x => ?_)).trans ?_)
    | (refine State.ingest_pending _ _ _ _ _ _ (fun u c => ?_) (fun u c => ?_))
    | (refine State.sessionWrite_pending _ _ _ _ _ _ (fun u => ?_))
    | (refine State.request_pending _ _ _ _ _ _ (fun u => ?_))
    | split
    | simp [*]
theorem execExpel_pending {sid : Nat} {q : QSrc} {s : State} {s1 : State} (h : execExpel sid q s = .next s1) : s1.pending = s.pending := by
  unfold execExpel at h
  cases h
  simp
theorem execDtlsHandshake_pending {port : Nat} {configured : Bool} {cert : ClientCert} {s : State} {s1 : State} (h : execDtlsHandshake port configured cert s = .next s1) : s1.pending = s.pending := by
  unfold execDtlsHandshake at h
  cases h
  simp
theorem execSessionIdleTimeout_pending {sid : Nat} {s : State} {s1 : State} (h : execSessionIdleTimeout sid s = .next s1) : s1.pending = s.pending := by
  unfold execSessionIdleTimeout at h
  repeat' split at h
  all_goals (cases h; simp)
theorem execGet_pending {sid : Nat} {reqId : Nat} {entries : List GetEntry} {s : State} {s1 : State} (h : execGet sid reqId entries s = .next s1) : s1.pending = s.pending := by
  unfold execGet at h
  (try dsimp only at h)
  repeat' split at h
  all_goals (simp only [Host.Outcome.next.injEq] at h; subst h)
  all_goals repeat' first
    | with_reducible rfl
    | (simp; done)
    | (refine (pending_foldl _ _ _ (fun a x => ?_)).trans ?_)
    | (refine (pending_fold1 _ _ _ (fun a x => ?_)).trans ?_)
    | (refine (pending_fold2 _ _ _ (fun a x => ?_)).trans ?_)
    | (refine State.ingest_pending _ _ _ _ _ _ (fun u c => ?_) (fun u c => ?_))
    | (refine State.sessionWrite_pending _ _ _ _ _ _ (fun u => ?_))
    | (refine State.request_pending _ _ _ _ _ _ (fun u => ?_))
    | split
    | simp [*]
theorem execSet_pending {sid : Nat} {reqId : Nat} {entries : List SetEntry} {s : State} {s1 : State} (h : execSet sid reqId entries s = .next s1) : s1.pending = s.pending := by
  unfold execSet at h
  (try dsimp only at h)
  repeat' split at h
  all_goals (simp only [Host.Outcome.next.injEq] at h; subst h)
  all_goals repeat' first
    | with_reducible rfl
    | (simp; done)
    | (refine (pending_foldl _ _ _ (fun a x => ?_)).trans ?_)
    | (refine (pending_fold1 _ _ _ (fun a x => ?_)).trans ?_)
    | (refine (pending_fold2 _ _ _ (fun a x => ?_)).trans ?_)
    | (refine State.ingest_pending _ _ _ _ _ _ (fun u c => ?_) (fun u c => ?_))
    | (refine State.sessionWrite_pending _ _ _ _ _ _ (fun u => ?_))
    | (refine State.request_pending _ _ _ _ _ _ (fun u => ?_))
    | split
    | simp [*]
theorem execPropose_pending {sid : Nat} {reqId : Nat} {idx : Nat} {sub : Nat} {flags : Nat} {off : Nat} {val : Bytes} {s : State} {s1 : State} (h : execPropose sid reqId idx sub flags off val s = .next s1) : s1.pending = s.pending := by
  unfold execPropose at h
  (try dsimp only at h)
  repeat' split at h
  all_goals (simp only [Host.Outcome.next.injEq] at h; subst h)
  all_goals repeat' first
    | with_reducible rfl
    | (simp; done)
    | (refine (pending_foldl _ _ _ (fun a x => ?_)).trans ?_)
    | (refine (pending_fold1 _ _ _ (fun a x => ?_)).trans ?_)
    | (refine (pending_fold2 _ _ _ (fun a x => ?_)).trans ?_)
    | (refine State.ingest_pending _ _ _ _ _ _ (fun u c => ?_) (fun u c => ?_))
    | (refine State.sessionWrite_pending _ _ _ _ _ _ (fun u => ?_))
    | (refine State.request_pending _ _ _ _ _ _ (fun u => ?_))
    | split
    | simp [*]
theorem execSign_pending {sid : Nat} {reqId : Nat} {nonce : Nat} {slot : Nat} {sig : Bytes} {s : State} {s1 : State} (h : execSign sid reqId nonce slot sig s = .next s1) : s1.pending = s.pending := by
  unfold execSign at h
  cases h
  simp
theorem execSubscribe_pending {sid : Nat} {reqId : Nat} {mask : Nat} {s : State} {s1 : State} (h : execSubscribe sid reqId mask s = .next s1) : s1.pending = s.pending := by
  unfold execSubscribe at h
  cases h
  exact State.request_pending _ _ _ _ _ _ (fun _ => by simp)
theorem execKeepalive_pending {sid : Nat} {reqId : Nat} {s : State} {s1 : State} (h : execKeepalive sid reqId s = .next s1) : s1.pending = s.pending := by
  unfold execKeepalive at h
  cases h
  exact State.request_pending _ _ _ _ _ _ (fun _ => by simp)
theorem execDropped_pending {sid : Nat} {s : State} {s1 : State} (h : execDropped sid s = .next s1) : s1.pending = s.pending := by
  unfold execDropped at h
  repeat' split at h
  all_goals (cases h; simp)
theorem execRelayGet_pending {r : RelayMsg} {s : State} {s1 : State} (h : execRelayGet r s = .next s1) : s1.pending = s.pending := by
  unfold execRelayGet at h
  repeat' split at h
  all_goals (cases h; simp)
theorem execRelayTimeout_pending {sid : Nat} {reqId : Nat} {s : State} {s1 : State} (h : execRelayTimeout sid reqId s = .next s1) : s1.pending = s.pending := by
  unfold execRelayTimeout at h
  repeat' split at h
  all_goals (cases h; simp)
theorem execReadWord_pending {ctrl : Nat} {cmd : Nat} {idx : Nat} {sub : Nat} {word : Nat} {s : State} {s1 : State} (h : execReadWord ctrl cmd idx sub word s = .next s1) : s1.pending = s.pending := by
  unfold execReadWord at h
  repeat' split at h
  all_goals (cases h; simp)
theorem execAddrDup_pending {port : Nat} {configured : Bool} {s : State} {s1 : State} (h : execAddrDup port configured s = .next s1) : s1.pending = s.pending := by
  unfold execAddrDup at h
  repeat' split at h
  all_goals (cases h; simp)
theorem execMgmtAddrWrite_pending {sid : Nat} {port : Nat} {blob : Bytes} {s : State} {s1 : State} (h : execMgmtAddrWrite sid port blob s = .next s1) : s1.pending = s.pending := by
  unfold execMgmtAddrWrite at h
  repeat' split at h
  all_goals (cases h; simp)
theorem execWsqAck_pending {sid : Nat} {idx : Nat} {sub : Nat} {value : Nat} {s : State} {s1 : State} (h : execWsqAck sid idx sub value s = .next s1) : s1.pending = s.pending := by
  unfold execWsqAck at h
  repeat' split at h
  all_goals (cases h; simp)
theorem execBlockSelect_pending {sid : Nat} {value : Nat} {s : State} {s1 : State} (h : execBlockSelect sid value s = .next s1) : s1.pending = s.pending := by
  unfold execBlockSelect at h
  cases h
  simp
theorem execFwStage_pending {sid : Nat} {off : Nat} {piece : Bytes} {s : State} {s1 : State} (h : execFwStage sid off piece s = .next s1) : s1.pending = s.pending := by
  unfold execFwStage at h
  simp only [Host.Outcome.next.injEq] at h; subst h
  split
  · rfl
  · exact (State.setEntry_pending _ _ _).trans (State.respond_pending _ _ _ _ _)
theorem execFwCommit_pending {sid : Nat} {q : QSrc} {s : State} {s1 : State} (h : execFwCommit sid q s = .next s1) : s1.pending = s.pending := by
  unfold execFwCommit at h
  cases h
  simp
theorem execSnapshotTake_pending {sid : Nat} {reqId : Nat} {t : Nat} {clear : Bool} {s : State} {s1 : State} (h : execSnapshotTake sid reqId t clear s = .next s1) : s1.pending = s.pending := by
  unfold execSnapshotTake at h
  cases h
  exact State.request_pending _ _ _ _ _ _ (fun _ => by simp)
theorem execSnapshotRead_pending {sid : Nat} {reqId : Nat} {id : Nat} {entries : List GetEntry} {s : State} {s1 : State} (h : execSnapshotRead sid reqId id entries s = .next s1) : s1.pending = s.pending := by
  unfold execSnapshotRead at h
  (try dsimp only at h)
  repeat' split at h
  all_goals (simp only [Host.Outcome.next.injEq] at h; subst h)
  all_goals repeat' first
    | with_reducible rfl
    | (simp; done)
    | (refine (pending_foldl _ _ _ (fun a x => ?_)).trans ?_)
    | (refine (pending_fold1 _ _ _ (fun a x => ?_)).trans ?_)
    | (refine (pending_fold2 _ _ _ (fun a x => ?_)).trans ?_)
    | (refine State.ingest_pending _ _ _ _ _ _ (fun u c => ?_) (fun u c => ?_))
    | (refine State.sessionWrite_pending _ _ _ _ _ _ (fun u => ?_))
    | (refine State.request_pending _ _ _ _ _ _ (fun u => ?_))
    | split
    | simp [*]
theorem execSnapshotCancel_pending {sid : Nat} {reqId : Nat} {id : Nat} {s : State} {s1 : State} (h : execSnapshotCancel sid reqId id s = .next s1) : s1.pending = s.pending := by
  unfold execSnapshotCancel at h
  cases h
  exact State.request_pending _ _ _ _ _ _ (fun _ => by simp)
theorem execSnapshotEdge_pending {id : Nat} {s : State} {s1 : State} (h : execSnapshotEdge id s = .next s1) : s1.pending = s.pending := by
  unfold execSnapshotEdge at h
  repeat' split at h
  all_goals (cases h; simp)
theorem execMonCtrlClear_pending {sid : Nat} {m : Nat} {s : State} {s1 : State} (h : execMonCtrlClear sid m s = .next s1) : s1.pending = s.pending := by
  unfold execMonCtrlClear at h
  repeat' split at h
  all_goals (cases h; simp)
theorem execMonScopeWrite_pending {sid : Nat} {m : Nat} {value : Nat} {s : State} {s1 : State} (h : execMonScopeWrite sid m value s = .next s1) : s1.pending = s.pending := by
  unfold execMonScopeWrite at h
  repeat' split at h
  all_goals (cases h; simp)
theorem execResetModule_pending {sid : Nat} {q : QSrc} {s : State} {s1 : State} (h : execResetModule sid q s = .next s1) : s1.pending = s.pending := by
  unfold execResetModule at h
  cases h
  simp
theorem execResetWarm_pending {sid : Nat} {q : QSrc} {s : State} {s1 : State} (h : execResetWarm sid q s = .next s1) : s1.pending = s.pending := by
  unfold execResetWarm at h
  cases h
  simp
theorem execResetDie_pending {sid : Nat} {q : QSrc} {s : State} {s1 : State} (h : execResetDie sid q s = .next s1) : s1.pending = s.pending := by
  unfold execResetDie at h
  cases h
  simp
theorem execResetPort_pending {sid : Option Nat} {isPeer : Bool} {port : Nat} {s : State} {s1 : State} (h : execResetPort sid isPeer port s = .next s1) : s1.pending = s.pending := by
  unfold execResetPort at h
  repeat' split at h
  all_goals (cases h; simp)
theorem execResetEngine_pending {sid : Option Nat} {e : Nat} {s : State} {s1 : State} (h : execResetEngine sid e s = .next s1) : s1.pending = s.pending := by
  unfold execResetEngine at h
  repeat' split at h
  all_goals (cases h; simp)
theorem execResetDone_pending {kind : Nat} {unit : Nat} {s : State} {s1 : State} (h : execResetDone kind unit s = .next s1) : s1.pending = s.pending := by
  unfold execResetDone at h
  repeat' split at h
  all_goals (cases h; simp)
theorem execPowerD0_pending {sid : Nat} {s : State} {s1 : State} (h : execPowerD0 sid s = .next s1) : s1.pending = s.pending := by
  unfold execPowerD0 at h
  cases h
  simp
theorem execPowerD1_pending {sid : Nat} {s : State} {s1 : State} (h : execPowerD1 sid s = .next s1) : s1.pending = s.pending := by
  unfold execPowerD1 at h
  cases h
  simp
theorem execPowerD2_pending {sid : Nat} {q : QSrc} {s : State} {s1 : State} (h : execPowerD2 sid q s = .next s1) : s1.pending = s.pending := by
  unfold execPowerD2 at h
  cases h
  simp
theorem execPowerD3_pending {sid : Nat} {q : QSrc} {s : State} {s1 : State} (h : execPowerD3 sid q s = .next s1) : s1.pending = s.pending := by
  unfold execPowerD3 at h
  cases h
  simp
theorem execRefclkRestored_pending {clk : Nat} {s : State} {s1 : State} (h : execRefclkRestored clk s = .next s1) : s1.pending = s.pending := by
  unfold execRefclkRestored at h
  (try dsimp only at h)
  repeat' split at h
  all_goals (simp only [Host.Outcome.next.injEq] at h; subst h)
  all_goals repeat' first
    | with_reducible rfl
    | (simp; done)
    | (refine (pending_foldl _ _ _ (fun a x => ?_)).trans ?_)
    | (refine (pending_fold1 _ _ _ (fun a x => ?_)).trans ?_)
    | (refine (pending_fold2 _ _ _ (fun a x => ?_)).trans ?_)
    | (refine State.ingest_pending _ _ _ _ _ _ (fun u c => ?_) (fun u c => ?_))
    | (refine State.sessionWrite_pending _ _ _ _ _ _ (fun u => ?_))
    | (refine State.request_pending _ _ _ _ _ _ (fun u => ?_))
    | split
    | simp [*]
theorem execPeerSignalDetect_pending {q : Nat} {s : State} {s1 : State} (h : execPeerSignalDetect q s = .next s1) : s1.pending = s.pending := by
  unfold execPeerSignalDetect at h
  repeat' split at h
  all_goals (cases h; simp)
theorem execFastRetrainDone_pending {q : Nat} {s : State} {s1 : State} (h : execFastRetrainDone q s = .next s1) : s1.pending = s.pending := by
  unfold execFastRetrainDone at h
  repeat' split at h
  all_goals (cases h; simp)
theorem execPeerPortDisable_pending {sid : Nat} {q : Nat} {s : State} {s1 : State} (h : execPeerPortDisable sid q s = .next s1) : s1.pending = s.pending := by
  unfold execPeerPortDisable at h
  (try dsimp only at h)
  repeat' split at h
  all_goals (simp only [Host.Outcome.next.injEq] at h; subst h)
  all_goals repeat' first
    | with_reducible rfl
    | (simp; done)
    | (refine (pending_foldl _ _ _ (fun a x => ?_)).trans ?_)
    | (refine (pending_fold1 _ _ _ (fun a x => ?_)).trans ?_)
    | (refine (pending_fold2 _ _ _ (fun a x => ?_)).trans ?_)
    | (refine State.ingest_pending _ _ _ _ _ _ (fun u c => ?_) (fun u c => ?_))
    | (refine State.sessionWrite_pending _ _ _ _ _ _ (fun u => ?_))
    | (refine State.request_pending _ _ _ _ _ _ (fun u => ?_))
    | split
    | simp [*]
theorem execFlexLinkDown_pending {p : Nat} {s : State} {s1 : State} (h : execFlexLinkDown p s = .next s1) : s1.pending = s.pending := by
  unfold execFlexLinkDown at h
  repeat' split at h
  all_goals (cases h; simp)
theorem execCollChunkAbort_pending {k : Sys2Proof.ChunkAbort} {s : Sys2Proof.Machine.State} {s1 : State} (h : execCollChunkAbort k s = .next s1) : s1.pending = s.pending := by
  unfold execCollChunkAbort at h
  (try dsimp only at h)
  repeat' split at h
  all_goals (simp only [Host.Outcome.next.injEq] at h; subst h)
  all_goals repeat' first
    | with_reducible rfl
    | (simp; done)
    | (refine (pending_foldl _ _ _ (fun a x => ?_)).trans ?_)
    | (refine (pending_fold1 _ _ _ (fun a x => ?_)).trans ?_)
    | (refine (pending_fold2 _ _ _ (fun a x => ?_)).trans ?_)
    | (refine State.ingest_pending _ _ _ _ _ _ (fun u c => ?_) (fun u c => ?_))
    | (refine State.sessionWrite_pending _ _ _ _ _ _ (fun u => ?_))
    | (refine State.request_pending _ _ _ _ _ _ (fun u => ?_))
    | split
    | simp [*]
theorem execUnknownRecipe_pending {p : Nat} {l : Nat} {r : Nat} {s : State} {s1 : State} (h : execUnknownRecipe p l r s = .next s1) : s1.pending = s.pending := by
  unfold execUnknownRecipe at h
  split at h
  · simp only [Host.Outcome.next.injEq] at h; subst h; rfl
  · rename_i hr
    have e1 := State.turn_pending hr
    (try dsimp only at h)
    repeat' split at h
    all_goals (simp only [Host.Outcome.next.injEq] at h; subst h)
    all_goals (try split) <;> simp [e1]
theorem execModEnFall_pending {s : State} {s1 : State} (h : execModEnFall s = .next s1) : s1.pending = s.pending := by
  unfold execModEnFall at h
  simp only [Host.Outcome.next.injEq] at h; subst h
  exact pending_ite ((State.darkLoss_pending _).trans (State.domainsOff_pending _)) rfl
theorem execModEnRise_pending {s : State} {s1 : State} (h : execModEnRise s = .next s1) : s1.pending = s.pending := by
  unfold execModEnRise at h
  repeat' split at h
  all_goals (cases h; simp)
theorem execThermalTrip_pending {s : State} {s1 : State} (h : execThermalTrip s = .next s1) : s1.pending = s.pending := by
  unfold execThermalTrip at h
  simp only [Host.Outcome.next.injEq] at h; subst h
  refine pending_ite rfl ?_
  have e2 : s.domainsOff.darkLoss.pending = s.pending := (State.darkLoss_pending _).trans (State.domainsOff_pending _)
  generalize s.domainsOff.darkLoss = z at e2 ⊢
  exact e2
theorem execSyncTimer_pending {s : State} {s1 : State} (h : execSyncTimer s = .next s1) : s1.pending = s.pending := by
  unfold execSyncTimer at h
  repeat' split at h
  all_goals (cases h; simp)
theorem execMapGossipTimer_pending {s : State} {s1 : State} (h : execMapGossipTimer s = .next s1) : s1.pending = s.pending := by
  unfold execMapGossipTimer at h
  repeat' split at h
  all_goals (cases h; simp)
theorem execHandoffTimeout_pending {s : State} {s1 : State} (h : execHandoffTimeout s = .next s1) : s1.pending = s.pending := by
  unfold execHandoffTimeout at h
  (try dsimp only at h)
  repeat' split at h
  all_goals (cases h; simp [*])
theorem execShaperRefill_pending {s : State} {s1 : State} (h : execShaperRefill s = .next s1) : s1.pending = s.pending := by
  unfold execShaperRefill at h
  cases h
  simp
theorem execReportWindowEnd_pending {s : State} {s1 : State} (h : execReportWindowEnd s = .next s1) : s1.pending = s.pending := by
  unfold execReportWindowEnd at h
  cases h
  simp
theorem execClaimWindowExpiry_pending {s : State} {s1 : State} (h : execClaimWindowExpiry s = .next s1) : s1.pending = s.pending := by
  unfold execClaimWindowExpiry at h
  repeat' split at h
  all_goals (cases h; simp)
theorem execHealthWindowEnd_pending {s : State} {s1 : State} (h : execHealthWindowEnd s = .next s1) : s1.pending = s.pending := by
  unfold execHealthWindowEnd at h
  simp only [Host.Outcome.next.injEq] at h
  subst h
  exact (State.windowFlags_pending _).trans ((pending_foldl _ _ _ (fun a x => State.symbolWindow_pending _ _)).trans ((State.setObj_pending _ _ _ _).trans (State.atTime_pending s ((s.rel.windowAt / 1000000000 + 1) * 1000000000))))
theorem execStepBoundary_pending {s : State} {s1 : State} (h : execStepBoundary s = .next s1) : s1.pending = s.pending := by
  unfold execStepBoundary at h
  (try dsimp only at h)
  repeat' split at h
  all_goals (cases h; simp [*])
theorem execWarmHoldExpiry_pending {s : State} {s1 : State} (h : execWarmHoldExpiry s = .next s1) : s1.pending = s.pending := by
  unfold execWarmHoldExpiry at h
  cases h
  repeat' first | with_reducible rfl | split | simp [*]
theorem execPowerTransitionDone_pending {s : State} {s1 : State} (h : execPowerTransitionDone s = .next s1) : s1.pending = s.pending := by
  unfold execPowerTransitionDone at h
  cases h
  simp

end Sys2Proof.Machine
end

