-- ==== Sys2Proof/Laws/Status.lean ====
section
/-! SUPPORT. Status flags, notifications, samples and responses: what each can change, and what a flag leaves in its register. -/

set_option linter.all false

namespace Sys2Proof.Machine

open Sys2Proof

/-! ### Shapes -/

theorem State.noteAll_shape (s : State) (c : Nat) (f : Bytes) : ∃ x o, (s.noteAll c f).1 = { s with sess := x, out := o } := by
  have : ∀ (l : List (Nat × Sess)) (a : State × Bool) (g : State × Bool → Nat × Sess → State × Bool)
      (_ : ∀ a e, ∃ x o, (g a e).1 = { a.1 with sess := x, out := o }), ∃ x o, (l.foldl g a).1 = { a.1 with sess := x, out := o } := by
    intro l
    induction l with
    | nil => intro a g _; exact ⟨a.1.sess, a.1.out, rfl⟩
    | cons e t ih =>
      intro a g hg
      obtain ⟨x, o, h⟩ := ih (g a e) g hg
      obtain ⟨y, p, h2⟩ := hg a e
      exact ⟨x, o, by rw [List.foldl_cons, h, h2]⟩
  exact this s.sess (s, false) _ (fun a e => ⟨_, _, rfl⟩)

theorem State.notify_shape (s : State) (c : Nat) (f : Bytes) : ∃ k x o, s.notify c f = { s with objs := k, sess := x, out := o } := by
  unfold State.notify
  obtain ⟨x, o, h⟩ := s.noteAll_shape c f
  dsimp only
  split
  · obtain ⟨x2, o2, h2⟩ := State.noteAll_shape ((s.noteAll c f).1.flagOnly (okey 0x1010 4) 4) 0x0001
      (statusFields (okey 0x1010 4) (((s.noteAll c f).1.flagOnly (okey 0x1010 4) 4).obj 0x1010 4))
    exact ⟨_, x2, o2, by rw [h2, h]; rfl⟩
  · exact ⟨s.objs, x, o, by rw [h]⟩

theorem State.flagK_shape (s : State) (k b : Nat) : ∃ m x o, s.flagK k b = { s with objs := m, sess := x, out := o } := by
  unfold State.flagK
  obtain ⟨m, x, o, h⟩ := State.notify_shape (s.flagOnly k b) 0x0001 (statusFields k ((s.flagOnly k b).objK k))
  exact ⟨m, x, o, by dsimp only; rw [h]; rfl⟩

theorem State.condition_shape (s : State) (c : Bool) (n idx sub b : Nat) :
    ∃ h m x o, s.condition c n idx sub b = { s with pw := { s.pw with held := h }, objs := m, sess := x, out := o } := by
  unfold State.condition
  dsimp only
  split
  · obtain ⟨m, x, o, h⟩ := State.flagK_shape { s with pw := { s.pw with held := if c then setBit s.pw.held n else clearBit s.pw.held n } } (okey idx sub) b
    exact ⟨_, m, x, o, h⟩
  · exact ⟨_, s.objs, s.sess, s.out, rfl⟩

theorem State.sample_shape (s : State) (m v : Nat) (c : SampleScope) :
    ∃ a k x o, s.sample m v c = { s with mons := a, objs := k, sess := x, out := o } := by
  have note : ∀ (u : State) (c2 : Nat) (f : Bytes), ∃ k x o, (u.notify c2 f).flag 0xA000 4 0 = { u with objs := k, sess := x, out := o } := by
    intro u c2 f
    obtain ⟨k, x, o, h⟩ := u.notify_shape c2 f
    obtain ⟨k2, x2, o2, h2⟩ := (u.notify c2 f).flagK_shape (okey 0xA000 4) 0
    exact ⟨k2, x2, o2, by unfold State.flag; rw [h2, h]⟩
  unfold State.sample
  split
  · exact ⟨s.mons, s.objs, s.sess, s.out, rfl⟩
  · dsimp only
    repeat' split
    all_goals first
      | exact ⟨_, s.objs, s.sess, s.out, rfl⟩
      | exact ⟨_, note _ _ _⟩

theorem State.respond_shape (s : State) (sid idx sub rc : Nat) : ∃ x o, s.respond sid idx sub rc = { s with sess := x, out := o } := by
  unfold State.respond
  split
  · exact ⟨_, _, rfl⟩
  · exact ⟨s.sess, s.out, rfl⟩

/-! ### notify -/

@[simp] theorem State.notify_tb (s : State) (c : Nat) (f : Bytes) : (s.notify c f).tb = s.tb := by
  obtain ⟨_, _, _, h⟩ := s.notify_shape c f; rw [h]
@[simp] theorem State.notify_pw (s : State) (c : Nat) (f : Bytes) : (s.notify c f).pw = s.pw := by
  obtain ⟨_, _, _, h⟩ := s.notify_shape c f; rw [h]
@[simp] theorem State.notify_blobs (s : State) (c : Nat) (f : Bytes) : (s.notify c f).blobs = s.blobs := by
  obtain ⟨_, _, _, h⟩ := s.notify_shape c f; rw [h]
@[simp] theorem State.notify_flex (s : State) (c : Nat) (f : Bytes) : (s.notify c f).flex = s.flex := by
  obtain ⟨_, _, _, h⟩ := s.notify_shape c f; rw [h]
@[simp] theorem State.notify_peer (s : State) (c : Nat) (f : Bytes) : (s.notify c f).peer = s.peer := by
  obtain ⟨_, _, _, h⟩ := s.notify_shape c f; rw [h]
@[simp] theorem State.notify_cores (s : State) (c : Nat) (f : Bytes) : (s.notify c f).cores = s.cores := by
  obtain ⟨_, _, _, h⟩ := s.notify_shape c f; rw [h]
@[simp] theorem State.notify_ingress (s : State) (c : Nat) (f : Bytes) : (s.notify c f).ingress = s.ingress := by
  obtain ⟨_, _, _, h⟩ := s.notify_shape c f; rw [h]
@[simp] theorem State.notify_extents (s : State) (c : Nat) (f : Bytes) : (s.notify c f).extents = s.extents := by
  obtain ⟨_, _, _, h⟩ := s.notify_shape c f; rw [h]
@[simp] theorem State.notify_trays (s : State) (c : Nat) (f : Bytes) : (s.notify c f).trays = s.trays := by
  obtain ⟨_, _, _, h⟩ := s.notify_shape c f; rw [h]
@[simp] theorem State.notify_nextEid (s : State) (c : Nat) (f : Bytes) : (s.notify c f).nextEid = s.nextEid := by
  obtain ⟨_, _, _, h⟩ := s.notify_shape c f; rw [h]
@[simp] theorem State.notify_sets (s : State) (c : Nat) (f : Bytes) : (s.notify c f).sets = s.sets := by
  obtain ⟨_, _, _, h⟩ := s.notify_shape c f; rw [h]
@[simp] theorem State.notify_lds (s : State) (c : Nat) (f : Bytes) : (s.notify c f).lds = s.lds := by
  obtain ⟨_, _, _, h⟩ := s.notify_shape c f; rw [h]
@[simp] theorem State.notify_rrLd (s : State) (c : Nat) (f : Bytes) : (s.notify c f).rrLd = s.rrLd := by
  obtain ⟨_, _, _, h⟩ := s.notify_shape c f; rw [h]
@[simp] theorem State.notify_poison (s : State) (c : Nat) (f : Bytes) : (s.notify c f).poison = s.poison := by
  obtain ⟨_, _, _, h⟩ := s.notify_shape c f; rw [h]
@[simp] theorem State.notify_writes (s : State) (c : Nat) (f : Bytes) : (s.notify c f).writes = s.writes := by
  obtain ⟨_, _, _, h⟩ := s.notify_shape c f; rw [h]
@[simp] theorem State.notify_nextWid (s : State) (c : Nat) (f : Bytes) : (s.notify c f).nextWid = s.nextWid := by
  obtain ⟨_, _, _, h⟩ := s.notify_shape c f; rw [h]
@[simp] theorem State.notify_heldAcc (s : State) (c : Nat) (f : Bytes) : (s.notify c f).heldAcc = s.heldAcc := by
  obtain ⟨_, _, _, h⟩ := s.notify_shape c f; rw [h]
@[simp] theorem State.notify_heldTiles (s : State) (c : Nat) (f : Bytes) : (s.notify c f).heldTiles = s.heldTiles := by
  obtain ⟨_, _, _, h⟩ := s.notify_shape c f; rw [h]
@[simp] theorem State.notify_flagMark (s : State) (c : Nat) (f : Bytes) : (s.notify c f).flagMark = s.flagMark := by
  obtain ⟨_, _, _, h⟩ := s.notify_shape c f; rw [h]
@[simp] theorem State.notify_lines (s : State) (c : Nat) (f : Bytes) : (s.notify c f).lines = s.lines := by
  obtain ⟨_, _, _, h⟩ := s.notify_shape c f; rw [h]
@[simp] theorem State.notify_caches (s : State) (c : Nat) (f : Bytes) : (s.notify c f).caches = s.caches := by
  obtain ⟨_, _, _, h⟩ := s.notify_shape c f; rw [h]
@[simp] theorem State.notify_msgs (s : State) (c : Nat) (f : Bytes) : (s.notify c f).msgs = s.msgs := by
  obtain ⟨_, _, _, h⟩ := s.notify_shape c f; rw [h]
@[simp] theorem State.notify_fences (s : State) (c : Nat) (f : Bytes) : (s.notify c f).fences = s.fences := by
  obtain ⟨_, _, _, h⟩ := s.notify_shape c f; rw [h]
@[simp] theorem State.notify_recipes (s : State) (c : Nat) (f : Bytes) : (s.notify c f).recipes = s.recipes := by
  obtain ⟨_, _, _, h⟩ := s.notify_shape c f; rw [h]
@[simp] theorem State.notify_tensors (s : State) (c : Nat) (f : Bytes) : (s.notify c f).tensors = s.tensors := by
  obtain ⟨_, _, _, h⟩ := s.notify_shape c f; rw [h]
@[simp] theorem State.notify_cmds (s : State) (c : Nat) (f : Bytes) : (s.notify c f).cmds = s.cmds := by
  obtain ⟨_, _, _, h⟩ := s.notify_shape c f; rw [h]
@[simp] theorem State.notify_nextCmd (s : State) (c : Nat) (f : Bytes) : (s.notify c f).nextCmd = s.nextCmd := by
  obtain ⟨_, _, _, h⟩ := s.notify_shape c f; rw [h]
@[simp] theorem State.notify_pend (s : State) (c : Nat) (f : Bytes) : (s.notify c f).pend = s.pend := by
  obtain ⟨_, _, _, h⟩ := s.notify_shape c f; rw [h]
@[simp] theorem State.notify_colls (s : State) (c : Nat) (f : Bytes) : (s.notify c f).colls = s.colls := by
  obtain ⟨_, _, _, h⟩ := s.notify_shape c f; rw [h]
@[simp] theorem State.notify_seqs (s : State) (c : Nat) (f : Bytes) : (s.notify c f).seqs = s.seqs := by
  obtain ⟨_, _, _, h⟩ := s.notify_shape c f; rw [h]
@[simp] theorem State.notify_groups (s : State) (c : Nat) (f : Bytes) : (s.notify c f).groups = s.groups := by
  obtain ⟨_, _, _, h⟩ := s.notify_shape c f; rw [h]
@[simp] theorem State.notify_prefixes (s : State) (c : Nat) (f : Bytes) : (s.notify c f).prefixes = s.prefixes := by
  obtain ⟨_, _, _, h⟩ := s.notify_shape c f; rw [h]
@[simp] theorem State.notify_fmap (s : State) (c : Nat) (f : Bytes) : (s.notify c f).fmap = s.fmap := by
  obtain ⟨_, _, _, h⟩ := s.notify_shape c f; rw [h]
@[simp] theorem State.notify_slots (s : State) (c : Nat) (f : Bytes) : (s.notify c f).slots = s.slots := by
  obtain ⟨_, _, _, h⟩ := s.notify_shape c f; rw [h]
@[simp] theorem State.notify_psets (s : State) (c : Nat) (f : Bytes) : (s.notify c f).psets = s.psets := by
  obtain ⟨_, _, _, h⟩ := s.notify_shape c f; rw [h]
@[simp] theorem State.notify_buckets (s : State) (c : Nat) (f : Bytes) : (s.notify c f).buckets = s.buckets := by
  obtain ⟨_, _, _, h⟩ := s.notify_shape c f; rw [h]
@[simp] theorem State.notify_refillAt (s : State) (c : Nat) (f : Bytes) : (s.notify c f).refillAt = s.refillAt := by
  obtain ⟨_, _, _, h⟩ := s.notify_shape c f; rw [h]
@[simp] theorem State.notify_reports (s : State) (c : Nat) (f : Bytes) : (s.notify c f).reports = s.reports := by
  obtain ⟨_, _, _, h⟩ := s.notify_shape c f; rw [h]
@[simp] theorem State.notify_reportAt (s : State) (c : Nat) (f : Bytes) : (s.notify c f).reportAt = s.reportAt := by
  obtain ⟨_, _, _, h⟩ := s.notify_shape c f; rw [h]
@[simp] theorem State.notify_sec (s : State) (c : Nat) (f : Bytes) : (s.notify c f).sec = s.sec := by
  obtain ⟨_, _, _, h⟩ := s.notify_shape c f; rw [h]
@[simp] theorem State.notify_nextSid (s : State) (c : Nat) (f : Bytes) : (s.notify c f).nextSid = s.nextSid := by
  obtain ⟨_, _, _, h⟩ := s.notify_shape c f; rw [h]
@[simp] theorem State.notify_dupAddr (s : State) (c : Nat) (f : Bytes) : (s.notify c f).dupAddr = s.dupAddr := by
  obtain ⟨_, _, _, h⟩ := s.notify_shape c f; rw [h]
@[simp] theorem State.notify_pieces (s : State) (c : Nat) (f : Bytes) : (s.notify c f).pieces = s.pieces := by
  obtain ⟨_, _, _, h⟩ := s.notify_shape c f; rw [h]
@[simp] theorem State.notify_relays (s : State) (c : Nat) (f : Bytes) : (s.notify c f).relays = s.relays := by
  obtain ⟨_, _, _, h⟩ := s.notify_shape c f; rw [h]
@[simp] theorem State.notify_shadows (s : State) (c : Nat) (f : Bytes) : (s.notify c f).shadows = s.shadows := by
  obtain ⟨_, _, _, h⟩ := s.notify_shape c f; rw [h]
@[simp] theorem State.notify_mons (s : State) (c : Nat) (f : Bytes) : (s.notify c f).mons = s.mons := by
  obtain ⟨_, _, _, h⟩ := s.notify_shape c f; rw [h]
@[simp] theorem State.notify_snaps (s : State) (c : Nat) (f : Bytes) : (s.notify c f).snaps = s.snaps := by
  obtain ⟨_, _, _, h⟩ := s.notify_shape c f; rw [h]
@[simp] theorem State.notify_nextSnap (s : State) (c : Nat) (f : Bytes) : (s.notify c f).nextSnap = s.nextSnap := by
  obtain ⟨_, _, _, h⟩ := s.notify_shape c f; rw [h]
@[simp] theorem State.notify_rel (s : State) (c : Nat) (f : Bytes) : (s.notify c f).rel = s.rel := by
  obtain ⟨_, _, _, h⟩ := s.notify_shape c f; rw [h]
@[simp] theorem State.notify_resets (s : State) (c : Nat) (f : Bytes) : (s.notify c f).resets = s.resets := by
  obtain ⟨_, _, _, h⟩ := s.notify_shape c f; rw [h]
@[simp] theorem State.notify_freeCtr (s : State) (c : Nat) (f : Bytes) : (s.notify c f).freeCtr = s.freeCtr := by
  obtain ⟨_, _, _, h⟩ := s.notify_shape c f; rw [h]

/-! ### flagK -/

@[simp] theorem State.flagK_tb (s : State) (k b : Nat) : (s.flagK k b).tb = s.tb := by
  obtain ⟨_, _, _, h⟩ := s.flagK_shape k b; rw [h]
@[simp] theorem State.flagK_pw (s : State) (k b : Nat) : (s.flagK k b).pw = s.pw := by
  obtain ⟨_, _, _, h⟩ := s.flagK_shape k b; rw [h]
@[simp] theorem State.flagK_blobs (s : State) (k b : Nat) : (s.flagK k b).blobs = s.blobs := by
  obtain ⟨_, _, _, h⟩ := s.flagK_shape k b; rw [h]
@[simp] theorem State.flagK_flex (s : State) (k b : Nat) : (s.flagK k b).flex = s.flex := by
  obtain ⟨_, _, _, h⟩ := s.flagK_shape k b; rw [h]
@[simp] theorem State.flagK_peer (s : State) (k b : Nat) : (s.flagK k b).peer = s.peer := by
  obtain ⟨_, _, _, h⟩ := s.flagK_shape k b; rw [h]
@[simp] theorem State.flagK_cores (s : State) (k b : Nat) : (s.flagK k b).cores = s.cores := by
  obtain ⟨_, _, _, h⟩ := s.flagK_shape k b; rw [h]
@[simp] theorem State.flagK_ingress (s : State) (k b : Nat) : (s.flagK k b).ingress = s.ingress := by
  obtain ⟨_, _, _, h⟩ := s.flagK_shape k b; rw [h]
@[simp] theorem State.flagK_extents (s : State) (k b : Nat) : (s.flagK k b).extents = s.extents := by
  obtain ⟨_, _, _, h⟩ := s.flagK_shape k b; rw [h]
@[simp] theorem State.flagK_trays (s : State) (k b : Nat) : (s.flagK k b).trays = s.trays := by
  obtain ⟨_, _, _, h⟩ := s.flagK_shape k b; rw [h]
@[simp] theorem State.flagK_nextEid (s : State) (k b : Nat) : (s.flagK k b).nextEid = s.nextEid := by
  obtain ⟨_, _, _, h⟩ := s.flagK_shape k b; rw [h]
@[simp] theorem State.flagK_sets (s : State) (k b : Nat) : (s.flagK k b).sets = s.sets := by
  obtain ⟨_, _, _, h⟩ := s.flagK_shape k b; rw [h]
@[simp] theorem State.flagK_lds (s : State) (k b : Nat) : (s.flagK k b).lds = s.lds := by
  obtain ⟨_, _, _, h⟩ := s.flagK_shape k b; rw [h]
@[simp] theorem State.flagK_rrLd (s : State) (k b : Nat) : (s.flagK k b).rrLd = s.rrLd := by
  obtain ⟨_, _, _, h⟩ := s.flagK_shape k b; rw [h]
@[simp] theorem State.flagK_poison (s : State) (k b : Nat) : (s.flagK k b).poison = s.poison := by
  obtain ⟨_, _, _, h⟩ := s.flagK_shape k b; rw [h]
@[simp] theorem State.flagK_writes (s : State) (k b : Nat) : (s.flagK k b).writes = s.writes := by
  obtain ⟨_, _, _, h⟩ := s.flagK_shape k b; rw [h]
@[simp] theorem State.flagK_nextWid (s : State) (k b : Nat) : (s.flagK k b).nextWid = s.nextWid := by
  obtain ⟨_, _, _, h⟩ := s.flagK_shape k b; rw [h]
@[simp] theorem State.flagK_heldAcc (s : State) (k b : Nat) : (s.flagK k b).heldAcc = s.heldAcc := by
  obtain ⟨_, _, _, h⟩ := s.flagK_shape k b; rw [h]
@[simp] theorem State.flagK_heldTiles (s : State) (k b : Nat) : (s.flagK k b).heldTiles = s.heldTiles := by
  obtain ⟨_, _, _, h⟩ := s.flagK_shape k b; rw [h]
@[simp] theorem State.flagK_flagMark (s : State) (k b : Nat) : (s.flagK k b).flagMark = s.flagMark := by
  obtain ⟨_, _, _, h⟩ := s.flagK_shape k b; rw [h]
@[simp] theorem State.flagK_lines (s : State) (k b : Nat) : (s.flagK k b).lines = s.lines := by
  obtain ⟨_, _, _, h⟩ := s.flagK_shape k b; rw [h]
@[simp] theorem State.flagK_caches (s : State) (k b : Nat) : (s.flagK k b).caches = s.caches := by
  obtain ⟨_, _, _, h⟩ := s.flagK_shape k b; rw [h]
@[simp] theorem State.flagK_msgs (s : State) (k b : Nat) : (s.flagK k b).msgs = s.msgs := by
  obtain ⟨_, _, _, h⟩ := s.flagK_shape k b; rw [h]
@[simp] theorem State.flagK_fences (s : State) (k b : Nat) : (s.flagK k b).fences = s.fences := by
  obtain ⟨_, _, _, h⟩ := s.flagK_shape k b; rw [h]
@[simp] theorem State.flagK_recipes (s : State) (k b : Nat) : (s.flagK k b).recipes = s.recipes := by
  obtain ⟨_, _, _, h⟩ := s.flagK_shape k b; rw [h]
@[simp] theorem State.flagK_tensors (s : State) (k b : Nat) : (s.flagK k b).tensors = s.tensors := by
  obtain ⟨_, _, _, h⟩ := s.flagK_shape k b; rw [h]
@[simp] theorem State.flagK_cmds (s : State) (k b : Nat) : (s.flagK k b).cmds = s.cmds := by
  obtain ⟨_, _, _, h⟩ := s.flagK_shape k b; rw [h]
@[simp] theorem State.flagK_nextCmd (s : State) (k b : Nat) : (s.flagK k b).nextCmd = s.nextCmd := by
  obtain ⟨_, _, _, h⟩ := s.flagK_shape k b; rw [h]
@[simp] theorem State.flagK_pend (s : State) (k b : Nat) : (s.flagK k b).pend = s.pend := by
  obtain ⟨_, _, _, h⟩ := s.flagK_shape k b; rw [h]
@[simp] theorem State.flagK_colls (s : State) (k b : Nat) : (s.flagK k b).colls = s.colls := by
  obtain ⟨_, _, _, h⟩ := s.flagK_shape k b; rw [h]
@[simp] theorem State.flagK_seqs (s : State) (k b : Nat) : (s.flagK k b).seqs = s.seqs := by
  obtain ⟨_, _, _, h⟩ := s.flagK_shape k b; rw [h]
@[simp] theorem State.flagK_groups (s : State) (k b : Nat) : (s.flagK k b).groups = s.groups := by
  obtain ⟨_, _, _, h⟩ := s.flagK_shape k b; rw [h]
@[simp] theorem State.flagK_prefixes (s : State) (k b : Nat) : (s.flagK k b).prefixes = s.prefixes := by
  obtain ⟨_, _, _, h⟩ := s.flagK_shape k b; rw [h]
@[simp] theorem State.flagK_fmap (s : State) (k b : Nat) : (s.flagK k b).fmap = s.fmap := by
  obtain ⟨_, _, _, h⟩ := s.flagK_shape k b; rw [h]
@[simp] theorem State.flagK_slots (s : State) (k b : Nat) : (s.flagK k b).slots = s.slots := by
  obtain ⟨_, _, _, h⟩ := s.flagK_shape k b; rw [h]
@[simp] theorem State.flagK_psets (s : State) (k b : Nat) : (s.flagK k b).psets = s.psets := by
  obtain ⟨_, _, _, h⟩ := s.flagK_shape k b; rw [h]
@[simp] theorem State.flagK_buckets (s : State) (k b : Nat) : (s.flagK k b).buckets = s.buckets := by
  obtain ⟨_, _, _, h⟩ := s.flagK_shape k b; rw [h]
@[simp] theorem State.flagK_refillAt (s : State) (k b : Nat) : (s.flagK k b).refillAt = s.refillAt := by
  obtain ⟨_, _, _, h⟩ := s.flagK_shape k b; rw [h]
@[simp] theorem State.flagK_reports (s : State) (k b : Nat) : (s.flagK k b).reports = s.reports := by
  obtain ⟨_, _, _, h⟩ := s.flagK_shape k b; rw [h]
@[simp] theorem State.flagK_reportAt (s : State) (k b : Nat) : (s.flagK k b).reportAt = s.reportAt := by
  obtain ⟨_, _, _, h⟩ := s.flagK_shape k b; rw [h]
@[simp] theorem State.flagK_sec (s : State) (k b : Nat) : (s.flagK k b).sec = s.sec := by
  obtain ⟨_, _, _, h⟩ := s.flagK_shape k b; rw [h]
@[simp] theorem State.flagK_nextSid (s : State) (k b : Nat) : (s.flagK k b).nextSid = s.nextSid := by
  obtain ⟨_, _, _, h⟩ := s.flagK_shape k b; rw [h]
@[simp] theorem State.flagK_dupAddr (s : State) (k b : Nat) : (s.flagK k b).dupAddr = s.dupAddr := by
  obtain ⟨_, _, _, h⟩ := s.flagK_shape k b; rw [h]
@[simp] theorem State.flagK_pieces (s : State) (k b : Nat) : (s.flagK k b).pieces = s.pieces := by
  obtain ⟨_, _, _, h⟩ := s.flagK_shape k b; rw [h]
@[simp] theorem State.flagK_relays (s : State) (k b : Nat) : (s.flagK k b).relays = s.relays := by
  obtain ⟨_, _, _, h⟩ := s.flagK_shape k b; rw [h]
@[simp] theorem State.flagK_shadows (s : State) (k b : Nat) : (s.flagK k b).shadows = s.shadows := by
  obtain ⟨_, _, _, h⟩ := s.flagK_shape k b; rw [h]
@[simp] theorem State.flagK_mons (s : State) (k b : Nat) : (s.flagK k b).mons = s.mons := by
  obtain ⟨_, _, _, h⟩ := s.flagK_shape k b; rw [h]
@[simp] theorem State.flagK_snaps (s : State) (k b : Nat) : (s.flagK k b).snaps = s.snaps := by
  obtain ⟨_, _, _, h⟩ := s.flagK_shape k b; rw [h]
@[simp] theorem State.flagK_nextSnap (s : State) (k b : Nat) : (s.flagK k b).nextSnap = s.nextSnap := by
  obtain ⟨_, _, _, h⟩ := s.flagK_shape k b; rw [h]
@[simp] theorem State.flagK_rel (s : State) (k b : Nat) : (s.flagK k b).rel = s.rel := by
  obtain ⟨_, _, _, h⟩ := s.flagK_shape k b; rw [h]
@[simp] theorem State.flagK_resets (s : State) (k b : Nat) : (s.flagK k b).resets = s.resets := by
  obtain ⟨_, _, _, h⟩ := s.flagK_shape k b; rw [h]
@[simp] theorem State.flagK_freeCtr (s : State) (k b : Nat) : (s.flagK k b).freeCtr = s.freeCtr := by
  obtain ⟨_, _, _, h⟩ := s.flagK_shape k b; rw [h]

/-! ### flag -/

@[simp] theorem State.flag_tb (s : State) (i j b : Nat) : (s.flag i j b).tb = s.tb := by
  obtain ⟨_, _, _, h⟩ := s.flagK_shape (okey i j) b; unfold State.flag; rw [h]
@[simp] theorem State.flag_pw (s : State) (i j b : Nat) : (s.flag i j b).pw = s.pw := by
  obtain ⟨_, _, _, h⟩ := s.flagK_shape (okey i j) b; unfold State.flag; rw [h]
@[simp] theorem State.flag_blobs (s : State) (i j b : Nat) : (s.flag i j b).blobs = s.blobs := by
  obtain ⟨_, _, _, h⟩ := s.flagK_shape (okey i j) b; unfold State.flag; rw [h]
@[simp] theorem State.flag_flex (s : State) (i j b : Nat) : (s.flag i j b).flex = s.flex := by
  obtain ⟨_, _, _, h⟩ := s.flagK_shape (okey i j) b; unfold State.flag; rw [h]
@[simp] theorem State.flag_peer (s : State) (i j b : Nat) : (s.flag i j b).peer = s.peer := by
  obtain ⟨_, _, _, h⟩ := s.flagK_shape (okey i j) b; unfold State.flag; rw [h]
@[simp] theorem State.flag_cores (s : State) (i j b : Nat) : (s.flag i j b).cores = s.cores := by
  obtain ⟨_, _, _, h⟩ := s.flagK_shape (okey i j) b; unfold State.flag; rw [h]
@[simp] theorem State.flag_ingress (s : State) (i j b : Nat) : (s.flag i j b).ingress = s.ingress := by
  obtain ⟨_, _, _, h⟩ := s.flagK_shape (okey i j) b; unfold State.flag; rw [h]
@[simp] theorem State.flag_extents (s : State) (i j b : Nat) : (s.flag i j b).extents = s.extents := by
  obtain ⟨_, _, _, h⟩ := s.flagK_shape (okey i j) b; unfold State.flag; rw [h]
@[simp] theorem State.flag_trays (s : State) (i j b : Nat) : (s.flag i j b).trays = s.trays := by
  obtain ⟨_, _, _, h⟩ := s.flagK_shape (okey i j) b; unfold State.flag; rw [h]
@[simp] theorem State.flag_nextEid (s : State) (i j b : Nat) : (s.flag i j b).nextEid = s.nextEid := by
  obtain ⟨_, _, _, h⟩ := s.flagK_shape (okey i j) b; unfold State.flag; rw [h]
@[simp] theorem State.flag_sets (s : State) (i j b : Nat) : (s.flag i j b).sets = s.sets := by
  obtain ⟨_, _, _, h⟩ := s.flagK_shape (okey i j) b; unfold State.flag; rw [h]
@[simp] theorem State.flag_lds (s : State) (i j b : Nat) : (s.flag i j b).lds = s.lds := by
  obtain ⟨_, _, _, h⟩ := s.flagK_shape (okey i j) b; unfold State.flag; rw [h]
@[simp] theorem State.flag_rrLd (s : State) (i j b : Nat) : (s.flag i j b).rrLd = s.rrLd := by
  obtain ⟨_, _, _, h⟩ := s.flagK_shape (okey i j) b; unfold State.flag; rw [h]
@[simp] theorem State.flag_poison (s : State) (i j b : Nat) : (s.flag i j b).poison = s.poison := by
  obtain ⟨_, _, _, h⟩ := s.flagK_shape (okey i j) b; unfold State.flag; rw [h]
@[simp] theorem State.flag_writes (s : State) (i j b : Nat) : (s.flag i j b).writes = s.writes := by
  obtain ⟨_, _, _, h⟩ := s.flagK_shape (okey i j) b; unfold State.flag; rw [h]
@[simp] theorem State.flag_nextWid (s : State) (i j b : Nat) : (s.flag i j b).nextWid = s.nextWid := by
  obtain ⟨_, _, _, h⟩ := s.flagK_shape (okey i j) b; unfold State.flag; rw [h]
@[simp] theorem State.flag_heldAcc (s : State) (i j b : Nat) : (s.flag i j b).heldAcc = s.heldAcc := by
  obtain ⟨_, _, _, h⟩ := s.flagK_shape (okey i j) b; unfold State.flag; rw [h]
@[simp] theorem State.flag_heldTiles (s : State) (i j b : Nat) : (s.flag i j b).heldTiles = s.heldTiles := by
  obtain ⟨_, _, _, h⟩ := s.flagK_shape (okey i j) b; unfold State.flag; rw [h]
@[simp] theorem State.flag_flagMark (s : State) (i j b : Nat) : (s.flag i j b).flagMark = s.flagMark := by
  obtain ⟨_, _, _, h⟩ := s.flagK_shape (okey i j) b; unfold State.flag; rw [h]
@[simp] theorem State.flag_lines (s : State) (i j b : Nat) : (s.flag i j b).lines = s.lines := by
  obtain ⟨_, _, _, h⟩ := s.flagK_shape (okey i j) b; unfold State.flag; rw [h]
@[simp] theorem State.flag_caches (s : State) (i j b : Nat) : (s.flag i j b).caches = s.caches := by
  obtain ⟨_, _, _, h⟩ := s.flagK_shape (okey i j) b; unfold State.flag; rw [h]
@[simp] theorem State.flag_msgs (s : State) (i j b : Nat) : (s.flag i j b).msgs = s.msgs := by
  obtain ⟨_, _, _, h⟩ := s.flagK_shape (okey i j) b; unfold State.flag; rw [h]
@[simp] theorem State.flag_fences (s : State) (i j b : Nat) : (s.flag i j b).fences = s.fences := by
  obtain ⟨_, _, _, h⟩ := s.flagK_shape (okey i j) b; unfold State.flag; rw [h]
@[simp] theorem State.flag_recipes (s : State) (i j b : Nat) : (s.flag i j b).recipes = s.recipes := by
  obtain ⟨_, _, _, h⟩ := s.flagK_shape (okey i j) b; unfold State.flag; rw [h]
@[simp] theorem State.flag_tensors (s : State) (i j b : Nat) : (s.flag i j b).tensors = s.tensors := by
  obtain ⟨_, _, _, h⟩ := s.flagK_shape (okey i j) b; unfold State.flag; rw [h]
@[simp] theorem State.flag_cmds (s : State) (i j b : Nat) : (s.flag i j b).cmds = s.cmds := by
  obtain ⟨_, _, _, h⟩ := s.flagK_shape (okey i j) b; unfold State.flag; rw [h]
@[simp] theorem State.flag_nextCmd (s : State) (i j b : Nat) : (s.flag i j b).nextCmd = s.nextCmd := by
  obtain ⟨_, _, _, h⟩ := s.flagK_shape (okey i j) b; unfold State.flag; rw [h]
@[simp] theorem State.flag_pend (s : State) (i j b : Nat) : (s.flag i j b).pend = s.pend := by
  obtain ⟨_, _, _, h⟩ := s.flagK_shape (okey i j) b; unfold State.flag; rw [h]
@[simp] theorem State.flag_colls (s : State) (i j b : Nat) : (s.flag i j b).colls = s.colls := by
  obtain ⟨_, _, _, h⟩ := s.flagK_shape (okey i j) b; unfold State.flag; rw [h]
@[simp] theorem State.flag_seqs (s : State) (i j b : Nat) : (s.flag i j b).seqs = s.seqs := by
  obtain ⟨_, _, _, h⟩ := s.flagK_shape (okey i j) b; unfold State.flag; rw [h]
@[simp] theorem State.flag_groups (s : State) (i j b : Nat) : (s.flag i j b).groups = s.groups := by
  obtain ⟨_, _, _, h⟩ := s.flagK_shape (okey i j) b; unfold State.flag; rw [h]
@[simp] theorem State.flag_prefixes (s : State) (i j b : Nat) : (s.flag i j b).prefixes = s.prefixes := by
  obtain ⟨_, _, _, h⟩ := s.flagK_shape (okey i j) b; unfold State.flag; rw [h]
@[simp] theorem State.flag_fmap (s : State) (i j b : Nat) : (s.flag i j b).fmap = s.fmap := by
  obtain ⟨_, _, _, h⟩ := s.flagK_shape (okey i j) b; unfold State.flag; rw [h]
@[simp] theorem State.flag_slots (s : State) (i j b : Nat) : (s.flag i j b).slots = s.slots := by
  obtain ⟨_, _, _, h⟩ := s.flagK_shape (okey i j) b; unfold State.flag; rw [h]
@[simp] theorem State.flag_psets (s : State) (i j b : Nat) : (s.flag i j b).psets = s.psets := by
  obtain ⟨_, _, _, h⟩ := s.flagK_shape (okey i j) b; unfold State.flag; rw [h]
@[simp] theorem State.flag_buckets (s : State) (i j b : Nat) : (s.flag i j b).buckets = s.buckets := by
  obtain ⟨_, _, _, h⟩ := s.flagK_shape (okey i j) b; unfold State.flag; rw [h]
@[simp] theorem State.flag_refillAt (s : State) (i j b : Nat) : (s.flag i j b).refillAt = s.refillAt := by
  obtain ⟨_, _, _, h⟩ := s.flagK_shape (okey i j) b; unfold State.flag; rw [h]
@[simp] theorem State.flag_reports (s : State) (i j b : Nat) : (s.flag i j b).reports = s.reports := by
  obtain ⟨_, _, _, h⟩ := s.flagK_shape (okey i j) b; unfold State.flag; rw [h]
@[simp] theorem State.flag_reportAt (s : State) (i j b : Nat) : (s.flag i j b).reportAt = s.reportAt := by
  obtain ⟨_, _, _, h⟩ := s.flagK_shape (okey i j) b; unfold State.flag; rw [h]
@[simp] theorem State.flag_sec (s : State) (i j b : Nat) : (s.flag i j b).sec = s.sec := by
  obtain ⟨_, _, _, h⟩ := s.flagK_shape (okey i j) b; unfold State.flag; rw [h]
@[simp] theorem State.flag_nextSid (s : State) (i j b : Nat) : (s.flag i j b).nextSid = s.nextSid := by
  obtain ⟨_, _, _, h⟩ := s.flagK_shape (okey i j) b; unfold State.flag; rw [h]
@[simp] theorem State.flag_dupAddr (s : State) (i j b : Nat) : (s.flag i j b).dupAddr = s.dupAddr := by
  obtain ⟨_, _, _, h⟩ := s.flagK_shape (okey i j) b; unfold State.flag; rw [h]
@[simp] theorem State.flag_pieces (s : State) (i j b : Nat) : (s.flag i j b).pieces = s.pieces := by
  obtain ⟨_, _, _, h⟩ := s.flagK_shape (okey i j) b; unfold State.flag; rw [h]
@[simp] theorem State.flag_relays (s : State) (i j b : Nat) : (s.flag i j b).relays = s.relays := by
  obtain ⟨_, _, _, h⟩ := s.flagK_shape (okey i j) b; unfold State.flag; rw [h]
@[simp] theorem State.flag_shadows (s : State) (i j b : Nat) : (s.flag i j b).shadows = s.shadows := by
  obtain ⟨_, _, _, h⟩ := s.flagK_shape (okey i j) b; unfold State.flag; rw [h]
@[simp] theorem State.flag_mons (s : State) (i j b : Nat) : (s.flag i j b).mons = s.mons := by
  obtain ⟨_, _, _, h⟩ := s.flagK_shape (okey i j) b; unfold State.flag; rw [h]
@[simp] theorem State.flag_snaps (s : State) (i j b : Nat) : (s.flag i j b).snaps = s.snaps := by
  obtain ⟨_, _, _, h⟩ := s.flagK_shape (okey i j) b; unfold State.flag; rw [h]
@[simp] theorem State.flag_nextSnap (s : State) (i j b : Nat) : (s.flag i j b).nextSnap = s.nextSnap := by
  obtain ⟨_, _, _, h⟩ := s.flagK_shape (okey i j) b; unfold State.flag; rw [h]
@[simp] theorem State.flag_rel (s : State) (i j b : Nat) : (s.flag i j b).rel = s.rel := by
  obtain ⟨_, _, _, h⟩ := s.flagK_shape (okey i j) b; unfold State.flag; rw [h]
@[simp] theorem State.flag_resets (s : State) (i j b : Nat) : (s.flag i j b).resets = s.resets := by
  obtain ⟨_, _, _, h⟩ := s.flagK_shape (okey i j) b; unfold State.flag; rw [h]
@[simp] theorem State.flag_freeCtr (s : State) (i j b : Nat) : (s.flag i j b).freeCtr = s.freeCtr := by
  obtain ⟨_, _, _, h⟩ := s.flagK_shape (okey i j) b; unfold State.flag; rw [h]

/-! ### condition -/

@[simp] theorem State.condition_tb (s : State) (c : Bool) (n i j b : Nat) : (s.condition c n i j b).tb = s.tb := by
  obtain ⟨_, _, _, _, h⟩ := s.condition_shape c n i j b; rw [h]
@[simp] theorem State.condition_blobs (s : State) (c : Bool) (n i j b : Nat) : (s.condition c n i j b).blobs = s.blobs := by
  obtain ⟨_, _, _, _, h⟩ := s.condition_shape c n i j b; rw [h]
@[simp] theorem State.condition_flex (s : State) (c : Bool) (n i j b : Nat) : (s.condition c n i j b).flex = s.flex := by
  obtain ⟨_, _, _, _, h⟩ := s.condition_shape c n i j b; rw [h]
@[simp] theorem State.condition_peer (s : State) (c : Bool) (n i j b : Nat) : (s.condition c n i j b).peer = s.peer := by
  obtain ⟨_, _, _, _, h⟩ := s.condition_shape c n i j b; rw [h]
@[simp] theorem State.condition_cores (s : State) (c : Bool) (n i j b : Nat) : (s.condition c n i j b).cores = s.cores := by
  obtain ⟨_, _, _, _, h⟩ := s.condition_shape c n i j b; rw [h]
@[simp] theorem State.condition_ingress (s : State) (c : Bool) (n i j b : Nat) : (s.condition c n i j b).ingress = s.ingress := by
  obtain ⟨_, _, _, _, h⟩ := s.condition_shape c n i j b; rw [h]
@[simp] theorem State.condition_extents (s : State) (c : Bool) (n i j b : Nat) : (s.condition c n i j b).extents = s.extents := by
  obtain ⟨_, _, _, _, h⟩ := s.condition_shape c n i j b; rw [h]
@[simp] theorem State.condition_trays (s : State) (c : Bool) (n i j b : Nat) : (s.condition c n i j b).trays = s.trays := by
  obtain ⟨_, _, _, _, h⟩ := s.condition_shape c n i j b; rw [h]
@[simp] theorem State.condition_nextEid (s : State) (c : Bool) (n i j b : Nat) : (s.condition c n i j b).nextEid = s.nextEid := by
  obtain ⟨_, _, _, _, h⟩ := s.condition_shape c n i j b; rw [h]
@[simp] theorem State.condition_sets (s : State) (c : Bool) (n i j b : Nat) : (s.condition c n i j b).sets = s.sets := by
  obtain ⟨_, _, _, _, h⟩ := s.condition_shape c n i j b; rw [h]
@[simp] theorem State.condition_lds (s : State) (c : Bool) (n i j b : Nat) : (s.condition c n i j b).lds = s.lds := by
  obtain ⟨_, _, _, _, h⟩ := s.condition_shape c n i j b; rw [h]
@[simp] theorem State.condition_rrLd (s : State) (c : Bool) (n i j b : Nat) : (s.condition c n i j b).rrLd = s.rrLd := by
  obtain ⟨_, _, _, _, h⟩ := s.condition_shape c n i j b; rw [h]
@[simp] theorem State.condition_poison (s : State) (c : Bool) (n i j b : Nat) : (s.condition c n i j b).poison = s.poison := by
  obtain ⟨_, _, _, _, h⟩ := s.condition_shape c n i j b; rw [h]
@[simp] theorem State.condition_writes (s : State) (c : Bool) (n i j b : Nat) : (s.condition c n i j b).writes = s.writes := by
  obtain ⟨_, _, _, _, h⟩ := s.condition_shape c n i j b; rw [h]
@[simp] theorem State.condition_nextWid (s : State) (c : Bool) (n i j b : Nat) : (s.condition c n i j b).nextWid = s.nextWid := by
  obtain ⟨_, _, _, _, h⟩ := s.condition_shape c n i j b; rw [h]
@[simp] theorem State.condition_heldAcc (s : State) (c : Bool) (n i j b : Nat) : (s.condition c n i j b).heldAcc = s.heldAcc := by
  obtain ⟨_, _, _, _, h⟩ := s.condition_shape c n i j b; rw [h]
@[simp] theorem State.condition_heldTiles (s : State) (c : Bool) (n i j b : Nat) : (s.condition c n i j b).heldTiles = s.heldTiles := by
  obtain ⟨_, _, _, _, h⟩ := s.condition_shape c n i j b; rw [h]
@[simp] theorem State.condition_flagMark (s : State) (c : Bool) (n i j b : Nat) : (s.condition c n i j b).flagMark = s.flagMark := by
  obtain ⟨_, _, _, _, h⟩ := s.condition_shape c n i j b; rw [h]
@[simp] theorem State.condition_lines (s : State) (c : Bool) (n i j b : Nat) : (s.condition c n i j b).lines = s.lines := by
  obtain ⟨_, _, _, _, h⟩ := s.condition_shape c n i j b; rw [h]
@[simp] theorem State.condition_caches (s : State) (c : Bool) (n i j b : Nat) : (s.condition c n i j b).caches = s.caches := by
  obtain ⟨_, _, _, _, h⟩ := s.condition_shape c n i j b; rw [h]
@[simp] theorem State.condition_msgs (s : State) (c : Bool) (n i j b : Nat) : (s.condition c n i j b).msgs = s.msgs := by
  obtain ⟨_, _, _, _, h⟩ := s.condition_shape c n i j b; rw [h]
@[simp] theorem State.condition_fences (s : State) (c : Bool) (n i j b : Nat) : (s.condition c n i j b).fences = s.fences := by
  obtain ⟨_, _, _, _, h⟩ := s.condition_shape c n i j b; rw [h]
@[simp] theorem State.condition_recipes (s : State) (c : Bool) (n i j b : Nat) : (s.condition c n i j b).recipes = s.recipes := by
  obtain ⟨_, _, _, _, h⟩ := s.condition_shape c n i j b; rw [h]
@[simp] theorem State.condition_tensors (s : State) (c : Bool) (n i j b : Nat) : (s.condition c n i j b).tensors = s.tensors := by
  obtain ⟨_, _, _, _, h⟩ := s.condition_shape c n i j b; rw [h]
@[simp] theorem State.condition_cmds (s : State) (c : Bool) (n i j b : Nat) : (s.condition c n i j b).cmds = s.cmds := by
  obtain ⟨_, _, _, _, h⟩ := s.condition_shape c n i j b; rw [h]
@[simp] theorem State.condition_nextCmd (s : State) (c : Bool) (n i j b : Nat) : (s.condition c n i j b).nextCmd = s.nextCmd := by
  obtain ⟨_, _, _, _, h⟩ := s.condition_shape c n i j b; rw [h]
@[simp] theorem State.condition_pend (s : State) (c : Bool) (n i j b : Nat) : (s.condition c n i j b).pend = s.pend := by
  obtain ⟨_, _, _, _, h⟩ := s.condition_shape c n i j b; rw [h]
@[simp] theorem State.condition_colls (s : State) (c : Bool) (n i j b : Nat) : (s.condition c n i j b).colls = s.colls := by
  obtain ⟨_, _, _, _, h⟩ := s.condition_shape c n i j b; rw [h]
@[simp] theorem State.condition_seqs (s : State) (c : Bool) (n i j b : Nat) : (s.condition c n i j b).seqs = s.seqs := by
  obtain ⟨_, _, _, _, h⟩ := s.condition_shape c n i j b; rw [h]
@[simp] theorem State.condition_groups (s : State) (c : Bool) (n i j b : Nat) : (s.condition c n i j b).groups = s.groups := by
  obtain ⟨_, _, _, _, h⟩ := s.condition_shape c n i j b; rw [h]
@[simp] theorem State.condition_prefixes (s : State) (c : Bool) (n i j b : Nat) : (s.condition c n i j b).prefixes = s.prefixes := by
  obtain ⟨_, _, _, _, h⟩ := s.condition_shape c n i j b; rw [h]
@[simp] theorem State.condition_fmap (s : State) (c : Bool) (n i j b : Nat) : (s.condition c n i j b).fmap = s.fmap := by
  obtain ⟨_, _, _, _, h⟩ := s.condition_shape c n i j b; rw [h]
@[simp] theorem State.condition_slots (s : State) (c : Bool) (n i j b : Nat) : (s.condition c n i j b).slots = s.slots := by
  obtain ⟨_, _, _, _, h⟩ := s.condition_shape c n i j b; rw [h]
@[simp] theorem State.condition_psets (s : State) (c : Bool) (n i j b : Nat) : (s.condition c n i j b).psets = s.psets := by
  obtain ⟨_, _, _, _, h⟩ := s.condition_shape c n i j b; rw [h]
@[simp] theorem State.condition_buckets (s : State) (c : Bool) (n i j b : Nat) : (s.condition c n i j b).buckets = s.buckets := by
  obtain ⟨_, _, _, _, h⟩ := s.condition_shape c n i j b; rw [h]
@[simp] theorem State.condition_refillAt (s : State) (c : Bool) (n i j b : Nat) : (s.condition c n i j b).refillAt = s.refillAt := by
  obtain ⟨_, _, _, _, h⟩ := s.condition_shape c n i j b; rw [h]
@[simp] theorem State.condition_reports (s : State) (c : Bool) (n i j b : Nat) : (s.condition c n i j b).reports = s.reports := by
  obtain ⟨_, _, _, _, h⟩ := s.condition_shape c n i j b; rw [h]
@[simp] theorem State.condition_reportAt (s : State) (c : Bool) (n i j b : Nat) : (s.condition c n i j b).reportAt = s.reportAt := by
  obtain ⟨_, _, _, _, h⟩ := s.condition_shape c n i j b; rw [h]
@[simp] theorem State.condition_sec (s : State) (c : Bool) (n i j b : Nat) : (s.condition c n i j b).sec = s.sec := by
  obtain ⟨_, _, _, _, h⟩ := s.condition_shape c n i j b; rw [h]
@[simp] theorem State.condition_nextSid (s : State) (c : Bool) (n i j b : Nat) : (s.condition c n i j b).nextSid = s.nextSid := by
  obtain ⟨_, _, _, _, h⟩ := s.condition_shape c n i j b; rw [h]
@[simp] theorem State.condition_dupAddr (s : State) (c : Bool) (n i j b : Nat) : (s.condition c n i j b).dupAddr = s.dupAddr := by
  obtain ⟨_, _, _, _, h⟩ := s.condition_shape c n i j b; rw [h]
@[simp] theorem State.condition_pieces (s : State) (c : Bool) (n i j b : Nat) : (s.condition c n i j b).pieces = s.pieces := by
  obtain ⟨_, _, _, _, h⟩ := s.condition_shape c n i j b; rw [h]
@[simp] theorem State.condition_relays (s : State) (c : Bool) (n i j b : Nat) : (s.condition c n i j b).relays = s.relays := by
  obtain ⟨_, _, _, _, h⟩ := s.condition_shape c n i j b; rw [h]
@[simp] theorem State.condition_shadows (s : State) (c : Bool) (n i j b : Nat) : (s.condition c n i j b).shadows = s.shadows := by
  obtain ⟨_, _, _, _, h⟩ := s.condition_shape c n i j b; rw [h]
@[simp] theorem State.condition_mons (s : State) (c : Bool) (n i j b : Nat) : (s.condition c n i j b).mons = s.mons := by
  obtain ⟨_, _, _, _, h⟩ := s.condition_shape c n i j b; rw [h]
@[simp] theorem State.condition_snaps (s : State) (c : Bool) (n i j b : Nat) : (s.condition c n i j b).snaps = s.snaps := by
  obtain ⟨_, _, _, _, h⟩ := s.condition_shape c n i j b; rw [h]
@[simp] theorem State.condition_nextSnap (s : State) (c : Bool) (n i j b : Nat) : (s.condition c n i j b).nextSnap = s.nextSnap := by
  obtain ⟨_, _, _, _, h⟩ := s.condition_shape c n i j b; rw [h]
@[simp] theorem State.condition_rel (s : State) (c : Bool) (n i j b : Nat) : (s.condition c n i j b).rel = s.rel := by
  obtain ⟨_, _, _, _, h⟩ := s.condition_shape c n i j b; rw [h]
@[simp] theorem State.condition_resets (s : State) (c : Bool) (n i j b : Nat) : (s.condition c n i j b).resets = s.resets := by
  obtain ⟨_, _, _, _, h⟩ := s.condition_shape c n i j b; rw [h]
@[simp] theorem State.condition_freeCtr (s : State) (c : Bool) (n i j b : Nat) : (s.condition c n i j b).freeCtr = s.freeCtr := by
  obtain ⟨_, _, _, _, h⟩ := s.condition_shape c n i j b; rw [h]

/-! ### sample -/

@[simp] theorem State.sample_tb (s : State) (m v : Nat) (c : SampleScope) : (s.sample m v c).tb = s.tb := by
  obtain ⟨_, _, _, _, h⟩ := s.sample_shape m v c; rw [h]
@[simp] theorem State.sample_pw (s : State) (m v : Nat) (c : SampleScope) : (s.sample m v c).pw = s.pw := by
  obtain ⟨_, _, _, _, h⟩ := s.sample_shape m v c; rw [h]
@[simp] theorem State.sample_blobs (s : State) (m v : Nat) (c : SampleScope) : (s.sample m v c).blobs = s.blobs := by
  obtain ⟨_, _, _, _, h⟩ := s.sample_shape m v c; rw [h]
@[simp] theorem State.sample_flex (s : State) (m v : Nat) (c : SampleScope) : (s.sample m v c).flex = s.flex := by
  obtain ⟨_, _, _, _, h⟩ := s.sample_shape m v c; rw [h]
@[simp] theorem State.sample_peer (s : State) (m v : Nat) (c : SampleScope) : (s.sample m v c).peer = s.peer := by
  obtain ⟨_, _, _, _, h⟩ := s.sample_shape m v c; rw [h]
@[simp] theorem State.sample_cores (s : State) (m v : Nat) (c : SampleScope) : (s.sample m v c).cores = s.cores := by
  obtain ⟨_, _, _, _, h⟩ := s.sample_shape m v c; rw [h]
@[simp] theorem State.sample_ingress (s : State) (m v : Nat) (c : SampleScope) : (s.sample m v c).ingress = s.ingress := by
  obtain ⟨_, _, _, _, h⟩ := s.sample_shape m v c; rw [h]
@[simp] theorem State.sample_extents (s : State) (m v : Nat) (c : SampleScope) : (s.sample m v c).extents = s.extents := by
  obtain ⟨_, _, _, _, h⟩ := s.sample_shape m v c; rw [h]
@[simp] theorem State.sample_trays (s : State) (m v : Nat) (c : SampleScope) : (s.sample m v c).trays = s.trays := by
  obtain ⟨_, _, _, _, h⟩ := s.sample_shape m v c; rw [h]
@[simp] theorem State.sample_nextEid (s : State) (m v : Nat) (c : SampleScope) : (s.sample m v c).nextEid = s.nextEid := by
  obtain ⟨_, _, _, _, h⟩ := s.sample_shape m v c; rw [h]
@[simp] theorem State.sample_sets (s : State) (m v : Nat) (c : SampleScope) : (s.sample m v c).sets = s.sets := by
  obtain ⟨_, _, _, _, h⟩ := s.sample_shape m v c; rw [h]
@[simp] theorem State.sample_lds (s : State) (m v : Nat) (c : SampleScope) : (s.sample m v c).lds = s.lds := by
  obtain ⟨_, _, _, _, h⟩ := s.sample_shape m v c; rw [h]
@[simp] theorem State.sample_rrLd (s : State) (m v : Nat) (c : SampleScope) : (s.sample m v c).rrLd = s.rrLd := by
  obtain ⟨_, _, _, _, h⟩ := s.sample_shape m v c; rw [h]
@[simp] theorem State.sample_poison (s : State) (m v : Nat) (c : SampleScope) : (s.sample m v c).poison = s.poison := by
  obtain ⟨_, _, _, _, h⟩ := s.sample_shape m v c; rw [h]
@[simp] theorem State.sample_writes (s : State) (m v : Nat) (c : SampleScope) : (s.sample m v c).writes = s.writes := by
  obtain ⟨_, _, _, _, h⟩ := s.sample_shape m v c; rw [h]
@[simp] theorem State.sample_nextWid (s : State) (m v : Nat) (c : SampleScope) : (s.sample m v c).nextWid = s.nextWid := by
  obtain ⟨_, _, _, _, h⟩ := s.sample_shape m v c; rw [h]
@[simp] theorem State.sample_heldAcc (s : State) (m v : Nat) (c : SampleScope) : (s.sample m v c).heldAcc = s.heldAcc := by
  obtain ⟨_, _, _, _, h⟩ := s.sample_shape m v c; rw [h]
@[simp] theorem State.sample_heldTiles (s : State) (m v : Nat) (c : SampleScope) : (s.sample m v c).heldTiles = s.heldTiles := by
  obtain ⟨_, _, _, _, h⟩ := s.sample_shape m v c; rw [h]
@[simp] theorem State.sample_flagMark (s : State) (m v : Nat) (c : SampleScope) : (s.sample m v c).flagMark = s.flagMark := by
  obtain ⟨_, _, _, _, h⟩ := s.sample_shape m v c; rw [h]
@[simp] theorem State.sample_lines (s : State) (m v : Nat) (c : SampleScope) : (s.sample m v c).lines = s.lines := by
  obtain ⟨_, _, _, _, h⟩ := s.sample_shape m v c; rw [h]
@[simp] theorem State.sample_caches (s : State) (m v : Nat) (c : SampleScope) : (s.sample m v c).caches = s.caches := by
  obtain ⟨_, _, _, _, h⟩ := s.sample_shape m v c; rw [h]
@[simp] theorem State.sample_msgs (s : State) (m v : Nat) (c : SampleScope) : (s.sample m v c).msgs = s.msgs := by
  obtain ⟨_, _, _, _, h⟩ := s.sample_shape m v c; rw [h]
@[simp] theorem State.sample_fences (s : State) (m v : Nat) (c : SampleScope) : (s.sample m v c).fences = s.fences := by
  obtain ⟨_, _, _, _, h⟩ := s.sample_shape m v c; rw [h]
@[simp] theorem State.sample_recipes (s : State) (m v : Nat) (c : SampleScope) : (s.sample m v c).recipes = s.recipes := by
  obtain ⟨_, _, _, _, h⟩ := s.sample_shape m v c; rw [h]
@[simp] theorem State.sample_tensors (s : State) (m v : Nat) (c : SampleScope) : (s.sample m v c).tensors = s.tensors := by
  obtain ⟨_, _, _, _, h⟩ := s.sample_shape m v c; rw [h]
@[simp] theorem State.sample_cmds (s : State) (m v : Nat) (c : SampleScope) : (s.sample m v c).cmds = s.cmds := by
  obtain ⟨_, _, _, _, h⟩ := s.sample_shape m v c; rw [h]
@[simp] theorem State.sample_nextCmd (s : State) (m v : Nat) (c : SampleScope) : (s.sample m v c).nextCmd = s.nextCmd := by
  obtain ⟨_, _, _, _, h⟩ := s.sample_shape m v c; rw [h]
@[simp] theorem State.sample_pend (s : State) (m v : Nat) (c : SampleScope) : (s.sample m v c).pend = s.pend := by
  obtain ⟨_, _, _, _, h⟩ := s.sample_shape m v c; rw [h]
@[simp] theorem State.sample_colls (s : State) (m v : Nat) (c : SampleScope) : (s.sample m v c).colls = s.colls := by
  obtain ⟨_, _, _, _, h⟩ := s.sample_shape m v c; rw [h]
@[simp] theorem State.sample_seqs (s : State) (m v : Nat) (c : SampleScope) : (s.sample m v c).seqs = s.seqs := by
  obtain ⟨_, _, _, _, h⟩ := s.sample_shape m v c; rw [h]
@[simp] theorem State.sample_groups (s : State) (m v : Nat) (c : SampleScope) : (s.sample m v c).groups = s.groups := by
  obtain ⟨_, _, _, _, h⟩ := s.sample_shape m v c; rw [h]
@[simp] theorem State.sample_prefixes (s : State) (m v : Nat) (c : SampleScope) : (s.sample m v c).prefixes = s.prefixes := by
  obtain ⟨_, _, _, _, h⟩ := s.sample_shape m v c; rw [h]
@[simp] theorem State.sample_fmap (s : State) (m v : Nat) (c : SampleScope) : (s.sample m v c).fmap = s.fmap := by
  obtain ⟨_, _, _, _, h⟩ := s.sample_shape m v c; rw [h]
@[simp] theorem State.sample_slots (s : State) (m v : Nat) (c : SampleScope) : (s.sample m v c).slots = s.slots := by
  obtain ⟨_, _, _, _, h⟩ := s.sample_shape m v c; rw [h]
@[simp] theorem State.sample_psets (s : State) (m v : Nat) (c : SampleScope) : (s.sample m v c).psets = s.psets := by
  obtain ⟨_, _, _, _, h⟩ := s.sample_shape m v c; rw [h]
@[simp] theorem State.sample_buckets (s : State) (m v : Nat) (c : SampleScope) : (s.sample m v c).buckets = s.buckets := by
  obtain ⟨_, _, _, _, h⟩ := s.sample_shape m v c; rw [h]
@[simp] theorem State.sample_refillAt (s : State) (m v : Nat) (c : SampleScope) : (s.sample m v c).refillAt = s.refillAt := by
  obtain ⟨_, _, _, _, h⟩ := s.sample_shape m v c; rw [h]
@[simp] theorem State.sample_reports (s : State) (m v : Nat) (c : SampleScope) : (s.sample m v c).reports = s.reports := by
  obtain ⟨_, _, _, _, h⟩ := s.sample_shape m v c; rw [h]
@[simp] theorem State.sample_reportAt (s : State) (m v : Nat) (c : SampleScope) : (s.sample m v c).reportAt = s.reportAt := by
  obtain ⟨_, _, _, _, h⟩ := s.sample_shape m v c; rw [h]
@[simp] theorem State.sample_sec (s : State) (m v : Nat) (c : SampleScope) : (s.sample m v c).sec = s.sec := by
  obtain ⟨_, _, _, _, h⟩ := s.sample_shape m v c; rw [h]
@[simp] theorem State.sample_nextSid (s : State) (m v : Nat) (c : SampleScope) : (s.sample m v c).nextSid = s.nextSid := by
  obtain ⟨_, _, _, _, h⟩ := s.sample_shape m v c; rw [h]
@[simp] theorem State.sample_dupAddr (s : State) (m v : Nat) (c : SampleScope) : (s.sample m v c).dupAddr = s.dupAddr := by
  obtain ⟨_, _, _, _, h⟩ := s.sample_shape m v c; rw [h]
@[simp] theorem State.sample_pieces (s : State) (m v : Nat) (c : SampleScope) : (s.sample m v c).pieces = s.pieces := by
  obtain ⟨_, _, _, _, h⟩ := s.sample_shape m v c; rw [h]
@[simp] theorem State.sample_relays (s : State) (m v : Nat) (c : SampleScope) : (s.sample m v c).relays = s.relays := by
  obtain ⟨_, _, _, _, h⟩ := s.sample_shape m v c; rw [h]
@[simp] theorem State.sample_shadows (s : State) (m v : Nat) (c : SampleScope) : (s.sample m v c).shadows = s.shadows := by
  obtain ⟨_, _, _, _, h⟩ := s.sample_shape m v c; rw [h]
@[simp] theorem State.sample_snaps (s : State) (m v : Nat) (c : SampleScope) : (s.sample m v c).snaps = s.snaps := by
  obtain ⟨_, _, _, _, h⟩ := s.sample_shape m v c; rw [h]
@[simp] theorem State.sample_nextSnap (s : State) (m v : Nat) (c : SampleScope) : (s.sample m v c).nextSnap = s.nextSnap := by
  obtain ⟨_, _, _, _, h⟩ := s.sample_shape m v c; rw [h]
@[simp] theorem State.sample_rel (s : State) (m v : Nat) (c : SampleScope) : (s.sample m v c).rel = s.rel := by
  obtain ⟨_, _, _, _, h⟩ := s.sample_shape m v c; rw [h]
@[simp] theorem State.sample_resets (s : State) (m v : Nat) (c : SampleScope) : (s.sample m v c).resets = s.resets := by
  obtain ⟨_, _, _, _, h⟩ := s.sample_shape m v c; rw [h]
@[simp] theorem State.sample_freeCtr (s : State) (m v : Nat) (c : SampleScope) : (s.sample m v c).freeCtr = s.freeCtr := by
  obtain ⟨_, _, _, _, h⟩ := s.sample_shape m v c; rw [h]

/-! ### respond -/

@[simp] theorem State.respond_tb (s : State) (a i j r : Nat) : (s.respond a i j r).tb = s.tb := by
  obtain ⟨_, _, h⟩ := s.respond_shape a i j r; rw [h]
@[simp] theorem State.respond_pw (s : State) (a i j r : Nat) : (s.respond a i j r).pw = s.pw := by
  obtain ⟨_, _, h⟩ := s.respond_shape a i j r; rw [h]
@[simp] theorem State.respond_objs (s : State) (a i j r : Nat) : (s.respond a i j r).objs = s.objs := by
  obtain ⟨_, _, h⟩ := s.respond_shape a i j r; rw [h]
@[simp] theorem State.respond_blobs (s : State) (a i j r : Nat) : (s.respond a i j r).blobs = s.blobs := by
  obtain ⟨_, _, h⟩ := s.respond_shape a i j r; rw [h]
@[simp] theorem State.respond_flex (s : State) (a i j r : Nat) : (s.respond a i j r).flex = s.flex := by
  obtain ⟨_, _, h⟩ := s.respond_shape a i j r; rw [h]
@[simp] theorem State.respond_peer (s : State) (a i j r : Nat) : (s.respond a i j r).peer = s.peer := by
  obtain ⟨_, _, h⟩ := s.respond_shape a i j r; rw [h]
@[simp] theorem State.respond_cores (s : State) (a i j r : Nat) : (s.respond a i j r).cores = s.cores := by
  obtain ⟨_, _, h⟩ := s.respond_shape a i j r; rw [h]
@[simp] theorem State.respond_ingress (s : State) (a i j r : Nat) : (s.respond a i j r).ingress = s.ingress := by
  obtain ⟨_, _, h⟩ := s.respond_shape a i j r; rw [h]
@[simp] theorem State.respond_extents (s : State) (a i j r : Nat) : (s.respond a i j r).extents = s.extents := by
  obtain ⟨_, _, h⟩ := s.respond_shape a i j r; rw [h]
@[simp] theorem State.respond_trays (s : State) (a i j r : Nat) : (s.respond a i j r).trays = s.trays := by
  obtain ⟨_, _, h⟩ := s.respond_shape a i j r; rw [h]
@[simp] theorem State.respond_nextEid (s : State) (a i j r : Nat) : (s.respond a i j r).nextEid = s.nextEid := by
  obtain ⟨_, _, h⟩ := s.respond_shape a i j r; rw [h]
@[simp] theorem State.respond_sets (s : State) (a i j r : Nat) : (s.respond a i j r).sets = s.sets := by
  obtain ⟨_, _, h⟩ := s.respond_shape a i j r; rw [h]
@[simp] theorem State.respond_lds (s : State) (a i j r : Nat) : (s.respond a i j r).lds = s.lds := by
  obtain ⟨_, _, h⟩ := s.respond_shape a i j r; rw [h]
@[simp] theorem State.respond_rrLd (s : State) (a i j r : Nat) : (s.respond a i j r).rrLd = s.rrLd := by
  obtain ⟨_, _, h⟩ := s.respond_shape a i j r; rw [h]
@[simp] theorem State.respond_poison (s : State) (a i j r : Nat) : (s.respond a i j r).poison = s.poison := by
  obtain ⟨_, _, h⟩ := s.respond_shape a i j r; rw [h]
@[simp] theorem State.respond_writes (s : State) (a i j r : Nat) : (s.respond a i j r).writes = s.writes := by
  obtain ⟨_, _, h⟩ := s.respond_shape a i j r; rw [h]
@[simp] theorem State.respond_nextWid (s : State) (a i j r : Nat) : (s.respond a i j r).nextWid = s.nextWid := by
  obtain ⟨_, _, h⟩ := s.respond_shape a i j r; rw [h]
@[simp] theorem State.respond_heldAcc (s : State) (a i j r : Nat) : (s.respond a i j r).heldAcc = s.heldAcc := by
  obtain ⟨_, _, h⟩ := s.respond_shape a i j r; rw [h]
@[simp] theorem State.respond_heldTiles (s : State) (a i j r : Nat) : (s.respond a i j r).heldTiles = s.heldTiles := by
  obtain ⟨_, _, h⟩ := s.respond_shape a i j r; rw [h]
@[simp] theorem State.respond_flagMark (s : State) (a i j r : Nat) : (s.respond a i j r).flagMark = s.flagMark := by
  obtain ⟨_, _, h⟩ := s.respond_shape a i j r; rw [h]
@[simp] theorem State.respond_lines (s : State) (a i j r : Nat) : (s.respond a i j r).lines = s.lines := by
  obtain ⟨_, _, h⟩ := s.respond_shape a i j r; rw [h]
@[simp] theorem State.respond_caches (s : State) (a i j r : Nat) : (s.respond a i j r).caches = s.caches := by
  obtain ⟨_, _, h⟩ := s.respond_shape a i j r; rw [h]
@[simp] theorem State.respond_msgs (s : State) (a i j r : Nat) : (s.respond a i j r).msgs = s.msgs := by
  obtain ⟨_, _, h⟩ := s.respond_shape a i j r; rw [h]
@[simp] theorem State.respond_fences (s : State) (a i j r : Nat) : (s.respond a i j r).fences = s.fences := by
  obtain ⟨_, _, h⟩ := s.respond_shape a i j r; rw [h]
@[simp] theorem State.respond_recipes (s : State) (a i j r : Nat) : (s.respond a i j r).recipes = s.recipes := by
  obtain ⟨_, _, h⟩ := s.respond_shape a i j r; rw [h]
@[simp] theorem State.respond_tensors (s : State) (a i j r : Nat) : (s.respond a i j r).tensors = s.tensors := by
  obtain ⟨_, _, h⟩ := s.respond_shape a i j r; rw [h]
@[simp] theorem State.respond_cmds (s : State) (a i j r : Nat) : (s.respond a i j r).cmds = s.cmds := by
  obtain ⟨_, _, h⟩ := s.respond_shape a i j r; rw [h]
@[simp] theorem State.respond_nextCmd (s : State) (a i j r : Nat) : (s.respond a i j r).nextCmd = s.nextCmd := by
  obtain ⟨_, _, h⟩ := s.respond_shape a i j r; rw [h]
@[simp] theorem State.respond_pend (s : State) (a i j r : Nat) : (s.respond a i j r).pend = s.pend := by
  obtain ⟨_, _, h⟩ := s.respond_shape a i j r; rw [h]
@[simp] theorem State.respond_colls (s : State) (a i j r : Nat) : (s.respond a i j r).colls = s.colls := by
  obtain ⟨_, _, h⟩ := s.respond_shape a i j r; rw [h]
@[simp] theorem State.respond_seqs (s : State) (a i j r : Nat) : (s.respond a i j r).seqs = s.seqs := by
  obtain ⟨_, _, h⟩ := s.respond_shape a i j r; rw [h]
@[simp] theorem State.respond_groups (s : State) (a i j r : Nat) : (s.respond a i j r).groups = s.groups := by
  obtain ⟨_, _, h⟩ := s.respond_shape a i j r; rw [h]
@[simp] theorem State.respond_prefixes (s : State) (a i j r : Nat) : (s.respond a i j r).prefixes = s.prefixes := by
  obtain ⟨_, _, h⟩ := s.respond_shape a i j r; rw [h]
@[simp] theorem State.respond_fmap (s : State) (a i j r : Nat) : (s.respond a i j r).fmap = s.fmap := by
  obtain ⟨_, _, h⟩ := s.respond_shape a i j r; rw [h]
@[simp] theorem State.respond_slots (s : State) (a i j r : Nat) : (s.respond a i j r).slots = s.slots := by
  obtain ⟨_, _, h⟩ := s.respond_shape a i j r; rw [h]
@[simp] theorem State.respond_psets (s : State) (a i j r : Nat) : (s.respond a i j r).psets = s.psets := by
  obtain ⟨_, _, h⟩ := s.respond_shape a i j r; rw [h]
@[simp] theorem State.respond_buckets (s : State) (a i j r : Nat) : (s.respond a i j r).buckets = s.buckets := by
  obtain ⟨_, _, h⟩ := s.respond_shape a i j r; rw [h]
@[simp] theorem State.respond_refillAt (s : State) (a i j r : Nat) : (s.respond a i j r).refillAt = s.refillAt := by
  obtain ⟨_, _, h⟩ := s.respond_shape a i j r; rw [h]
@[simp] theorem State.respond_reports (s : State) (a i j r : Nat) : (s.respond a i j r).reports = s.reports := by
  obtain ⟨_, _, h⟩ := s.respond_shape a i j r; rw [h]
@[simp] theorem State.respond_reportAt (s : State) (a i j r : Nat) : (s.respond a i j r).reportAt = s.reportAt := by
  obtain ⟨_, _, h⟩ := s.respond_shape a i j r; rw [h]
@[simp] theorem State.respond_sec (s : State) (a i j r : Nat) : (s.respond a i j r).sec = s.sec := by
  obtain ⟨_, _, h⟩ := s.respond_shape a i j r; rw [h]
@[simp] theorem State.respond_nextSid (s : State) (a i j r : Nat) : (s.respond a i j r).nextSid = s.nextSid := by
  obtain ⟨_, _, h⟩ := s.respond_shape a i j r; rw [h]
@[simp] theorem State.respond_dupAddr (s : State) (a i j r : Nat) : (s.respond a i j r).dupAddr = s.dupAddr := by
  obtain ⟨_, _, h⟩ := s.respond_shape a i j r; rw [h]
@[simp] theorem State.respond_pieces (s : State) (a i j r : Nat) : (s.respond a i j r).pieces = s.pieces := by
  obtain ⟨_, _, h⟩ := s.respond_shape a i j r; rw [h]
@[simp] theorem State.respond_relays (s : State) (a i j r : Nat) : (s.respond a i j r).relays = s.relays := by
  obtain ⟨_, _, h⟩ := s.respond_shape a i j r; rw [h]
@[simp] theorem State.respond_shadows (s : State) (a i j r : Nat) : (s.respond a i j r).shadows = s.shadows := by
  obtain ⟨_, _, h⟩ := s.respond_shape a i j r; rw [h]
@[simp] theorem State.respond_mons (s : State) (a i j r : Nat) : (s.respond a i j r).mons = s.mons := by
  obtain ⟨_, _, h⟩ := s.respond_shape a i j r; rw [h]
@[simp] theorem State.respond_snaps (s : State) (a i j r : Nat) : (s.respond a i j r).snaps = s.snaps := by
  obtain ⟨_, _, h⟩ := s.respond_shape a i j r; rw [h]
@[simp] theorem State.respond_nextSnap (s : State) (a i j r : Nat) : (s.respond a i j r).nextSnap = s.nextSnap := by
  obtain ⟨_, _, h⟩ := s.respond_shape a i j r; rw [h]
@[simp] theorem State.respond_rel (s : State) (a i j r : Nat) : (s.respond a i j r).rel = s.rel := by
  obtain ⟨_, _, h⟩ := s.respond_shape a i j r; rw [h]
@[simp] theorem State.respond_resets (s : State) (a i j r : Nat) : (s.respond a i j r).resets = s.resets := by
  obtain ⟨_, _, h⟩ := s.respond_shape a i j r; rw [h]
@[simp] theorem State.respond_freeCtr (s : State) (a i j r : Nat) : (s.respond a i j r).freeCtr = s.freeCtr := by
  obtain ⟨_, _, h⟩ := s.respond_shape a i j r; rw [h]

/-! ### What a flag leaves in its register -/

theorem bit_setBit (v b : Nat) : bit (setBit v b) b = true := by simp [bit, setBit, Nat.testBit_or]

theorem State.flagOnly_bit (s : State) (k b : Nat) (h : b < 16) : bit ((s.flagOnly k b).objK k) b = true := by
  unfold State.flagOnly
  rw [objK_setObjK]
  have h2 : setBit (s.objK k % 65536) b < 2 ^ 16 := by
    unfold setBit
    exact Nat.or_lt_two_pow (by omega) (Nat.pow_lt_pow_right (by omega) h)
  rw [show (s.objK k / 65536 + 1) % 65536 * 65536 = 2 ^ 16 * ((s.objK k / 65536 + 1) % 65536) from by omega, Nat.add_comm]
  unfold bit
  rw [Nat.testBit_two_pow_mul_add _ h2, if_pos h]
  exact bit_setBit _ _

theorem State.flagOnly_objK_ne (s : State) (k b : Nat) {j : Nat} (h : j ≠ k) : (s.flagOnly k b).objK j = s.objK j := by
  unfold State.flagOnly
  rw [objK_setObjK_ne _ _ h]

theorem State.flagOnly_bit_kept (s : State) (k b k2 b2 : Nat) (h : b < 16) (hb : b2 < 16) (hk : bit (s.objK k) b = true) : bit ((s.flagOnly k2 b2).objK k) b = true := by
  by_cases e : k = k2
  · subst e
    unfold State.flagOnly
    rw [objK_setObjK]
    rw [Nat.add_comm]
    unfold bit at *
    rw [show (s.objK k / 65536 + 1) % 65536 * 65536 = 2 ^ 16 * ((s.objK k / 65536 + 1) % 65536) from by omega]
    · have h2 : setBit (s.objK k % 65536) b2 < 2 ^ 16 := by
        unfold setBit
        exact Nat.or_lt_two_pow (by omega) (Nat.pow_lt_pow_right (by omega) hb)
      rw [Nat.testBit_two_pow_mul_add _ h2, if_pos h]
      unfold setBit
      rw [Nat.testBit_or]
      have : (s.objK k % 65536).testBit b = true := by
        rw [show (65536 : Nat) = 2 ^ 16 from rfl, Nat.testBit_mod_two_pow]; simp [h, hk]
      simp [this]
  · rw [flagOnly_objK_ne _ _ _ e]; exact hk

theorem State.notify_objs (s : State) (c : Nat) (f : Bytes) :
    (s.notify c f).objs = s.objs ∨ (s.notify c f).objs = (s.flagOnly (okey 0x1010 4) 4).objs := by
  unfold State.notify
  obtain ⟨x, o, h⟩ := s.noteAll_shape c f
  dsimp only
  split
  · right
    obtain ⟨x2, o2, h2⟩ := State.noteAll_shape ((s.noteAll c f).1.flagOnly (okey 0x1010 4) 4) 0x0001
      (statusFields (okey 0x1010 4) (((s.noteAll c f).1.flagOnly (okey 0x1010 4) 4).obj 0x1010 4))
    rw [h2, h]; rfl
  · left; rw [h]

theorem State.objK_of_objs {s t : State} (h : s.objs = t.objs) (k : Nat) : s.objK k = t.objK k := by unfold State.objK; rw [h]

/-- An event leaves its flag set. -/
theorem State.flagK_bit (s : State) (k b : Nat) (h : b < 16) : bit ((s.flagK k b).objK k) b = true := by
  unfold State.flagK
  rcases State.notify_objs (s.flagOnly k b) 0x0001 (statusFields k ((s.flagOnly k b).objK k)) with e | e
  · dsimp only; rw [State.objK_of_objs e]; exact flagOnly_bit _ _ _ h
  · dsimp only; rw [State.objK_of_objs e]; exact flagOnly_bit_kept _ _ _ _ _ h (by decide) (flagOnly_bit _ _ _ h)

theorem State.flag_bit (s : State) (i j b : Nat) (h : b < 16) : bit ((s.flag i j b).obj i j) b = true := s.flagK_bit (okey i j) b h

/-- An event keeps every flag that was set. -/
theorem State.flagK_keeps (s : State) (k b k2 b2 : Nat) (h : b < 16) (hb : b2 < 16) (hk : bit (s.objK k) b = true) :
    bit ((s.flagK k2 b2).objK k) b = true := by
  unfold State.flagK
  have h1 := flagOnly_bit_kept s k b k2 b2 h hb hk
  rcases State.notify_objs (s.flagOnly k2 b2) 0x0001 (statusFields k2 ((s.flagOnly k2 b2).objK k2)) with e | e
  · dsimp only; rw [State.objK_of_objs e]; exact h1
  · dsimp only; rw [State.objK_of_objs e]; exact flagOnly_bit_kept _ _ _ _ _ h (by decide) h1

/-- A notification changes no object but the flag register 0x1010.04. -/
theorem State.notify_objK (s : State) (c : Nat) (f : Bytes) {k : Nat} (h : k ≠ okey 0x1010 4) : (s.notify c f).objK k = s.objK k := by
  rcases s.notify_objs c f with e | e
  · exact State.objK_of_objs e k
  · rw [State.objK_of_objs e]; exact flagOnly_objK_ne _ _ _ h

/-- An event changes no object but its flag register and 0x1010.04. -/
theorem State.flagK_objK (s : State) (k b : Nat) {j : Nat} (h : j ≠ k) (h2 : j ≠ okey 0x1010 4) : (s.flagK k b).objK j = s.objK j := by
  unfold State.flagK
  dsimp only
  rw [State.notify_objK _ _ _ h2, flagOnly_objK_ne _ _ _ h]

end Sys2Proof.Machine
end

