-- ==== Sys2Proof/Tests/Slice0.lean ====
section
/-! SUPPORT. Tests: ill-formed commands that the check of well-formedness refuses, the worked examples of the spec, single steps, and for
every statement with hypotheses a concrete state and operands that meet them. -/

set_option Elab.async false

namespace Sys2Proof.Tests

open Sys2Proof Machine

/-! ### States the tests start from -/

/-- The module after reset with one open session of slot 0. -/
def sessS : State := { State.reset with sess := [(1, { port := 0, slot := 0, digest := [], lastRx := 0 })], nextSid := 2 }

/-- The module in service: powered, its references present, every domain on. Its extents are left out, each test lists those it needs. -/
def onS : State :=
  { sessS with pw := { State.reset.pw with stage := 6, rootOk := true, lref := 255, pwrOk := true, domOn := 1048575 }, extents := [] }

/-- A module whose start-up has come to a stage, with MOD_EN high and its references present. -/
def atStage (n : Nat) : State := { State.reset with pw := { State.reset.pw with stage := n, rootOk := true, lref := 255 } }

/-- Flex port 127 is up with 8 lanes, of which 4 run. -/
def flexUp : State := { onS with flex := [(127, { st := 3, rate := 32, width := 8, cur := 4 })] }

/-- Peer port 63 is ACTIVE with 4 lanes, of which 2 run. -/
def peerUp : State := { onS with peer := [(63, { st := 4, lanes := 4, cur := 2, keyTx := 1, keyRx := 1 })] }

/-- Flex port `p` is enabled in a role with 8 lanes, and is in `x`. -/
def port (p role : Nat) (x : FlexPort) (s : State) : State :=
  { ((s.setObj (0x3000 + 8 * p) 1 1).setObj (0x3000 + 8 * p) 2 role).setObj (0x3000 + 8 * p) 3 8 with flex := Table.put s.flex p x }

/-- Peer port `q` is enabled and in `x`. -/
def link (q : Nat) (x : PeerPort) (s : State) : State :=
  { s.setObj (0x3800 + 8 * q) 1 1 with peer := Table.put s.peer q x }

/-- A MEM_WRITE of 8 bytes in TC3 to this device. -/
def pk : Packet := { ptype := 2, tc := 3, srcDev := 1, dstDev := 0, tenant := 0, tag := 0, addr := 0, data := zeros 8 }

/-- One page of group 9 on its way to flash. -/
def movingPage : Page := { pos := [], tier := 2, moving := some 4, granules := 1 }

def group9 : Group := { gid := 9, tenant := 0, domain := none, shape := { fmt := 0, dim := 0, layers := 1, heads := 1, domain := none }, block := 0,
                        pages := [(3, movingPage)] }

theorem foldl_length {α β : Type} (f : List α → β → List α) (hf : ∀ a x, (f a x).length = a.length) (l : List β) (a : List α) :
    (l.foldl f a).length = a.length := by
  induction l generalizing a with
  | nil => rfl
  | cons x t ih => rw [List.foldl_cons, ih, hf]

theorem shaRound_length (P : ShaP) (h : List Nat) (kw : Nat × Nat) : (shaRound P h kw).length = h.length := by
  unfold shaRound
  split <;> rfl

theorem shaBlock_length (P : ShaP) (ks h : List Nat) (b : Bytes) : (shaBlock P ks h b).length = h.length := by
  unfold shaBlock
  rw [List.length_map, List.length_zip, foldl_length _ (shaRound_length P), Nat.min_self]

theorem sha384_ne_nil (m : Bytes) : sha384 m ≠ [] := by
  have key : ∀ l : List Nat, l.length = 8 → (l.flatMap (beBytes 8)).take 48 ≠ [] := by
    intro l h
    match l, h with
    | x :: t, _ => simp [beBytes, leBytes]
  exact key _ (by rw [foldl_length _ (shaBlock_length _ _)]; decide +kernel)

theorem digest_ne_nil (c : Bytes) : Config.chainRootDigest c ≠ [] := sha384_ne_nil _

/-- The home of address 0 is die 0. -/
theorem pk_port (s : State) (h : s.dieUp 0 = true) : ∀ e y, addrPort pk = some (e, y) → s.dieUp e = true := by
  intro e y g
  have k : addrPort pk = some (0, 45) := rfl
  rw [k] at g
  cases g
  exact h

theorem inner62 : ∀ e, xport 7 62 ≠ .link e := fun _ h => nomatch h

/-- Device 1 with a route to device 5 over peer port 63, which is ACTIVE. -/
def routed : State := ((link 63 { st := 4, lanes := 4 } onS).setObj 0x1000 5 0x8001).setObj 0x4200 6 (2 ^ 63)

/-- Cells of die 7 for an inner port and for peer port 63. -/
def cell62 : Cell := { inp := 15, tc := 3, out := 62, arr := 0, pkt := pk }

def cell23 : Cell := { inp := 15, tc := 3, out := 23, arr := 0, pkt := pk }

/-- Host port 127 is up, and its logical device 15 is enabled for tenant 4095, with 4 slots. -/
def ldS : State :=
  (((port 127 1 { st := 3, rate := 32, width := 8, cur := 8 } onS).setObj 0x547F 121 1).setObj 0x547F 122 0x8FFF).setObj 0x547F 124 4

def offered : Extent := { base := 0, st := 1, holder := some (127, 15), slot := 3 }

def granted : Extent := { base := 0, st := 2, holder := some (127, 15), slot := 3 }

/-- The logical device holds extent 0 at slot 3. -/
def grantedS : State := { ldS with extents := [(0, granted)] }

/-- Its lease expired at 0, at time `n`. -/
def leased (n : Nat) : State := { ldS with lds := [(ldKey 127 15, { lease := 1, expiry := some 0 })], tb := { now := n } }

/-- Its fourth donor slot holds `x`. -/
def donorS (x : Donor) : State := { ldS with lds := [(ldKey 127 15, { donors := [{}, {}, {}, x] })] }

theorem get_eq {α : Type} {o : Option α} (h : o.isSome = true) : o = some (o.get h) := (Option.some_get h).symm

theorem get_pair {α β : Type} {o : Option (α × β)} (h : o.isSome = true) : o = some ((o.get h).1, (o.get h).2) := (Option.some_get h).symm

theorem fst_pair {α β : Type} {o : α × β} {a : α} (h : o.1 = a) : o = (a, o.2) := h ▸ rfl

theorem ok_of {ε α : Type} {e : Except ε α} {a : α} (h : e.toOption = some a) : e = .ok a := by
  cases e with
  | ok b => simpa [Except.toOption] using h
  | error b => simp [Except.toOption] at h

/-- An engine of die 7 and its line, held in state `st` by agent `a` and granted by the home. -/
def lineS (c : CLine) (h : HLine) (ms : List CohMsg) : State := { onS with caches := [c], lines := [(9, h)], msgs := ms }

/-- Submission ring 63 of logical device 15 of port 127 runs with `x`, its completion ring 0 is on. -/
def ringS (x : SRing) : State :=
  { ldS with lds := [(ldKey 127 15, { rings := [(63, x)], cqs := [(0, { cfg := 0x10006 })], rrRing := 63 })], rrLd := [(127, 14)] }

/-- The bytes of a ring from `off` on. -/
def stored (off : Nat) (b : Bytes) : Table Byte := b.zipIdx.map (fun x => (off + x.2, x.1))

/-- A command header: recipe, payload length, result length and ARGS. -/
def hdr (base len res : Nat) (args : Bytes) : Bytes :=
  leBytes 8 (2 ^ 60 + base * 2 ^ 40 + len * 2 ^ 9) ++ zeros 12 ++ leBytes 4 res ++ padTo 40 args

/-- Tenant 4095 is enabled with every right, and a packet stands at the head of its ring: its payload is `pay` and `pad` zero bytes. -/
def cmdS (base res : Nat) (args pay : Bytes) (pad : Nat) : State :=
  let h := hdr base (pay.length + pad) res args
  ((ringS { st := 1, tail := packetBytes h, store := stored 0 (h ++ pay) }).setObjI 0x4400 2 4095 1).setObjI 0x4400 6 4095 1023

/-- A DATA flit with FSEQ 0 and KEY_ID 1 that carries one packet, and the tag that peer port 63 computes for it. -/
def dataFlit : Flit := { w0 := flitWord0 1 0 0 false 1 0 0, w1 := 0, pkts := [pk] }

def goodTag (y : PeerPort) : Bytes := (sealFlit y.rxKey y.rxFlits 0 1 0 (padTo payloadBytes ((y.rxBytes dataFlit).take payloadBytes))).2

def taggedFlit (y : PeerPort) : Flit := { dataFlit with tag := goodTag y }

theorem tag_opens (y : PeerPort) (t : Bytes) (h : y.keyRx = 1) (ht : t = goodTag y) : y.opens { dataFlit with tag := t } = true := by
  have k : bits dataFlit.w0 34 33 = 1 := by decide +kernel
  have f : bits dataFlit.w0 59 48 = 0 := by decide +kernel
  have g : bits dataFlit.w0 32 24 = 0 := by decide +kernel
  have e : y.rxBytes { dataFlit with tag := t } = y.rxBytes dataFlit := by unfold PeerPort.rxBytes; rfl
  unfold PeerPort.opens
  rw [e, k, f, g, h, beq_iff_eq, ht, goodTag]
  rfl

theorem tagged_opens (y : PeerPort) (h : y.keyRx = 1) : y.opens (taggedFlit y) = true := tag_opens y _ h rfl

/-- No tag has 13 bytes. -/
theorem long_tag (y : PeerPort) : y.opens { dataFlit with tag := zeros 13 } = false := by
  unfold PeerPort.opens sealFlit
  refine beq_eq_false_iff_ne.2 fun h => ?_
  have := congrArg List.length h
  simp only [List.length_take, zeros, List.length_replicate] at this
  omega

/-- A SYNC packet of a kind. -/
def syncPk (n : Nat) : Packet := { padPacket with ptype := 12, addr := Config.syncSubtype n * 2 ^ 56, data := zeros 24 }

theorem code_back (n : Nat) : n * 2 ^ 56 / 2 ^ 56 = n := Nat.mul_div_cancel _ (Nat.two_pow_pos 56)

theorem sync_is (n : Nat) : isSync (syncPk n) n = true := by
  simp only [isSync, syncPk, code_back, beq_self_eq_true, Bool.and_self]

theorem sync_resp_only : isSync (syncPk 1) 0 = false := by
  have h : (Config.syncCode 0 + 1 + Config.syncCode 1 % 255) % 256 ≠ Config.syncCode 0 % 256 := by omega
  simp only [isSync, syncPk, code_back, Config.syncSubtype, Nat.one_ne_zero, if_true, if_false, beq_eq_false_iff_ne.2 h, Bool.and_false]

theorem sync_may : ((link 63 { st := 4, txLimit := [(0, 1)], txq := [syncPk 1] } onS).peerP 63).mayGo ((link 63 { st := 4, txLimit := [(0, 1)], txq := [syncPk 1] } onS).waitsFor 63) (syncPk 1) = true := by
  decide +kernel

theorem witness_EveryStepTakesOneCommand :
    ∃ (c : Instr) (s t : State), exec c s = .next t :=
  ⟨.modrstNPulse 0, State.reset, State.reset, rfl⟩

theorem witness_EmptyQueueTicks :
    ∃ s : State, s.pending = [] ∧ 0 ≤ s.tb.fs ∧ s.tb.fs < 1000000 ∧ s.tb.now + 11 < 2 ^ 64 :=
  ⟨State.reset, by decide +kernel⟩

theorem witness_ResetState :
    (∃ d, d < 8)
    ∧ (∃ d, d < 8)
    ∧ (∃ e x, Table.find State.reset.extents e = some x) :=
  ⟨⟨7, by decide +kernel⟩,
   ⟨7, by decide +kernel⟩,
   ⟨0, Option.isSome_iff_exists.1 (by decide +kernel)⟩⟩

theorem witness_MemoryStaysCanonical :
    ∃ s t : State, Inv s ∧ step s = .next t :=
  ⟨{ pending := [.modrstNPulse 0] }, {}, rfl, rfl⟩

theorem witness_StorelessCommandsKeepMemory :
    ∃ (c : Instr) (s t : State), mayStore c = false ∧ exec c s = .next t :=
  ⟨.thermalDerate 90, State.reset, _, by decide +kernel, rfl⟩

theorem witness_ReadingCommandsKeepTheMachine :
    ∃ (c : Instr) (s t : State), onlyReads c = true ∧ exec c s = .next t :=
  ⟨.keepalive 1 5, sessS, _, by decide +kernel, rfl⟩

theorem witness_InputPowerAndStartupComplete :
    (∃ (mv _straps : Nat) (_dbg : Bool) (_s : State), 19000 ≤ mv ∧ mv ≤ 28000)
    ∧ (∃ (_ok : Bool) (s : State), s.pw.input = true ∧ s.pw.stage = 0)
    ∧ (∃ (_ok : Bool) (s : State), s.pw.input = true ∧ s.pw.stage = 1)
    ∧ (∃ (_ok : Bool) (s : State), s.pw.input = true ∧ s.pw.stage = 2 ∧ s.pw.modEn = true ∧ s.pw.rootOk = true ∧ s.pw.tripped = false)
    ∧ (∃ (_ok : Bool) (s : State), s.pw.input = true ∧ s.pw.stage = 3)
    ∧ (∃ (_ok : Bool) (s : State), s.pw.input = true ∧ s.pw.stage = 4)
    ∧ (∃ (_ok : Bool) (s : State), s.pw.input = true ∧ s.pw.stage = 5)
    ∧ (∃ (mv : Nat) (s : State), 29000 ≤ mv ∧ s.pw.input = true)
    ∧ (∃ (mv : Nat) (s : State), mv ≤ 18000 ∧ s.pw.input = true)
    ∧ (∃ (mv : Nat) (s : State), s.pw.input = true ∧ 18000 < mv ∧ mv ≤ 19500) :=
  ⟨⟨28000, 0x1FF, true, State.reset, by decide +kernel⟩,
   ⟨true, State.reset, by decide +kernel⟩,
   ⟨true, atStage 1, by decide +kernel⟩,
   ⟨true, atStage 2, by decide +kernel⟩,
   ⟨true, atStage 3, by decide +kernel⟩,
   ⟨true, atStage 4, by decide +kernel⟩,
   ⟨true, atStage 5, by decide +kernel⟩,
   ⟨29000, onS, by decide +kernel⟩,
   ⟨18000, onS, by decide +kernel⟩,
   ⟨19500, onS, by decide +kernel⟩⟩

theorem witness_ModulePadsComplete :
    (∃ s : State, s.pw.modEn = true)
    ∧ (∃ s : State, s.pw.modEn = false ∧ s.pw.stage < 2)
    ∧ (∃ s : State, s.pw.modEn = false ∧ 2 ≤ s.pw.stage ∧ s.pw.input = true ∧ s.pw.tripped = false ∧ s.pw.rootOk = true)
    ∧ (∃ (ns : Nat) (s : State), 1000 ≤ ns ∧ s.pw.modEn = true ∧ s.pw.input = true ∧ s.pw.tripped = false ∧ s.resets = [])
    ∧ (∃ (ns : Nat) (s : State), 1000 ≤ ns ∧ s.pw.modEn = true ∧ s.pw.input = true ∧ s.pw.tripped = false ∧ s.resets.any (fun r => r.kind == 1) = true)
    ∧ (∃ (ns : Nat) (_s : State), ns < 50)
    ∧ (∃ s : State, s.pw.tripped = false ∧ s.pw.input = true) :=
  ⟨⟨onS, by decide +kernel⟩,
   ⟨{ State.reset with pw := { State.reset.pw with modEn := false } }, by decide +kernel⟩,
   ⟨{ onS with pw := { onS.pw with modEn := false } }, by decide +kernel⟩,
   ⟨1000, onS, by decide +kernel⟩,
   ⟨1000, { onS with resets := [{ kind := 1, unit := 0, at_ := 0 }] }, by decide +kernel⟩,
   ⟨49, onS, by decide +kernel⟩,
   ⟨onS, by decide +kernel⟩⟩

theorem witness_DivisionSpendsWhatIsLeft :
    ∃ (ex : List Nat) (left : Nat), left < sumNat ex :=
  ⟨[3, 5], 7, by decide +kernel⟩

theorem witness_GrantsAndClocksComplete :
    (∃ (d : Nat) (s : State), d < 8 ∧ bit s.pw.domOn (8 + d) = true)
    ∧ (∃ (d _u : Nat) (s : State), d < 8 ∧ bit s.pw.domOn (8 + d) = true)
    ∧ (∃ (d e : Nat) (x : Engine) (_who : Option Nat) (s : State), d < 8 ∧ bit s.pw.domOn (8 + d) = true ∧ e / 52 = d ∧ Table.find s.rel.engines e = some x)
    ∧ (∃ (d : Nat) (s : State), d < 8 ∧ bit s.pw.domOn d = true)
    ∧ (∃ (q : Nat) (s : State), (s.peerP q).st = 4)
    ∧ (∃ (p : Nat) (s : State), (s.flexP p).st = 3)
    ∧ (∃ (clk : Nat) (_s : State), clk < 8)
    ∧ (∃ s : State, s.pw.stage ≠ 0)
    ∧ (∃ (clk : Nat) (s : State), clk ≤ 8 ∧ s.pw.stage = 0)
    ∧ (∃ (clk : Nat) (s : State), clk < 8 ∧ s.pw.stage ≠ 0) :=
  ⟨⟨7, onS, by decide +kernel⟩,
   ⟨7, 4095, onS, by decide +kernel⟩,
   ⟨7, 415, onS.engine 415, none, onS, by decide +kernel⟩,
   ⟨7, onS, by decide +kernel⟩,
   ⟨63, peerUp, by decide +kernel⟩,
   ⟨127, flexUp, by decide +kernel⟩,
   ⟨7, onS, by decide +kernel⟩,
   ⟨onS, by decide +kernel⟩,
   ⟨8, atStage 0, by decide +kernel⟩,
   ⟨7, onS, by decide +kernel⟩⟩

/-- An SPDM session of peer port 63 at a stage. -/
def spdmAt (n : Nat) : State := { peerUp with sec := { spdm := [(.peer 63, { stage := n, chain := zeros 4 })] } }

theorem witness_FlexPortEnableAndDisableComplete :
    (∃ (sid p : Nat) (s : State), p < 128 ∧ MayWrite s sid (0x3000 + 8 * p) 1 ∧ s.flexOn p = false ∧ s.obj (0x3000 + 8 * p) 2 ≠ 0 ∧ (8 ≤ s.flexWidth p → 4 * (p % 16) % s.flexWidth p = 0) ∧ (∀ q, q < 128 → q ≠ p → s.flexOn q = true → ∀ g, g ∈ laneGroups p (s.flexWidth p) → g ∉ laneGroups q (s.flexWidth q)) ∧ (∀ tc, tc ∈ (match s.obj (0x3000 + 8 * p) 2 with | 1 => [1, 2, 3] | 2 => [1] | _ => [1, 6]) → s.flexMin p tc ≠ 0) ∧ s.poolFits (p / 16) (minSum (s.flexMin p)) = true)
    ∧ (∃ (sid p : Nat) (s : State), p < 128 ∧ MayWrite s sid (0x3000 + 8 * p) 1) :=
  ⟨⟨1, 17, (onS.setObj 0x3088 2 1).setObj 0x3088 3 4, by decide +kernel, ⟨_, rfl, rfl, rfl⟩, by decide +kernel⟩,
   ⟨1, 127, onS, by decide +kernel, ⟨_, rfl, rfl, rfl⟩⟩⟩

theorem witness_FlexLinksAndTraysComplete :
    (∃ (p rate : Nat) (partner : FlexPartner) (s : State), s.role p ≠ 0 ∧ s.lanesUp (p / 16) = true ∧ s.ready = true ∧ (s.flexP p).stuck = false ∧ ((s.flexP p).st = 1 ∨ (s.flexP p).st = 2) ∧ s.scopeBusy (.flex p) = false ∧ (roleRates (s.role p)).find? (fun r => partner.rates.contains r) = some rate ∧ 2 ≤ Nat.min (s.flexWidth p) partner.width)
    ∧ (∃ (p width : Nat) (s : State), (s.flexP p).st = 3 ∧ width < (s.flexP p).width ∧ 2 ≤ width)
    ∧ (∃ (p width : Nat) (s : State), (s.flexP p).st = 3 ∧ width < (s.flexP p).width ∧ width < 2)
    ∧ (∃ (p : Nat) (s : State), (s.flexP p).st = 3)
    ∧ (∃ (p cid k : Nat) (c : NvmeCmd) (s : State), Table.find (s.flexP p).nvme cid = some c ∧ c.aborting = false ∧ c.op = 1 ∧ (s.flexP p).vcache = true ∧ (s.flexP p).nvmeWait = [] ∧ FlexPort.nvmePlace { s.flexP p with nvme := Table.del (s.flexP p).nvme cid } 2 = some k)
    ∧ (∃ (p cid gid m : Nat) (c : NvmeCmd) (g : Group) (y : Page) (s : State), Table.find (s.flexP p).nvme cid = some c ∧ c.aborting = false ∧ c.op = 1 ∧ (s.flexP p).vcache = false ∧ (s.flexP p).nvmeWait = [] ∧ g.spillLeft.contains m = false ∧ cid < (s.flexP p).nextCid ∧ c.page = pageId gid m ∧ m < 65536 ∧ Table.find s.groups gid = some g ∧ Table.find g.pages m = some y ∧ y.moving = some 4 ∧ y.recode = none ∧ y.after = none ∧ s.heldMoves = [] ∧ s.tierStored 4 + y.bytes ≤ s.tierCap 4 ∧ s.shapeRate g.tenant 6 = 0xFFFFFFFF)
    ∧ (∃ (p cid : Nat) (c : NvmeCmd) (s : State), Table.find (s.flexP p).nvme cid = some c ∧ c.aborting = false ∧ cid < (s.flexP p).nextCid)
    ∧ (∃ (p cid : Nat) (c : NvmeCmd) (s : State), Table.find (s.flexP p).nvme cid = some c ∧ c.aborting = true) :=
  ⟨⟨17, 32, { rates := [32, 16], width := 16, presets := [], trayGiB := 0, trayIde := false, volatileCache := false }, port 17 1 { st := 2 } onS, by decide +kernel⟩,
   ⟨127, 7, flexUp, by decide +kernel⟩,
   ⟨127, 1, flexUp, by decide +kernel⟩,
   ⟨127, flexUp, by decide +kernel⟩,
   ⟨127, 0, 1, { op := 1, page := 5 }, port 127 3 { st := 3, vcache := true, nextCid := 1, nvme := [(0, { op := 1, page := 5 })] } onS, by decide +kernel⟩,
   ⟨127, 0, 9, 3, { op := 1, page := pageId 9 3 }, group9, movingPage, { port 127 3 { st := 3, gib := 64, nextCid := 1, nvme := [(0, { op := 1, page := pageId 9 3 })] } onS with groups := [(9, group9)] }, by decide +kernel⟩,
   ⟨127, 0, { op := 1, page := 5 }, port 127 3 { st := 3, vcache := true, nextCid := 1, nvme := [(0, { op := 1, page := 5 })] } onS, by decide +kernel⟩,
   ⟨127, 0, { op := 1, page := 5, aborting := true }, port 127 3 { st := 3, vcache := true, nvme := [(0, { op := 1, page := 5, aborting := true })] } onS, by decide +kernel⟩⟩

theorem witness_FlitsComplete :
    (∃ (q : Nat) (k : Packet) (rest : List Packet) (s : State), (s.peerP q).st = 4 ∧ (s.peerP q).resend = 0 ∧ (s.peerP q).replay.length < 64 ∧ (s.peerP q).carry.length < 2528 ∧ (s.peerP q).waiting = k :: rest ∧ (s.peerP q).mayGo (s.waitsFor q) k = true ∧ (∀ x, x ∈ (s.peerP q).waiting → x.ptype ≠ 12))
    ∧ (∃ (q : Nat) (x : Stored) (s : State), (s.peerP q).st = 4 ∧ 0 < (s.peerP q).resend ∧ (s.peerP q).replay[(s.peerP q).replay.length - (s.peerP q).resend]? = some x)
    ∧ (∃ (q : Nat) (s : State), (s.peerP q).st = 4 ∧ (s.peerP q).resend = 0 ∧ (s.peerP q).carry = [] ∧ (s.peerP q).waiting = [])
    ∧ (∃ (q : Nat) (s : State), ((s.peerP q).st = 2 ∨ (s.peerP q).st = 5))
    ∧ (∃ (q : Nat) (f : Flit) (k : Packet) (s : State), (s.peerP q).st = 4 ∧ (s.peerP q).rxPart = none ∧ (s.peerP q).rxCarry = [] ∧ f.fecOk = true ∧ f.crcOk = true ∧ (s.peerP q).opens f = true ∧ f.w0 / 2 ^ 60 = 1 ∧ bits f.w0 34 33 = (s.peerP q).keyRx ∧ (s.peerP q).keyRx ≠ 0 ∧ bits f.w0 59 48 = ((s.peerP q).rxSeq + 1) % 4096 ∧ bit f.w0 35 = false ∧ f.pkts = [k] ∧ (packetWire k).length ≤ 2528 ∧ isSpdm k = false ∧ malformed k = false ∧ ¬ (k.ptype = 0 ∧ k.tc = 0))
    ∧ (∃ (q : Nat) (f : Flit) (s : State), ((s.peerP q).st = 3 ∨ (s.peerP q).st = 4) ∧ (s.peerP q).bad f = true ∧ (s.peerP q).nakOpen = false)
    ∧ (∃ (q : Nat) (s : State), ((s.peerP q).st = 3 ∨ (s.peerP q).st = 4) ∧ (s.peerP q).replay ≠ [] ∧ (s.peerP q).streak < 4)
    ∧ (∃ (q : Nat) (s : State), ((s.peerP q).st = 3 ∨ (s.peerP q).st = 4) ∧ (s.peerP q).replay ≠ [] ∧ 4 ≤ (s.peerP q).streak)
    ∧ (∃ (q : Nat) (f : Flit) (s : State), (s.peerP q).st = 4 ∧ (s.peerP q).bad f = false ∧ (s.peerP q).opens f = false ∧ f.w0 / 2 ^ 60 = 1 ∧ bits f.w0 34 33 = (s.peerP q).keyRx ∧ bits f.w0 59 48 = ((s.peerP q).rxSeq + 1) % 4096 ∧ bit f.w0 35 = false) :=
  ⟨⟨63, pk, [], link 63 { st := 4, txq := [pk], txLimit := [(3, 1)], keyTx := 1, keyRx := 1 } onS, by decide +kernel⟩,
   ⟨63, { fseq := 0, key := 1, first := 0, pkts := [pk] }, link 63 { st := 4, resend := 1, replay := [{ fseq := 0, key := 1, first := 0, pkts := [pk] }], keyTx := 1, keyRx := 1 } onS, by decide +kernel⟩,
   ⟨63, peerUp, by decide +kernel⟩,
   ⟨63, link 63 { st := 5, lanes := 4 } onS, by decide +kernel⟩,
   ⟨63, taggedFlit (peerUp.peerP 63), pk, peerUp, by decide +kernel, by decide +kernel, (by decide +kernel), by decide +kernel, by decide +kernel, (tagged_opens _ rfl), by decide +kernel⟩,
   ⟨63, { dataFlit with fecOk := false }, peerUp, by decide +kernel⟩,
   ⟨63, link 63 { st := 3, streak := 2, replay := [{ fseq := 0, key := 1, first := 0, pkts := [pk] }] } onS, by decide +kernel⟩,
   ⟨63, link 63 { st := 4, streak := 4, replay := [{ fseq := 0, key := 1, first := 0, pkts := [pk] }] } onS, by decide +kernel⟩,
   ⟨63, { dataFlit with tag := zeros 13 }, peerUp, by decide +kernel, by decide +kernel, (long_tag _), by decide +kernel⟩⟩

theorem witness_LaneAndLinkLossComplete :
    (∃ (q lane : Nat) (s : State), ((s.peerP q).st = 3 ∨ (s.peerP q).st = 4) ∧ lane < (s.peerP q).lanes ∧ s.obj 0x3A10 (q / 8 + 1) % 4 ≠ 3)
    ∧ (∃ (q lane : Nat) (s : State), ((s.peerP q).st = 3 ∨ (s.peerP q).st = 4) ∧ lane < (s.peerP q).lanes ∧ s.obj 0x3A10 (q / 8 + 1) % 4 = 3 ∧ 1 < (s.peerP q).lanes)
    ∧ (∃ (q : Nat) (s : State), (s.peerP q).st = 4 ∧ (s.peerP q).lanes = 1 ∧ s.obj 0x3A10 (q / 8 + 1) % 4 = 3)
    ∧ (∃ (q : Nat) (s : State), (s.peerP q).st = 3 ∧ (s.peerP q).lanes = 1 ∧ s.obj 0x3A10 (q / 8 + 1) % 4 = 3)
    ∧ (∃ (q : Nat) (s : State), (s.peerP q).live = true)
    ∧ (∃ (q : Nat) (s : State), 2 ≤ (s.peerP q).st ∧ (s.peerP q).live = false)
    ∧ (∃ (via q _last t0 : Nat) (l : List Stored) (more : List (Nat × List Stored)) (s : State), (s.peerP q).hold = (t0, l) :: more ∧ (s.peerP via).st = 4)
    ∧ (∃ (q t0 : Nat) (l : List Stored) (more : List (Nat × List Stored)) (s : State), (s.peerP q).hold = (t0, l) :: more) :=
  ⟨⟨63, 3, peerUp.setObj 0x3A10 8 1, by decide +kernel⟩,
   ⟨63, 3, peerUp.setObj 0x3A10 8 3, by decide +kernel⟩,
   ⟨63, (link 63 { st := 4, lanes := 1, cur := 1 } onS).setObj 0x3A10 8 3, by decide +kernel⟩,
   ⟨63, (link 63 { st := 3, lanes := 1 } onS).setObj 0x3A10 8 3, by decide +kernel⟩,
   ⟨63, link 63 { st := 5, lanes := 4 } onS, by decide +kernel⟩,
   ⟨63, link 63 { st := 2 } onS, by decide +kernel⟩,
   ⟨62, 63, 4095, 0, [], [], link 62 { st := 4 } (link 63 { st := 1, hold := [(0, [])] } onS), by decide +kernel⟩,
   ⟨63, 0, [], [], link 63 { st := 1, hold := [(0, [])] } onS, by decide +kernel⟩⟩

theorem witness_PeerPortLifeCompletes :
    (∃ (sid q : Nat) (s : State), q < 64 ∧ MayWrite s sid (0x3800 + 8 * q) 1 ∧ s.peerOn q = false ∧ s.sec.debugOpen = false ∧ s.poolFits (q / 8) (minSum (s.peerMin q)) = true)
    ∧ (∃ (sid q : Nat) (s : State), q < 64 ∧ MayWrite s sid (0x3800 + 8 * q) 1)
    ∧ (∃ (q : Nat) (s : State), s.peerOn q = true ∧ (s.peerP q).st = 1 ∧ s.lanesUp (q / 8) = true ∧ 5 ≤ s.pw.stage)
    ∧ (∃ (q lane : Nat) (s : State), (s.peerP q).st = 2 ∧ lane < s.peerWidth q ∧ lane ∉ (s.peerP q).dfltLanes)
    ∧ (∃ (q lanes : Nat) (_presets : Bytes) (s : State), (s.peerP q).st = 2 ∧ 1 ≤ lanes ∧ 1 ≤ (s.peerP q).cap ∧ 1 ≤ s.peerWidth q)
    ∧ (∃ (q : Nat) (s : State), (s.peerP q).st = 5) :=
  ⟨⟨1, 63, onS, by decide +kernel, ⟨_, rfl, rfl, rfl⟩, by decide +kernel⟩,
   ⟨1, 63, onS, by decide +kernel, ⟨_, rfl, rfl, rfl⟩⟩,
   ⟨63, link 63 { st := 1 } onS, by decide +kernel⟩,
   ⟨63, 3, link 63 { st := 2 } onS, by decide +kernel⟩,
   ⟨63, 1, [], link 63 { st := 2 } onS, by decide +kernel⟩,
   ⟨63, link 63 { st := 5 } onS, by decide +kernel⟩⟩

theorem witness_PeerAuthenticationAndKeysComplete :
    (∃ (q : Nat) (chain : Bytes) (id serial : Nat) (s : State), (s.peerP q).st = 3 ∧ (s.peerP q).anchor ≠ [] ∧ Config.chainRootDigest chain = (s.peerP q).anchor ∧ s.assigned = true ∧ id % 512 ≠ s.devId ∧ serial ≠ Config.serial ∧ (s.spdmOf (.peer q)).stage = 6)
    ∧ (∃ (q : Nat) (chain : Bytes) (id serial : Nat) (s : State), (s.peerP q).st = 3 ∧ (s.peerP q).anchor ≠ [] ∧ Config.chainRootDigest chain = (s.peerP q).anchor ∧ s.assigned = true ∧ id % 512 ≠ s.devId ∧ serial ≠ Config.serial ∧ (s.spdmOf (.peer q)).stage ≠ 6)
    ∧ (∃ (q : Nat) (chain : Bytes) (_id _serial : Nat) (s : State), (s.peerP q).st = 3 ∧ ((s.peerP q).anchor = [] ∨ Config.chainRootDigest chain ≠ (s.peerP q).anchor))
    ∧ (∃ (q : Nat) (_chain : Bytes) (_id _serial : Nat) (s : State), (s.peerP q).st = 3 ∧ s.assigned = false)
    ∧ (∃ (q : Nat) (s : State), (s.peerP q).st = 4)
    ∧ (∃ (q : Nat) (s : State), (s.peerP q).st = 4 ∧ (s.peerP q).keyFlits < 2 ^ 32)
    ∧ (∃ (q : Nat) (s : State), (s.peerP q).st = 4 ∧ 2 ^ 32 ≤ (s.peerP q).keyFlits) :=
  ⟨⟨63, [], 2, Config.serial + 1, { (link 63 { st := 3, anchor := Config.chainRootDigest [] } onS).setObj 0x1000 5 0x8001 with sec := { spdm := [(.peer 63, { stage := 6 })] } }, rfl, (digest_ne_nil _), rfl, rfl, (by decide), (Nat.succ_ne_self _), rfl⟩,
   ⟨63, [], 2, Config.serial + 1, (link 63 { st := 3, anchor := Config.chainRootDigest [] } onS).setObj 0x1000 5 0x8001, rfl, (digest_ne_nil _), rfl, rfl, (by decide), (Nat.succ_ne_self _), (by decide)⟩,
   ⟨63, [], 2, 0, link 63 { st := 3 } onS, by decide +kernel, (Or.inl rfl)⟩,
   ⟨63, [], 2, 0, link 63 { st := 3 } onS, by decide +kernel⟩,
   ⟨63, peerUp, by decide +kernel⟩,
   ⟨63, { peerUp with peer := [(63, { st := 4, keyFlits := 4294967295 })] }, by decide +kernel⟩,
   ⟨63, { peerUp with peer := [(63, { st := 4, keyFlits := 4294967296 })] }, by decide +kernel⟩⟩

theorem witness_TimeSyncCompletes :
    (∃ (q : Nat) (s : State), s.tb.upstream = some q)
    ∧ (∃ (q _t1 : Nat) (s : State), (s.peerP q).st = 4)
    ∧ (∃ (q : Nat) (k : Packet) (s : State), (s.peerP q).st = 4 ∧ (s.peerP q).resend = 0 ∧ (s.peerP q).replay.length < 64 ∧ (s.peerP q).carry = [] ∧ (s.peerP q).waiting = [k] ∧ (s.peerP q).mayGo (s.waitsFor q) k = true ∧ isSync k 0 = true ∧ s.tb.now < 2 ^ 64)
    ∧ (∃ (q : Nat) (k : Packet) (s : State), (s.peerP q).st = 4 ∧ (s.peerP q).resend = 0 ∧ (s.peerP q).replay.length < 64 ∧ (s.peerP q).carry = [] ∧ (s.peerP q).waiting = [k] ∧ (s.peerP q).mayGo (s.waitsFor q) k = true ∧ isSync k 0 = false ∧ isSync k 1 = true)
    ∧ (∃ (q t1 t2 t3 t4 root hops sender : Nat) (s : State), (s.peerP q).st = 4 ∧ s.tb.upstream = some q ∧ (State.syncSelect { s with tb := { s.tb with adverts := Table.put s.tb.adverts q (root, hops, sender) } }).tb.upstream = some q ∧ Table.find s.tb.reqs q = some t1 ∧ 0 ≤ syncOffsetPs t1 t2 t3 t4 (toSigned 32 (s.obj (0x3800 + 8 * q) 5)) ∧ s.tb.stepped = false ∧ s.timeHeld = false)
    ∧ (∃ (q t1 _t2 _t3 _t4 root hops sender : Nat) (s : State), (s.peerP q).st = 4 ∧ s.tb.upstream = some q ∧ (State.syncSelect { s with tb := { s.tb with adverts := Table.put s.tb.adverts q (root, hops, sender) } }).tb.upstream = some q ∧ Table.find s.tb.reqs q = some t1 ∧ s.tb.stepped = true) :=
  ⟨⟨63, { peerUp with tb := { upstream := some 63 } }, by decide +kernel⟩,
   ⟨63, 0, peerUp, by decide +kernel⟩,
   ⟨63, syncPk 0, link 63 { st := 4, txLimit := [(0, 1)], txq := [syncPk 0] } onS, by decide +kernel, by decide +kernel, (by decide +kernel), by decide +kernel, rfl, by decide +kernel, (sync_is 0), by decide +kernel⟩,
   ⟨63, syncPk 1, link 63 { st := 4, txLimit := [(0, 1)], txq := [syncPk 1] } onS, by decide +kernel, by decide +kernel, (by decide +kernel), by decide +kernel, rfl, sync_may, sync_resp_only, (sync_is 1)⟩,
   ⟨63, 0, 500, 700, 900, 0, 0, 0, { peerUp with tb := { upstream := some 63, reqs := [(63, 0)] } }, by decide +kernel⟩,
   ⟨63, 0, 500, 700, 900, 0, 0, 0, { peerUp with tb := { upstream := some 63, reqs := [(63, 0)], stepped := true } }, by decide +kernel⟩⟩

theorem witness_SpdmRequestsComplete :
    (∃ (ch : SpdmCh) (s : State), s.spdmOn ch = true)
    ∧ (∃ (ch : SpdmCh) (s : State), s.spdmOn ch = true ∧ 1 ≤ (s.spdmOf ch).stage)
    ∧ (∃ (ch : SpdmCh) (s : State), s.spdmOn ch = true ∧ (s.spdmOf ch).stage = 2)
    ∧ (∃ (ch : SpdmCh) (off _len : Nat) (s : State), s.spdmOn ch = true ∧ 3 ≤ (s.spdmOf ch).stage ∧ off < (s.spdmOf ch).chain.length)
    ∧ (∃ (ch : SpdmCh) (chain : Bytes) (s : State), s.spdmOn ch = true ∧ 3 ≤ (s.spdmOf ch).stage ∧ s.spdmBeside ch < 4 ∧ ((∃ p n, ch = .host p n) ∨ chain ≠ []))
    ∧ (∃ (p n : Nat) (s : State), s.spdmOn (.host p n) = true ∧ (s.spdmOf (.host p n)).stage = 5)
    ∧ (∃ (q : Nat) (s : State), (s.peerP q).st = 3 ∧ q < 64 ∧ (s.spdmOf (.peer q)).stage = 5 ∧ (s.peerP q).authOk = true)
    ∧ (∃ (q : Nat) (s : State), s.spdmOn (.peer q) = true ∧ (s.spdmOf (.peer q)).stage = 5 ∧ (s.peerP q).authOk = false)
    ∧ (∃ (ch : SpdmCh) (idx : Nat) (b : Bytes) (s : State), s.spdmOn ch = true ∧ 3 ≤ (s.spdmOf ch).stage ∧ s.measurements idx = some b) :=
  ⟨⟨.peer 63, peerUp, by decide +kernel⟩,
   ⟨.peer 63, spdmAt 1, by decide +kernel⟩,
   ⟨.peer 63, spdmAt 2, by decide +kernel⟩,
   ⟨.peer 63, 3, 64, spdmAt 3, by decide +kernel⟩,
   ⟨.peer 63, [0], spdmAt 4, by decide +kernel, by decide +kernel, (by decide +kernel), (Or.inr (by decide))⟩,
   ⟨127, 3, { port 127 1 { st := 3 } onS with sec := { spdm := [(.host 127 3, { stage := 5 })] } }, by decide +kernel⟩,
   ⟨63, { link 63 { st := 3, authOk := true } onS with sec := { spdm := [(.peer 63, { stage := 5 })] } }, by decide +kernel⟩,
   ⟨63, spdmAt 5, by decide +kernel⟩,
   ⟨.peer 63, 0, leBytes 1 6, spdmAt 6, by decide +kernel⟩⟩

/-- Shared set 7 of domain 3 has extent 0 as its current version; tenant 4095 is of that domain and may map it. -/
def sharedS : State :=
  { (ldS.setObjI 0x4400 5 4095 3).setObjI 0x4400 6 4095 64 with
    extents := [(0, { base := 0, st := 2, set := some (7, 1) })], sets := [(7, { domain := 3, versions := [⟨1, 0, []⟩], top := 1 })] }

theorem witness_CellAdmitCompletes :
    (∃ (d x out : Nat) (k : Packet) (r : Bool × Option Nat) (s u : State), d < 8 ∧ x < 63 ∧ out < 63 ∧ s.dieUp d = true ∧ s.portClass d x k = true ∧ u = (s.countBp d).releaseTc0 d ∧ u.ingressTakes d x k.tc k.tenant = true ∧ (∀ e, xport d x ≠ .link e) ∧ (k.dstDev = u.devId ∨ u.assigned = false) ∧ (k.ptype = 1 ∨ k.ptype = 2 ∨ k.ptype = 4 → faOk k.addr = true) ∧ (k.ptype = 2 → u.flagStop d x (k.tc, k.tenant) = false) ∧ (∀ e y, addrPort k = some (e, y) → u.dieUp e = true) ∧ (k.tc = 0 → u.tc0Due d x ≤ u.xbCycle ∧ ∀ y, y ∈ (u.core d).tc0Wait → y.inp ≠ x) ∧ u.room d x k = some r)
    ∧ (∃ (d x out q : Nat) (k : Packet) (r : Bool × Option Nat) (s u : State), d < 8 ∧ x < 63 ∧ out < 63 ∧ s.dieUp d = true ∧ s.portClass d x k = true ∧ u = (s.countBp d).releaseTc0 d ∧ u.ingressTakes d x k.tc k.tenant = true ∧ (∀ e, xport d x ≠ .link e) ∧ k.dstDev ≠ u.devId ∧ u.assigned = true ∧ (k.ptype = 2 → u.flagStop d x (k.tc, k.tenant) = false) ∧ k.tc ≠ 0 ∧ u.routeMember k.tenant k.tc d x k.dstDev = some q ∧ (∀ old, Table.find (u.core d).flows (flowKey k.tenant k.tc d x k.dstDev) = some old → old = q) ∧ u.room d x k = some r)
    ∧ (∃ (d x out e : Nat) (k : Packet) (w : Cell) (rest : List (Nat × Cell)) (r : Bool × Option Nat) (s u : State), d < 8 ∧ x < 63 ∧ out < 63 ∧ s.dieUp d = true ∧ s.portClass d x k = true ∧ xport d x = .link e ∧ u = (s.countBp d).releaseTc0 d ∧ takeWire e k.tc (Table.get (u.core d).expect 0 (e * 8 + k.tc)) k (u.core d).wires = some (w, rest) ∧ ¬ (24 ≤ w.fin.getD out ∧ w.fin.getD out < 45) ∧ u.room d x k = some r)
    ∧ (∃ (d x out : Nat) (k : Packet) (s u : State), d < 8 ∧ x < 63 ∧ out < 63 ∧ s.dieUp d = true ∧ s.portClass d x k = true ∧ u = (s.countBp d).releaseTc0 d ∧ (u.ingressTakes d x k.tc k.tenant = false ∨ (k.ptype = 2 ∧ u.flagStop d x (k.tc, k.tenant) = true)))
    ∧ (∃ (d x out p : Nat) (k : Packet) (r : Bool × Option Nat) (s u : State), d < 8 ∧ x < 63 ∧ out < 63 ∧ s.dieUp d = true ∧ s.portClass d x k = true ∧ u = (s.countBp d).releaseTc0 d ∧ xport d x = .flex p ∧ u.role p = 1 ∧ k.tc = 0 ∧ k.ptype = 10 ∧ k.dstDev = u.devId ∧ u.xbCycle < u.tc0Due d x ∧ u.room d x k = some r)
    ∧ (∃ (d x out p : Nat) (k : Packet) (s u : State), d < 8 ∧ x < 63 ∧ out < 63 ∧ s.dieUp d = true ∧ s.portClass d x k = true ∧ u = (s.countBp d).releaseTc0 d ∧ u.ingressTakes d x k.tc k.tenant = true ∧ xport d x = .flex p ∧ u.role p = 1 ∧ k.dstDev ≠ u.devId ∧ u.assigned = true ∧ (k.ptype = 2 → u.flagStop d x (k.tc, k.tenant) = false) ∧ u.routePorts k.dstDev = [])
    ∧ (∃ (d x out p : Nat) (k : Packet) (s u : State), d < 8 ∧ x < 63 ∧ out < 63 ∧ s.dieUp d = true ∧ s.portClass d x k = true ∧ u = (s.countBp d).releaseTc0 d ∧ u.ingressTakes d x k.tc k.tenant = true ∧ xport d x = .flex p ∧ (k.dstDev = u.devId ∨ u.assigned = false) ∧ (k.ptype = 1 ∨ k.ptype = 4) ∧ faOk k.addr = false) :=
  ⟨⟨7, 62, 0, pk, (false, none), onS, _, by decide +kernel, by decide +kernel, (by decide +kernel), by decide +kernel, by decide +kernel, rfl, by decide +kernel, inner62, (Or.inr rfl), by decide +kernel, by decide +kernel, (pk_port _ rfl), (fun h => nomatch h), rfl⟩,
   ⟨7, 62, 62, 63, { pk with dstDev := 5 }, (false, none), routed, _, by decide +kernel, by decide +kernel, (by decide +kernel), by decide +kernel, by decide +kernel, rfl, by decide +kernel, inner62, by decide +kernel, by decide +kernel, (by decide +kernel), by decide +kernel, by decide +kernel, (fun _ h => nomatch h), by decide +kernel⟩,
   ⟨7, 24, 62, 0, pk, { inp := 62, tc := 3, out := 24, arr := 0, pkt := pk }, [], (false, none), { onS with cores := [(7, { wires := [(0, { inp := 62, tc := 3, out := 24, arr := 0, pkt := pk })] })] }, _, by decide +kernel, by decide +kernel, (by decide +kernel), by decide +kernel, by decide +kernel, (by decide +kernel), rfl, by decide +kernel⟩,
   ⟨7, 15, 62, pk, { port 127 1 { st := 3 } onS with ingress := [(127, { st := 3 })] }, _, by decide +kernel, by decide +kernel, (by decide +kernel), by decide +kernel, by decide +kernel, rfl, by decide +kernel⟩,
   ⟨7, 15, 62, 127, { pk with ptype := 10, tc := 0 }, (false, none), { port 127 1 { st := 3 } onS with cores := [(7, { tc0At := [(15, 9)] })] }, _, by decide +kernel, by decide +kernel, (by decide +kernel), by decide +kernel, by decide +kernel, rfl, by decide +kernel⟩,
   ⟨7, 15, 62, 127, { pk with dstDev := 5 }, (port 127 1 { st := 3 } onS).setObj 0x1000 5 0x8001, _, by decide +kernel, by decide +kernel, (by decide +kernel), by decide +kernel, by decide +kernel, rfl, by decide +kernel⟩,
   ⟨7, 15, 62, 127, { pk with ptype := 1, tc := 2, data := [], want := 8, addr := 2 ^ 45 }, port 127 1 { st := 3 } onS, _, by decide +kernel, by decide +kernel, (by decide +kernel), by decide +kernel, by decide +kernel, rfl, by decide +kernel⟩⟩

theorem witness_CellCrossAndChecksComplete :
    (∃ (d x : Nat) (s : State), d < 8 ∧ x < 63 ∧ s.dieUp d = true)
    ∧ (∃ (d x v : Nat) (c : Cell) (rest : List Cell) (s u : State), d < 8 ∧ x < 63 ∧ s.dieUp d = true ∧ linkMembers x = [x] ∧ u = (s.countBp d).releaseTc0 d ∧ (Table.get (u.core d).outs {} x).last = some v ∧ popCell x v (u.core d).cells = some (c, rest) ∧ c.checked = true ∧ c.out = x ∧ (∀ q, xport d x ≠ .peer q))
    ∧ (∃ (d x v q : Nat) (c : Cell) (rest : List Cell) (s u : State), d < 8 ∧ x < 63 ∧ s.dieUp d = true ∧ xport d x = .peer q ∧ u = (s.countBp d).releaseTc0 d ∧ (Table.get (u.core d).outs {} x).last = some v ∧ popCell x v (u.core d).cells = some (c, rest) ∧ c.checked = true ∧ c.out = x)
    ∧ (∃ (d x y p : Nat) (l : List (Nat × Nat)) (s : State), d < 8 ∧ x < 63 ∧ s.dieUp d = true ∧ (s.core d).bp = [(y, l)] ∧ xport d y = .flex p)
    ∧ (∃ (d _x : Nat) (_s : State), d < 8)
    ∧ (∃ (d x tc tenant dev old q : Nat) (s : State), Table.find (s.core d).flows (flowKey tenant tc d x dev) = some old ∧ s.routeMember tenant tc d x dev = some q ∧ old ≠ q ∧ s.flowOut tenant tc d x dev old = false) :=
  ⟨⟨7, 62, onS, by decide +kernel⟩,
   ⟨7, 62, cell62.queue, cell62, [], { onS with cores := [(7, { cells := [cell62], outs := [(62, { last := some cell62.queue })] })] }, _, by decide +kernel, by decide +kernel, (by decide +kernel), by decide +kernel, rfl, by decide +kernel, by decide +kernel, (by decide +kernel), by decide +kernel, (fun q h => nomatch h)⟩,
   ⟨7, 23, cell23.queue, 63, cell23, [], { onS with cores := [(7, { cells := [cell23], outs := [(23, { last := some cell23.queue })] })] }, _, by decide +kernel, by decide +kernel, (by decide +kernel), by decide +kernel, rfl, by decide +kernel⟩,
   ⟨7, 62, 15, 127, [(3, 0)], { onS with cores := [(7, { bp := [(15, [(3, 0)])] })] }, by decide +kernel⟩,
   ⟨7, 62, onS, by decide +kernel⟩,
   ⟨7, 62, 3, 0, 5, 62, 63, { routed with cores := [(7, { flows := [(flowKey 0 3 7 62 5, 62)] })] }, by decide +kernel⟩⟩

theorem witness_ArbiterServesTc0First :
    (∃ (_a : OutArb) (_l : List Cell) (vs : List Nat) (_rank _n : Nat) (_w : Bool), (∃ v, v ∈ vs ∧ v % 8 = 0))
    ∧ (∃ (_a : OutArb) (_l : List Cell) (vs : List Nat) (_rank _n : Nat), (∀ v, v ∈ vs → v % 8 ≠ 0)) :=
  ⟨⟨{}, [], [8], 0, 4, true, ⟨8, by decide⟩⟩,
   ⟨{}, [], [9, 15], 0, 4, by decide +kernel⟩⟩

theorem witness_IngressStatesComplete :
    (∃ (p : Nat) (s : State), p < 128 ∧ (s.ingressAt p).st = 0)
    ∧ (∃ (q : Nat) (s : State), q < 64 ∧ (s.ingressAt (128 + q)).st = 0)
    ∧ (∃ (p u : Nat) (s : State), p < 128 ∧ u < 4096 ∧ (∀ e, e ∈ (s.ingressAt p).tenants → e.1 ≠ u))
    ∧ (∃ (p : Nat) (s : State), s.drained (.flex p) = true ∧ (s.ingressAt p).st = 1)
    ∧ (∃ (q : Nat) (s : State), s.drained (.peer q) = true ∧ (s.ingressAt (128 + q)).st = 1)
    ∧ (∃ (p u : Nat) (s : State), s.drained (.tenantOn p u) = true ∧ (u, 1) ∈ (s.ingressAt p).tenants)
    ∧ (∃ (p : Nat) (_s : State), p < 128)
    ∧ (∃ (q : Nat) (_s : State), q < 64)
    ∧ (∃ (e v : Nat) (x : Extent) (s : State), Table.find s.extents e = some x ∧ (x.st = 2 ∨ x.st = 7) ∧ x.lent = some v)
    ∧ (∃ (e v : Nat) (x : Extent) (s : State), Table.find s.extents e = some x ∧ x.st = 6 ∧ x.lent = some v)
    ∧ (∃ (e : Nat) (x : Extent) (s : State), Table.find s.extents e = some x ∧ x.st = 2 ∧ x.lent = none)
    ∧ (∃ (e : Nat) (x : Extent) (s : State), Table.find s.extents e = some x ∧ x.st = 1) :=
  ⟨⟨127, onS, by decide +kernel⟩,
   ⟨63, onS, by decide +kernel⟩,
   ⟨127, 4095, onS, by decide +kernel⟩,
   ⟨127, { onS with ingress := [(127, { st := 1 })] }, by decide +kernel⟩,
   ⟨63, { onS with ingress := [(191, { st := 1 })] }, by decide +kernel⟩,
   ⟨127, 4095, { onS with ingress := [(127, { tenants := [(4095, 1)] })] }, by decide +kernel⟩,
   ⟨127, onS, by decide +kernel⟩,
   ⟨63, onS, by decide +kernel⟩,
   ⟨2047, 1, { base := 0, st := 7, lent := some 1 }, { onS with extents := [(2047, { base := 0, st := 7, lent := some 1 })] }, by decide +kernel⟩,
   ⟨2047, 1, { base := 0, st := 6, lent := some 1 }, { onS with extents := [(2047, { base := 0, st := 6, lent := some 1 })] }, by decide +kernel⟩,
   ⟨2047, { base := 0, st := 2 }, { onS with extents := [(2047, { base := 0, st := 2 })] }, by decide +kernel⟩,
   ⟨0, { base := 0, st := 1 }, { onS with extents := [(0, { base := 0, st := 1 })] }, by decide +kernel⟩⟩

theorem witness_OffersAndGrantsComplete :
    (∃ (sid : Nat) (b : Bytes) (s : State), MayWrite s sid 0x5010 1 ∧ allocForm b = true ∧ field b 3 1 < 4 ∧ field b 4 2 = 0xFFFF ∧ s.role (field b 0 2) = 1 ∧ s.ldOn (field b 0 2) (field b 2 1) = true ∧ s.ldTenant (field b 0 2) (field b 2 1) ≠ none ∧ field b 8 4 ≤ (s.freeOf (field b 3 1) (field b 0xC 4)).length ∧ field b 8 4 ≤ (s.freeSlots (field b 0 2) (field b 2 1) (field b 8 4)).length ∧ s.hbmOut + (((s.freeOf (field b 3 1) (field b 0xC 4)).take (field b 8 4)).filter (fun e => decide (e < 2048))).length ≤ s.obj 0x5000 4 ∧ ((s.freeOf (field b 3 1) (field b 0xC 4)).take (field b 8 4)).Nodup)
    ∧ (∃ (sid u slot : Nat) (b : Bytes) (g : SharedSet) (v : SVersion) (x : Extent) (rest : List Nat) (s : State), MayWrite s sid 0x5010 1 ∧ allocForm b = true ∧ field b 3 1 = 4 ∧ s.role (field b 0 2) = 1 ∧ s.ldOn (field b 0 2) (field b 2 1) = true ∧ s.ldTenant (field b 0 2) (field b 2 1) = some u ∧ Table.find s.sets (field b 0xC 4) = some g ∧ s.current (field b 0xC 4) = some v ∧ s.freeSlots (field b 0 2) (field b 2 1) 1 = slot :: rest ∧ s.right u 6 = true ∧ s.tDomain u = some g.domain ∧ Table.find s.extents v.eid = some x ∧ x.st ≠ 6)
    ∧ (∃ (sid : Nat) (b : Bytes) (s : State), MayWrite s sid 0x5010 1 ∧ allocForm b = true ∧ (s.role (field b 0 2) ≠ 1 ∨ s.ldOn (field b 0 2) (field b 2 1) = false))
    ∧ (∃ (sid v : Nat) (b : Bytes) (got : List Nat) (s : State), MayWrite s sid 0x5010 1 ∧ allocForm b = true ∧ field b 3 1 < 4 ∧ v = field b 4 2 ∧ v ≠ 0xFFFF ∧ (s.assigned = true → v ≠ s.devId) ∧ s.role (field b 0 2) = 1 ∧ s.flexOn (field b 0 2) = true ∧ s.ldOn (field b 0 2) (field b 2 1) = true ∧ s.ldTenant (field b 0 2) (field b 2 1) ≠ none ∧ s.reaches v = true ∧ got = (((Config.lentRanges v s.freeCtr).filter (lentFits (field b 3 1) (field b 0xC 4))).eraseDups.filter (fun a => !s.extents.any (fun e => e.2.away == some v && e.2.base == a))).take (field b 8 4) ∧ field b 8 4 ≤ (s.freeSlots (field b 0 2) (field b 2 1) (field b 8 4)).length ∧ s.nextEid + field b 8 4 ≤ 2 ^ 20 ∧ (∀ e, s.nextEid ≤ e → Table.find s.extents e = none))
    ∧ (∃ (sid : Nat) (b : Bytes) (s : State), MayWrite s sid 0x5010 1 ∧ allocForm b = true ∧ field b 3 1 < 4 ∧ field b 4 2 ≠ 0xFFFF ∧ (s.assigned = true → field b 4 2 ≠ s.devId) ∧ s.reaches (field b 4 2) = false)
    ∧ (∃ (p l slot e : Nat) (x : Extent) (ro : Bool) (s : State), s.slotExt p l slot = some (e, x, 1, ro) ∧ x.st = 1 ∧ x.holder = some (p, l))
    ∧ (∃ (p l slot : Nat) (s : State), (s.slotExt p l slot).map (fun r => r.2.2.1) ≠ some 1) :=
  ⟨⟨1, leBytes 2 127 ++ leBytes 2 15 ++ leBytes 4 0xFFFF ++ leBytes 8 1, { ldS with extents := [(0, { base := 0 })] }, ⟨_, rfl, rfl, rfl⟩, by decide +kernel⟩,
   ⟨1, 4095, 0, leBytes 2 127 ++ [15, 4] ++ leBytes 4 0xFFFF ++ leBytes 4 1 ++ leBytes 4 7, { domain := 3, versions := [⟨1, 0, []⟩], top := 1 }, ⟨1, 0, []⟩, { base := 0, st := 2, set := some (7, 1) }, _, sharedS, ⟨_, rfl, rfl, rfl⟩, by decide +kernel, by decide +kernel, (by decide +kernel), by decide +kernel, by decide +kernel, (by decide +kernel), by decide +kernel, rfl, by decide +kernel⟩,
   ⟨1, leBytes 2 127 ++ leBytes 2 15 ++ leBytes 4 0xFFFF ++ leBytes 8 1, onS, ⟨_, rfl, rfl, rfl⟩, by decide +kernel⟩,
   ⟨1, 1, leBytes 2 127 ++ leBytes 2 15 ++ leBytes 2 1 ++ zeros 2 ++ leBytes 8 1, _, { ldS with peer := [(63, { st := 4, peerDev := some 1 })] }, ⟨_, rfl, rfl, rfl⟩, by decide +kernel, by decide +kernel, (by decide +kernel), by decide +kernel, by decide +kernel, (by decide +kernel), by decide +kernel, by decide +kernel, (by decide +kernel), by decide +kernel, rfl, by decide +kernel, by decide +kernel, (fun _ _ => rfl)⟩,
   ⟨1, leBytes 2 127 ++ leBytes 2 15 ++ leBytes 2 1 ++ zeros 2 ++ leBytes 8 1, ldS, ⟨_, rfl, rfl, rfl⟩, by decide +kernel⟩,
   ⟨127, 15, 3, 0, offered, false, { ldS with extents := [(0, offered)] }, by decide +kernel⟩,
   ⟨127, 15, 3, ldS, by decide +kernel⟩⟩

theorem witness_ExtentLifeCompletes :
    (∃ (e : Nat) (x : Extent) (s : State), Table.find s.extents e = some x ∧ x.st = 1)
    ∧ (∃ (p l slot e st : Nat) (x : Extent) (ro : Bool) (s : State), s.slotExt p l slot = some (e, x, st, ro) ∧ x.holder = some (p, l) ∧ x.slot = slot ∧ x.set = none ∧ x.away = none)
    ∧ (∃ (p l slot : Nat) (s : State), s.slotExt p l slot = none)
    ∧ (∃ (sid e : Nat) (x : Extent) (s : State), MayWrite s sid 0x5010 2 ∧ e < 2 ^ 20 ∧ Table.find s.extents e = some x ∧ x.st = 2 ∧ x.lent = none ∧ x.confirm = none)
    ∧ (∃ (e : Nat) (x : Extent) (s : State), Table.find s.extents e = some x ∧ x.st = 3 ∧ s.outstanding e = false ∧ x.confirm = none ∧ x.away = none)
    ∧ (∃ (e : Nat) (x : Extent) (s : State), Table.find s.extents e = some x ∧ x.st = 3 ∧ s.outstanding e = true ∧ x.confirm = none)
    ∧ (∃ (e : Nat) (x : Extent) (s : State), Table.find s.extents e = some x ∧ x.st = 4 ∧ s.outstanding e = false ∧ x.away = none) :=
  ⟨⟨0, offered, { ldS with extents := [(0, offered)] }, by decide +kernel⟩,
   ⟨127, 15, 3, 0, 2, granted, false, grantedS, by decide +kernel⟩,
   ⟨127, 15, 3, ldS, by decide +kernel⟩,
   ⟨1, 1048575, granted, { ldS with extents := [(1048575, granted)] }, ⟨_, rfl, rfl, rfl⟩, by decide +kernel⟩,
   ⟨0, { base := 0, st := 3 }, { onS with extents := [(0, { base := 0, st := 3 })] }, by decide +kernel⟩,
   ⟨0, { base := 0, st := 3 }, { onS with extents := [(0, { base := 0, st := 3 })], writes := [{ id := 0, src := .host 127 15, addr := 0, data := [1], eid := some 0 }] }, by decide +kernel⟩,
   ⟨0, { base := 0, st := 4 }, { onS with extents := [(0, { base := 0, st := 4 })] }, by decide +kernel⟩⟩

theorem witness_ScrubClearsItsExtent :
    (∃ (e : Nat) (x : Extent) (s : State), Table.find s.extents e = some x ∧ x.st = 5 ∧ x.scrubbing = true ∧ x.testing = false)
    ∧ (∃ (e : Nat) (x : Extent) (s : State), Table.find s.extents e = some x ∧ x.st = 5 ∧ x.testing = true)
    ∧ (∃ (e : Nat) (x : Extent) (s : State), Table.find s.extents e = some x ∧ x.st = 5 ∧ x.testing = true) :=
  ⟨⟨0, { base := 0, st := 5, scrubbing := true }, { onS with extents := [(0, { base := 0, st := 5, scrubbing := true })] }, by decide +kernel⟩,
   ⟨0, { base := 0, st := 5, testing := true }, { onS with extents := [(0, { base := 0, st := 5, testing := true })] }, by decide +kernel⟩,
   ⟨0, { base := 0, st := 5, testing := true }, { onS with extents := [(0, { base := 0, st := 5, testing := true })] }, by decide +kernel⟩⟩

theorem witness_LeasesAndDonorsComplete :
    (∃ (p l _v e : Nat) (s : State), s.ldOn p l = true ∧ (s.ld p l).lease = 1 ∧ (s.ld p l).expiry = some e ∧ (s.tc0Gate p).tb.now < e + 1000000000)
    ∧ (∃ (p l _v size : Nat) (s : State), (size ≠ 8 ∨ s.ldOn p l = false ∨ (∃ e, (s.ld p l).expiry = some e ∧ e + 1000000000 ≤ (s.tc0Gate p).tb.now)))
    ∧ (∃ (p l e : Nat) (s : State), (s.ld p l).lease = 1 ∧ (s.ld p l).expiry = some e ∧ (s.ld p l).graced = false)
    ∧ (∃ (p l e : Nat) (s : State), (s.ld p l).lease = 1 ∧ (s.ld p l).expiry = some e)
    ∧ (∃ (f v due : Nat) (x : Extent) (s : State), Table.find s.extents f = some x ∧ x.lent = some v ∧ s.loanDue v x.term = some due ∧ x.st ≠ 6 ∧ (x.st = 2 ∨ x.st = 7 ∨ x.confirm ≠ none))
    ∧ (∃ (f v due : Nat) (x : Extent) (s : State), Table.find s.extents f = some x ∧ x.lent = some v ∧ s.loanDue v x.term = some due ∧ x.st = 6)
    ∧ (∃ (p l k u r : Nat) (x : Donor) (s : State), (s.ld p l).donors[k]? = some x ∧ s.hostUp p = true ∧ (x.st = 0 ∨ x.st = 3) ∧ s.obj 0x5030 1 = 1 ∧ s.ldTenant p l = some u ∧ s.right u 7 = true ∧ x.len % 2 ^ 21 = 0 ∧ 0 < x.len ∧ x.len ≤ 2 ^ 40 ∧ x.base % 2 ^ 21 = 0 ∧ s.freeRegion = some r)
    ∧ (∃ (p l k : Nat) (x : Donor) (s : State), (s.ld p l).donors[k]? = some x ∧ s.hostUp p = true ∧ (x.st = 0 ∨ x.st = 3) ∧ (s.obj 0x5030 1 ≠ 1 ∨ s.freeRegion = none))
    ∧ (∃ (p l k : Nat) (x : Donor) (s : State), (s.ld p l).donors[k]? = some x ∧ x.st = 1)
    ∧ (∃ (p l k : Nat) (x : Donor) (s : State), (s.ld p l).donors[k]? = some x ∧ x.st = 2)
    ∧ (∃ (p : Nat) (s : State), s.hostUp p = false) :=
  ⟨⟨127, 15, 65535, 0, leased 999999999, by decide +kernel⟩,
   ⟨127, 15, 0, 8, leased 1000000000, (Or.inr (Or.inr ⟨0, by decide +kernel⟩))⟩,
   ⟨127, 15, 0, leased 0, by decide +kernel⟩,
   ⟨127, 15, 0, leased 0, by decide +kernel⟩,
   ⟨0, 1, 5000000000, { base := 0, st := 7, lent := some 1, term := 4000 }, { onS with extents := [(0, { base := 0, st := 7, lent := some 1, term := 4000 })], fmap := { onS.fmap with lostAt := [(1, 0)] } }, by decide +kernel⟩,
   ⟨0, 1, 5000000000, { base := 0, st := 6, lent := some 1, term := 4000 }, { onS with extents := [(0, { base := 0, st := 6, lent := some 1, term := 4000 })], fmap := { onS.fmap with lostAt := [(1, 0)] } }, by decide +kernel⟩,
   ⟨127, 15, 3, 4095, 0, { len := 2 ^ 40, st := 3 }, ((donorS { len := 2 ^ 40, st := 3 }).setObj 0x5030 1 1).setObjI 0x4400 6 4095 128, by decide +kernel⟩,
   ⟨127, 15, 3, {}, donorS {}, by decide +kernel⟩,
   ⟨127, 15, 3, { st := 1 }, donorS { st := 1 }, by decide +kernel⟩,
   ⟨127, 15, 3, { st := 2 }, donorS { st := 2 }, by decide +kernel⟩,
   ⟨127, onS, by decide +kernel⟩⟩

theorem witness_BackingFailuresComplete :
    (∃ (e : Nat) (x : Extent) (s : State), Table.find s.extents e = some x ∧ x.isHbm = true ∧ x.st ≠ 6)
    ∧ (∃ (e v p l due : Nat) (x : Extent) (s : State), Table.find s.extents e = some x ∧ x.st = 2 ∧ x.away = some v ∧ x.holder = some (p, l) ∧ s.loanDue v (s.ldObj p l 3) = some due)
    ∧ (∃ (p : Nat) (s : State), (s.role p = 2 ∨ s.role p = 3))
    ∧ (∃ (sid e : Nat) (x : Extent) (s : State), MayWrite s sid 0x5010 5 ∧ e < 2 ^ 20 ∧ Table.find s.extents e = some x ∧ x.st = 6 ∧ x.held = false ∧ x.away = none ∧ s.dieUp (faDie x.base) = true ∧ (x.isHbm = true ∨ ((s.flexP (faPort x.base)).st = 3 ∧ bit (s.obj (0x3000 + 8 * faPort x.base) 5) 4 = false))) :=
  ⟨⟨2047, granted, { ldS with extents := [(2047, granted)] }, by decide +kernel⟩,
   ⟨2047, 1, 127, 15, (ldS.ldObj 127 15 3) * 1000000 + 1000000000, { granted with away := some 1 }, { ldS with extents := [(2047, { granted with away := some 1 })], fmap := { onS.fmap with lostAt := [(1, 0)] } }, by decide +kernel⟩,
   ⟨127, port 127 2 {} onS, by decide +kernel⟩,
   ⟨1, 1048575, { base := 0, st := 6 }, { onS with extents := [(1048575, { base := 0, st := 6 })] }, ⟨_, rfl, rfl, rfl⟩, by decide +kernel⟩⟩

/-- The extent at slot 3 is in the memory of device 5. -/
def awayS : State :=
  { ((link 63 { st := 4, lanes := 4 } ldS).setObj 0x1000 5 0x8001).setObj 0x4200 6 (2 ^ 63) with extents := [(0, { granted with away := some 5 })] }

/-- A write of host port 127, logical device 15, that waits to be applied. -/
def wr : WrOut := { id := 0, src := .host 127 15, addr := 2 ^ 28 - 2, data := [1, 2], eid := some 0, dpa := 2 ^ 30 - 2 }

/-- The FETCH_ADD of that logical device that waits among its writes. -/
def atomReq : AtomReq := { src := .host 127 15, op := .fetchAdd, addr := 2 ^ 30 - 8, size := 8, operand := 1, compare := 0 }

/-- A transaction of agent 0 that waits for agent 415. -/
def txn (k : Nat) : Txn := { kind := k, agent := 0, waitAgents := [415] }

/-- Line 9 at its home with that transaction. -/
def homeS (k : Nat) (ms : List CohMsg) : State := lineS { agent := 415, line := 9, st := 2 } { owner := some 415, txn := some (txn k) } ms

def viewTxn : Txn := { kind := 2, agent := 0, waitHosts := [(127, 15, 0, 1000000)] }

def viewS (x : Txn) : State := { ldS with lines := [(9, { hosts := [(127, 15)], txn := some x })] }

/-- Line 9 is the descriptor of a sequence of tenant 4095. -/
def descS : State :=
  { ldS with seqs := [(5, { fabTag := 1, id := 2, tenant := 4095, shape := { fmt := 0, dim := 0, layers := 1, heads := 1, domain := none }, line := 9 })] }

/-- Completion ring 63 is on and submission ring 63, which runs, names it. -/
def namedS : State :=
  { ldS with lds := [(ldKey 127 15, { rings := [(63, { st := 1, cfg := 63 * 2 ^ 16 })], cqs := [(63, { cfg := 0x10006 })] })] }

/-- A ring whose next packet is a PAD in its last 64 bytes. -/
def padS : State := ringS { st := 1, head := 65472, store := [(65479, 0x10)] }

theorem witness_HostAccessesComplete :
    (∃ (p l addr len u e a : Nat) (s : State), s.takes p l = true ∧ s.ldTenant p l = some u ∧ (∀ y, y ∈ s.heldAcc → ¬ (y.tenant = u ∧ y.tc = 2)) ∧ (s.take u 2 (p / 16) (Nat.max 64 len)).1 = true ∧ s.tagsOut p = false ∧ s.check p l addr len false = .ok e a ∧ s.poisoned a len = false)
    ∧ (∃ (p l addr len u e v a : Nat) (s : State), s.takes p l = true ∧ s.ldTenant p l = some u ∧ (∀ y, y ∈ s.heldAcc → ¬ (y.tenant = u ∧ y.tc = 2)) ∧ (s.take u 2 (p / 16) (Nat.max 64 len)).1 = true ∧ s.tagsOut p = false ∧ s.check p l addr len false = .remote e v a ∧ 0 < len ∧ len ≤ 256 ∧ s.poisoned (v * 2 ^ 55 + a) len = false)
    ∧ (∃ (p l addr len u : Nat) (s : State), s.takes p l = true ∧ s.ldTenant p l = some u ∧ (∀ y, y ∈ s.heldAcc → ¬ (y.tenant = u ∧ y.tc = 2)) ∧ (s.take u 2 (p / 16) (Nat.max 64 len)).1 = true ∧ s.tagsOut p = false ∧ s.check p l addr len false = .denied)
    ∧ (∃ (p l off v : Nat) (s : State), s.takes p l = true ∧ ¬ (0x4000000 ≤ off ∧ off < 0x8000000) ∧ s.pageRead p l off = some v ∧ s.tagsOut p = false ∧ (s.ldTenant p l = none ∨ ∃ u, s.ldTenant p l = some u ∧ (∀ y, y ∈ s.heldAcc → ¬ (y.tenant = u ∧ y.tc = 2)) ∧ (s.take u 2 (p / 16) 64).1 = true))
    ∧ (∃ (p l off v : Nat) (s : State), s.takes p l = true ∧ s.bar2Read p l off = some v ∧ (off < 0x200 ∨ s.ldTenant p l = none) ∧ s.tagsOut p = false ∧ (s.ldTenant p l = none ∨ ∃ u, s.ldTenant p l = some u ∧ (∀ y, y ∈ s.heldAcc → ¬ (y.tenant = u ∧ y.tc = 2)) ∧ (s.take u 2 (p / 16) 64).1 = true))
    ∧ (∃ (p l addr u e a : Nat) (d : Bytes) (s : State), s.takes p l = true ∧ s.ldTenant p l = some u ∧ (∀ y, y ∈ s.heldAcc → ¬ (y.tenant = u ∧ y.tc = 3)) ∧ s.flagFull p l = false ∧ (s.take u 3 (p / 16) (Nat.max 64 d.length)).1 = true ∧ s.check p l addr d.length true = .ok e a)
    ∧ (∃ (p l v : Nat) (s : State), s.reach p l = true ∧ v < 2 ^ 64)
    ∧ (∃ (p l v : Nat) (s : State), s.takes p l = true ∧ s.flagFull p l = false ∧ v < 2 ^ 64 ∧ (s.ldTenant p l = none ∨ ∃ u, s.ldTenant p l = some u ∧ (∀ y, y ∈ s.heldAcc → ¬ (y.tenant = u ∧ y.tc = 3)) ∧ (s.take u 3 (p / 16) 64).1 = true))
    ∧ (∃ (p _l _addr : Nat) (s : State), s.hostUp p = true) :=
  ⟨⟨127, 15, 3 * 2 ^ 28, 64, 4095, 0, 0, grantedS, by decide +kernel⟩,
   ⟨127, 15, 3 * 2 ^ 28, 256, 4095, 0, 5, 0, awayS, by decide +kernel⟩,
   ⟨127, 15, 2 ^ 28, 64, 4095, grantedS, by decide +kernel⟩,
   ⟨127, 15, 0x8, 0, grantedS, by decide +kernel, by decide +kernel, (by decide +kernel), by decide +kernel, (Or.inr ⟨4095, by decide +kernel⟩)⟩,
   ⟨127, 15, 0x100, 0, grantedS, by decide +kernel, by decide +kernel, (by decide +kernel), by decide +kernel, (Or.inr ⟨4095, by decide +kernel⟩)⟩,
   ⟨127, 15, 3 * 2 ^ 28 + 2 ^ 28 - 1, 4095, 0, 2 ^ 28 - 1, [7], grantedS, by decide +kernel⟩,
   ⟨127, 15, 2 ^ 64 - 1, grantedS, by decide +kernel⟩,
   ⟨127, 15, 2 ^ 64 - 1, grantedS, by decide +kernel, by decide +kernel, (by decide +kernel), (Or.inr ⟨4095, by decide +kernel⟩)⟩,
   ⟨127, 15, 0, grantedS, by decide +kernel⟩⟩

theorem witness_WriteAppliesItsBytes :
    (∃ (wid : Nat) (w : WrOut) (s : State), Inv s ∧ s.writes.find? (fun y => y.id == wid) = some w ∧ w.flag = false ∧ w.away = none ∧ w.atom = none ∧ faSpace w.addr ≠ 3 ∧ (∀ y, y ∈ s.writes.takeWhile (fun y => y.id != wid) → ¬ (y.src = w.src ∧ y.away = w.away ∧ overlaps y.addr y.data.length w.addr w.data.length = true)))
    ∧ (∃ (src : Source) (w : WrOut) (s : State), Inv s ∧ s.writes.find? (fun y => y.src == src) = some w ∧ w.flag = true ∧ w.away = none ∧ w.atom = none ∧ faSpace w.addr ≠ 3)
    ∧ (∃ (wid v : Nat) (w : WrOut) (s : State), s.writes.find? (fun y => y.id == wid) = some w ∧ w.flag = false ∧ w.away = some v ∧ w.sent = true ∧ (∀ y, y ∈ s.writes.takeWhile (fun y => y.id != wid) → ¬ (y.src = w.src ∧ y.away = w.away ∧ overlaps y.addr y.data.length w.addr w.data.length = true)))
    ∧ (∃ (src : Source) (v : Nat) (w : WrOut) (s : State), s.writes.find? (fun y => y.src == src) = some w ∧ w.flag = true ∧ w.away = some v ∧ w.sent = true)
    ∧ (∃ (wid v : Nat) (w : WrOut) (s : State), s.writes.find? (fun y => y.id == wid) = some w ∧ w.away = some v ∧ w.sent = false) :=
  ⟨⟨0, wr, { grantedS with writes := [wr] }, rfl, by decide +kernel⟩,
   ⟨.host 127 15, { wr with flag := true }, { grantedS with writes := [{ wr with flag := true }] }, rfl, by decide +kernel⟩,
   ⟨0, 5, { wr with away := some 5, sent := true }, { grantedS with writes := [{ wr with away := some 5, sent := true }] }, by decide +kernel⟩,
   ⟨.host 127 15, 5, { wr with flag := true, away := some 5, sent := true }, { grantedS with writes := [{ wr with flag := true, away := some 5, sent := true }] }, by decide +kernel⟩,
   ⟨0, 5, { wr with away := some 5 }, { grantedS with writes := [{ wr with away := some 5 }] }, by decide +kernel⟩⟩

theorem witness_AtomicStoresItsResult :
    (∃ (p l addr size _operand _compare u e a : Nat) (op : AtomicOp) (s : State), Inv s ∧ s.takes p l = true ∧ s.ldTenant p l = some u ∧ atomicOk (.host p l) op size = true ∧ addr % size = 0 ∧ s.check p l addr size true = .ok e a ∧ (∀ w, w ∈ s.writes → ¬ (w.src = .host p l ∧ overlaps w.addr w.data.length a size = true)) ∧ (∀ y, y ∈ s.heldAcc → ¬ (y.tenant = u ∧ y.tc = 3)) ∧ (s.take u 3 (p / 16) (Nat.max 64 size)).1 = true ∧ s.flagFull p l = false ∧ s.tagsOut p = false ∧ s.poisoned a size = false ∧ s.bytesLost a = false)
    ∧ (∃ (src : Source) (addr size _operand _compare : Nat) (op : AtomicOp) (s : State), Inv s ∧ (∀ p l, src ≠ .host p l) ∧ (addr / 2 ^ 55 = s.devId ∨ s.assigned = false) ∧ atomicOk src op size = true ∧ addr % size = 0 ∧ faSpace addr < 2 ∧ faOk addr = true ∧ (∀ dev u, src = .peer dev u → s.reaches dev = true) ∧ s.bytesLost (addr % 2 ^ 55) = false ∧ (∀ n ctx e x, src = .engine n ctx → s.extentAt (addr % 2 ^ 55) = some (e, x) → x.ro = false ∧ x.set = none) ∧ (∀ w, w ∈ s.writes → ¬ (w.src = src ∧ overlaps w.addr w.data.length (addr % 2 ^ 55) size = true)) ∧ s.poisoned (addr % 2 ^ 55) size = false)
    ∧ (∃ (n ctx addr size _operand _compare o : Nat) (op : AtomicOp) (s : State), (addr / 2 ^ 55 = s.devId ∨ s.assigned = false) ∧ s.fenced n ctx = false ∧ atomicOk (.engine n ctx) op size = true ∧ addr % size = 0 ∧ faSpace addr = 3 ∧ o = addr % 2 ^ 52 / 64 ∧ (∀ e x, s.extentAt (addr % 2 ^ 55) = some (e, x) → x.ro = false ∧ x.set = none) ∧ o < ctlLines ∧ (s.dirEntries (lineHome o)).length < 131072 ∧ (s.line o).txn = none ∧ (s.line o).queue = [] ∧ (s.line o).owner = none ∧ (s.line o).sharers = [] ∧ (s.line o).hosts = [] ∧ (s.line o).hostOver = false)
    ∧ (∃ (n ctx addr size _operand _compare : Nat) (op : AtomicOp) (s : State), addr / 2 ^ 55 ≠ s.devId ∧ s.assigned = true ∧ s.reaches (addr / 2 ^ 55) = true ∧ atomicOk (.engine n ctx) op size = true ∧ addr % size = 0 ∧ faSpace addr < 2 ∧ faOk addr = true ∧ (∀ e x, s.extentOf (some (addr / 2 ^ 55)) (addr % 2 ^ 55) = some (e, x) → x.ro = false ∧ x.set = none) ∧ (∀ w, w ∈ s.writes → w.away = none ∨ w.sent = true))
    ∧ (∃ (n ctx addr size _operand _compare : Nat) (op : AtomicOp) (s : State), faSpace addr ≠ 3 ∧ (atomicOk (.engine n ctx) op size = false ∨ addr % size ≠ 0 ∨ faOk addr = false ∨ ∃ e x, s.extentOf (if addr / 2 ^ 55 = s.devId ∨ s.assigned = false then none else some (addr / 2 ^ 55)) (addr % 2 ^ 55) = some (e, x) ∧ (x.ro = true ∨ x.set ≠ none)))
    ∧ (∃ (wid : Nat) (w : WrOut) (r : AtomReq) (s : State), Inv s ∧ s.writes.find? (fun y => y.id == wid) = some w ∧ w.flag = false ∧ w.away = none ∧ w.atom = some r ∧ (∀ y, y ∈ s.writes.takeWhile (fun y => y.id != wid) → ¬ (y.src = w.src ∧ y.away = w.away ∧ overlaps y.addr y.data.length w.addr w.data.length = true)) ∧ s.poisoned w.addr r.size = false ∧ s.bytesLost w.addr = false) :=
  ⟨⟨127, 15, 3 * 2 ^ 28 + 8, 8, 1, 0, 4095, 0, 8, .fetchAdd, grantedS, rfl, by decide +kernel⟩,
   ⟨.engine 415 0, 16, 16, 1, 0, .cas, grantedS, rfl, (fun _ _ h => nomatch h), by decide +kernel, by decide +kernel, (by decide +kernel), by decide +kernel, by decide +kernel, (fun _ _ h => nomatch h), by decide +kernel, (fun _ _ _ _ h g => by cases h; cases g; exact ⟨rfl, rfl⟩), by decide +kernel⟩,
   ⟨415, 15, 3 * 2 ^ 52 + 64 * 9 + 8, 8, 1, 0, 9, .fetchAdd, onS, by decide +kernel, by decide +kernel, (by decide +kernel), by decide +kernel, by decide +kernel, (by decide +kernel), (fun _ _ h => nomatch h), by decide +kernel⟩,
   ⟨415, 15, 5 * 2 ^ 55 + 16, 16, 1, 0, .cas, routed, by decide +kernel, by decide +kernel, (by decide +kernel), by decide +kernel, by decide +kernel, (by decide +kernel), by decide +kernel, (fun _ _ h => nomatch h), by decide +kernel⟩,
   ⟨415, 15, 2 ^ 45, 8, 1, 0, .fetchAdd, onS, by decide +kernel, (Or.inr (Or.inr (Or.inl (by decide +kernel))))⟩,
   ⟨0, { wr with addr := 2 ^ 28 - 8, data := zeros 8, atom := some atomReq }, atomReq, { grantedS with writes := [{ wr with addr := 2 ^ 28 - 8, data := zeros 8, atom := some atomReq }] }, rfl, by decide +kernel⟩⟩

theorem witness_OrderingCommandsComplete :
    (∃ (p l _v e a u : Nat) (s : State), s.takes p l = true ∧ s.ldTenant p l = some u ∧ s.flagFull p l = false ∧ (∀ y, y ∈ s.heldAcc → ¬ (y.tenant = u ∧ y.tc = 3)) ∧ (s.take u 3 (p / 16) 64).1 = true ∧ s.check p l ((s.ld p l).flagAddr / 8 * 8) 8 true = .ok e a)
    ∧ (∃ (p l _v e dev a u : Nat) (s : State), s.takes p l = true ∧ s.ldTenant p l = some u ∧ s.flagFull p l = false ∧ (∀ y, y ∈ s.heldAcc → ¬ (y.tenant = u ∧ y.tc = 3)) ∧ (s.take u 3 (p / 16) 64).1 = true ∧ s.check p l ((s.ld p l).flagAddr / 8 * 8) 8 true = .remote e dev a ∧ (∀ w, w ∈ s.writes → w.src ≠ .host p l))
    ∧ (∃ (p l _seq : Nat) (s : State), s.takes p l = true)
    ∧ (∃ (p l seq b n : Nat) (ids : List Nat) (rest : List (Nat × Nat × Nat × List Nat)) (s : State), (s.ld p l).flushes = (seq, b, n, ids) :: rest ∧ (∀ w, w ∈ s.writes → w.id ∉ ids))
    ∧ (∃ (src : Source) (scope : Scope) (s : State), s.fenceMet (s.newFence src scope) = true)
    ∧ (∃ (src : Source) (scope : Scope) (s : State), s.fenceMet (s.newFence src scope) = false) :=
  ⟨⟨127, 15, 7, 0, 2 ^ 28 - 8, 4095, { grantedS with lds := [(ldKey 127 15, { flagAddr := 2 ^ 30 - 8 })] }, by decide +kernel⟩,
   ⟨127, 15, 7, 0, 5, 2 ^ 28 - 8, 4095, { awayS with lds := [(ldKey 127 15, { flagAddr := 2 ^ 30 - 8 })] }, by decide +kernel⟩,
   ⟨127, 15, 65535, grantedS, by decide +kernel⟩,
   ⟨127, 15, 5, 0, 64, [0], [], { grantedS with lds := [(ldKey 127 15, { flushes := [(5, 0, 64, [0])] })] }, by decide +kernel⟩,
   ⟨.root, .system, onS, by decide +kernel⟩,
   ⟨.engine 415 0, .engine, lineS { agent := 415, line := 9, req := 1 } {} [], by decide +kernel⟩⟩

theorem witness_LineRequestsComplete :
    (∃ (a : Agent) (o ctx : Nat) (_store : LineStore) (s : State), s.mayAsk a o ctx = true ∧ s.cacheRoom (agentNum a) o ≠ none ∧ (s.dirEntries (lineHome o)).length < 131072 ∧ (s.line o).txn = none ∧ (s.line o).queue = [] ∧ (s.line o).owner = none ∧ (s.line o).sharers = [] ∧ (s.line o).hosts = [] ∧ (s.line o).hostOver = false)
    ∧ (∃ (a : Agent) (o b ctx : Nat) (_store : LineStore) (s : State), s.mayAsk a o ctx = true ∧ s.cacheRoom (agentNum a) o ≠ none ∧ (s.dirEntries (lineHome o)).length < 131072 ∧ (s.line o).txn = none ∧ (s.line o).queue = [] ∧ (s.line o).owner = some b ∧ b ≠ agentNum a ∧ s.lineBytes o = (s.line o).obj)
    ∧ (∃ (a : Agent) (o ctx : Nat) (_store : LineStore) (s : State), agentOk a = true ∧ o < ctlLines ∧ (s.cached (agentNum a) o).st = 1 ∧ (s.cached (agentNum a) o).req = 0 ∧ s.fenced (agentNum a) ctx = false ∧ (s.dirEntries (lineHome o)).length < 131072 ∧ (s.line o).txn = none ∧ (s.line o).queue = [] ∧ (s.line o).owner = none ∧ s.lineBytes o = (s.line o).obj ∧ (s.line o).sharers = [sharerBit (agentNum a)] ∧ (s.line o).hosts = [] ∧ (s.line o).hostOver = false ∧ (∀ y, y ∈ s.caches → y.line = o → sharerBit y.agent = sharerBit (agentNum a) → (y.st ≠ 0 ∨ y.req ≠ 0) → y.agent = agentNum a)) :=
  ⟨⟨.engine 7 51, ctlLines - 1, 15, none, onS, by decide +kernel⟩,
   ⟨.engine 7 51, 9, 0, 15, none, lineS { agent := 0, line := 9, st := 2 } { owner := some 0 } [], by decide +kernel⟩,
   ⟨.engine 7 51, 9, 15, some (0, [1]), lineS { agent := 415, line := 9, st := 1 } { sharers := [sharerBit 415] } [], by decide +kernel⟩⟩

theorem witness_LineHoldersComplete :
    (∃ (a : Agent) (o : Nat) (store : LineStore) (s : State), agentOk a = true ∧ (s.cached (agentNum a) o).wb = none ∧ ((s.cached (agentNum a) o).st = 3 ∨ ((s.cached (agentNum a) o).st = 2 ∧ store.isSome = true)) ∧ (s.cached (agentNum a) o).req = 0 ∧ (s.caches.filter (fun y => y.agent == agentNum a && y.wb.isSome)).length < 4)
    ∧ (∃ (a : Agent) (o : Nat) (_store : LineStore) (v : Bytes) (s : State), (s.cached (agentNum a) o).wb = some v ∧ (∀ m, m ∈ s.msgs → ¬ (m.kind = 5 ∧ m.agent = agentNum a ∧ m.line = o)) ∧ (∀ w, w ∈ (s.line o).wbs → w.1 ≠ agentNum a) ∧ (s.line o).txn = none)
    ∧ (∃ (a : Agent) (o : Nat) (m : CohMsg) (s u : State), s.receive [1] (agentNum a) o = some (m, u) ∧ (u.cached (agentNum a) o).wb = none ∧ (u.cached (agentNum a) o).req = 0 ∧ (u.cached (agentNum a) o).aside = [] ∧ (u.cached (agentNum a) o).st = 1 ∧ m.fwd = none)
    ∧ (∃ (a : Agent) (o b : Nat) (m : CohMsg) (s u : State), s.receive [1] (agentNum a) o = some (m, u) ∧ (u.cached (agentNum a) o).wb = none ∧ (u.cached (agentNum a) o).req = 0 ∧ (u.cached (agentNum a) o).st = 3 ∧ m.fwd = some b)
    ∧ (∃ (a : Agent) (o b : Nat) (m : CohMsg) (s u : State), s.receive [2] (agentNum a) o = some (m, u) ∧ (u.cached (agentNum a) o).wb = none ∧ (u.cached (agentNum a) o).req = 0 ∧ ((u.cached (agentNum a) o).st = 2 ∨ (u.cached (agentNum a) o).st = 3) ∧ m.fwd = some b)
    ∧ (∃ (a : Agent) (o : Nat) (m : CohMsg) (s u : State), s.receive [3, 4] (agentNum a) o = some (m, u) ∧ m.kind = 3 ∧ m.fwd = none ∧ m.st ≠ 0 ∧ (u.cached (agentNum a) o).aside = [])
    ∧ (∃ (a : Agent) (o : Nat) (m : CohMsg) (s u : State), s.receive [3, 4] (agentNum a) o = some (m, u) ∧ m.kind = 4 ∧ m.st ≠ 0 ∧ (u.cached (agentNum a) o).aside = [])
    ∧ (∃ (a : Agent) (o : Nat) (m : CohMsg) (s u : State), s.receive [5] (agentNum a) o = some (m, u)) :=
  ⟨⟨.engine 7 51, 9, none, lineS { agent := 415, line := 9, st := 3 } { owner := some 415 } [], by decide +kernel⟩,
   ⟨.engine 7 51, 9, none, zeros 64, lineS { agent := 415, line := 9, wb := some (zeros 64) } { owner := some 415 } [], by decide +kernel⟩,
   ⟨.engine 7 51, 9, { kind := 1, agent := 415, line := 9 }, lineS { agent := 415, line := 9, st := 1 } {} [{ kind := 1, agent := 415, line := 9 }], lineS { agent := 415, line := 9, st := 1 } {} [], rfl, by decide +kernel⟩,
   ⟨.engine 7 51, 9, 0, { kind := 1, agent := 415, line := 9, fwd := some 0 }, lineS { agent := 415, line := 9, st := 3 } {} [{ kind := 1, agent := 415, line := 9, fwd := some 0 }], lineS { agent := 415, line := 9, st := 3 } {} [], rfl, by decide +kernel⟩,
   ⟨.engine 7 51, 9, 0, { kind := 2, agent := 415, line := 9, fwd := some 0 }, lineS { agent := 415, line := 9, st := 2 } {} [{ kind := 2, agent := 415, line := 9, fwd := some 0 }], lineS { agent := 415, line := 9, st := 2 } {} [], rfl, by decide +kernel⟩,
   ⟨.engine 7 51, 9, { kind := 3, agent := 415, line := 9, st := 1 }, lineS { agent := 415, line := 9, req := 1 } {} [{ kind := 3, agent := 415, line := 9, st := 1 }], lineS { agent := 415, line := 9, req := 1 } {} [], rfl, by decide +kernel⟩,
   ⟨.engine 7 51, 9, { kind := 4, agent := 415, line := 9, st := 3 }, lineS { agent := 415, line := 9, st := 1, req := 3 } {} [{ kind := 4, agent := 415, line := 9, st := 3 }], lineS { agent := 415, line := 9, st := 1, req := 3 } {} [], rfl, by decide +kernel⟩,
   ⟨.engine 7 51, 9, { kind := 5, agent := 415, line := 9 }, lineS { agent := 415, line := 9, wb := some (zeros 64) } {} [{ kind := 5, agent := 415, line := 9 }], lineS { agent := 415, line := 9, wb := some (zeros 64) } {} [], rfl⟩⟩

theorem witness_LineHomesComplete :
    (∃ (a : Agent) (o : Nat) (m : CohMsg) (x : Txn) (s u : State), s.receive [6] (agentNum a) o = some (m, u) ∧ (u.line o).txn = some x ∧ x.kind = 2 ∧ x.waitAgents = [agentNum a] ∧ x.waitHosts = [] ∧ x.wbWait = [] ∧ x.forwarded = false ∧ (u.line o).queue = [])
    ∧ (∃ (a : Agent) (o : Nat) (m : CohMsg) (x : Txn) (s u : State), s.receive [7] (agentNum a) o = some (m, u) ∧ (u.line o).txn = some x ∧ x.kind = 1 ∧ x.waitAgents = [agentNum a] ∧ x.waitHosts = [] ∧ x.wbWait = [] ∧ x.forwarded = false ∧ (u.line o).queue = [] ∧ (u.line o).owner = some (agentNum a))
    ∧ (∃ (a : Agent) (o : Nat) (m : CohMsg) (x : Txn) (s u : State), s.receive [8] (agentNum a) o = some (m, u) ∧ (u.line o).txn = some x ∧ x.kind = 2 ∧ x.waitAgents = [agentNum a] ∧ x.waitHosts = [] ∧ x.wbWait = [] ∧ (u.line o).queue = [])
    ∧ (∃ (a : Agent) (o : Nat) (m : CohMsg) (x : Txn) (s u : State), s.receive [9] (agentNum a) o = some (m, u) ∧ (u.line o).txn = some x ∧ (∀ w, w ∈ (u.line o).wbs → w.1 ≠ agentNum a))
    ∧ (∃ (p l o at_ lim : Nat) (x : Txn) (s : State), (s.ld p l).viewCut = false ∧ (s.line o).txn = some x ∧ x.kind = 2 ∧ x.waitAgents = [] ∧ x.waitHosts = [(p, l, at_, lim)] ∧ x.wbWait = [] ∧ x.forwarded = false ∧ (s.line o).queue = [])
    ∧ (∃ (p l o at_ lim : Nat) (x : Txn) (s : State), (s.line o).txn = some x ∧ x.kind = 2 ∧ x.waitAgents = [] ∧ x.waitHosts = [(p, l, at_, lim)] ∧ x.wbWait = [] ∧ x.forwarded = false ∧ (s.line o).queue = [])
    ∧ (∃ (p l _o : Nat) (s : State), s.hostUp p = true ∧ s.ldOn p l = true ∧ (s.ld p l).viewCut = true)
    ∧ (∃ (p l o u : Nat) (v : Bytes) (s : State), s.hostUp p = true ∧ s.ldOn p l = true ∧ (s.ld p l).viewCut = false ∧ s.ldTenant p l = some u ∧ s.viewValue u o = some v ∧ (s.dirEntries (lineHome o)).length < 131072 ∧ (s.line o).txn = none ∧ (s.line o).queue = [] ∧ (s.line o).owner = none ∧ (s.line o).hosts = [] ∧ (s.line o).obj = some v)
    ∧ (∃ (p l o u : Nat) (v : Bytes) (s : State), s.hostUp p = true ∧ s.ldOn p l = true ∧ (s.ld p l).viewCut = false ∧ s.ldTenant p l = some u ∧ s.viewValue u o = some v ∧ (s.dirEntries (lineHome o)).length < 131072 ∧ (s.line o).txn = none ∧ (s.line o).queue = [] ∧ (s.line o).owner = none ∧ (s.line o).hosts = [] ∧ (s.line o).hostOver = false ∧ (s.line o).sharers = [] ∧ (s.line o).obj ≠ some v)
    ∧ (∃ (p l o u : Nat) (s : State), s.hostUp p = true ∧ s.ldOn p l = true ∧ (s.ld p l).viewCut = false ∧ s.ldTenant p l = some u ∧ s.viewValue u o = none)
    ∧ (∃ (sid v : Nat) (s : State), MayWrite s sid 0x5100 5 ∧ v < 2048) :=
  ⟨⟨.engine 7 51, 9, { kind := 6, agent := 415, line := 9 }, txn 2, homeS 2 [{ kind := 6, agent := 415, line := 9 }], homeS 2 [], rfl, by decide +kernel⟩,
   ⟨.engine 7 51, 9, { kind := 7, agent := 415, line := 9 }, txn 1, homeS 1 [{ kind := 7, agent := 415, line := 9 }], homeS 1 [], rfl, by decide +kernel⟩,
   ⟨.engine 7 51, 9, { kind := 8, agent := 415, line := 9, val := zeros 64 }, txn 2, homeS 2 [{ kind := 8, agent := 415, line := 9, val := zeros 64 }], homeS 2 [], rfl, by decide +kernel⟩,
   ⟨.engine 7 51, 9, { kind := 9, agent := 415, line := 9 }, txn 2, homeS 2 [{ kind := 9, agent := 415, line := 9 }], homeS 2 [], rfl, by decide +kernel⟩,
   ⟨127, 15, 9, 0, 1000000, viewTxn, viewS viewTxn, by decide +kernel⟩,
   ⟨127, 15, 9, 0, 1000000, viewTxn, viewS viewTxn, by decide +kernel⟩,
   ⟨127, 15, 9, { ldS with lds := [(ldKey 127 15, { viewCut := true })] }, by decide +kernel⟩,
   ⟨127, 15, 9, 4095, (descS.viewValue 4095 9).get (by decide +kernel), { descS with lines := [(9, { obj := descS.viewValue 4095 9 })] }, by decide +kernel, by decide +kernel, (by decide +kernel), by decide +kernel, (get_eq _), by decide +kernel, by decide +kernel, (by decide +kernel), by decide +kernel, by decide +kernel, (get_eq _)⟩,
   ⟨127, 15, 9, 4095, (descS.viewValue 4095 9).get (by decide +kernel), descS, by decide +kernel, by decide +kernel, (by decide +kernel), by decide +kernel, (get_eq _), by decide +kernel, by decide +kernel, (by decide +kernel), by decide +kernel, by decide +kernel, (by decide +kernel), by decide +kernel, (fun h => nomatch h)⟩,
   ⟨127, 15, 9, 4095, ldS, by decide +kernel⟩,
   ⟨1, 2047, onS, ⟨_, rfl, rfl, rfl⟩, by decide +kernel⟩⟩

theorem witness_RingRegistersComplete :
    (∃ (p l r v : Nat) (s : State), s.takes p l = true ∧ r < 64 ∧ ((s.ld p l).ring r).st = 1 ∧ v % 64 = 0 ∧ v < ((s.ld p l).ring r).size)
    ∧ (∃ (p l r v : Nat) (s : State), s.takes p l = true ∧ r < 64 ∧ ((s.ld p l).ring r).st = 1 ∧ (v % 64 ≠ 0 ∨ ((s.ld p l).ring r).size ≤ v))
    ∧ (∃ (p l r : Nat) (s : State), s.takes p l = true ∧ r < 64 ∧ (s.ld p l).offline = false ∧ ((s.ld p l).ring r).enabled = false ∧ ((s.ld p l).cq ((s.ld p l).ring r).cqNo).on = true ∧ (s.ld p l).sqBytes + ((s.ld p l).ring r).size ≤ 16 * 2 ^ 20)
    ∧ (∃ (p l r : Nat) (s : State), ((s.ld p l).ring r).st = 3)
    ∧ (∃ (p l r : Nat) (s : State), s.takes p l = true ∧ ((s.ld p l).ring r).st ≠ 0)
    ∧ (∃ (p l r : Nat) (s : State), ((s.ld p l).ring r).st = 2 ∧ s.ringOwed p l r = 0)
    ∧ (∃ (p l r v : Nat) (s : State), s.takes p l = true ∧ r < 64 ∧ ((s.ld p l).cq r).on = false ∧ bit v 16 = true ∧ 6 ≤ v % 32 ∧ v % 32 ≤ 16)
    ∧ (∃ (p l r v : Nat) (s : State), ((s.ld p l).cq r).on = true ∧ bit v 16 = false ∧ ((s.ld p l).ring r).enabled = true ∧ ((s.ld p l).ring r).cqNo = r ∧ (∃ e ∈ (s.ld p l).rings, e = (r, (s.ld p l).ring r)))
    ∧ (∃ (p l r v : Nat) (s : State), s.takes p l = true ∧ ((s.ld p l).cq r).on = true ∧ ((s.ld p l).cq r).headOk v = true)
    ∧ (∃ (p l v : Nat) (s : State), s.takes p l = true ∧ (s.ld p l).eq.on = true ∧ (s.ld p l).eq.headOk v = true ∧ (s.ld p l).eq.queued = [])
    ∧ (∃ (p l c : Nat) (s : State), s.reach p l = true ∧ ((s.ld p l).cq c).on = true)
    ∧ (∃ (p l r : Nat) (h : Bytes) (s0 s : State), s.turn p l r = some s0 ∧ ((s0.ld p l).ring r).peek = .packet h ∧ hRecipe h = 0) :=
  ⟨⟨127, 15, 63, 65472, ringS { st := 1 }, by decide +kernel⟩,
   ⟨127, 15, 63, 65536, ringS { st := 1 }, by decide +kernel⟩,
   ⟨127, 15, 63, ringS { cfg := 20 }, by decide +kernel⟩,
   ⟨127, 15, 63, ringS { st := 3 }, by decide +kernel⟩,
   ⟨127, 15, 63, ringS { st := 1 }, by decide +kernel⟩,
   ⟨127, 15, 63, ringS { st := 2 }, by decide +kernel⟩,
   ⟨127, 15, 63, 0x10010, ringS {}, by decide +kernel⟩,
   ⟨127, 15, 63, 0x10, namedS, by decide +kernel⟩,
   ⟨127, 15, 0, 0, ringS {}, by decide +kernel⟩,
   ⟨127, 15, 0, { ldS with lds := [(ldKey 127 15, { eq := { cfg := 0x10006 } })] }, by decide +kernel⟩,
   ⟨127, 15, 0, ringS {}, by decide +kernel⟩,
   ⟨127, 15, 63, zeros 7 ++ [16] ++ zeros 56, (padS.turn 127 15 63).get (by decide +kernel), padS, (get_eq _), by decide +kernel⟩⟩

def descrS : State := cmdS 0xF0 64 [] [] 0

/-- A packet of 16,385 payload bytes, one of a recipe that is not there, and one of a tenant that is not enabled. -/
def longS : State := ringS { st := 1, tail := 32768, store := stored 0 (hdr 1 16385 0 []) }

def noneS : State := cmdS 0x100 0 [] [] 0

def offS : State := ringS { st := 1, tail := 64, store := stored 0 (hdr 0xF0 0 64 []) }

/-- Logical device 15 serves its rings for no tenant. -/
def unboundS : State := noneS.setObj 0x547F 122 0

def instS : State := cmdS 0xF1 64 [] (leBytes 2 0x100 ++ [0, 1, 0, 0] ++ leBytes 2 1) 56

def instBadS : State := cmdS 0xF1 64 [] (leBytes 2 0xFF ++ [0, 1, 0, 0] ++ leBytes 2 1) 56

/-- A composed recipe of tenant 4095 whose payload is one section of indices. -/
def stage0 : Bytes := zeros 4 ++ [1, 0, 0, 0] ++ [6, 7, 1, 0] ++ zeros 20

def chain : Recipe := { tenant := 4095, id := 0x100, hdr := zeros 8 ++ leBytes 4 4096 ++ zeros 52, stages := [stage0], byCmd := 99 }

def rmS : State := { cmdS 0xF2 0 (leBytes 2 0x100) [] 0 with recipes := [chain] }

def section0 : Stream := { kind := 6, fmt := 7, rowBytes := 4, tiles := [zeros 4] }

def chainS : State := { cmdS 0x100 64 [] [] 4 with recipes := [chain] }

def loadS : State := cmdS 0x22 0 (leBytes 2 1 ++ zeros 2 ++ leBytes 4 1 ++ leBytes 4 64) [] 64

def tensor1 : Tensor := { tenant := 4095, id := 1, fmt := 0, rows := 1, rowBytes := 64, resident := true }

def freeTS : State := { cmdS 0x23 0 (leBytes 2 1) [] 0 with tensors := [tensor1] }

def gathS : State := { cmdS 12 64 (zeros 2 ++ leBytes 2 1) [] 4 with tensors := [tensor1] }

/-- Tenant 4095 uses Palettes of its own and may hold slots. -/
def palOn (s : State) : State := (s.setObjI 0x7400 2 4095 1).setObjI 0x7400 3 4095 4

def palS : State := palOn (cmdS 0x20 8 [] [] 1024)

def curS : State := palOn (cmdS 0x20 8 [0, 1] [] 0)

def slot0 : PSlot := { tenant := 4095, set := 0, gen := 1, bytes := [] }

def freePS : State := { palOn (cmdS 0x21 8 [0, 0, 1] [] 0) with slots := [(7, slot0)] }

/-- An ALLREDUCE of one bf16 element over two ranks, with its one block homed here. -/
def collS : State := cmdS 9 64 (zeros 8 ++ leBytes 2 0 ++ leBytes 2 2 ++ zeros 4 ++ leBytes 4 1) (leBytes 2 1) 64

def key0 : CollKey := { fabTag := 0, group := 1, opSeq := 2, chunk := 3 }

def par0 : CollParams := { recipe := 9, nranks := 256, op := 0, fmt := 0, elems := 1, k := 0, base := 0, header := leBytes 2 1 ++ zeros 62 }

def collCmd : Cmd :=
  { p := 127, l := 15, r := 63, tenant := 4095, recipe := 9, rid := 9, hdr := [], pay := [], sqHead := 0, cq := 0, at_ := 0, items := [none],
    work := .coll key0 1 }

def cont0 : Contribution := { key := key0, par := par0, rank := 255, dev := 1, timeoutMs := 1000, data := zeros 2, poison := false }

/-- A header of a tile, with POISON or not. -/
def hdr0 (poison : Bool) : Bytes :=
  ({ kind := 0, fmt := 0, tenant := 0, stage := 0, poison := poison, ref := 5 } : TileHdr).bytes

def rec0 : CollRec := { key := key0, par := par0, tenant := 4095, isTop := true, block := 0, opened := 0, timeoutMs := 1000 }

theorem okt_longS : (longS.turn 127 15 63).isSome = true := by decide +kernel

theorem okt_noneS : (noneS.turn 127 15 63).isSome = true := by decide +kernel

theorem okt_offS : (offS.turn 127 15 63).isSome = true := by decide +kernel

theorem okt_unboundS : (unboundS.turn 127 15 63).isSome = true := by decide +kernel

theorem ok_descrS : (descrS.admitted 127 15 63 0xF0 describeRecipe).isSome = true := by decide +kernel

theorem ok_instS : (instS.admitted 127 15 63 0xF1 installRecipeRun).isSome = true := by decide +kernel

theorem ok_instBadS : (instBadS.admitted 127 15 63 0xF1 installRecipeRun).isSome = true := by decide +kernel

theorem ok_rmS : (rmS.admitted 127 15 63 0xF2 removeRecipeRun).isSome = true := by decide +kernel

theorem ok_chainS : (chainS.admitted 127 15 63 0 composedRecipe).isSome = true := by decide +kernel

theorem ok_loadS : (loadS.admitted 127 15 63 0x22 loadRecipe).isSome = true := by decide +kernel

theorem ok_freeTS : (freeTS.admitted 127 15 63 0x23 freeTensorRecipe).isSome = true := by decide +kernel

theorem ok_gathS : (gathS.admitted 127 15 63 12 gatherRecipe).isSome = true := by decide +kernel

theorem ok_palS : (palS.admitted 127 15 63 0x20 palRecipe).isSome = true := by decide +kernel

theorem ok_curS : (curS.admitted 127 15 63 0x20 palRecipe).isSome = true := by decide +kernel

theorem ok_freePS : (freePS.admitted 127 15 63 0x21 freePalRecipe).isSome = true := by decide +kernel

theorem ok_collS : (collS.admitted 127 15 63 9 (collRecipe 9)).isSome = true := by decide +kernel

theorem okc_chainS : (State.cmd (Option.get _ ok_chainS).1 (Ctx.ref (Option.get _ ok_chainS).2)).isSome = true := by decide +kernel

theorem okc_gathS : (State.cmd (Option.get _ ok_gathS).1 (Ctx.ref (Option.get _ ok_gathS).2)).isSome = true := by decide +kernel

theorem witness_AdmittedCommandsEnterAndRun :
    (∃ (p l r base : Nat) (s u : State) (c : Ctx), s.admitted p l r base (recipeRun base) = some (u, c))
    ∧ (∃ (i : Instr) (p l r base : Nat) (s u : State) (c : Ctx), recipeRow i = some (p, l, r, base) ∧ s.admitted p l r base (recipeRun base) = some (u, c)) :=
  ⟨⟨127, 15, 63, 0xF0, descrS, (Option.get _ ok_descrS).1, (Option.get _ ok_descrS).2, (get_pair ok_descrS)⟩,
   ⟨.describe 127 15 63, 127, 15, 63, 0xF0, descrS, (Option.get _ ok_descrS).1, (Option.get _ ok_descrS).2, rfl, (get_pair ok_descrS)⟩⟩

theorem witness_RefusedPacketsOweTheirRecord :
    (∃ (p l r reason : Nat) (h : Bytes) (s0 s : State), s.turn p l r = some s0 ∧ ((s0.ld p l).ring r).peek = .packet h ∧ hRecipe h ≠ 0 ∧ hdrFault h = some reason)
    ∧ (∃ (p l r u : Nat) (h : Bytes) (s0 s : State), s.turn p l r = some s0 ∧ ((s0.ld p l).ring r).peek = .packet h ∧ hRecipe h ≠ 0 ∧ hdrFault h = none ∧ s.ldTenant p l = some u ∧ s.resolve u (hRecipe h) = none)
    ∧ (∃ (p l r : Nat) (h : Bytes) (s0 s : State), s.turn p l r = some s0 ∧ ((s0.ld p l).ring r).peek = .packet h ∧ hRecipe h ≠ 0 ∧ hdrFault h = none ∧ s.ldTenant p l = none ∧ s.resolve 4096 (hRecipe h) = none)
    ∧ (∃ (i : Instr) (p l r base st reason : Nat) (h : Bytes) (var : Option Recipe) (s0 s1 s2 s : State), recipeRow i = some (p, l, r, base) ∧ s.turn p l r = some s0 ∧ ((s0.ld p l).ring r).peek = .packet h ∧ hRecipe h ≠ 0 ∧ hdrFault h = none ∧ s0.resolve ((s0.ldTenant p l).getD 4096) (hRecipe h) = some (base, var) ∧ s1 = { s0.consume p l r (packetBytes h) false with freeCtr := s0.freeCtr + 1 } ∧ s1.policed p l base var h = (some (st, reason), s2)) :=
  ⟨⟨127, 15, 63, 3, hdr 1 16385 0 [], Option.get _ okt_longS, longS, (get_eq okt_longS), by decide +kernel⟩,
   ⟨127, 15, 63, 4095, hdr 0x100 0 0 [], Option.get _ okt_noneS, noneS, (get_eq okt_noneS), by decide +kernel⟩,
   ⟨127, 15, 63, hdr 0x100 0 0 [], Option.get _ okt_unboundS, unboundS, (get_eq okt_unboundS), by decide +kernel⟩,
   ⟨.describe 127 15 63, 127, 15, 63, 0xF0, stDenied, 0x0D, hdr 0xF0 0 64 [], none, Option.get _ okt_offS, _, _, offS, rfl, (get_eq okt_offS), by decide +kernel, by decide +kernel, (by decide +kernel), by decide +kernel, rfl, (fst_pair (by decide +kernel))⟩⟩

theorem witness_RecipeCommandsComplete :
    (∃ (p l r : Nat) (s u : State) (c : Ctx), s.admitted p l r 0xF0 describeRecipe = some (u, c))
    ∧ (∃ (p l r : Nat) (st : List Bytes) (s u : State) (c : Ctx), s.admitted p l r 0xF1 installRecipeRun = some (u, c) ∧ st = (List.range (field (slice c.pay 0 64) 2 1)).map (fun i => slice c.pay (64 + 32 * i) 32) ∧ s.descFault c.tenant (slice c.pay 0 64) st = none)
    ∧ (∃ (p l r reason stage : Nat) (st : List Bytes) (s u : State) (c : Ctx), s.admitted p l r 0xF1 installRecipeRun = some (u, c) ∧ st = (List.range (field (slice c.pay 0 64) 2 1)).map (fun i => slice c.pay (64 + 32 * i) 32) ∧ s.descFault c.tenant (slice c.pay 0 64) st = some (reason, stage))
    ∧ (∃ (p l r : Nat) (s u : State) (c : Ctx), s.admitted p l r 0xF2 removeRecipeRun = some (u, c) ∧ s.recipes.any (fun x => x.tenant == c.tenant && x.id == arg c.h 0x18 2 && x.removedBy.isNone) = true)
    ∧ (∃ (p l r : Nat) (e : Bytes) (rest : List Bytes) (v : Recipe) (secs out : List Stream) (x : Cmd) (s u : State) (c : Ctx), s.admitted p l r 0 composedRecipe = some (u, c) ∧ u.cmd c.ref = some x ∧ u.recipes.find? (fun y => y.tenant == c.tenant && y.id == c.rid) = some v ∧ v.stages = e :: rest ∧ cutSections (tileGrant (some v)) c.h 0 (sectionsOf e) c.pay = some secs ∧ ((u.modCmd c.ref (fun y => { y with work := .none, items := [none] })).runStages c.ref (tileGrant (some v)) x rest secs.reverse secs).1 = .ok out)
    ∧ (∃ (tenant id : Nat) (s : State), s.cmds.any (fun e => e.2.tenant == tenant && e.2.rid == id && e.2.refused.isNone) = false ∧ (∀ x, x ∈ s.recipes → x.tenant = tenant → x.id = id → ∃ c, x.removedBy = some c ∧ s.cmd c = none)) :=
  ⟨⟨127, 15, 63, descrS, (Option.get _ ok_descrS).1, (Option.get _ ok_descrS).2, (get_pair ok_descrS)⟩,
   ⟨127, 15, 63, [], instS, (Option.get _ ok_instS).1, (Option.get _ ok_instS).2, (get_pair ok_instS), by decide +kernel⟩,
   ⟨127, 15, 63, 6, 0xFF, [], instBadS, (Option.get _ ok_instBadS).1, (Option.get _ ok_instBadS).2, (get_pair ok_instBadS), by decide +kernel⟩,
   ⟨127, 15, 63, rmS, (Option.get _ ok_rmS).1, (Option.get _ ok_rmS).2, (get_pair ok_rmS), by decide +kernel⟩,
   ⟨127, 15, 63, stage0, [], chain, [section0], [section0], (Option.get _ okc_chainS), chainS, (Option.get _ ok_chainS).1, (Option.get _ ok_chainS).2, (get_pair ok_chainS), (get_eq okc_chainS), by decide +kernel, by decide +kernel, (by decide +kernel), rfl⟩,
   ⟨4095, 256, { onS with recipes := [{ chain with removedBy := some 3 }] }, by decide +kernel, (fun x hx _ _ => ⟨3, by simp only [List.mem_singleton] at hx; exact ⟨by rw [hx], rfl⟩⟩)⟩⟩

theorem witness_TensorsAndPalettesComplete :
    (∃ (p l r : Nat) (a : LoadArgs) (s u : State) (c : Ctx), s.admitted p l r 0x22 loadRecipe = some (u, c) ∧ a = loadArgs c.h ∧ s.tensors.find? (fun x => x.tenant == c.tenant && x.id == a.id) = none ∧ a.off + c.pay.length ≤ a.rows * a.rowBytes ∧ s.tensorUsed c.tenant + roundUp (a.rows * a.rowBytes) Config.granule ≤ s.obj 0x6200 5 * 2 ^ 20 ∧ s.tensorAll + (u.modCmd c.ref (fun y => { y with work := .none, items := [none] })).tensorHold c.tenant + roundUp (a.rows * a.rowBytes) Config.granule ≤ s.obj 0x6200 4 * 2 ^ 20)
    ∧ (∃ (p l r : Nat) (s u : State) (c : Ctx), s.admitted p l r 0x23 freeTensorRecipe = some (u, c) ∧ s.tensors.any (fun x => x.tenant == c.tenant && x.id == arg c.h 0x18 2 && !x.freed) = true)
    ∧ (∃ (p l r : Nat) (x : Cmd) (w : Rows) (s u : State) (c : Ctx), s.admitted p l r 12 gatherRecipe = some (u, c) ∧ u.cmd c.ref = some x ∧ (u.modCmd c.ref (fun y => { y with work := .none, items := [none] })).gatherRows c.ref p l c.tenant (gSource (c.h.drop 0x18)) ((chunks 4 4096 c.pay).map leNat) = .ok w)
    ∧ (∃ (p l r ps : Nat) (s u : State) (c : Ctx), s.admitted p l r 0x20 palRecipe = some (u, c) ∧ ps = setByte (arg c.h 0x18 1) ∧ u.palMode c.tenant ≠ 0 ∧ hLen c.h ≠ 0 ∧ (u.modCmd c.ref (fun y => { y with work := .none, items := [none] })).slotRoom c.tenant ps = true)
    ∧ (∃ (p l r : Nat) (s u : State) (c : Ctx), s.admitted p l r 0x20 palRecipe = some (u, c) ∧ u.palMode c.tenant ≠ 0 ∧ hLen c.h = 0 ∧ arg c.h 0x1A 1 = 0)
    ∧ (∃ (p l r slot : Nat) (x : PSlot) (s u : State) (c : Ctx), s.admitted p l r 0x21 freePalRecipe = some (u, c) ∧ u.slotOf c.tenant (setByte (arg c.h 0x18 1)) (arg c.h 0x1A 1) = some (slot, x))
    ∧ (∃ (slot : Nat) (x : PSlot) (s : State), Table.find s.slots slot = some x ∧ x.retiring = true ∧ s.atRest slot = 0 ∧ s.queuedIn slot = 0 ∧ s.freeing x = false) :=
  ⟨⟨127, 15, 63, loadArgs ((Option.get _ ok_loadS).2).h, loadS, (Option.get _ ok_loadS).1, (Option.get _ ok_loadS).2, (get_pair ok_loadS), rfl, by decide +kernel⟩,
   ⟨127, 15, 63, freeTS, (Option.get _ ok_freeTS).1, (Option.get _ ok_freeTS).2, (get_pair ok_freeTS), by decide +kernel⟩,
   ⟨127, 15, 63, (Option.get _ okc_gathS), { fmt := 0, rowBytes := 64, rows := [zeros 64] }, gathS, (Option.get _ ok_gathS).1, (Option.get _ ok_gathS).2, (get_pair ok_gathS), (get_eq okc_gathS), (ok_of (by decide +kernel))⟩,
   ⟨127, 15, 63, 0, palS, (Option.get _ ok_palS).1, (Option.get _ ok_palS).2, (get_pair ok_palS), by decide +kernel⟩,
   ⟨127, 15, 63, curS, (Option.get _ ok_curS).1, (Option.get _ ok_curS).2, (get_pair ok_curS), by decide +kernel⟩,
   ⟨127, 15, 63, 7, slot0, freePS, (Option.get _ ok_freePS).1, (Option.get _ ok_freePS).2, (get_pair ok_freePS), by decide +kernel⟩,
   ⟨7, { slot0 with retiring := true }, { onS with slots := [(7, { slot0 with retiring := true })] }, by decide +kernel⟩⟩

theorem witness_CollectivesComplete :
    (∃ (i : Instr) (p l r base rank : Nat) (a : CollArgs) (key : CollKey) (s u : State) (c : Ctx), ((i = .allreduce p l r ∧ base = 9) ∨ (i = .reduceScatter p l r ∧ base = 10) ∨ (i = .allgather p l r ∧ base = 11) ∨ (i = .filterTopk p l r ∧ base = 13)) ∧ s.admitted p l r base (collRecipe base) = some (u, c) ∧ a = collArgs base c.h c.pay ∧ rank = a.rank ∧ key = { fabTag := u.tagOf c.tenant, group := a.group, opSeq := a.opSeq, chunk := a.chunk } ∧ topHome a.par = u.devId ∧ (∀ b, b < blocksIn a.par → blockHome a.par b = u.devId ∨ u.reaches (blockHome a.par b) = true) ∧ blockHome a.par (rank / 256) = u.devId ∧ u.collRec key false (rank / 256) = none ∧ (((u.modCmd c.ref (fun y => { y with items := [none], work := .none })).modCmd c.ref (fun y => { y with work := .coll key rank })).stagingFits key.fabTag (recSpace a.par false (rank / 256))).1 = true ∧ 2 ≤ blockRanks a.par (rank / 256))
    ∧ (∃ (c : Contribution) (hdrs : List Bytes) (s : State), hdrsOk hdrs = true ∧ blockHome c.par (c.rank / 256) = s.devId ∧ c.rank < c.par.nranks ∧ s.collRec c.key false (c.rank / 256) = none ∧ (s.stagingFits c.key.fabTag (recSpace c.par false (c.rank / 256))).1 = true ∧ 2 ≤ blockRanks c.par (c.rank / 256))
    ∧ (∃ (c : Contribution) (hdrs : List Bytes) (s : State), hdrsOk hdrs = false ∧ blockHome c.par (c.rank / 256) = s.devId ∧ c.rank < c.par.nranks ∧ c.dev ≠ s.devId)
    ∧ (∃ (key : CollKey) (q : CollParams) (block _ms : Nat) (_devs : List Nat) (_d : Bytes) (_poison : Bool) (hdrs : List Bytes) (s : State), hdrsOk hdrs = true ∧ topHome q = s.devId ∧ block < blocksIn q ∧ s.collRec key true 0 = none ∧ (s.stagingFits key.fabTag (recSpace q true 0)).1 = true ∧ 2 ≤ blocksIn q)
    ∧ (∃ (key : CollKey) (c rank : Nat) (x : Cmd) (_d : Bytes) (hdrs : List Bytes) (s : State), hdrsOk hdrs = true ∧ hdrsPoison hdrs = false ∧ s.cmd c = some x ∧ x.work = .coll key rank ∧ x.items = [none])
    ∧ (∃ (key : CollKey) (c rank : Nat) (x : Cmd) (_d : Bytes) (hdrs : List Bytes) (s : State), hdrsOk hdrs = true ∧ s.cmd c = some x ∧ x.work = .coll key rank ∧ x.items = [none] ∧ x.whole = none)
    ∧ (∃ (key : CollKey) (c rank : Nat) (x : Cmd) (_d : Bytes) (_poison : Bool) (hdrs : List Bytes) (s : State), hdrsOk hdrs = false ∧ s.cmd c = some x ∧ x.work = .coll key rank ∧ x.items = [none] ∧ x.whole = none)
    ∧ (∃ (key : CollKey) (c rank _st _reason : Nat) (x : Cmd) (_hdrs : List Bytes) (s : State), s.cmd c = some x ∧ x.work = .coll key rank ∧ x.items = [none] ∧ x.whole = none)
    ∧ (∃ (key : CollKey) (at_ : RecordAt) (r : CollRec) (s : State), s.colls.find? (fun y => y.key == key && (match at_ with | .top => y.isTop | .block b => !y.isTop && y.block == b) && y.abortedAt.isNone && !y.sent) = some r)
    ∧ (∃ (c rank : Nat) (key : CollKey) (x : Cmd) (s : State), s.cmd c = some x ∧ x.work = .coll key rank ∧ x.items = [none] ∧ x.whole = none) :=
  ⟨⟨.allreduce 127 15 63, 127, 15, 63, 9, 0, collArgs 9 ((Option.get _ ok_collS).2).h ((Option.get _ ok_collS).2).pay, { fabTag := ((Option.get _ ok_collS).1).tagOf ((Option.get _ ok_collS).2).tenant, group := 0, opSeq := 0, chunk := 0 }, collS, (Option.get _ ok_collS).1, (Option.get _ ok_collS).2, (Or.inl ⟨rfl, rfl⟩), (get_pair ok_collS), rfl, by decide +kernel, by decide +kernel, (by decide +kernel), (by decide +kernel), by decide +kernel⟩,
   ⟨cont0, [hdr0 false], onS, by decide +kernel⟩,
   ⟨cont0, [zeros 32], onS, by decide +kernel⟩,
   ⟨key0, { par0 with nranks := 257, header := leBytes 2 2 ++ zeros 62 }, 1, 1000, [0, 1], zeros 2, false, [hdr0 false], onS, by decide +kernel⟩,
   ⟨key0, 5, 1, collCmd, zeros 2, [hdr0 false], { onS with cmds := [(5, collCmd)] }, by decide +kernel⟩,
   ⟨key0, 5, 1, collCmd, zeros 2, [hdr0 true], { onS with cmds := [(5, collCmd)] }, by decide +kernel⟩,
   ⟨key0, 5, 1, collCmd, zeros 2, false, [zeros 32], { onS with cmds := [(5, collCmd)] }, by decide +kernel⟩,
   ⟨key0, 5, 1, stMismatch, 0x09, collCmd, [hdr0 false], { onS with cmds := [(5, collCmd)] }, by decide +kernel⟩,
   ⟨key0, .top, rec0, { onS with colls := [rec0] }, by decide +kernel⟩,
   ⟨5, 1, key0, collCmd, { onS with cmds := [(5, collCmd)] }, by decide +kernel⟩⟩

def attArg : Bytes := zeros 3 ++ [1] ++ leBytes 2 1 ++ zeros 2 ++ leBytes 4 0x3F800000

/-- An ATTEND of one row over sequence 7, and one behind an APPEND to it. -/
def attS : State := cmdS 1 4096 attArg (leBytes 4 7 ++ [1]) 139

def before : Cmd :=
  { p := 127, l := 15, r := 63, tenant := 4095, recipe := 3, rid := 3, hdr := hdr 3 272 0 (zeros 4 ++ leBytes 2 1), pay := leBytes 4 7 ++ zeros 12, sqHead := 0,
    cq := 0, at_ := 0, items := [none], work := .append }

def att2S : State := { attS with cmds := [(0, before)], nextCmd := 1 }

/-- The last APPEND to the head that the ATTEND reads has failed. -/
def doomS : State :=
  { attS with lds := attS.lds.map (fun e => (e.1, { e.2 with rings := e.2.rings.map (fun x => (x.1, { x.2 with lostApps := [(0, 0, 7)] })) })) }

def bwdS : State :=
  { cmdS 2 4096 (attArg ++ zeros 12 ++ leBytes 8 (3 * 2 ^ 28)) (leBytes 4 7 ++ [1, 0, 0, 0, 1]) 271 with extents := [(0, granted)] }

def appS : State := cmdS 3 0 (zeros 4 ++ leBytes 2 1) (leBytes 4 7 ++ [1]) 267

def lookS : State := cmdS 4 8 (zeros 4 ++ leBytes 2 1) [] 256

def pubS : State := cmdS 5 8 (zeros 4 ++ leBytes 2 1) [] 256

def pinS : State := cmdS 6 0 (zeros 4 ++ leBytes 2 1) (leBytes 4 7) 12

def unpinS : State := cmdS 7 0 (zeros 4 ++ leBytes 2 1) (leBytes 4 7) 12

def migS : State := cmdS 8 0 (zeros 4 ++ leBytes 2 1 ++ [1]) (leBytes 4 7) 12

def openS : State := cmdS 0x10 0 (leBytes 2 1) (leBytes 4 7 ++ [0, 0, 1, 0, 1]) 7

def closeS : State := cmdS 0x11 0 (leBytes 2 1) (leBytes 4 7) 12

def extS : State :=
  { cmdS 0x30 0 [] (zeros 8 ++ leBytes 8 (3 * 2 ^ 28)) 0 with
    extents := [(0, granted)], writes := [{ id := 0, src := .host 127 15, addr := 0, data := [1], eid := some 0 }] }

theorem no_attend {l : Table Cmd} (h : l.all (fun e => match e.2.work with | .attend _ => false | _ => true) = true) :
    ∀ e, e ∈ l → ∀ d, e.2.work ≠ .attend d := by
  intro e he d hd
  have := List.all_eq_true.1 h e he
  rw [hd] at this
  cases this

theorem no_ordered {l : Table Cmd} (h : l.all (fun e => match e.2.work with | .ordered _ => false | _ => true) = true) :
    ∀ e, e ∈ l → ∀ d, e.2.work ≠ .ordered d := by
  intro e he d hd
  have := List.all_eq_true.1 h e he
  rw [hd] at this
  cases this

theorem no_publish {l : Table Cmd} (h : l.all (fun e => match e.2.work with | .publish _ => false | _ => true) = true) :
    ∀ e, e ∈ l → ∀ d, e.2.work ≠ .publish d := by
  intro e he d hd
  have := List.all_eq_true.1 h e he
  rw [hd] at this
  cases this

def workCmd : Cmd :=
  { p := 127, l := 15, r := 63, tenant := 4095, recipe := 9, rid := 9, hdr := [], pay := [], sqHead := 0, cq := 0, at_ := 0, items := [none],
    work := .coll { fabTag := 0, group := 1, opSeq := 2, chunk := 3 } 1 }

def endedCmd : Cmd := { workCmd with items := [some 0], work := .none }

/-- The header of a tile of that command, and a tile of one byte. -/
def tileHead : TileHdr := { kind := 0, fmt := 0, tenant := 4095, stage := 0, last := true, length := 1, ref := 5 }

def tileOf (h : TileHdr) : Tile := { hdr := h.bytes, data := [7] }

/-- A fabric map of devices 0 and 1 in which device 1 owns every position. -/
def map2 : FMap :=
  { epoch := 2, proposer := 0, members := [{ dev := 0, group := 0, dies := 1 }, { dev := 1, group := 1, dies := 1 }], overrides := [(0, 4294967295, 1)] }

def mapS : State := { onS with fmap := { map := some map2, member := true } }

/-- A map in which this device owns every position. -/
def aloneS : State :=
  { onS with fmap := { map := some { epoch := 2, proposer := 0, members := [{ dev := 0, group := 0, dies := 0 }], overrides := [(0, 4294967295, 0)] },
                       member := true } }

def seq1 : Seq :=
  { fabTag := 1, id := 2, tenant := 4095, shape := { fmt := 0, dim := 0, layers := 1, heads := 1, domain := none }, blocks := [(0, (9, false))] }

def pend1 : PendItem := { cmd := 5, item := 0, seq := seqKey 1 2, member := 0, pos0 := 0, pos := [], blocks := [0], at_ := 0 }

def page1 : Page := { pos := [], tier := 1, granules := 1, sealed := true }

def page1m : Page := { page1 with moving := some 2 }

def gr (y : Page) : Group := { group9 with tenant := 4095, shape := seq1.shape, pages := [(3, y)] }

/-- That page stands in group 9, and a memory tray of 64 GiB is up. -/
def pagesS (y : Page) : State := { port 127 2 { st := 3, gib := 64 } onS with groups := [(9, gr y)] }

def handoff1 : Handoff := { dev := 1, seqs := [seqKey 1 2], ranges := [(0, 4294967295)], epoch := 2, at_ := 0 }

def image1 : SeqImage :=
  { fabTag := 1, seqId := 2, shape := seq1.shape, prefixBlocks := 0, lastKey := zeros 32, blocks := [], pages := [], missing := 0 }

theorem ok_attS : (attS.admitted 127 15 63 1 attendRecipe).isSome = true := by decide +kernel

theorem ok_att2S : (att2S.admitted 127 15 63 1 attendRecipe).isSome = true := by decide +kernel

theorem ok_doomS : (doomS.admitted 127 15 63 1 attendRecipe).isSome = true := by decide +kernel

theorem ok_bwdS : (bwdS.admitted 127 15 63 2 bwdRecipe).isSome = true := by decide +kernel

theorem ok_appS : (appS.admitted 127 15 63 3 appendRecipe).isSome = true := by decide +kernel

theorem ok_lookS : (lookS.admitted 127 15 63 4 lookupRecipe).isSome = true := by decide +kernel

theorem ok_pubS : (pubS.admitted 127 15 63 5 publishPrefixRecipe).isSome = true := by decide +kernel

theorem ok_pinS : (pinS.admitted 127 15 63 6 pinRecipe).isSome = true := by decide +kernel

theorem ok_unpinS : (unpinS.admitted 127 15 63 7 unpinRecipe).isSome = true := by decide +kernel

theorem ok_migS : (migS.admitted 127 15 63 8 migrateRecipe).isSome = true := by decide +kernel

theorem ok_openS : (openS.admitted 127 15 63 0x10 openRecipe).isSome = true := by decide +kernel

theorem ok_closeS : (closeS.admitted 127 15 63 0x11 closeRecipe).isSome = true := by decide +kernel

theorem ok_extS : (extS.admitted 127 15 63 0x30 publishRun).isSome = true := by decide +kernel

theorem okc_attS : (State.cmd (Option.get _ ok_attS).1 (Ctx.ref (Option.get _ ok_attS).2)).isSome = true := by decide +kernel

theorem okc_att2S : (State.cmd (Option.get _ ok_att2S).1 (Ctx.ref (Option.get _ ok_att2S).2)).isSome = true := by decide +kernel

theorem okc_doomS : (State.cmd (Option.get _ ok_doomS).1 (Ctx.ref (Option.get _ ok_doomS).2)).isSome = true := by decide +kernel

theorem att2_deps : (Option.get _ okc_att2S).deps = [0] := by decide +kernel

theorem att2_cmd : State.cmd (Option.get _ ok_att2S).1 0 = some before := by decide +kernel

theorem att2_waits : ∃ d z, d ∈ (Option.get _ okc_att2S).deps ∧ State.cmd (Option.get _ ok_att2S).1 d = some z ∧ z.ended = false :=
  ⟨0, before, by rw [att2_deps]; exact List.mem_singleton.2 rfl, att2_cmd, rfl⟩

theorem att2_binds : (Option.get _ okc_att2S).binds = [0] := by decide +kernel

theorem att2_ok : ∀ d z, d ∈ (Option.get _ okc_att2S).binds → State.cmd (Option.get _ ok_att2S).1 d = some z → z.ended = true → z.failed = false := by
  intro d z hd hz he
  rw [att2_binds, List.mem_singleton] at hd
  rw [hd, att2_cmd] at hz
  cases hz
  cases he

theorem witness_StreamItemsEndOrWait :
    (∃ (p l r : Nat) (x : Cmd) (s u : State) (c : Ctx), s.admitted p l r 1 attendRecipe = some (u, c) ∧ u.cmd c.ref = some x ∧ x.deps = [] ∧ x.binds = [] ∧ x.doomed = false)
    ∧ (∃ (p l r : Nat) (x : Cmd) (s u : State) (c : Ctx), s.admitted p l r 1 attendRecipe = some (u, c) ∧ u.cmd c.ref = some x ∧ x.doomed = false ∧ (∃ d z, d ∈ x.deps ∧ u.cmd d = some z ∧ z.ended = false) ∧ (∀ d z, d ∈ x.binds → u.cmd d = some z → z.ended = true → z.failed = false))
    ∧ (∃ (p l r : Nat) (x : Cmd) (s u : State) (c : Ctx), s.admitted p l r 1 attendRecipe = some (u, c) ∧ u.cmd c.ref = some x ∧ (x.doomed = true ∨ ∃ d z, d ∈ x.binds ∧ u.cmd d = some z ∧ z.ended = true ∧ z.failed = true))
    ∧ (∃ (p l r : Nat) (s u : State) (c : Ctx), s.admitted p l r 2 bwdRecipe = some (u, c))
    ∧ (∃ (p l r : Nat) (s u : State) (c : Ctx), s.admitted p l r 3 appendRecipe = some (u, c) ∧ (∀ e, e ∈ u.cmds → ∀ d, e.2.work ≠ .attend d))
    ∧ (∃ (p l r : Nat) (s u : State) (c : Ctx), s.admitted p l r 4 lookupRecipe = some (u, c))
    ∧ (∃ (p l r : Nat) (s u : State) (c : Ctx), s.admitted p l r 5 publishPrefixRecipe = some (u, c))
    ∧ (∃ (p l r : Nat) (s u : State) (c : Ctx), s.admitted p l r 6 pinRecipe = some (u, c))
    ∧ (∃ (p l r : Nat) (s u : State) (c : Ctx), s.admitted p l r 7 unpinRecipe = some (u, c))
    ∧ (∃ (p l r : Nat) (s u : State) (c : Ctx), s.admitted p l r 8 migrateRecipe = some (u, c))
    ∧ (∃ (p l r : Nat) (s u : State) (c : Ctx), s.admitted p l r 0x10 openRecipe = some (u, c))
    ∧ (∃ (p l r : Nat) (s u : State) (c : Ctx), s.admitted p l r 0x11 closeRecipe = some (u, c))
    ∧ (∃ (p l r e st : Nat) (x : Extent) (ro : Bool) (s u : State) (c : Ctx), s.admitted p l r 0x30 publishRun = some (u, c) ∧ u.slotExt p l (field c.pay 8 8 / Config.extentBytes) = some (e, x, st, ro) ∧ (∀ z, z ∈ u.cmds → ∀ k, z.2.work ≠ .publish k) ∧ u.writes.any (fun w => w.eid == some e && w.src == .host p l) = true) :=
  ⟨⟨127, 15, 63, (Option.get _ okc_attS), attS, (Option.get _ ok_attS).1, (Option.get _ ok_attS).2, (get_pair ok_attS), (get_eq okc_attS), by decide +kernel⟩,
   ⟨127, 15, 63, (Option.get _ okc_att2S), att2S, (Option.get _ ok_att2S).1, (Option.get _ ok_att2S).2, (get_pair ok_att2S), (get_eq okc_att2S), by decide +kernel, att2_waits, att2_ok⟩,
   ⟨127, 15, 63, (Option.get _ okc_doomS), doomS, (Option.get _ ok_doomS).1, (Option.get _ ok_doomS).2, (get_pair ok_doomS), (get_eq okc_doomS), (Or.inl (by decide +kernel))⟩,
   ⟨127, 15, 63, bwdS, (Option.get _ ok_bwdS).1, (Option.get _ ok_bwdS).2, (get_pair ok_bwdS)⟩,
   ⟨127, 15, 63, appS, (Option.get _ ok_appS).1, (Option.get _ ok_appS).2, (get_pair ok_appS), (no_attend (by decide +kernel))⟩,
   ⟨127, 15, 63, lookS, (Option.get _ ok_lookS).1, (Option.get _ ok_lookS).2, (get_pair ok_lookS)⟩,
   ⟨127, 15, 63, pubS, (Option.get _ ok_pubS).1, (Option.get _ ok_pubS).2, (get_pair ok_pubS)⟩,
   ⟨127, 15, 63, pinS, (Option.get _ ok_pinS).1, (Option.get _ ok_pinS).2, (get_pair ok_pinS)⟩,
   ⟨127, 15, 63, unpinS, (Option.get _ ok_unpinS).1, (Option.get _ ok_unpinS).2, (get_pair ok_unpinS)⟩,
   ⟨127, 15, 63, migS, (Option.get _ ok_migS).1, (Option.get _ ok_migS).2, (get_pair ok_migS)⟩,
   ⟨127, 15, 63, openS, (Option.get _ ok_openS).1, (Option.get _ ok_openS).2, (get_pair ok_openS)⟩,
   ⟨127, 15, 63, closeS, (Option.get _ ok_closeS).1, (Option.get _ ok_closeS).2, (get_pair ok_closeS)⟩,
   ⟨127, 15, 63, 0, 2, { granted with ro := true }, true, extS, (Option.get _ ok_extS).1, (Option.get _ ok_extS).2, (get_pair ok_extS), by decide +kernel, (no_publish (by decide +kernel)), by decide +kernel⟩⟩

theorem witness_CommandEndsComplete :
    (∃ (cmd : Nat) (x : Cmd) (_resOk : Bool) (s : State), s.cmd cmd = some x ∧ x.ended = true ∧ s.warm = false ∧ (∀ e, e ∈ s.lines → e.2.obj = none) ∧ s.unseen = false ∧ s.writesLeft x = false ∧ (∀ e, e ∈ s.cmds → (∀ b, e.2.work ≠ .ordered b) ∧ ∀ d, e.2.work ≠ .attend d))
    ∧ (∃ (cmd : Nat) (x : Cmd) (_resOk _recOk : Bool) (s : State), s.cmd cmd = some x ∧ x.ended = true ∧ s.warm = false ∧ (s.unseen = true ∨ s.writesLeft x = true) ∧ (∀ e, e ∈ s.lines → e.2.obj = none))
    ∧ (∃ (cmd : Nat) (x : Cmd) (resOk : Bool) (s : State), s.cmd cmd = some x ∧ x.ended = true ∧ s.warm = false ∧ (∀ e, e ∈ s.lines → e.2.obj = none) ∧ s.unseen = false ∧ s.writesLeft x = false ∧ (∀ e, e ∈ s.cmds → (∀ b, e.2.work ≠ .ordered b) ∧ ∀ d, e.2.work ≠ .attend d) ∧ x.recipe = 3 ∧ (x.outcome resOk).1 ≠ stOK)
    ∧ (∃ (m : Mirror) (s : State), m.epoch < s.epoch)
    ∧ (∃ (m : Mirror) (s : State), s.epoch < m.epoch)
    ∧ (∃ (m : Mirror) (h : Home) (x : Seq) (s : State), m.epoch = s.epoch ∧ s.homeOf (seqPos m.fabTag m.seqId) = some h ∧ h.dev = m.owner ∧ h.partner = some s.devId ∧ s.seq m.fabTag m.seqId = some x ∧ x.key = seqKey m.fabTag m.seqId ∧ x.partnerOf = none ∧ x.st ≠ 3 ∧ x.ownerEpoch < m.epoch)
    ∧ (∃ (m : Mirror) (h : Home) (x : Seq) (s : State), m.epoch = s.epoch ∧ s.homeOf (seqPos m.fabTag m.seqId) = some h ∧ h.dev = m.owner ∧ h.partner = some s.devId ∧ s.seq m.fabTag m.seqId = some x ∧ x.partnerOf = some m.owner ∧ x.key = seqKey m.fabTag m.seqId ∧ m.slot = 0)
    ∧ (∃ (cmd item page : Nat) (q : PendItem) (x : Seq) (s : State), s.pend.find? (fun y => y.cmd == cmd && y.item == item) = some q ∧ Table.find s.seqs q.seq = some x ∧ x.key = q.seq ∧ (∀ e, e ∈ s.cmds → ∀ d, e.2.work ≠ .attend d) ∧ (∀ b, b ∈ q.blocks → ∃ g sh, Table.find x.blocks b = some (g, sh) ∧ pageId g q.member = page))
    ∧ (∃ (cmd item : Nat) (q : PendItem) (x : Cmd) (s : State), s.pend.find? (fun y => y.cmd == cmd && y.item == item) = some q ∧ s.cmd cmd = some x ∧ x.items[item]? = some none ∧ (∀ e, e ∈ s.cmds → ∀ d, e.2.work ≠ .attend d))
    ∧ (∃ (k fabTag seqId : Nat) (x : Seq) (l : List Nat) (s : State), (k, x) ∈ s.seqs ∧ x.fabTag = fabTag ∧ x.id = seqId ∧ x.closing = some l ∧ (∀ r, r ∈ l → s.cmd r = none) ∧ (∀ e, e ∈ s.seqs → e.2.fabTag = fabTag → e.2.id = seqId → e.2.closing.isSome = true → e = (k, x))) :=
  ⟨⟨5, endedCmd, true, { onS with cmds := [(5, endedCmd)] }, by decide +kernel, by decide +kernel, (by decide +kernel), by decide +kernel, by decide +kernel, (by decide +kernel), (fun e he => ⟨no_ordered (by decide +kernel) e he, no_attend (by decide +kernel) e he⟩)⟩,
   ⟨5, endedCmd, true, true, { onS with cmds := [(5, endedCmd)], lines := [(9, { txn := some { kind := 2, agent := 0, waitHosts := [(127, 15, 0, 1)], bytes := some (zeros 64) } })] }, by decide +kernel⟩,
   ⟨5, { endedCmd with recipe := 3, items := [some 1] }, true, { onS with cmds := [(5, { endedCmd with recipe := 3, items := [some 1] })] }, by decide +kernel, by decide +kernel, (by decide +kernel), by decide +kernel, by decide +kernel, (by decide +kernel), (fun e he => ⟨no_ordered (by decide +kernel) e he, no_attend (by decide +kernel) e he⟩), by decide +kernel⟩,
   ⟨{ owner := 1, epoch := 1, fabTag := 1, seqId := 2, layer := 0, head := 0, block := 0, group := 9, slot := 0, pos := [], sum := [] }, mapS, by decide +kernel⟩,
   ⟨({ owner := 1, epoch := 3, fabTag := 1, seqId := 2, layer := 0, head := 0, block := 0, group := 9, slot := 0, pos := [], sum := [] }), mapS, by decide +kernel⟩,
   ⟨{ owner := 1, epoch := 2, fabTag := 1, seqId := 2, layer := 0, head := 0, block := 0, group := 9, slot := 0, pos := [], sum := [] }, { dev := 1, die := 0, partner := some 0 }, seq1, { mapS with seqs := [(seqKey 1 2, seq1)] }, by decide +kernel⟩,
   ⟨{ owner := 1, epoch := 2, fabTag := 1, seqId := 2, layer := 0, head := 0, block := 0, group := 9, slot := 0, pos := [], sum := [] }, { dev := 1, die := 0, partner := some 0 }, { seq1 with partnerOf := some 1 }, { mapS with seqs := [(seqKey 1 2, { seq1 with partnerOf := some 1 })] }, by decide +kernel⟩,
   ⟨5, 0, pageId 9 0, pend1, seq1, { onS with pend := [pend1], seqs := [(seqKey 1 2, seq1)] }, by decide +kernel, by decide +kernel, (by decide +kernel), (no_attend (by decide +kernel)), (fun b hb => ⟨9, false, by rw [List.mem_singleton.1 hb]; decide +kernel⟩)⟩,
   ⟨5, 0, pend1, { workCmd with work := .append }, { onS with pend := [pend1], cmds := [(5, { workCmd with work := .append })] }, by decide +kernel, by decide +kernel, (by decide +kernel), (no_attend (by decide +kernel))⟩,
   ⟨7, 1, 2, { seq1 with gen := 1, closing := some [3] }, [3], { onS with seqs := [(7, { seq1 with gen := 1, closing := some [3] })] }, (List.mem_singleton.2 rfl), by decide +kernel⟩⟩

theorem witness_PageCommandsComplete :
    (∃ (gid m : Nat) (y z : Page) (s : State), s.obj 0x7000 5 * s.tierCap 1 < s.tierStored 1 * 100 ∧ s.obj 0x7000 6 * s.tierCap 1 < (s.tierStored 1 - s.outbound 1) * 100 ∧ oldestPage (s.demotable 1) = some (gid, m, y) ∧ s.page gid m = some z ∧ s.tierCap 2 ≠ 0 ∧ s.tierStored 2 + s.inbound 2 + y.bytes ≤ s.tierCap 2)
    ∧ (∃ (page u : Nat) (g : Group) (y : Page) (s : State), s.nvmeWaits page = false ∧ s.group (page / 65536) = some g ∧ s.page (page / 65536) (page % 65536) = some y ∧ y.moving = some u ∧ y.recode = none ∧ y.after = none ∧ g.spillLeft.contains (page % 65536) = false ∧ (y.home u = true ∨ s.tierRoom g.tenant u y.bytes = true) ∧ (∀ h, h ∈ s.heldMoves → h.1 = g.tenant → h.2 = page) ∧ (s.take g.tenant 6 ((s.dieOfGroup (page / 65536)).getD 0) y.bytes).1 = true)
    ∧ (∃ (page : Nat) (g : Group) (y : Page) (s : State), s.group (page / 65536) = some g ∧ s.page (page / 65536) (page % 65536) = some y ∧ y.home 1 = true)
    ∧ (∃ (page : Nat) (_revoked : Bool) (g : Group) (y : Page) (s : State), s.group (page / 65536) = some g ∧ s.page (page / 65536) (page % 65536) = some y ∧ y.t3.isSome = true)
    ∧ (∃ (page gen : Nat) (g : Group) (y : Page) (s : State), s.group (page / 65536) = some g ∧ s.page (page / 65536) (page % 65536) = some y ∧ y.sealed = true ∧ y.queued = true ∧ s.codeGen g.tenant (setOf g.shape) = some gen)
    ∧ (∃ (tenant ps : Nat) (s : State), s.palMode tenant = 2 ∧ s.obj 0x7500 2 ≤ (s.pset tenant ps).count)
    ∧ (∃ (die gid m gen : Nat) (rest : List (Nat × Nat)) (g : Group) (y : Page) (s : State), s.obj 0x7500 4 ≠ 0 ∧ s.dieUp die = true ∧ s.sweepList die = (gid, m) :: rest ∧ s.group gid = some g ∧ s.page gid m = some y ∧ gen = (s.codeGen g.tenant (setOf g.shape)).getD 0 ∧ y.gen ≠ gen ∧ y.home 4 = true)
    ∧ (∃ (die gid m gen : Nat) (rest : List (Nat × Nat)) (g : Group) (y : Page) (s u : State), s.obj 0x7500 4 ≠ 0 ∧ s.dieUp die = true ∧ s.sweepList die = (gid, m) :: rest ∧ s.group gid = some g ∧ s.page gid m = some y ∧ gen = (s.codeGen g.tenant (setOf g.shape)).getD 0 ∧ y.gen ≠ gen ∧ y.home 4 = false ∧ y.after = none ∧ m < 65536 ∧ g.spillLeft.contains m = false ∧ (∀ h, h ∈ s.heldMoves → h.1 = g.tenant → h.2 = pageId gid m) ∧ u = s.atTime (s.rel.sweptAt + ceilDiv 1000000000 (s.obj 0x7500 4)) ∧ (u.take g.tenant 6 ((s.dieOfGroup gid).getD 0) y.bytes).1 = true)
    ∧ (∃ (q : Nat) (tile : Tile) (s : State), (s.peerP q).st = 4 ∧ tileOk tile = false)
    ∧ (∃ (q c : Nat) (x : Cmd) (tile : Tile) (s : State), (s.peerP q).st = 4 ∧ tileOk tile = true ∧ (tileHdr tile.hdr).kind ≠ 0xA ∧ (tileHdr tile.hdr).kind ≠ 1 ∧ (tileHdr tile.hdr).coded = false ∧ (tileHdr tile.hdr).poison = false ∧ s.cmd c = some x ∧ x.takesTile tile = true ∧ (s.cmds.filter (fun e => e.1 % 2 ^ 20 == (tileHdr tile.hdr).ref)).map Prod.fst = [c])
    ∧ (∃ (q c : Nat) (x : Cmd) (tile : Tile) (s : State), (s.peerP q).st = 4 ∧ tileOk tile = true ∧ (tileHdr tile.hdr).kind ≠ 0xA ∧ (tileHdr tile.hdr).kind ≠ 1 ∧ (tileHdr tile.hdr).coded = false ∧ (tileHdr tile.hdr).poison = true ∧ s.cmd c = some x ∧ x.takesTile tile = true ∧ x.items[(tileHdr tile.hdr).item]? = some none ∧ (s.cmds.filter (fun e => e.1 % 2 ^ 20 == (tileHdr tile.hdr).ref)).map Prod.fst = [c])
    ∧ (∃ (q c : Nat) (x : Cmd) (tile : Tile) (s : State), (s.peerP q).st = 4 ∧ tileOk tile = true ∧ (tileHdr tile.hdr).kind ≠ 1 ∧ s.cmd c = some x ∧ x.refused = none ∧ x.whole = none ∧ x.ended = false ∧ (x.takesTile tile = false ∨ ((tileHdr tile.hdr).coded = true ∧ Table.find x.pals (tileHdr tile.hdr).slot = none)) ∧ (s.cmds.filter (fun e => e.1 % 2 ^ 20 == (tileHdr tile.hdr).ref)).map Prod.fst = [c])
    ∧ (∃ (q d gid m : Nat) (g : Group) (y : Page) (tile : Tile) (s : State), (s.peerP q).st = 4 ∧ tileOk tile = true ∧ (tileHdr tile.hdr).kind = 1 ∧ (s.peerP q).peerDev = some d ∧ gid = (tileHdr tile.hdr).key / 65536 ∧ m = (tileHdr tile.hdr).key % 65536 ∧ s.group gid = some g ∧ s.page gid m = some y ∧ y.away = none ∧ y.readTier ≠ none ∧ (s.copyIn y (y.readTier.getD y.tier)).gen = 0) :=
  ⟨⟨9, 3, page1, page1, { pagesS page1 with rel := { dies := 0 } }, by decide +kernel⟩,
   ⟨pageId 9 3, 2, gr page1m, page1m, pagesS page1m, by decide +kernel⟩,
   ⟨pageId 9 3, gr page1, page1, pagesS page1, by decide +kernel⟩,
   ⟨pageId 9 3, true, gr { page1 with t3 := some { place := 1, granules := 1 } }, { page1 with t3 := some { place := 1, granules := 1 } }, pagesS { page1 with t3 := some { place := 1, granules := 1 } }, by decide +kernel⟩,
   ⟨pageId 9 3, 0, gr { page1 with queued := true }, { page1 with queued := true }, pagesS { page1 with queued := true }, by decide +kernel⟩,
   ⟨4095, 8, { onS.setObjI 0x7400 2 4095 2 with psets := [(psKey 4095 8, { count := 2 ^ 20 })] }, by decide +kernel⟩,
   ⟨0, 9, 3, 0, [], gr { page1 with tier := 4, gen := 255, slot := 7 }, { page1 with tier := 4, gen := 255, slot := 7 }, (pagesS { page1 with tier := 4, gen := 255, slot := 7 }).setObj 0x7500 4 1, by decide +kernel⟩,
   ⟨0, 9, 3, 0, [], gr { page1 with gen := 255, slot := 7 }, { page1 with gen := 255, slot := 7 }, (pagesS { page1 with gen := 255, slot := 7 }).setObj 0x7500 4 1, _, by decide +kernel, by decide +kernel, (by decide +kernel), by decide +kernel, by decide +kernel, (by decide +kernel), by decide +kernel, by decide +kernel, (by decide +kernel), by decide +kernel, by decide +kernel, (by decide +kernel), rfl, by decide +kernel⟩,
   ⟨63, { hdr := [], data := [] }, peerUp, by decide +kernel⟩,
   ⟨63, 5, workCmd, tileOf { tileHead with poison := false }, { peerUp with cmds := [(5, workCmd)] }, by decide +kernel⟩,
   ⟨63, 5, workCmd, tileOf { tileHead with poison := true }, { peerUp with cmds := [(5, workCmd)] }, by decide +kernel⟩,
   ⟨63, 5, workCmd, tileOf { tileHead with tenant := 1 }, { peerUp with cmds := [(5, workCmd)] }, by decide +kernel⟩,
   ⟨63, 5, 9, 3, gr page1, page1, tileOf { tileHead with kind := 1, key := pageId 9 3 }, { link 63 { st := 4, peerDev := some 5 } onS with groups := [(9, gr page1)] }, by decide +kernel⟩⟩

theorem witness_FabricMapComplete :
    (∃ (m : FMap) (s : State), s.fmap.map = some m)
    ∧ (∃ (q : Nat) (m : FMap) (_r : Option Nat) (s : State), (s.peerP q).st = 4 ∧ (∀ o, s.fmap.map = some o → o.epoch < m.epoch ∨ (o.epoch = m.epoch ∧ m.proposer < o.proposer)))
    ∧ (∃ (q : Nat) (m o : FMap) (s : State), (s.peerP q).st = 4 ∧ s.fmap.map = some o ∧ (m.epoch < o.epoch ∨ (m.epoch = o.epoch ∧ o.proposer ≤ m.proposer)))
    ∧ (∃ (dev at_ : Nat) (m : FMap) (s : State), Table.find s.fmap.lostAt dev = some at_ ∧ s.fmap.map = some m ∧ s.fmap.member = true ∧ m.members.any (fun v => v.dev == dev) = true ∧ dev ≠ s.devId ∧ s.reaches dev = false)
    ∧ (∃ (_src : Nat) (_seqs : List SeqImage) (es : List PrefixImage) (e : PrefixImage) (h : Home) (s : State), s.fmap.member = true ∧ e ∈ es ∧ s.homeOf (keyPos e.key) = some h ∧ h.dev = s.devId)
    ∧ (∃ (_src : Nat) (im : SeqImage) (h : Home) (s : State), s.fmap.member = true ∧ s.homeOf (seqPos im.fabTag im.seqId) = some h ∧ h.dev = s.devId ∧ s.seq im.fabTag im.seqId = none ∧ im.missing = 0 ∧ s.fmap.heldMirrors = [])
    ∧ (∃ (src : Nat) (s : State), (∃ h, h ∈ s.fmap.handoffs ∧ h.dev = src))
    ∧ (∃ (src : Nat) (s : State), (∀ h, h ∈ s.fmap.handoffs → h.dev ≠ src))
    ∧ (∃ (h : Handoff) (rest : List Handoff) (m : FMap) (k : Nat) (x : Seq) (r : Nat × Nat) (s : State), s.fmap.handoffs = h :: rest ∧ s.fmap.map = some m ∧ (∀ y, y ∈ rest → h.at_ ≤ y.at_) ∧ k ∈ h.seqs ∧ Table.find s.seqs k = some x ∧ x.st = 2 ∧ r ∈ h.ranges ∧ r.1 ≤ seqPos x.fabTag x.id ∧ seqPos x.fabTag x.id ≤ r.2)
    ∧ (∃ (fabTag seqId : Nat) (x : Seq) (s : State), s.seq fabTag seqId = some x ∧ x.key = seqKey fabTag seqId ∧ x.partnerOf = none ∧ x.copy = 1)
    ∧ (∃ (gid : Nat) (g : Group) (s : State), s.group gid = some g ∧ g.shared = true)
    ∧ (∃ (gid : Nat) (g : Group) (s : State), s.group gid = some g ∧ g.shared = true)
    ∧ (∃ (gid : Nat) (g : Group) (s : State), s.group gid = some g ∧ g.shared = false ∧ (∀ k x b, (k, x) ∈ s.seqs → b ∈ x.blocks → b.2.1 ≠ gid))
    ∧ (∃ (_gid domain : Nat) (key _digest : Bytes) (h : Home) (s : State), s.fmap.member = true ∧ s.homeOf (keyPos key) = some h ∧ h.dev = s.devId ∧ (∀ e, e ∈ s.prefixes → ¬ (e.key = key ∧ e.domain = domain)))
    ∧ (∃ (m : FMap) (s : State), s.rel.admission = 4 ∧ s.assigned = true ∧ s.fmap.map = some m)
    ∧ (∃ s : State, s.rel.admission ≠ 4 ∧ s.fmap.member = false) :=
  ⟨⟨map2, mapS, by decide +kernel⟩,
   ⟨63, map2, none, peerUp, by decide +kernel, (fun _ h => nomatch h)⟩,
   ⟨63, { map2 with epoch := 1 }, map2, { peerUp with fmap := { map := some map2, member := true } }, by decide +kernel⟩,
   ⟨1, 0, map2, { mapS with fmap := { map := some map2, member := true, lostAt := [(1, 0)] } }, by decide +kernel⟩,
   ⟨1, [], [{ key := zeros 32, gid := 9, domain := 0, digest := zeros 32 }], { key := zeros 32, gid := 9, domain := 0, digest := zeros 32 }, { dev := 0, die := 0, partner := none }, aloneS, by decide +kernel⟩,
   ⟨1, image1, { dev := 0, die := 0, partner := none }, aloneS, by decide +kernel⟩,
   ⟨1, { aloneS with fmap := { aloneS.fmap with handoffs := [handoff1] } }, ⟨handoff1, List.mem_singleton.2 rfl, rfl⟩⟩,
   ⟨1, aloneS, by decide +kernel⟩,
   ⟨handoff1, [], map2, seqKey 1 2, { seq1 with st := 2 }, (0, 4294967295), { mapS with fmap := { mapS.fmap with handoffs := [handoff1] }, seqs := [(seqKey 1 2, { seq1 with st := 2 })] }, by decide +kernel⟩,
   ⟨1, 2, { seq1 with copy := 1 }, { onS with seqs := [(seqKey 1 2, { seq1 with copy := 1 })] }, by decide +kernel⟩,
   ⟨9, { gr page1 with shared := true }, { onS with groups := [(9, { gr page1 with shared := true })] }, by decide +kernel⟩,
   ⟨9, { gr page1 with shared := true }, { onS with groups := [(9, { gr page1 with shared := true })] }, by decide +kernel⟩,
   ⟨9, gr page1, { onS with groups := [(9, gr page1)] }, by decide +kernel, by decide +kernel, (fun _ _ _ h => nomatch h)⟩,
   ⟨9, 0, zeros 32, zeros 32, { dev := 0, die := 0, partner := none }, aloneS, by decide +kernel⟩,
   ⟨map2, { mapS.setObj 0x1000 5 0x8002 with rel := { admission := 4 } }, by decide +kernel⟩,
   ⟨onS, by decide +kernel⟩⟩

theorem witness_TenantCommandsComplete :
    (∃ (sid : Nat) (s : State), MayWrite s sid 0x4400 2 ∧ s.tOn s.tenantSel = false ∧ s.sec.debugOpen = false ∧ s.tObj s.tenantSel 4 ≠ 0 ∧ (s.tObj s.tenantSel 3 = 1 → s.strictFits s.tenantSel = true))
    ∧ (∃ (sid : Nat) (s : State), MayWrite s sid 0x4400 2 ∧ s.tOn s.tenantSel = false ∧ s.sec.debugOpen = false ∧ s.tObj s.tenantSel 4 ≠ 0 ∧ s.tObj s.tenantSel 3 = 1 ∧ s.strictFits s.tenantSel = false)
    ∧ (∃ (sid : Nat) (s : State), MayWrite s sid 0x4400 2)
    ∧ (∃ s : State, s.heldAcc = [] ∧ s.heldTiles = [] ∧ s.heldMoves = [])
    ∧ (∃ (sid sub v : Nat) (r : ORow) (s : State), 1 ≤ sub ∧ sub ≤ 10 ∧ MayWrite s sid 0x4410 sub ∧ objRow 0x4410 sub = some r ∧ r.vals.ok v = true)
    ∧ (∃ (sid p l : Nat) (s : State), p < 128 ∧ l < 16 ∧ MayWrite s sid (0x5400 + p) (8 * l + 1) ∧ s.ldOn p l = false ∧ s.sec.debugOpen = false ∧ s.mixesStrict p l = false)
    ∧ (∃ (sid p l : Nat) (s : State), p < 128 ∧ l < 16 ∧ MayWrite s sid (0x5400 + p) (8 * l + 1) ∧ s.ldOn p l = true) :=
  ⟨⟨1, onS.setObjI 0x4400 4 0 7, ⟨_, rfl, rfl, rfl⟩, by decide +kernel⟩,
   ⟨1, (onS.setObjI 0x4400 4 0 7).setObjI 0x4400 3 0 1, ⟨_, rfl, rfl, rfl⟩, by decide +kernel⟩,
   ⟨1, onS, ⟨_, rfl, rfl, rfl⟩⟩,
   ⟨onS, by decide +kernel⟩,
   ⟨1, 10, 256, (objRow 0x4410 10).get (by decide +kernel), onS, by decide +kernel, by decide +kernel, ⟨_, rfl, rfl, rfl⟩, (get_eq _), by decide +kernel⟩,
   ⟨1, 127, 15, onS, by decide +kernel, by decide +kernel, ⟨_, rfl, rfl, rfl⟩, by decide +kernel⟩,
   ⟨1, 127, 15, ldS, by decide +kernel, by decide +kernel, ⟨_, rfl, rfl, rfl⟩, by decide +kernel⟩⟩

/-- One nonce stands for a write of `val` to `idx.sub`, and slot 1 holds a certificate. -/
def nonce1 (idx sub : Nat) (val : Bytes) (all : Bool) : Nonce :=
  { id := 1, val := zeros 16, idx := idx, sub := sub, value := val, all := all, need := 1, must := [1], signers := [], issued := 0 }

def signS (b : State) (more : Table Bytes) (idx sub : Nat) (val : Bytes) (all : Bool) : State :=
  { b with sess := [(1, { port := 0, slot := 0, digest := [], lastRx := 0 })], blobs := (okey 0x8100 1, [0x30#8]) :: more,
           sec := { b.sec with nonces := [nonce1 idx sub val all] } }

/-- The signature of slot 1 over that nonce. -/
def sig1 (b : State) (more : Table Bytes) (idx sub : Nat) (val : Bytes) (all : Bool) : Bytes :=
  Config.goodSig [0x30#8] ((signS b more idx sub val all).quorumDigest (zeros 16) idx sub val)

theorem signS_signed (b : State) (more : Table Bytes) (idx sub : Nat) (val : Bytes) (all : Bool) (hr : b.resets = []) (ht : b.tb.now = 0) :
    Signed (signS b more idx sub val all) 1 1 1 (sig1 b more idx sub val all) idx sub val all := by
  refine ⟨⟨_, rfl, rfl⟩, by simp [signS, State.scopeBusy, hr], nonce1 idx sub val all, { nonce1 idx sub val all with signers := [1] }, rfl, ?_,
    rfl, rfl, rfl, rfl, ?_⟩
  · intro y hy _
    exact List.mem_singleton.1 hy
  · have hm : (signS b more idx sub val all).manager 1 = [0x30#8] := rfl
    have hn : (signS b more idx sub val all).now = 0 := ht
    have hs : (signS b more idx sub val all).sec.nonces = [nonce1 idx sub val all] := rfl
    have hg : Config.sigOk [0x30#8] ((signS b more idx sub val all).quorumDigest (zeros 16) idx sub val) (sig1 b more idx sub val all) = true := by
      simp [Config.sigOk, sig1]
    cases all <;> simp [State.judge, hs, hm, hn, hg, nonce1, Nonce.expired, Nonce.done]

theorem objI_default (s : State) (h : s.objs = []) (idx sub i : Nat) : s.objI idx sub i = objDefault (okey idx sub) := by
  have hk : ikey (okey idx sub) i % 2 ^ 24 / 256 = okey idx sub % 2 ^ 24 / 256 := by unfold ikey; omega
  have hl : ikey (okey idx sub) i % 256 = okey idx sub % 256 := by unfold ikey; omega
  rw [State.objI, State.objK, h, Table.get, Table.find, Option.getD_none, objDefault, objDefault, keyRow, keyRow, hk, hl]

theorem cert_length : Config.sampleCert.length = 512 := by simp [Config.sampleCert]

theorem cert_ne : Config.sampleCert ≠ [] := fun h => absurd (h ▸ cert_length) (by decide)

theorem cert_ok : Config.isP384Cert Config.sampleCert = true := by simp [Config.isP384Cert]

theorem cert_new : (signS onS [] 0x8100 19 (Config.sampleCert) false).managers.any (fun k => (signS onS [] 0x8100 19 (Config.sampleCert) false).manager k == Config.sampleCert) = false := by
  have hm : (signS onS [] 0x8100 19 (Config.sampleCert) false).managers = [1] := by decide +kernel
  have h1 : (signS onS [] 0x8100 19 (Config.sampleCert) false).manager 1 = [0x30#8] := rfl
  have hn : [0x30#8] ≠ Config.sampleCert := fun h => absurd (h ▸ cert_length) (by decide)
  simp [hm, h1, hn]

theorem chain_ok : Config.leafIsSlot1 Config.sampleChain = true := by simp [Config.leafIsSlot1]

/-- A claim window is open, and its session stands. -/
def claimS : State :=
  { onS with sess := [(1, { port := 0, conf := true, slot := 0, digest := [], lastRx := 0, claim := true })], sec := { claim := some 42000000 } }

theorem cert_first : claimS.managers.any (fun k => claimS.manager k == Config.sampleCert) = false := by
  have hm : claimS.managers = [] := by decide +kernel
  simp [hm]

theorem no_tenants {s : State} (ho : s.objs = []) (hc : s.cmds = []) (h2 : objDefault (okey 0x4400 2) ≠ 1) :
    ∀ u, s.tOn u = false ∧ s.tBusy u = false := by
  intro u
  constructor
  · rw [State.tOn, State.tObj, objI_default s ho]
    simpa using h2
  · rw [State.tBusy, hc]
    rfl

theorem no_tenant {s : State} (d : Nat) (ho : s.objs = []) (hc : s.cmds = []) (h2 : objDefault (okey 0x4400 2) ≠ 1) : ∀ u, (s.tOn u = true ∨ s.tBusy u = true) → s.tDomain u ≠ some d := by
  intro u h
  have := no_tenants ho hc h2 u
  rw [this.1, this.2] at h
  cases h with
  | inl h => cases h
  | inr h => cases h

theorem rowsC_bit15 : ∀ r ∈ rowsC, bit r.dflt 15 = true → 0 < r.stride ∧ r.base + r.n * r.stride ≤ 0x5400 := by decide +kernel

theorem ld_default (p : Nat) (hp : p < 128) (l : Nat) (hl : l < 16) : bit (objDefault (okey (0x5400 + p) (8 * l + 2))) 15 = false := by
  have h1 : okey (0x5400 + p) (8 * l + 2) % 2 ^ 24 / 256 = 0x5400 + p := by unfold okey; omega
  have h2 : okey (0x5400 + p) (8 * l + 2) % 256 = 8 * l + 2 := by unfold okey; omega
  have h3 : rowsFor (0x5400 + p) = rowsC := by
    unfold rowsFor
    rw [if_neg (by omega), if_neg (by omega), if_neg (by omega), if_neg (by omega), if_pos (by omega)]
  rw [objDefault, keyRow, h1, h2, objRow, h3]
  cases hf : rowsC.find? (fun r => r.has (0x5400 + p) (8 * l + 2)) with
  | none => decide
  | some r =>
    cases hb : bit r.dflt 15 with
    | false => rfl
    | true =>
      obtain ⟨hs, hr⟩ := rowsC_bit15 r (List.mem_of_find?_eq_some hf) hb
      have hh := List.find?_some hf
      simp only [ORow.has, Bool.and_eq_true, decide_eq_true_eq] at hh
      have := (Nat.div_lt_iff_lt_mul hs).1 hh.1.1.1.2
      omega

theorem unbound {s : State} (ho : s.objs = []) {u : Nat} : ∀ p l, p < 128 → l < 16 → s.ldTenant p l ≠ some u := by
  intro p l hp hl
  have h : s.ldObj p l 2 = objDefault (okey (0x5400 + p) (8 * l + 2)) := by
    rw [State.ldObj, State.obj, State.objK, ho, Table.get, Table.find, Option.getD_none]
  rw [State.ldTenant, h, ld_default p hp l hl]
  exact fun h => nomatch h

/-- The TDI of logical device 15 of port 127 in a state, with an SPDM session. -/
def tdS (n : Nat) : State := { ldS with lds := [(ldKey 127 15, { tdi := n })], sec := { spdm := [(.host 127 0, { stage := 6 })] } }

/-- Its tenant is enabled, and Link IDE and a selective stream are up. -/
def lockS : State :=
  { ((tdS 0).setObjI 0x4400 2 4095 1).setObjI 0x4400 3 4095 1 with
    sec := { spdm := [(.host 127 0, { stage := 6 })], ide := [(8 * 127, { up := true }), (8 * 127 + 4, { up := true, function1 := true })] } }

def dbgS : State := { onS with pw := { onS.pw with dbgEn := true } }

/-- A fabric map of devices 0 and 1. -/
def mapPair : FMap :=
  { epoch := 2, proposer := 0, members := [{ dev := 0, group := 0, dies := 1 }, { dev := 1, group := 1, dies := 1 }], overrides := [] }

def mapPairS : State := { onS with fmap := { map := some mapPair, member := true } }

def openCmd : Cmd :=
  { p := 127, l := 15, r := 63, tenant := 4095, recipe := 1, rid := 1, hdr := [], pay := [], sqHead := 0, cq := 0, at_ := 0, items := [none] }

def vote1 : Vote := { cmd := 5, item := 0, e1 := 415, e2 := 0, e3 := 52 }

def engS (x : Engine) : State := { onS with rel := { engines := [(415, x)] } }

theorem witness_TdispMessagesComplete :
    (∃ (p l : Nat) (s : State), s.tdispOn p l = true)
    ∧ (∃ (p l : Nat) (s : State), s.tdispOn p l = true)
    ∧ (∃ (p l : Nat) (s : State), s.tdispOn p l = true ∧ (s.ld p l).tdi = 0 ∧ s.lockable p l = true)
    ∧ (∃ (p l : Nat) (s : State), s.tdispOn p l = true ∧ (s.ld p l).tdi = 0 ∧ s.lockable p l = false)
    ∧ (∃ (p l u : Nat) (s : State), s.tdispOn p l = true ∧ s.ldTenant p l = some u ∧ ((s.ld p l).tdi = 1 ∨ (s.ld p l).tdi = 2))
    ∧ (∃ (p l : Nat) (s : State), s.tdispOn p l = true)
    ∧ (∃ (p l : Nat) (s : State), s.tdispOn p l = true ∧ (s.ld p l).tdi = 1)
    ∧ (∃ (p l : Nat) (s : State), s.tdispOn p l = true ∧ (s.ld p l).tdi ≠ 1)
    ∧ (∃ (p l : Nat) (s : State), s.tdispOn p l = true)
    ∧ (∃ (p l : Nat) (s : State), p < 128 ∧ l < 16 ∧ ((s.ld p l).tdi = 1 ∨ (s.ld p l).tdi = 2))
    ∧ (∃ (p k l : Nat) (s : State), p < 128 ∧ k ≤ 4 ∧ l < 16 ∧ s.ideUp p k = true ∧ (k = 0 ∨ (Table.get s.sec.ide {} (8 * p + k)).function1 = true) ∧ ((s.ld p l).tdi = 1 ∨ (s.ld p l).tdi = 2))
    ∧ (∃ (p stream k : Nat) (_key : IdeKey) (s : State), s.tdispOn p 0 = true ∧ stream ≤ 4 ∧ k < 2)
    ∧ (∃ (p stream : Nat) (key : Bytes) (s : State), s.tdispOn p 0 = true ∧ stream ≤ 4 ∧ (Table.get s.sec.ide {} (8 * p + stream)).up = false ∧ Table.find (Table.get s.sec.ide {} (8 * p + stream)).keys 0 = some key) :=
  ⟨⟨127, 15, tdS 0, by decide +kernel⟩,
   ⟨127, 15, tdS 3, by decide +kernel⟩,
   ⟨127, 15, lockS, by decide +kernel⟩,
   ⟨127, 15, tdS 0, by decide +kernel⟩,
   ⟨127, 15, 4095, tdS 2, by decide +kernel⟩,
   ⟨127, 15, tdS 1, by decide +kernel⟩,
   ⟨127, 15, tdS 1, by decide +kernel⟩,
   ⟨127, 15, tdS 0, by decide +kernel⟩,
   ⟨127, 15, tdS 3, by decide +kernel⟩,
   ⟨127, 15, tdS 2, by decide +kernel⟩,
   ⟨127, 4, 15, { tdS 2 with sec := { ide := [(8 * 127 + 4, { up := true, function1 := true })] } }, by decide +kernel⟩,
   ⟨127, 4, 1, { bytes := [7] }, tdS 0, by decide +kernel⟩,
   ⟨127, 4, [7], { tdS 0 with sec := { spdm := [(.host 127 0, { stage := 6 })], ide := [(8 * 127 + 4, { keys := [(0, [7])] })] } }, by decide +kernel⟩⟩

theorem witness_QuorumRowsApply :
    (∃ (i : Instr) (sid idx sub nonce slot : Nat) (okv : Nat → Bool) (sig val : Bytes) (all : Bool) (s : State), quorumRowOf i = some (sid, idx, sub, okv, .signed nonce slot sig) ∧ okv (leNat val) = true ∧ Signed s sid nonce slot sig idx sub val all)
    ∧ (∃ (i : Instr) (sid idx sub : Nat) (okv : Nat → Bool) (val : Bytes) (x : Sess) (s : State), quorumRowOf i = some (sid, idx, sub, okv, .claim val) ∧ okv (leNat val) = true ∧ Table.find s.sess sid = some x ∧ x.claim = false ∧ s.lockFor idx sub (leNat val) = false) :=
  ⟨⟨.resetModule 1 (.signed 1 1 (sig1 onS [] 0xB000 1 (leBytes 4 1) true)), 1, 0xB000, 1, 1, 1, fun v => v % 16 == 1, sig1 onS [] 0xB000 1 (leBytes 4 1) true, leBytes 4 1, true, signS onS [] 0xB000 1 (leBytes 4 1) true, rfl, rfl, (signS_signed _ _ _ _ _ _ rfl rfl)⟩,
   ⟨.powerD3 1 (.claim (leBytes 2 3)), 1, 0xB010, 2, fun v => v % 4 == 3, leBytes 2 3, { port := 0, slot := 0, digest := [], lastRx := 0 }, onS, rfl, by decide +kernel⟩⟩

theorem witness_SecurityCommandsComplete :
    (∃ (sid nonce slot i : Nat) (sig b : Bytes) (all : Bool) (s : State), Signed s sid nonce slot sig 0x8100 19 b all ∧ s.locked 8 = false ∧ b ≠ [] ∧ Config.isP384Cert b = true ∧ s.managers.any (fun k => s.manager k == b) = false ∧ 1 ≤ i ∧ i ≤ 16 ∧ s.manager i = [])
    ∧ (∃ (sid i : Nat) (b : Bytes) (x : Sess) (s : State), Table.find s.sess sid = some x ∧ x.claim = true ∧ s.scopeBusy (scopeOf 0x8100 19) = false ∧ s.locked 8 = false ∧ b ≠ [] ∧ Config.isP384Cert b = true ∧ s.managers.any (fun k => s.manager k == b) = false ∧ 1 ≤ i ∧ i ≤ 16 ∧ s.manager i = [])
    ∧ (∃ (sid nonce slot v : Nat) (sig : Bytes) (all : Bool) (s : State), Signed s sid nonce slot sig 0x8100 20 (leBytes 1 v) all ∧ s.locked 8 = false ∧ 1 ≤ v ∧ v ≤ 16 ∧ s.manager v ≠ [] ∧ s.quorumNow ≤ s.enrolled - 1)
    ∧ (∃ (sid nonce slot v : Nat) (sig : Bytes) (all : Bool) (s : State), Signed s sid nonce slot sig 0x8100 18 (leBytes 1 v) all ∧ s.locked 8 = false ∧ 1 ≤ v ∧ v ≤ 16 ∧ v ≤ s.enrolled)
    ∧ (∃ (sid v : Nat) (x : Sess) (s : State), Table.find s.sess sid = some x ∧ x.claim = true ∧ s.scopeBusy (scopeOf 0x8100 18) = false ∧ s.locked 8 = false ∧ 1 ≤ v ∧ v ≤ 16)
    ∧ (∃ (sid : Nat) (c : Nat) (x : Sess) (s : State), Table.find s.sess sid = some x ∧ x.claim = true ∧ s.scopeBusy (scopeOf 0x8100 22) = false ∧ s.sec.claim = some c)
    ∧ (∃ (c : Nat) (s : State), s.sec.claim = some c)
    ∧ (∃ (sid nonce slot : Nat) (sig b : Bytes) (all : Bool) (s : State), Signed s sid nonce slot sig 0x8000 2 b all ∧ s.locked 7 = false ∧ Config.leafIsSlot1 b = true)
    ∧ (∃ (sid nonce slot : Nat) (sig b : Bytes) (all : Bool) (s : State), Signed s sid nonce slot sig 0x8000 4 b all ∧ s.locked 7 = false ∧ b.length = 48)
    ∧ (∃ (sid : Nat) (b : Bytes) (s : State), MayWrite s sid 0x8200 2 ∧ b.length = 96 ∧ s.sec.debugOpen = false ∧ Table.find s.sec.sdKeys (s.obj 0x8200 1 % 1024) = none)
    ∧ (∃ (sid nonce slot d : Nat) (sig : Bytes) (all : Bool) (s : State), Signed s sid nonce slot sig 0x8200 4 (leBytes 2 d) all ∧ d < 1024 ∧ (∀ u, (s.tOn u = true ∨ s.tBusy u = true) → s.tDomain u ≠ some d) ∧ (∀ e, e ∈ s.groups → e.2.shared = true → e.2.domain = some d → e.2.links = 0))
    ∧ (∃ (sid sub : Nat) (s : State), (sub = 6 ∨ sub = 7 ∨ sub = 8) ∧ MayWrite s sid 0x8000 sub ∧ s.locked sub = false)
    ∧ (∃ (sid sub _v : Nat) (s : State), (sub = 6 ∨ sub = 7 ∨ sub = 8) ∧ MayWrite s sid 0x8000 sub ∧ s.locked sub = true)
    ∧ (∃ (sid nonce slot v : Nat) (sig : Bytes) (all : Bool) (s : State), Signed s sid nonce slot sig 0xB000 1 (leBytes 4 v) all ∧ v % 16 = 6 ∧ v < 2 ^ 32 ∧ resetForm v = true ∧ s.locked 6 = false ∧ s.pw.dbgEn = true ∧ s.pw.powerAllowed = true ∧ s.resets = [])
    ∧ (∃ (nonce : Nat) (n : Nonce) (s : State), s.sec.nonces.find? (fun y => y.id == nonce) = some n) :=
  ⟨⟨1, 1, 1, 16, sig1 onS [] 0x8100 19 (Config.sampleCert) false, Config.sampleCert, false, signS onS [] 0x8100 19 (Config.sampleCert) false, (signS_signed _ _ _ _ _ _ rfl rfl), by decide +kernel, cert_ne, cert_ok, cert_new, by decide +kernel⟩,
   ⟨1, 1, Config.sampleCert, { port := 0, conf := true, slot := 0, digest := [], lastRx := 0, claim := true }, claimS, by decide +kernel, by decide +kernel, (by decide +kernel), by decide +kernel, cert_ne, cert_ok, cert_first, by decide +kernel⟩,
   ⟨1, 1, 1, 16, sig1 (onS.setObj 0x8100 18 1) [(okey 0x8100 16, [0x31])] 0x8100 20 (leBytes 1 16) false, false, signS (onS.setObj 0x8100 18 1) [(okey 0x8100 16, [0x31])] 0x8100 20 (leBytes 1 16) false, (signS_signed _ _ _ _ _ _ rfl rfl), by decide +kernel⟩,
   ⟨1, 1, 1, 1, sig1 onS [] 0x8100 18 (leBytes 1 1) false, false, signS onS [] 0x8100 18 (leBytes 1 1) false, (signS_signed _ _ _ _ _ _ rfl rfl), by decide +kernel⟩,
   ⟨1, 16, { port := 0, conf := true, slot := 0, digest := [], lastRx := 0, claim := true }, claimS, by decide +kernel⟩,
   ⟨1, 42000000, { port := 0, conf := true, slot := 0, digest := [], lastRx := 0, claim := true }, claimS, by decide +kernel⟩,
   ⟨42000000, claimS, by decide +kernel⟩,
   ⟨1, 1, 1, sig1 onS [] 0x8000 2 (Config.sampleChain) false, Config.sampleChain, false, signS onS [] 0x8000 2 (Config.sampleChain) false, (signS_signed _ _ _ _ _ _ rfl rfl), by decide +kernel, chain_ok⟩,
   ⟨1, 1, 1, sig1 onS [] 0x8000 4 (zeros 48) false, zeros 48, false, signS onS [] 0x8000 4 (zeros 48) false, (signS_signed _ _ _ _ _ _ rfl rfl), by decide +kernel⟩,
   ⟨1, zeros 96, onS, ⟨_, rfl, rfl, rfl⟩, by decide +kernel⟩,
   ⟨1, 1, 1, 1023, sig1 onS [] 0x8200 4 (leBytes 2 1023) false, false, signS onS [] 0x8200 4 (leBytes 2 1023) false, (signS_signed _ _ _ _ _ _ rfl rfl), by decide +kernel, (no_tenant 1023 rfl rfl (by decide +kernel)), by decide +kernel⟩,
   ⟨1, 6, onS, by decide +kernel, ⟨_, rfl, rfl, rfl⟩, by decide +kernel⟩,
   ⟨1, 8, 0, onS.setObj 0x8000 8 1, by decide +kernel, ⟨_, rfl, rfl, rfl⟩, by decide +kernel⟩,
   ⟨1, 1, 1, 6, sig1 dbgS [] 0xB000 1 (leBytes 4 6) true, true, signS dbgS [] 0xB000 1 (leBytes 4 6) true, (signS_signed _ _ _ _ _ _ rfl rfl), by decide +kernel⟩,
   ⟨1, nonce1 0xB000 1 (leBytes 4 6) true, signS onS [] 0xB000 1 (leBytes 4 6) true, by decide +kernel⟩⟩

theorem witness_QuorumCommandsComplete :
    (∃ (sid nonce slot u : Nat) (sig : Bytes) (all : Bool) (s : State), Signed s sid nonce slot sig 0x4400 12 (leBytes 2 u) all ∧ u < 4096 ∧ s.tOn u = false ∧ s.tBusy u = false ∧ (∀ p l, p < 128 → l < 16 → s.ldTenant p l ≠ some u))
    ∧ (∃ (sid nonce slot : Nat) (sig : Bytes) (all : Bool) (s : State), Signed s sid nonce slot sig 0x1020 3 (leBytes 1 1) all ∧ s.obj 0x1020 2 = 1)
    ∧ (∃ (sid nonce slot : Nat) (sig : Bytes) (all : Bool) (s : State), Signed s sid nonce slot sig 0x9200 5 (leBytes 1 1) all)
    ∧ (∃ (sid nonce slot d : Nat) (sig : Bytes) (all : Bool) (m : FMap) (s : State), Signed s sid nonce slot sig 0x9200 4 (leBytes 2 d) all ∧ d < 512 ∧ s.fmap.map = some m ∧ s.fmap.member = true ∧ d ≠ s.devId ∧ m.members.any (fun v => v.dev == d) = true ∧ (all = true ∨ (s.obj 0x9200 2 ≤ m.members.length - 1 ∧ ∀ x, m.lastExpel = some x → x + s.obj 0x9200 3 * 1000000000 ≤ s.now)))
    ∧ (∃ (sid nonce slot : Nat) (sig : Bytes) (all : Bool) (s : State), Signed s sid nonce slot sig 0xB000 1 (leBytes 4 1) all ∧ s.resets = [])
    ∧ (∃ (sid nonce slot : Nat) (sig : Bytes) (all : Bool) (s : State), Signed s sid nonce slot sig 0xB000 1 (leBytes 4 2) all ∧ s.pw.powerAllowed = true ∧ s.resets = [])
    ∧ (∃ (sid nonce slot d : Nat) (sig : Bytes) (all : Bool) (s : State), Signed s sid nonce slot sig 0xB000 1 (leBytes 4 (3 + 256 * d)) all ∧ d < 8 ∧ s.pw.powerAllowed = true ∧ s.resets = [] ∧ s.parkedDie d = false ∧ s.dieUp ((d + 4) % 8) = true ∧ s.parkedDie ((d + 4) % 8) = false)
    ∧ (∃ (sid nonce slot mask : Nat) (sig : Bytes) (all : Bool) (s : State), Signed s sid nonce slot sig 0xB010 2 (leBytes 2 (2 + 256 * mask)) all ∧ mask < 256 ∧ mask ≠ 0 ∧ s.resets = [] ∧ s.pw.trans = none ∧ s.pw.pstate = 0 ∧ (∀ d, d < 8 → bit mask d = true → bit mask ((d + 4) % 8) = false ∧ (s.dieUp d = true ∨ bit s.pw.parked d = true)))
    ∧ (∃ (sid nonce slot : Nat) (sig : Bytes) (all : Bool) (s : State), Signed s sid nonce slot sig 0xB010 2 (leBytes 2 3) all ∧ s.resets = [] ∧ s.pw.trans = none ∧ s.pw.pstate ≠ 3) :=
  ⟨⟨1, 1, 1, 4095, sig1 onS [] 0x4400 12 (leBytes 2 4095) false, false, signS onS [] 0x4400 12 (leBytes 2 4095) false, (signS_signed _ _ _ _ _ _ rfl rfl), by decide +kernel, by decide +kernel, (by decide +kernel), (unbound rfl)⟩,
   ⟨1, 1, 1, sig1 (onS.setObj 0x1020 2 1) [] 0x1020 3 (leBytes 1 1) false, false, signS (onS.setObj 0x1020 2 1) [] 0x1020 3 (leBytes 1 1) false, (signS_signed _ _ _ _ _ _ rfl rfl), by decide +kernel⟩,
   ⟨1, 1, 1, sig1 onS [] 0x9200 5 (leBytes 1 1) false, false, signS onS [] 0x9200 5 (leBytes 1 1) false, (signS_signed _ _ _ _ _ _ rfl rfl)⟩,
   ⟨1, 1, 1, 1, sig1 mapPairS [] 0x9200 4 (leBytes 2 1) true, true, mapPair, signS mapPairS [] 0x9200 4 (leBytes 2 1) true, (signS_signed _ _ _ _ _ _ rfl rfl), by decide +kernel, by decide +kernel, (by decide +kernel), by decide +kernel, by decide +kernel, (Or.inl rfl)⟩,
   ⟨1, 1, 1, sig1 onS [] 0xB000 1 (leBytes 4 1) false, false, signS onS [] 0xB000 1 (leBytes 4 1) false, (signS_signed _ _ _ _ _ _ rfl rfl), by decide +kernel⟩,
   ⟨1, 1, 1, sig1 onS [] 0xB000 1 (leBytes 4 2) false, false, signS onS [] 0xB000 1 (leBytes 4 2) false, (signS_signed _ _ _ _ _ _ rfl rfl), by decide +kernel⟩,
   ⟨1, 1, 1, 7, sig1 onS [] 0xB000 1 (leBytes 4 (3 + 256 * 7)) false, false, signS onS [] 0xB000 1 (leBytes 4 (3 + 256 * 7)) false, (signS_signed _ _ _ _ _ _ rfl rfl), by decide +kernel⟩,
   ⟨1, 1, 1, 15, sig1 onS [] 0xB010 2 (leBytes 2 (2 + 256 * 15)) false, false, signS onS [] 0xB010 2 (leBytes 2 (2 + 256 * 15)) false, (signS_signed _ _ _ _ _ _ rfl rfl), by decide +kernel⟩,
   ⟨1, 1, 1, sig1 onS [] 0xB010 2 (leBytes 2 3) false, false, signS onS [] 0xB010 2 (leBytes 2 3) false, (signS_signed _ _ _ _ _ _ rfl rfl), by decide +kernel⟩⟩

theorem witness_EngineCommandsComplete :
    (∃ (e x _third _cmd _item : Nat) (_av : Bool) (s : State), s.engineOn e = true ∧ s.mayShadow e x [e / 52] false = true)
    ∧ (∃ (e x third _cmd _item : Nat) (s : State), s.engineOn e = true ∧ s.mayShadow e x [e / 52] false = true ∧ s.mayShadow e third [e / 52, x / 52] true = true)
    ∧ (∃ (e x _third cmd item : Nat) (y : Cmd) (s : State), s.engineOn e = true ∧ s.mayShadow e x [e / 52] false = true ∧ s.cmd cmd = some y ∧ y.items[item]? = some none)
    ∧ (∃ (cmd item : Nat) (v : Vote) (s : State), s.rel.votes.find? (fun w => w.cmd == cmd && w.item == item) = some v ∧ inService (s.engine v.e1).st = true ∧ (s.engine v.e1).mism + 1 < s.obj 0x9000 5 ∧ (s.freeSpares (v.e1 / 52)).length ≤ s.obj 0x9000 3)
    ∧ (∃ (cmd item : Nat) (v : Vote) (y : Cmd) (s : State), s.rel.votes.find? (fun w => w.cmd == cmd && w.item == item) = some v ∧ s.cmd cmd = some y ∧ y.items[item]? = some none)
    ∧ (∃ (e : Nat) (s : State), e < 416 ∧ s.engineOn e = true)
    ∧ (∃ (e : Nat) (s : State), e < 416 ∧ s.engineOn e = true)
    ∧ (∃ (e : Nat) (s : State), e < 416 ∧ (s.engine e).st = 5 ∧ (s.engine e).spareFor = none)
    ∧ (∃ (e v : Nat) (s : State), e < 416 ∧ (s.engine e).st = 5 ∧ (s.engine e).spareFor = some v)
    ∧ (∃ (e : Nat) (s : State), e < 416 ∧ (s.engine e).st = 5)
    ∧ (∃ (e : Nat) (s : State), (s.engine e).st = 3 ∧ (∀ x, x ∈ s.rel.engines → x.1 = e → x.2 = s.engine e)) :=
  ⟨⟨411, 0, 52, 5, 0, true, onS, by decide +kernel⟩,
   ⟨411, 0, 52, 5, 0, onS, by decide +kernel⟩,
   ⟨411, 0, 52, 5, 0, openCmd, { onS with cmds := [(5, openCmd)] }, by decide +kernel⟩,
   ⟨5, 0, vote1, { onS with rel := { votes := [vote1] } }, by decide +kernel⟩,
   ⟨5, 0, vote1, openCmd, { onS with rel := { votes := [vote1] }, cmds := [(5, openCmd)] }, by decide +kernel⟩,
   ⟨411, onS, by decide +kernel⟩,
   ⟨411, onS, by decide +kernel⟩,
   ⟨415, engS { st := 5, was := 2 }, by decide +kernel⟩,
   ⟨415, 364, engS { st := 5, spareFor := some 364 }, by decide +kernel⟩,
   ⟨415, engS { st := 5 }, by decide +kernel⟩,
   ⟨415, engS { st := 3 }, by decide +kernel⟩⟩

theorem witness_RepairsDiesAndAdmissionComplete :
    (∃ (die bank _row : Nat) (k : SramKind) (s : State), s.spareUsed (spareKey 2 ((die * 4 + sramNum k) * 65536 + bank)) < 4)
    ∧ (∃ (die bank row : Nat) (k : SramKind) (s : State), Table.get s.rel.errs 0 (((die * 4 + sramNum k) * 65536 + bank) * 65536 + row) < 3)
    ∧ (∃ (die ch _bank _row _addr : Nat) (s : State), s.rel.errs = [] ∧ s.rel.moving.contains (die, ch) = false)
    ∧ (∃ (die _ch : Nat) (s : State), s.spareUsed (spareKey 4 die) < 2)
    ∧ (∃ (p a : Nat) (_s : State), faSpace a = 1 ∧ faPort a = p)
    ∧ (∃ (a b m : Nat) (s : State), a < 8 ∧ b < 8 ∧ a ≠ b ∧ m < 3 ∧ s.spareUsed (spareKey 1 ((a * 8 + b) * 4 + m)) < 2)
    ∧ (∃ (a b m : Nat) (s : State), a < 8 ∧ b < 8 ∧ a ≠ b ∧ m < 3 ∧ 2 ≤ s.spareUsed (spareKey 1 ((a * 8 + b) * 4 + m)) ∧ setBit (s.spareUsed (spareKey 6 (Nat.min a b * 8 + Nat.max a b))) m % 8 ≠ 7)
    ∧ (∃ (d : Nat) (s : State), d < 8 ∧ s.dieUp d = true)
    ∧ (∃ (d : Nat) (s : State), d < 8 ∧ s.pw.powerAllowed = true ∧ s.pw.domOn ≠ 0 ∧ bit s.pw.parked d = false ∧ s.resets.any (fun r => r.kind == 3 && r.unit == d) = false ∧ s.dieUp d = false ∧ bit s.rel.retiredDies d = false)
    ∧ (∃ (_d : Nat) (s : State), s.pw.powerAllowed = false)
    ∧ (∃ (sid : Nat) (s : State), MayWrite s sid 0x9000 12)
    ∧ (∃ (sid : Nat) (s : State), MayWrite s sid 0x9000 12 ∧ (∀ u, s.tOn u = false ∧ s.tBusy u = false))
    ∧ (∃ (sid u : Nat) (s : State), MayWrite s sid 0x9000 12 ∧ u ∈ s.tenantsOn ∧ s.tOn u = true)
    ∧ (∃ (k : Nat) (s : State), s.rel.selftest = some k ∧ k ≠ 3)
    ∧ (∃ (k _d : Nat) (s : State), s.rel.selftest = some k ∧ k ≠ 3)
    ∧ (∃ s : State, s.rel.selftest = some 3 ∧ s.rel.admission = 1)
    ∧ (∃ s : State, s.rel.selftest = some 3 ∧ s.rel.admission = 2)
    ∧ (∃ (_d : Nat) (s : State), s.rel.selftest = some 3)
    ∧ (∃ (_l : List (Nat × Bool)) (s : State), s.rel.admission = 3 ∧ s.assigned = true) :=
  ⟨⟨7, 511, 63, .controlCache, { onS with rel := { spare := [(spareKey 2 ((7 * 4 + 2) * 65536 + 511), 3)] } }, by decide +kernel⟩,
   ⟨7, 511, 63, .paletteStore, { onS with rel := { errs := [(((7 * 4 + 3) * 65536 + 511) * 65536 + 63, 2)] } }, by decide +kernel⟩,
   ⟨7, 63, 0, 0, 1024, onS, by decide +kernel⟩,
   ⟨7, 63, { onS with rel := { spare := [(spareKey 4 7, 1)] } }, by decide +kernel⟩,
   ⟨127, 2 ^ 52 + 127 * 2 ^ 44 + 65, onS, by decide +kernel⟩,
   ⟨7, 0, 2, { onS with rel := { spare := [(spareKey 1 (56 * 4 + 2), 1)] } }, by decide +kernel⟩,
   ⟨7, 0, 2, { onS with rel := { spare := [(spareKey 1 (56 * 4 + 2), 2)] } }, by decide +kernel⟩,
   ⟨7, onS, by decide +kernel⟩,
   ⟨7, { onS with rel := { dies := 127 } }, by decide +kernel⟩,
   ⟨7, { onS with pw := { onS.pw with modEn := false } }, by decide +kernel⟩,
   ⟨1, onS, ⟨_, rfl, rfl, rfl⟩⟩,
   ⟨1, onS, ⟨_, rfl, rfl, rfl⟩, (no_tenants rfl rfl (by decide +kernel))⟩,
   ⟨1, 4095, onS.setObjI 0x4400 2 4095 1, ⟨_, rfl, rfl, rfl⟩, by decide +kernel⟩,
   ⟨1, { onS with rel := { selftest := some 1 } }, by decide +kernel⟩,
   ⟨2, 7, { onS with rel := { selftest := some 2 } }, by decide +kernel⟩,
   ⟨{ onS with rel := { selftest := some 3, admission := 1 } }, by decide +kernel⟩,
   ⟨{ onS with rel := { selftest := some 3, admission := 2 } }, by decide +kernel⟩,
   ⟨7, { onS with rel := { selftest := some 3 } }, by decide +kernel⟩,
   ⟨[], { onS.setObj 0x1000 5 0x8001 with rel := { admission := 3 } }, by decide +kernel⟩⟩

/-- Slot 1 holds a certificate, and management port 1 has an address. -/
def mgmtS : State := { onS with blobs := [(okey 0x3C00 2, [1#8]), (okey 0x8100 1, [0x30#8])] }

theorem mgmt_slots : mgmtS.managers = [1] := by decide +kernel

theorem mgmt_slot1 : mgmtS.manager 1 = [0x30#8] := rfl

theorem mgmt_known : mgmtS.managerOf [0x30#8] = some 1 := by simp [State.managerOf, mgmt_slots, mgmt_slot1]

theorem mgmt_any : mgmtS.managers.any (fun i => Machine.sha384 (mgmtS.manager i) == sha384 [0x30#8]) = true := by
  simp [mgmt_slots, mgmt_slot1]

def relay1 : Relay := { sid := 1, reqId := 7, idx := 0x1000, sub := 1, at_ := 0 }

/-- A session that keeps the response of request 7. -/
def keptX : Sess := { port := 0, slot := 0, digest := [], lastRx := 0, kept := [(7, 0, 0x81, [1])] }

/-- A nonce of a MODULE reset that needs `k` signatures. -/
def judgeN (k : Nat) : Nonce :=
  { id := 1, val := zeros 16, idx := 0xB000, sub := 1, value := leBytes 4 1, all := false, need := k, must := [1], signers := [], issued := 0 }

def judgeS (k : Nat) : State :=
  { onS with blobs := [(okey 0x8100 1, [0x30#8])], sec := { nonces := [judgeN k] } }

def judgeSig (k : Nat) : Bytes := Config.goodSig [0x30#8] ((judgeS k).quorumDigest (zeros 16) 0xB000 1 (leBytes 4 1))

theorem judge_needs (k : Nat) :
    (judgeS k).judge 1 1 (judgeSig k) = (if 1 ≤ k ∧ k ≤ 1 then rcOK else rcPending, some { judgeN k with signers := [1] }) := by
  have hm : (judgeS k).manager 1 = [0x30#8] := rfl
  have hn : (judgeS k).now = 0 := rfl
  have hs : (judgeS k).sec.nonces = [judgeN k] := rfl
  have hg : Config.sigOk [0x30#8] ((judgeS k).quorumDigest (zeros 16) 0xB000 1 (leBytes 4 1)) (judgeSig k) = true := by
    simp [Config.sigOk, judgeSig]
  simp [State.judge, hs, hm, hn, hg, judgeN, Nonce.expired, Nonce.done]

def snap1 : Snap := { id := 1, t := 20000, clear := false, sids := [1] }

/-- A scope of monitor 17. -/
def scope17 : Nat := (monScopes 17).headD 0

def cmd5 : Cmd :=
  { p := 127, l := 15, r := 63, tenant := 4095, recipe := 1, rid := 1, hdr := [], pay := [], sqHead := 0, cq := 0, at_ := 0, items := [none] }

theorem witness_SessionCommandsComplete :
    (∃ (port i : Nat) (conf : Bool) (cert : ClientCert) (s : State), s.mgmtOn port conf = true ∧ suiteOk cert = true ∧ s.sess.length < 8 ∧ s.managerOf cert.der = some i ∧ Table.find s.sess s.nextSid = none)
    ∧ (∃ (port : Nat) (conf : Bool) (cert : ClientCert) (s : State), s.mgmtOn port conf = true ∧ s.sess.length < 8 ∧ s.managerOf cert.der = none ∧ s.sec.claim = none)
    ∧ (∃ (port : Nat) (conf : Bool) (cert : ClientCert) (s : State), s.mgmtOn port conf = true ∧ suiteOk cert = true ∧ 8 ≤ s.sess.length)
    ∧ (∃ (port : Nat) (conf : Bool) (cert : ClientCert) (s : State), s.mgmtOn port conf = true ∧ suiteOk cert = false)
    ∧ (∃ (sid : Nat) (x : Sess) (s : State), Table.find s.sess sid = some x)
    ∧ (∃ (port : Nat) (conf : Bool) (s : State), s.mgmtOn port conf = true)
    ∧ (∃ (sid port : Nat) (b : Bytes) (s : State), port < 2 ∧ MayWrite s sid 0x3C00 (port + 1) ∧ addrOk b = true)
    ∧ (∃ (_ctrl idx sub _w : Nat) (s : State), s.pw.input = true ∧ s.pw.stage ≠ 0 ∧ i3cObj idx sub = true)
    ∧ (∃ (_ctrl cmd idx sub _w : Nat) (s : State), s.pw.input = true ∧ s.pw.stage ≠ 0 ∧ (cmd ≠ 1 ∨ i3cObj idx sub = false))
    ∧ (∃ (sid reqId target : Nat) (_e : GetEntry) (x : Sess) (s : State), Fresh s sid reqId x ∧ (∀ y, y ∈ s.relays → y.sid = sid → y.reqId ≠ reqId) ∧ s.reaches target = true)
    ∧ (∃ (sid reqId target : Nat) (_e : GetEntry) (x : Sess) (s : State), Fresh s sid reqId x ∧ (∀ y, y ∈ s.relays → y.sid = sid → y.reqId ≠ reqId) ∧ s.reaches target = false)
    ∧ (∃ (_dev _origin _w : Nat) (d : Bytes) (_e : GetEntry) (s : State), s.managers.any (fun i => Machine.sha384 (s.manager i) == d) = true)
    ∧ (∃ (sid reqId _rc _len : Nat) (_ws : List Nat) (y : Relay) (s : State), s.relays.find? (fun z => z.sid == sid && z.reqId == reqId) = some y)
    ∧ (∃ (sid reqId : Nat) (y : Relay) (s : State), s.relays.find? (fun z => z.sid == sid && z.reqId == reqId) = some y) :=
  ⟨⟨1, 1, true, { der := [0x30#8] }, mgmtS, by decide +kernel, by decide +kernel, (by decide +kernel), mgmt_known, by decide +kernel⟩,
   ⟨0, false, { der := [0x30#8] }, onS, by decide +kernel, by decide +kernel, rfl, by decide +kernel⟩,
   ⟨0, false, { der := [0x30#8] }, { onS with sess := (List.range 8).map (fun k => (k + 1, { port := 0, slot := 0, digest := [], lastRx := 0 })) }, by decide +kernel⟩,
   ⟨0, false, { der := [0x30#8], suites := [] }, onS, by decide +kernel⟩,
   ⟨1, { port := 0, slot := 0, digest := [], lastRx := 0 }, onS, by decide +kernel⟩,
   ⟨1, false, onS, by decide +kernel⟩,
   ⟨1, 1, [], onS, by decide +kernel, ⟨_, rfl, rfl, rfl⟩, by decide +kernel⟩,
   ⟨2, 0x2020, 4, 0, onS, by decide +kernel⟩,
   ⟨2, 2, 0x2020, 4, 0, onS, by decide +kernel⟩,
   ⟨1, 7, 5, { idx := 0x1000, sub := 1 }, { port := 0, slot := 0, digest := [], lastRx := 0 }, routed, ⟨rfl, rfl⟩, (fun y hy => nomatch hy), by decide +kernel⟩,
   ⟨1, 7, 6, { idx := 0x1000, sub := 1 }, { port := 0, slot := 0, digest := [], lastRx := 0 }, routed, ⟨rfl, rfl⟩, (fun y hy => nomatch hy), by decide +kernel⟩,
   ⟨5, 1, 0, sha384 [0x30#8], { idx := 0x1000, sub := 1 }, mgmtS, mgmt_any⟩,
   ⟨1, 7, 0x81, 2, [0x1001], relay1, { onS with relays := [relay1] }, by decide +kernel⟩,
   ⟨1, 7, relay1, { onS with relays := [relay1] }, by decide +kernel⟩⟩

theorem witness_MessagesComplete :
    (∃ (sid reqId : Nat) (l : List GetEntry) (x : Sess) (s : State), msgFits (8 * l.length) = true ∧ Fresh s sid reqId x)
    ∧ (∃ (sid reqId : Nat) (l : List GetEntry) (x : Sess) (k : Nat × Nat × Nat × Bytes) (s : State), msgFits (8 * l.length) = true ∧ Table.find s.sess sid = some x ∧ x.kept.find? (fun k => k.1 == reqId && decide (s.now < k.2.1 + 5000000000)) = some k)
    ∧ (∃ (sid reqId : Nat) (l : List SetEntry) (x : Sess) (s : State), msgFits (setLen l) = true ∧ Fresh s sid reqId x)
    ∧ (∃ (sid reqId : Nat) (l : List SetEntry) (x : Sess) (k : Nat × Nat × Nat × Bytes) (s : State), msgFits (setLen l) = true ∧ Table.find s.sess sid = some x ∧ x.kept.find? (fun k => k.1 == reqId && decide (s.now < k.2.1 + 5000000000)) = some k)
    ∧ (∃ (sid reqId idx sub flags : Nat) (b : Bytes) (x : Sess) (s : State), msgFits (12 + roundUp b.length 4) = true ∧ Fresh s sid reqId x ∧ x.claim = false ∧ (flags = 1 ∨ flags = 3) ∧ mayDisrupt idx sub = true ∧ disruptive idx sub (leNat b) = true ∧ s.accessCheck { sid := sid, signed := true } idx sub 0 = none ∧ s.accessCheck { sid := 0, signed := true } idx sub (leNat b) = none ∧ s.formCheck idx sub b = none ∧ s.stagedFor sid (okey idx sub) true = [] ∧ (s.sec.nonces.filter (fun n => !n.expired s.now)).length < 4)
    ∧ (∃ (sid reqId nonce slot : Nat) (sig : Bytes) (x : Sess) (n : Nonce) (s : State), Fresh s sid reqId x ∧ x.claim = false ∧ s.judge nonce slot sig = (rcPending, some n))
    ∧ (∃ (sid reqId nonce slot : Nat) (sig : Bytes) (x : Sess) (n : Nonce) (s : State), Fresh s sid reqId x ∧ x.claim = false ∧ s.judge nonce slot sig = (rcOK, some n))
    ∧ (∃ (sid reqId nonce slot rc : Nat) (sig : Bytes) (x : Sess) (s : State), Fresh s sid reqId x ∧ x.claim = false ∧ s.judge nonce slot sig = (rc, none))
    ∧ (∃ (sid reqId _mask : Nat) (x : Sess) (s : State), Fresh s sid reqId x)
    ∧ (∃ (sid reqId : Nat) (x : Sess) (s : State), Fresh s sid reqId x)
    ∧ (∃ (sid : Nat) (x : Sess) (s : State), Table.find s.sess sid = some x ∧ x.dropped ≠ 0) :=
  ⟨⟨1, 7, [{ idx := 0x1000, sub := 1 }], { port := 0, slot := 0, digest := [], lastRx := 0 }, onS, by decide +kernel, ⟨rfl, rfl⟩⟩,
   ⟨1, 7, [{ idx := 0x1000, sub := 1 }], keptX, (7, 0, 0x81, [1]), { onS with sess := [(1, keptX)] }, by decide +kernel⟩,
   ⟨1, 7, [{ idx := 0x4400, sub := 1, val := leBytes 2 4095 }], { port := 0, slot := 0, digest := [], lastRx := 0 }, onS, by decide +kernel, ⟨rfl, rfl⟩⟩,
   ⟨1, 7, [{ idx := 0x4400, sub := 1, val := leBytes 2 4095 }], keptX, (7, 0, 0x81, [1]), { onS with sess := [(1, keptX)] }, by decide +kernel⟩,
   ⟨1, 7, 0xB000, 1, 3, leBytes 4 1, { port := 0, slot := 0, digest := [], lastRx := 0 }, onS, by decide +kernel, ⟨rfl, rfl⟩, by decide +kernel⟩,
   ⟨1, 7, 1, 1, judgeSig 2, { port := 0, slot := 0, digest := [], lastRx := 0 }, { judgeN 2 with signers := [1] }, judgeS 2, ⟨rfl, rfl⟩, by decide +kernel, (judge_needs 2)⟩,
   ⟨1, 7, 1, 1, judgeSig 1, { port := 0, slot := 0, digest := [], lastRx := 0 }, { judgeN 1 with signers := [1] }, judgeS 1, ⟨rfl, rfl⟩, by decide +kernel, (judge_needs 1)⟩,
   ⟨1, 7, 2, 1, rcBadNonce, [], { port := 0, slot := 0, digest := [], lastRx := 0 }, judgeS 1, ⟨rfl, rfl⟩, by decide +kernel⟩,
   ⟨1, 7, 0xFFFFFFFF, { port := 0, slot := 0, digest := [], lastRx := 0 }, onS, ⟨rfl, rfl⟩⟩,
   ⟨1, 7, { port := 0, slot := 0, digest := [], lastRx := 0 }, onS, ⟨rfl, rfl⟩⟩,
   ⟨1, { port := 0, slot := 0, digest := [], lastRx := 0, dropped := 3 }, { onS with sess := [(1, { port := 0, slot := 0, digest := [], lastRx := 0, dropped := 3 })] }, by decide +kernel⟩⟩

theorem witness_DictionaryWritesComplete :
    (∃ (sid idx sub v : Nat) (r : ORow) (x : Sess) (s : State), Table.find s.sess sid = some x ∧ x.claim = false ∧ objRow idx sub = some r ∧ r.acc = .wsq ∧ s.accessCheck { sid := sid } idx sub v = none ∧ s.formCheck idx sub (numBytes idx sub v) = none ∧ leNat (numBytes idx sub v) = v ∧ idx ≠ 0x4400 ∧ (idx < 0x5400 ∨ 0x5480 ≤ idx ∨ sub % 8 = 7) ∧ s.scopeBusy (scopeOf idx sub) = false ∧ v / 65536 = s.objK (s.keyOf r idx sub) / 65536)
    ∧ (∃ (sid idx sub v : Nat) (r : ORow) (x : Sess) (s : State), Table.find s.sess sid = some x ∧ x.claim = false ∧ objRow idx sub = some r ∧ r.acc = .wsq ∧ s.accessCheck { sid := sid } idx sub v = none ∧ s.formCheck idx sub (numBytes idx sub v) = none ∧ leNat (numBytes idx sub v) = v ∧ idx ≠ 0x4400 ∧ (idx < 0x5400 ∨ 0x5480 ≤ idx ∨ sub % 8 = 7) ∧ s.scopeBusy (scopeOf idx sub) = false ∧ v / 65536 ≠ s.objK (s.keyOf r idx sub) / 65536)
    ∧ (∃ (sid v : Nat) (s : State), MayWrite s sid 0x1010 1 ∧ blockOk v = true)
    ∧ (∃ (sid off : Nat) (piece : Bytes) (s : State), MayWrite s sid 0x1020 1 ∧ off = (s.stagedFor sid (okey 0x1020 1) false).length ∧ off + piece.length ≤ 2 ^ 24)
    ∧ (∃ (sid reqId _id : Nat) (l : List GetEntry) (x : Sess) (s : State), msgFits (8 + 8 * l.length) = true ∧ Fresh s sid reqId x ∧ x.claim = false)
    ∧ (∃ (sid reqId id : Nat) (x : Sess) (s : State), Fresh s sid reqId x ∧ x.claim = false ∧ s.snaps.any (fun y => y.id == id && y.st == 0) = true)
    ∧ (∃ (id : Nat) (x : Snap) (s : State), s.snaps.find? (fun y => y.id == id && y.st == 0) = some x ∧ (s.snaps.filter (fun y => y.st == 1 || y.id == id)).length ≤ 2)
    ∧ (∃ (sid m : Nat) (s : State), m < 18 ∧ MayWrite s sid (0xA100 + m) 2)
    ∧ (∃ (sid m v : Nat) (s : State), m < 18 ∧ MayWrite s sid (0xA100 + m) 1 ∧ v ||| 0x0FFF000F = 0x0FFF000F ∧ scopeOk m v = true) :=
  ⟨⟨1, 0x5400, 127, 1, (objRow 0x5400 127).get (by decide +kernel), { port := 0, slot := 0, digest := [], lastRx := 0 }, onS, by decide +kernel⟩,
   ⟨1, 0x5400, 127, 0xFFFF0001, (objRow 0x5400 127).get (by decide +kernel), { port := 0, slot := 0, digest := [], lastRx := 0 }, onS, by decide +kernel⟩,
   ⟨1, 0x440003, onS, ⟨_, rfl, rfl, rfl⟩, by decide +kernel⟩,
   ⟨1, 2, [3], { onS with pieces := [⟨1, okey 0x1020 1, false, [1, 2]⟩] }, ⟨_, rfl, rfl, rfl⟩, by decide +kernel⟩,
   ⟨1, 7, 1, [{ idx := 0x1000, sub := 1 }], { port := 0, slot := 0, digest := [], lastRx := 0 }, onS, by decide +kernel, ⟨rfl, rfl⟩, by decide +kernel⟩,
   ⟨1, 7, 1, { port := 0, slot := 0, digest := [], lastRx := 0 }, { onS with snaps := [snap1] }, ⟨rfl, rfl⟩, by decide +kernel⟩,
   ⟨1, snap1, { onS with snaps := [snap1] }, by decide +kernel⟩,
   ⟨1, 17, onS, by decide +kernel, ⟨_, rfl, rfl, rfl⟩⟩,
   ⟨1, 17, scope17, onS, by decide +kernel, ⟨_, rfl, rfl, rfl⟩, by decide +kernel⟩⟩

theorem witness_SnapshotTakesFollowTheirRule :
    (∃ (sid reqId u : Nat) (_clear : Bool) (x : Sess) (s : State), Fresh s sid reqId x ∧ x.claim = false ∧ (u % 10 ≠ 0 ∨ u < s.now + 20000))
    ∧ (∃ (sid reqId u : Nat) (_clear : Bool) (x : Sess) (s : State), Fresh s sid reqId x ∧ x.claim = false ∧ u % 10 = 0 ∧ s.now + 20000 ≤ u ∧ s.snaps.find? (fun y => y.st == 0 && y.t == u) = none ∧ 4 ≤ (s.snaps.filter (fun y => y.st == 0)).length)
    ∧ (∃ (sid reqId u : Nat) (_clear : Bool) (x : Sess) (y : Snap) (s : State), Fresh s sid reqId x ∧ x.claim = false ∧ u % 10 = 0 ∧ s.now + 20000 ≤ u ∧ s.snaps.find? (fun z => z.st == 0 && z.t == u) = some y)
    ∧ (∃ (sid reqId u : Nat) (_clear : Bool) (x : Sess) (s : State), Fresh s sid reqId x ∧ x.claim = false ∧ u % 10 = 0 ∧ s.now + 20000 ≤ u ∧ s.snaps.find? (fun y => y.st == 0 && y.t == u) = none ∧ (s.snaps.filter (fun y => y.st == 0)).length < 4)
    ∧ (∃ (mv _straps : Nat) (_dbg : Bool) (_s : State), 19000 ≤ mv ∧ mv ≤ 28000) :=
  ⟨⟨1, 7, 20001, true, { port := 0, slot := 0, digest := [], lastRx := 0 }, onS, ⟨rfl, rfl⟩, by decide +kernel⟩,
   ⟨1, 7, 30000, true, { port := 0, slot := 0, digest := [], lastRx := 0 }, { onS with snaps := [snap1, { snap1 with id := 2 }, { snap1 with id := 3 }, { snap1 with id := 4 }] }, ⟨rfl, rfl⟩, by decide +kernel⟩,
   ⟨1, 7, 20000, true, { port := 0, slot := 0, digest := [], lastRx := 0 }, snap1, { onS with snaps := [snap1] }, ⟨rfl, rfl⟩, by decide +kernel⟩,
   ⟨1, 7, 30000, true, { port := 0, slot := 0, digest := [], lastRx := 0 }, { onS with snaps := [snap1, { snap1 with id := 2 }, { snap1 with id := 3 }] }, ⟨rfl, rfl⟩, by decide +kernel⟩,
   ⟨19000, 0, false, onS, by decide +kernel⟩⟩

theorem witness_ResetsAndPowerComplete :
    (∃ (p : Nat) (s : State), p < 128 ∧ s.pw.powerAllowed = true ∧ s.resets = [] ∧ s.parkedDie (p / 16) = false ∧ s.flexOn p = true)
    ∧ (∃ (q : Nat) (s : State), q < 64 ∧ s.pw.powerAllowed = true ∧ s.resets = [] ∧ s.parkedDie (q / 8) = false ∧ s.peerOn q = true)
    ∧ (∃ (sid p : Nat) (s : State), p < 128 ∧ MayWrite s sid 0xB000 1 ∧ s.pw.powerAllowed = true ∧ s.resets = [] ∧ s.parkedDie (p / 16) = false ∧ s.flexOn p = true)
    ∧ (∃ (e : Nat) (s : State), e < 416 ∧ s.pw.powerAllowed = true ∧ s.resets = [] ∧ s.parkedDie (e / 52) = false)
    ∧ (∃ (sid e : Nat) (s : State), e < 416 ∧ MayWrite s sid 0xB000 1 ∧ s.pw.powerAllowed = true ∧ s.resets = [] ∧ s.parkedDie (e / 52) = false)
    ∧ (∃ (sid p : Nat) (s : State), p < 128 ∧ MayWrite s sid 0xB000 1 ∧ s.resets = [] ∧ s.parkedDie (p / 16) = true)
    ∧ (∃ (sid p : Nat) (s : State), p < 128 ∧ MayWrite s sid 0xB000 1 ∧ s.pw.powerAllowed = false)
    ∧ (∃ (u : Nat) (r : ResetRun) (s : State), s.resets.find? (fun x => x.kind == 1 && x.unit == u) = some r ∧ (s.pw.stage = 6 ∨ s.pw.stage = 7))
    ∧ (∃ (u : Nat) (r : ResetRun) (s : State), s.resets.find? (fun x => x.kind == 2 && x.unit == u) = some r)
    ∧ (∃ (d : Nat) (r : ResetRun) (s : State), s.resets.find? (fun x => x.kind == 3 && x.unit == d) = some r ∧ d < 8 ∧ s.dieUp d = false ∧ s.pw.powerAllowed = true ∧ bit s.rel.retiredDies d = false)
    ∧ (∃ (p : Nat) (r : ResetRun) (s : State), s.resets.find? (fun x => x.kind == 4 && x.unit == p) = some r ∧ p < 128 ∧ s.role p ≠ 0 ∧ (s.flexP p).st = 1 ∧ (s.flexP p).stuck = false ∧ s.ready = true ∧ s.lanesUp (p / 16) = true)
    ∧ (∃ (q : Nat) (r : ResetRun) (s : State), s.resets.find? (fun x => x.kind == 4 && x.unit == q + 256) = some r ∧ s.peerOn q = true)
    ∧ (∃ (e : Nat) (r : ResetRun) (s : State), s.resets.find? (fun x => x.kind == 5 && x.unit == e) = some r ∧ (s.engine e).st = 5 ∧ (s.engine e).spareFor = none)
    ∧ (∃ (u : Nat) (r : ResetRun) (s : State), s.resets.find? (fun x => x.kind == 6 && x.unit == u) = some r ∧ (∀ x, x ∈ s.resets → x.kind ≠ 1))
    ∧ (∃ (u : Nat) (s : State), s.fmap.resetting = some u)
    ∧ (∃ (sid : Nat) (s : State), MayWrite s sid 0xB010 2 ∧ s.resets = [] ∧ s.pw.trans = none)
    ∧ (∃ (sid : Nat) (s : State), MayWrite s sid 0xB010 2 ∧ s.resets = [] ∧ s.pw.trans = none ∧ s.pw.pstate ≠ 3 ∧ s.pw.parked = 0)
    ∧ (∃ (sid : Nat) (s : State), MayWrite s sid 0xB010 2 ∧ s.resets = [] ∧ s.pw.trans = none ∧ (s.pw.pstate = 3 ∨ s.pw.parked ≠ 0))
    ∧ (∃ s : State, (s.pw.modEn = false ∨ s.pw.input = false ∨ s.pw.tripped = true))
    ∧ (∃ (mask : Nat) (s : State), s.pw.modEn = true ∧ s.pw.input = true ∧ s.pw.tripped = false ∧ s.pw.trans = some (2, mask))
    ∧ (∃ (m : Nat) (s : State), s.pw.modEn = true ∧ s.pw.input = true ∧ s.pw.tripped = false ∧ s.pw.trans = some (3, m) ∧ s.cmds = [])
    ∧ (∃ (m : Nat) (s : State), s.pw.trans = some (3, m) ∧ s.cmds ≠ [])
    ∧ (∃ s : State, s.pw.modEn = true ∧ s.pw.input = true ∧ s.pw.tripped = false ∧ s.pw.trans = some (0, 0)) :=
  ⟨⟨127, port 127 1 { st := 3, rate := 32, width := 8, cur := 8 } onS, by decide +kernel⟩,
   ⟨63, link 63 { st := 4, lanes := 4 } onS, by decide +kernel⟩,
   ⟨1, 127, port 127 1 { st := 3, rate := 32, width := 8, cur := 8 } onS, by decide +kernel, ⟨_, rfl, rfl, rfl⟩, by decide +kernel⟩,
   ⟨415, onS, by decide +kernel⟩,
   ⟨1, 415, onS, by decide +kernel, ⟨_, rfl, rfl, rfl⟩, by decide +kernel⟩,
   ⟨1, 127, { onS with pw := { onS.pw with parked := 128 } }, by decide +kernel, ⟨_, rfl, rfl, rfl⟩, by decide +kernel⟩,
   ⟨1, 127, { onS with pw := { onS.pw with modEn := false } }, by decide +kernel, ⟨_, rfl, rfl, rfl⟩, by decide +kernel⟩,
   ⟨0, { kind := 1, unit := 0, at_ := 0 }, { onS with resets := [{ kind := 1, unit := 0, at_ := 0 }] }, by decide +kernel⟩,
   ⟨0, { kind := 2, unit := 0, at_ := 0 }, { onS with resets := [{ kind := 2, unit := 0, at_ := 0 }] }, by decide +kernel⟩,
   ⟨7, { kind := 3, unit := 7, at_ := 0 }, { onS with resets := [{ kind := 3, unit := 7, at_ := 0 }], rel := { dies := 127 } }, by decide +kernel⟩,
   ⟨127, { kind := 4, unit := 127, at_ := 0 }, port 127 1 { st := 1 } ({ onS with resets := [{ kind := 4, unit := 127, at_ := 0 }] }), by decide +kernel⟩,
   ⟨63, { kind := 4, unit := 319, at_ := 0 }, link 63 { st := 1 } ({ onS with resets := [{ kind := 4, unit := 319, at_ := 0 }] }), by decide +kernel⟩,
   ⟨415, { kind := 5, unit := 415, at_ := 0 }, { onS with resets := [{ kind := 5, unit := 415, at_ := 0 }], rel := { engines := [(415, { st := 5, was := 2 })] } }, by decide +kernel⟩,
   ⟨0, { kind := 6, unit := 0, at_ := 0 }, { onS with resets := [{ kind := 6, unit := 0, at_ := 0 }] }, by decide +kernel, (fun x hx => by rw [List.mem_singleton.1 hx]; decide)⟩,
   ⟨500, { onS with fmap := { resetting := some 500 } }, by decide +kernel⟩,
   ⟨1, onS, ⟨_, rfl, rfl, rfl⟩, by decide +kernel⟩,
   ⟨1, onS, ⟨_, rfl, rfl, rfl⟩, by decide +kernel⟩,
   ⟨1, { onS with pw := { onS.pw with pstate := 3 } }, ⟨_, rfl, rfl, rfl⟩, by decide +kernel⟩,
   ⟨{ onS with pw := { onS.pw with modEn := false } }, by decide +kernel⟩,
   ⟨128, { onS with pw := { onS.pw with trans := some (2, 128) } }, by decide +kernel⟩,
   ⟨255, { onS with pw := { onS.pw with trans := some (3, 255) } }, by decide +kernel⟩,
   ⟨255, { onS with pw := { onS.pw with trans := some (3, 255) }, cmds := [(5, cmd5)] }, by decide +kernel⟩,
   ⟨{ onS with pw := { onS.pw with trans := some (0, 0), parked := 128 } }, by decide +kernel⟩⟩

/-- A REDUCE_SCATTER of two bf16 elements, an ALLGATHER of one and a FILTER_TOPK of one, over two ranks each. -/
def scatS : State := cmdS 10 64 (zeros 8 ++ leBytes 2 0 ++ leBytes 2 2 ++ zeros 4 ++ leBytes 4 2) (leBytes 2 1) 66

def gatherS : State := cmdS 11 64 (zeros 8 ++ leBytes 2 0 ++ leBytes 2 2 ++ zeros 4 ++ leBytes 4 1) (leBytes 2 1) 64

def topkS : State := cmdS 13 64 (zeros 8 ++ leBytes 2 0 ++ leBytes 2 2 ++ [0, 0, 0, 0x10] ++ leBytes 4 1 ++ leBytes 2 0 ++ leBytes 2 1) (leBytes 2 1) 64

theorem witness_EveryCommandCompletes :
    (∃ (d : Nat) (s : State), d < 8 ∧ bit s.pw.domOn (8 + d) = true)
    ∧ (∃ (d u e : Nat) (x : Engine) (s : State), d < 8 ∧ bit s.pw.domOn (8 + d) = true ∧ e / 52 = d ∧ Table.find s.rel.engines e = some x ∧ x.part = some u)
    ∧ (∃ (d : Nat) (s : State), d < 8 ∧ bit s.pw.domOn d = true)
    ∧ (∃ (port : Nat) (s : State), (s.peerP port).st = 4)
    ∧ (∃ (port : Nat) (s : State), (s.flexP port).st = 3)
    ∧ (∃ (clk : Nat) (_s : State), clk < 8)
    ∧ (∃ (clk : Nat) (s : State), clk < 8 ∧ s.pw.stage ≠ 0)
    ∧ (∃ (p l r : Nat) (s : State), (s.admitted p l r 1 attendRecipe).isSome = true)
    ∧ (∃ (p l r : Nat) (s : State), (s.admitted p l r 2 bwdRecipe).isSome = true)
    ∧ (∃ (p l r : Nat) (s : State), (s.admitted p l r 3 appendRecipe).isSome = true)
    ∧ (∃ (p l r : Nat) (s : State), (s.admitted p l r 4 lookupRecipe).isSome = true)
    ∧ (∃ (p l r : Nat) (s : State), (s.admitted p l r 5 publishPrefixRecipe).isSome = true)
    ∧ (∃ (p l r : Nat) (s : State), (s.admitted p l r 6 pinRecipe).isSome = true)
    ∧ (∃ (p l r : Nat) (s : State), (s.admitted p l r 7 unpinRecipe).isSome = true)
    ∧ (∃ (p l r : Nat) (s : State), (s.admitted p l r 8 migrateRecipe).isSome = true)
    ∧ (∃ (p l r : Nat) (s : State), (s.admitted p l r 9 (collRecipe 9)).isSome = true)
    ∧ (∃ (p l r : Nat) (s : State), (s.admitted p l r 10 (collRecipe 10)).isSome = true)
    ∧ (∃ (p l r : Nat) (s : State), (s.admitted p l r 11 (collRecipe 11)).isSome = true)
    ∧ (∃ (p l r : Nat) (s : State), (s.admitted p l r 12 gatherRecipe).isSome = true)
    ∧ (∃ (p l r : Nat) (s : State), (s.admitted p l r 13 (collRecipe 13)).isSome = true)
    ∧ (∃ (p l r : Nat) (s : State), (s.admitted p l r 0x10 openRecipe).isSome = true)
    ∧ (∃ (p l r : Nat) (s : State), (s.admitted p l r 0x11 closeRecipe).isSome = true)
    ∧ (∃ (p l r : Nat) (s : State), (s.admitted p l r 0x20 palRecipe).isSome = true)
    ∧ (∃ (p l r : Nat) (s : State), (s.admitted p l r 0x21 freePalRecipe).isSome = true)
    ∧ (∃ (p l r : Nat) (s : State), (s.admitted p l r 0x22 loadRecipe).isSome = true)
    ∧ (∃ (p l r : Nat) (s : State), (s.admitted p l r 0x23 freeTensorRecipe).isSome = true)
    ∧ (∃ (p l r : Nat) (s : State), (s.admitted p l r 0x30 publishRun).isSome = true)
    ∧ (∃ (p l r : Nat) (s : State), (s.admitted p l r 0xF0 describeRecipe).isSome = true)
    ∧ (∃ (p l r : Nat) (s : State), (s.admitted p l r 0xF1 installRecipeRun).isSome = true)
    ∧ (∃ (p l r : Nat) (s : State), (s.admitted p l r 0xF2 removeRecipeRun).isSome = true)
    ∧ (∃ (p l r : Nat) (s : State), (s.admitted p l r 0 composedRecipe).isSome = true) :=
  ⟨⟨7, onS, by decide +kernel⟩,
   ⟨7, 4095, 415, { onS.engine 415 with part := some 4095 }, onS.setEngine 415 { onS.engine 415 with part := some 4095 }, by decide +kernel⟩,
   ⟨7, onS, by decide +kernel⟩,
   ⟨63, peerUp, by decide +kernel⟩,
   ⟨127, flexUp, by decide +kernel⟩,
   ⟨7, onS, by decide +kernel⟩,
   ⟨7, onS, by decide +kernel⟩,
   ⟨127, 15, 63, attS, by decide +kernel⟩,
   ⟨127, 15, 63, bwdS, by decide +kernel⟩,
   ⟨127, 15, 63, appS, by decide +kernel⟩,
   ⟨127, 15, 63, lookS, by decide +kernel⟩,
   ⟨127, 15, 63, pubS, by decide +kernel⟩,
   ⟨127, 15, 63, pinS, by decide +kernel⟩,
   ⟨127, 15, 63, unpinS, by decide +kernel⟩,
   ⟨127, 15, 63, migS, by decide +kernel⟩,
   ⟨127, 15, 63, collS, by decide +kernel⟩,
   ⟨127, 15, 63, scatS, by decide +kernel⟩,
   ⟨127, 15, 63, gatherS, by decide +kernel⟩,
   ⟨127, 15, 63, gathS, by decide +kernel⟩,
   ⟨127, 15, 63, topkS, by decide +kernel⟩,
   ⟨127, 15, 63, openS, by decide +kernel⟩,
   ⟨127, 15, 63, closeS, by decide +kernel⟩,
   ⟨127, 15, 63, palS, by decide +kernel⟩,
   ⟨127, 15, 63, freePS, by decide +kernel⟩,
   ⟨127, 15, 63, loadS, by decide +kernel⟩,
   ⟨127, 15, 63, freeTS, by decide +kernel⟩,
   ⟨127, 15, 63, extS, by decide +kernel⟩,
   ⟨127, 15, 63, descrS, by decide +kernel⟩,
   ⟨127, 15, 63, instS, by decide +kernel⟩,
   ⟨127, 15, 63, rmS, by decide +kernel⟩,
   ⟨127, 15, 63, chainS, by decide +kernel⟩⟩

/-! ### Well-formed commands -/

def okPacket : Packet := { ptype := 2, tc := 7, srcDev := 511, dstDev := 511, tenant := 4095, tag := 65535, addr := 0, data := [] }

def okPartner : FlexPartner := { rates := [32], width := 16, presets := zeros 16, trayGiB := 0, trayIde := false, volatileCache := false }

def okArb : ArbInput :=
  { mv := 24000, inputMw := 0, eta := 9200, pAon := 180, retention := 0, temp := 40, demands := List.replicate 20 0, idleFlex := [127], idlePeer := [63] }

def okKey : CollKey := { fabTag := 65535, group := 0, opSeq := 0, chunk := 65535 }

def okMap : FMap := { epoch := 1, proposer := 511, members := [{ dev := 511, group := 255, dies := 255 }], overrides := [] }

/-- Commands at the edge of what is well formed. -/
def wellFormed : List Instr :=
  [.flexPortEnable 0 127, .peerPortEnable 0 63, .linkWiden true 63, .linkWiden false 127, .dieLoss 7, .engineWatchdog 415, .ldEnable 0 127 15,
   .attend 127 15 63, .cellCross 7 62, .addrDup 1 true, .monCtrlClear 0 17, .tensorScrub 4095 65535, .mapLossTimeout 511, .resetDone 6 0,
   .paletteTraining 0 8, .routeMemberMove 7 62 7 4095 511, .resetPort none true 63, .resetPort none false 127, .selftestComplete (some 7),
   .shadowVote 0 0 none, .viewRestore 0 (2 ^ 64 - 1), .repairBacking 0 (2 ^ 32 - 1), .wsqAck 0 65535 255 (2 ^ 32 - 1), .claimDone 0 255,
   .cellAdmit 7 62 okPacket 62, .flitReceive 63 { w0 := 0, w1 := 0, pkts := [okPacket] }, .flexLinkTrained 127 okPartner, .arbiterEpoch okArb,
   .collChunkAbort ⟨okKey, par0, 0⟩, .mapGossip 63 okMap none, .tileReceive 63 { hdr := zeros 32, data := [] }, .enroll 0 (.signed 0 255 (zeros 96)),
   .sign 0 0 0 255 (zeros 96), .get 0 0 [{ idx := 65535, sub := 255 }], .set 0 0 [{ idx := 65535, sub := 255, val := [] }],
   .getVersion (.host 127 0), .getVersion (.peer 63), .quiesce (.flex 127), .quiesce (.peer 63), .quiesce (.tenantOn 127 4095),
   .fence (.host 127 15) .device, .fence (.peer 511 4095) .device, .fence (.engine 415 0) .device, .rdShared (.engine 7 51) ⟨0, 15⟩, .rdOwn .root ⟨0, 0, some (63, [1])⟩,
   .backingFailure (.tray 127), .backingFailure (.hbm 2047), .backingFailure (.lent 65535), .memoryError (.hbm 7 0 0 0 0) true,
   .tdiError 127 (.iface 15), .tdiError 127 (.stream 4), .getCertificate (.peer 63) (2 ^ 32 - 1) 1024, .ideKmKeyProg 127 4 1 { bytes := [7] },
   .collResult okKey (.refused false 0 0 0 0) [zeros 32], .collRecordTimeout okKey .top]

theorem test_well_formed : wellFormed.all Instr.wf = true := by decide +kernel

/-- One ill-formed command for each check on unit numbers and widths. -/
def illUnits : List Instr :=
  [.flexPortEnable 0 128, .peerPortEnable 0 64, .linkWiden true 64, .linkWiden false 128, .dieLoss 8, .engineWatchdog 416, .ldEnable 0 128 0,
   .ldEnable 0 0 16, .attend 128 0 0, .attend 0 16 0, .attend 0 0 64, .cellCross 8 0, .cellCross 0 63, .addrDup 2 true, .monCtrlClear 0 18,
   .tensorScrub 4096 0, .tensorScrub 0 65536, .mapLossTimeout 512, .resetDone 7 0, .paletteTraining 0 9, .paletteTraining 4096 0,
   .routeMemberMove 0 0 8 0 0, .routeMemberMove 0 0 0 4096 0, .routeMemberMove 0 0 0 0 512, .resetPort none true 64, .resetPort none false 128,
   .selftestComplete (some 8), .shadowVote 0 0 (some 416), .viewRestore 0 (2 ^ 64), .repairBacking 0 (2 ^ 32), .wsqAck 0 65536 0 0,
   .wsqAck 0 0 256 0, .wsqAck 0 0 0 (2 ^ 32), .claimDone 0 256, .lockWrite 0 256 0, .snapshotTake 0 (2 ^ 32) 0 false,
   .snapshotTake 0 0 (2 ^ 64) false, .nvmeCommandTimeout 0 65536, .hostRead 0 0 .dpa (2 ^ 64) 1, .sqTail 0 0 0 (2 ^ 64)]

theorem test_ill_units : illUnits.all (fun c => !c.wf) = true := by decide +kernel

/-- One ill-formed command for each check on an operand of a type of its own. -/
def illOperands : List Instr :=
  [.cellAdmit 0 0 { okPacket with ptype := 16 } 0, .cellAdmit 0 0 { okPacket with tc := 8 } 0, .cellAdmit 0 0 { okPacket with srcDev := 512 } 0,
   .cellAdmit 0 0 { okPacket with dstDev := 512 } 0, .cellAdmit 0 0 { okPacket with tenant := 4096 } 0, .cellAdmit 0 0 { okPacket with tag := 65536 } 0,
   .cellAdmit 0 0 { okPacket with addr := 2 ^ 64 } 0, .cellAdmit 0 0 { okPacket with data := zeros 257 } 0, .flitReceive 0 { w0 := 2 ^ 64, w1 := 0, pkts := [] }, .flitReceive 0 { w0 := 0, w1 := 2 ^ 64, pkts := [] },
   .flitReceive 0 { w0 := 0, w1 := 0, pkts := [{ okPacket with tc := 8 }] }, .flexLinkTrained 0 { okPartner with width := 3 },
   .flexLinkTrained 0 { okPartner with presets := [] }, .arbiterEpoch { okArb with demands := [] }, .arbiterEpoch { okArb with idleFlex := [128] },
   .arbiterEpoch { okArb with idlePeer := [64] }, .collChunkAbort ⟨{ okKey with fabTag := 65536 }, par0, 0⟩, .collChunkAbort ⟨{ okKey with group := 2 ^ 32 }, par0, 0⟩,
   .collChunkAbort ⟨{ okKey with opSeq := 2 ^ 32 }, par0, 0⟩, .collChunkAbort ⟨{ okKey with chunk := 65536 }, par0, 0⟩, .mapGossip 0 { okMap with epoch := 2 ^ 32 } none,
   .mapGossip 0 { okMap with proposer := 512 } none, .mapGossip 0 { okMap with members := [{ dev := 512, group := 0, dies := 0 }] } none,
   .mapGossip 0 { okMap with members := [{ dev := 0, group := 256, dies := 0 }] } none, .mapGossip 0 { okMap with members := [{ dev := 0, group := 0, dies := 256 }] } none,
   .tileReceive 0 { hdr := [], data := [] }, .enroll 0 (.signed 0 256 (zeros 96)), .enroll 0 (.signed 0 0 []), .sign 0 0 0 256 (zeros 96), .sign 0 0 0 0 [],
   .get 0 0 [{ idx := 65536, sub := 0 }], .get 0 0 [{ idx := 0, sub := 256 }], .get 0 0 [{ idx := 0, sub := 0, off := 2 ^ 32 }],
   .set 0 0 [{ idx := 65536, sub := 0, val := [] }], .set 0 0 [{ idx := 0, sub := 256, val := [] }], .set 0 0 [{ idx := 0, sub := 0, off := 2 ^ 32, val := [] }],
   .getVersion (.host 128 0), .getVersion (.peer 64), .quiesce (.flex 128), .quiesce (.peer 64), .quiesce (.tenantOn 128 0), .quiesce (.tenantOn 0 4096),
   .fence (.host 128 0) .device, .fence (.peer 512 0) .device, .fence (.peer 0 4096) .device, .fence (.engine 416 0) .device, .rdShared (.engine 8 0) ⟨0, 0⟩,
   .rdShared (.engine 0 52) ⟨0, 0⟩, .rdShared .root ⟨0, 16⟩, .rdOwn .root ⟨0, 0, some (63, [1, 2])⟩, .fence (.engine 0 16) .device, .backingFailure (.tray 128), .backingFailure (.hbm 2048), .backingFailure (.lent 65536),
   .tdiError 127 (.iface 16), .tdiError 128 (.stream 0), .getCertificate (.peer 63) (2 ^ 32) 0, .ideKmKeyProg 128 0 0 { bytes := [] },
   .collResult { okKey with chunk := 65536 } (.refused false 0 0 0 0) [], .collResult okKey (.refused false 0 0 0 0) [zeros 31], .collRecordTimeout { okKey with group := 2 ^ 32 } .top,
   .memoryError (.sram 8 .tileBuffer 0 0) true, .memoryError (.hbm 8 0 0 0 0) true, .memoryError (.channelUnreadable 8 0) true, .memoryError (.tray 128 0) true]

theorem test_ill_operands : illOperands.all (fun c => !c.wf) = true := by decide +kernel

/-! ### The spec's worked examples -/

/-- R41: excess demands of 320, 192 and 757 units share 4,460 units as 201, 120 and 473. -/
theorem test_grants : divide (List.replicate 8 320 ++ List.replicate 8 192 ++ List.replicate 4 757) 4460 =
    List.replicate 8 201 ++ List.replicate 8 120 ++ List.replicate 4 473 := by decide +kernel

/-- The header of the example of 07_tile_streams: 08 D0 07 2A 00 40 01 10. -/
def exHdr : Bytes := [0x08, 0xD0, 0x07, 0x2A, 0x00, 0x40, 0x01, 0x10]

theorem test_header : (hVer exHdr, hRecipe exHdr, hTag exHdr, hLen exHdr, hNotify exHdr, hOrder exHdr) = (1, 0x0140, 0x002A, 1000, true, false) := by decide +kernel

/-- Its record: words 0x002A_000C_0022_0001 and 0x0000_0000_0000_9400. -/
theorem test_record : (field (record 0x2A 0 3 false 17 1 0 37888 0 0) 0 8, field (record 0x2A 0 3 false 17 1 0 37888 0 0) 8 8) =
    (0x002A000C00220001, 0x9400) := by decide +kernel

/-- R189: 12,288 requested, 8,192 granted. -/
theorem test_tile_grant : grantTile 12288 = 8192 := by decide

/-- 08_attention, two spans merged: the nearest bf16 of o over l is 0xBE03. -/
def exMerge : Fold := mergeFold { m := 0x40600000, l := 0x41440000, o := [0x40800000] } { m := 0x40A00000, l := 0x40000000, o := [0xBFC00000] }

theorem test_merge : (exMerge.m, exMerge.o.map (fun x => toBf (mul32 x (recip32 exMerge.l)))) = (0x40A00000, [0xBE03]) := by decide +kernel

/-- 09_collectives: the eight values in rank order give 0x40500000, and in the order 6, 7, 0, 2, 1, 3, 4, 5 they would give 0x40500100. -/
theorem test_reduce :
    (reduceAll false 0 ([0x4380, 0x3880, 0xC380, 0x3F00, 0x4040, 0xBE80, 0x4480, 0xC480].map (fun x => [toAcc 0 x])),
      reduceAll false 0 ([0x4480, 0xC480, 0x4380, 0xC380, 0x3880, 0x3F00, 0x4040, 0xBE80].map (fun x => [toAcc 0 x]))) =
    ([0x40500000], [0x40500100]) := by decide +kernel

theorem test_reduce_out : (fromAcc 0 0 0x40500000).1 = 0x4050 := by decide +kernel

/-- R316: the residuals of sub-vector 0 and their first byte at k = 1. -/
theorem test_residuals : residuals [0x12, 0xF0, 0x05, 0x7F] [0x10, 0xF1, 0x05, 0x7C] = [4, 1, 0, 6] := by decide +kernel

theorem test_rice : (packBits 1 ([4, 1, 0, 6].flatMap (riceBits 1))) = [0x23] := by decide +kernel

/-- R211: bytes and granules of a plain page of each format and head dimension. -/
theorem test_page_sizes : [0, 1, 2].map (fun f => [0, 1, 2].map (fun d => (plainBytes f d, plainGranules f d))) =
    [[(8896, 5), (17728, 9), (35392, 18)], [(4800, 3), (9536, 5), (19008, 10)], [(16576, 9), (33088, 17), (66112, 33)]] := by decide +kernel

/-- 11_compression: a stream of 14,873 bytes makes 8 granules. -/
theorem test_coded_granules : codedGranules [zeros 14745] = 8 := by decide +kernel

/-- 12_tenants_isolation: nine refills of 200 take 3,776 tokens to 5,576, and a bucket stops at BURST. -/
theorem test_refill : ((List.range 9).foldl (fun b k => Bucket.refill b (1000 * k) 200 65536) { tokens := 3776 }).tokens = 5576 := by decide +kernel

/-- R429: 700 and 724 go to bin 11, 725 to bin 12. -/
theorem test_bins : (monBin 700, monBin 724, monBin 725, monBin 15, monBin 16, monBin 524288) = (11, 11, 12, 0, 1, 31) := by decide +kernel

/-! ### Single steps -/

/-- A field of the state a command leads to. -/
def after {α : Type} [Inhabited α] (i : Instr) (s : State) (f : State → α) : α :=
  match exec i s with
  | .next t => f t
  | _ => default

/-- An empty queue ticks: 10 ns. -/
theorem test_tick : (match step State.reset with | .next t => t.tb.now | _ => 0) = 10 := by decide +kernel

/-- R402: TDISP version 1.0, and an SPDM version list of 1.2 and 1.3 (R81). -/
theorem test_spdm_version : after (.getVersion (.peer 63)) peerUp State.out = [.spdm (.peer 63) 0x04 [0x12, 0x13]] := by decide +kernel

/-- R435: a take at a time that is no multiple of 10 ns is refused. -/
theorem test_take_refused : after (.snapshotTake 1 7 30001 false) onS (fun t => t.snaps.length) = 0 := by decide +kernel

/-- R435: the first snapshot has SNAP_ID 1. -/
theorem test_take : after (.snapshotTake 1 7 30000 false) onS (fun t => t.snaps.map Snap.id) = [1] := by decide +kernel

/-- R446: D1 is entered at once. -/
theorem test_d1 : after (.powerD1 1) onS (fun t => t.pw.pstate) = 1 := by decide +kernel

end Sys2Proof.Tests
end

section
/-! Every command answers a next state on every path and leaves the queue as it was, so a step takes at most the front command (log entry 1). -/

namespace Sys2Proof.Machine

open Sys2Proof

/-! ### Commands that test conditions

One lemma for each command whose meaning branches: every branch ends in a next state. `fun_cases` gives the branches of the meaning itself. -/

/-! #### Control lines -/

theorem execUpgrade_answers (a : Agent) (r : LineOwn) (s : State) : ∃ s1, execUpgrade a r s = .next s1 := by
  fun_cases execUpgrade a r s <;> exact ⟨_, rfl⟩
theorem execWb_answers (a : Agent) (r : LineBack) (s : State) : ∃ s1, execWb a r s = .next s1 := by
  fun_cases execWb a r s <;> exact ⟨_, rfl⟩
theorem execSnpInv_answers (a : Agent) (line : Nat) (s : State) : ∃ s1, execSnpInv a line s = .next s1 := by
  fun_cases execSnpInv a line s <;> exact ⟨_, rfl⟩
theorem execSnpData_answers (a : Agent) (line : Nat) (s : State) : ∃ s1, execSnpData a line s = .next s1 := by
  fun_cases execSnpData a line s <;> exact ⟨_, rfl⟩
theorem execSnoopResponse_answers (a : Agent) (line : Nat) (rsp : SnpRsp) (s : State) : ∃ s1, execSnoopResponse a line rsp s = .next s1 := by
  fun_cases execSnoopResponse a line rsp s <;> exact ⟨_, rfl⟩
theorem execWbPending_answers (a : Agent) (line : Nat) (s : State) : ∃ s1, execWbPending a line s = .next s1 := by
  fun_cases execWbPending a line s <;> exact ⟨_, rfl⟩
theorem execDataCmp_answers (a : Agent) (line : Nat) (s : State) : ∃ s1, execDataCmp a line s = .next s1 := by
  fun_cases execDataCmp a line s <;> exact ⟨_, rfl⟩
theorem execWbAck_answers (a : Agent) (line : Nat) (s : State) : ∃ s1, execWbAck a line s = .next s1 := by
  fun_cases execWbAck a line s <;> exact ⟨_, rfl⟩
theorem execBirsp_answers (p l line : Nat) (s0 : State) : ∃ s1, execBirsp p l line s0 = .next s1 := by
  fun_cases execBirsp p l line s0 <;> exact ⟨_, rfl⟩
theorem execBiTimeout_answers (p l line : Nat) (s : State) : ∃ s1, execBiTimeout p l line s = .next s1 := by
  fun_cases execBiTimeout p l line s <;> exact ⟨_, rfl⟩
theorem execViewRead_answers (p l line : Nat) (s : State) : ∃ s1, execViewRead p l line s = .next s1 := by
  fun_cases execViewRead p l line s <;> exact ⟨_, rfl⟩

/-! #### Pooled memory -/

theorem execExtentAccept_answers (p l slot : Nat) (s : State) : ∃ s1, execExtentAccept p l slot s = .next s1 := by
  fun_cases execExtentAccept p l slot s <;> exact ⟨_, rfl⟩
theorem execOfferTimeout_answers (eid : Nat) (s : State) : ∃ s1, execOfferTimeout eid s = .next s1 := by
  fun_cases execOfferTimeout eid s <;> exact ⟨_, rfl⟩
theorem execReleaseDynamicCapacity_answers (p l slot : Nat) (s0 : State) : ∃ s1, execReleaseDynamicCapacity p l slot s0 = .next s1 := by
  fun_cases execReleaseDynamicCapacity p l slot s0 <;> exact ⟨_, rfl⟩
theorem execDrainComplete_answers (eid : Nat) (s : State) : ∃ s1, execDrainComplete eid s = .next s1 := by
  fun_cases execDrainComplete eid s <;> exact ⟨_, rfl⟩
theorem execDrainTimeout_answers (eid : Nat) (s : State) : ∃ s1, execDrainTimeout eid s = .next s1 := by
  fun_cases execDrainTimeout eid s <;> exact ⟨_, rfl⟩
theorem execQuarantineRelease_answers (eid : Nat) (s : State) : ∃ s1, execQuarantineRelease eid s = .next s1 := by
  fun_cases execQuarantineRelease eid s <;> exact ⟨_, rfl⟩
theorem execScrubComplete_answers (eid : Nat) (s : State) : ∃ s1, execScrubComplete eid s = .next s1 := by
  fun_cases execScrubComplete eid s <;> exact ⟨_, rfl⟩
theorem execLeaseGrace_answers (p l : Nat) (s : State) : ∃ s1, execLeaseGrace p l s = .next s1 := by
  fun_cases execLeaseGrace p l s <;> exact ⟨_, rfl⟩
theorem execLeaseExpired_answers (p l : Nat) (s : State) : ∃ s1, execLeaseExpired p l s = .next s1 := by
  fun_cases execLeaseExpired p l s <;> exact ⟨_, rfl⟩
theorem execLentPathLoss_answers (eid : Nat) (s : State) : ∃ s1, execLentPathLoss eid s = .next s1 := by
  fun_cases execLentPathLoss eid s <;> exact ⟨_, rfl⟩
theorem execHdmDbWrite_answers (p l addr : Nat) (s : State) : ∃ s1, execHdmDbWrite p l addr s = .next s1 := by
  fun_cases execHdmDbWrite p l addr s <;> exact ⟨_, rfl⟩
theorem execDonorReleased_answers (p l i : Nat) (s : State) : ∃ s1, execDonorReleased p l i s = .next s1 := by
  fun_cases execDonorReleased p l i s <;> exact ⟨_, rfl⟩
theorem execBackingFailure_answers (b : Backing) (s : State) : ∃ s1, execBackingFailure b s = .next s1 := by
  fun_cases execBackingFailure b s <;> exact ⟨_, rfl⟩
theorem execCtlCopyLoss_answers (p l : Nat) (second : Bool) (s : State) : ∃ s1, execCtlCopyLoss p l second s = .next s1 := by
  fun_cases execCtlCopyLoss p l second s <;> exact ⟨_, rfl⟩
theorem execRepairTestComplete_answers (eid : Nat) (ok : Bool) (s : State) : ∃ s1, execRepairTestComplete eid ok s = .next s1 := by
  fun_cases execRepairTestComplete eid ok s <;> exact ⟨_, rfl⟩

/-! #### Rings -/

theorem execPad_answers (p l r : Nat) (s : State) : ∃ s1, execPad p l r s = .next s1 := by
  fun_cases execPad p l r s <;> exact ⟨_, rfl⟩

/-! #### Mirrored appends -/

theorem execMirrorAck_answers (cmd item page : Nat) (s : State) : ∃ s1, execMirrorAck cmd item page s = .next s1 := by
  fun_cases execMirrorAck cmd item page s <;> exact ⟨_, rfl⟩
theorem execMirrorTimeout_answers (cmd item : Nat) (s : State) : ∃ s1, execMirrorTimeout cmd item s = .next s1 := by
  fun_cases execMirrorTimeout cmd item s <;> exact ⟨_, rfl⟩

/-! #### Collectives -/

theorem execCollResult_answers (key : CollKey) (a : CollAnswer) (hdrs : List Bytes) (s : State) : ∃ s1, execCollResult key a hdrs s = .next s1 := by
  fun_cases execCollResult key a hdrs s <;> exact ⟨_, rfl⟩
theorem execCollRecordTimeout_answers (key : CollKey) (at_ : RecordAt) (s : State) : ∃ s1, execCollRecordTimeout key at_ s = .next s1 := by
  fun_cases execCollRecordTimeout key at_ s <;> exact ⟨_, rfl⟩
theorem execCollRankTimeout_answers (cmd : Nat) (s : State) : ∃ s1, execCollRankTimeout cmd s = .next s1 := by
  fun_cases execCollRankTimeout cmd s <;> exact ⟨_, rfl⟩

/-! #### Host accesses and writes -/

theorem execHostRead_answers (p l : Nat) (space : HostSpace) (addr len : Nat) (s : State) : ∃ s1, execHostRead p l space addr len s = .next s1 := by
  fun_cases execHostRead p l space addr len s <;> exact ⟨_, rfl⟩
theorem execHostWrite_answers (p l : Nat) (space : HostSpace) (addr : Nat) (data : Bytes) (s : State) :
    ∃ s1, execHostWrite p l space addr data s = .next s1 := by
  fun_cases execHostWrite p l space addr data s <;> exact ⟨_, rfl⟩
theorem execMemWriteApply_answers (wid : Nat) (s : State) : ∃ s1, execMemWriteApply wid s = .next s1 := by
  fun_cases execMemWriteApply wid s <;> exact ⟨_, rfl⟩
theorem execFlaggedStoreApply_answers (src : Source) (s : State) : ∃ s1, execFlaggedStoreApply src s = .next s1 := by
  fun_cases execFlaggedStoreApply src s <;> exact ⟨_, rfl⟩
theorem execFlagData_answers (p l data : Nat) (s : State) : ∃ s1, execFlagData p l data s = .next s1 := by
  fun_cases execFlagData p l data s <;> exact ⟨_, rfl⟩
theorem execFlushComplete_answers (p l : Nat) (s : State) : ∃ s1, execFlushComplete p l s = .next s1 := by
  fun_cases execFlushComplete p l s <;> exact ⟨_, rfl⟩
/-- `fun_cases` stops at the pair of matches on the access check and the tenant, so the branches are split by hand. -/
theorem execAtomic_answers (src : Source) (op : AtomicOp) (addr size operand compare : Nat) (s : State) :
    ∃ s1, execAtomic src op addr size operand compare s = .next s1 := by
  unfold execAtomic
  dsimp only
  repeat' split
  all_goals exact ⟨_, rfl⟩

/-! #### Sequences and pages -/

theorem execSeqCloseFinal_answers (fabTag seqId : Nat) (s : State) : ∃ s1, execSeqCloseFinal fabTag seqId s = .next s1 := by
  fun_cases execSeqCloseFinal fabTag seqId s <;> exact ⟨_, rfl⟩
theorem execPageReadFail_answers (page tier : Nat) (revoked codeError : Bool) (s : State) :
    ∃ s1, execPageReadFail page tier revoked codeError s = .next s1 := by
  fun_cases execPageReadFail page tier revoked codeError s <;> exact ⟨_, rfl⟩

/-! #### Palettes -/

theorem execSlotFree_answers (slot : Nat) (s : State) : ∃ s1, execSlotFree slot s = .next s1 := by
  fun_cases execSlotFree slot s <;> exact ⟨_, rfl⟩
theorem execSealCoding_answers (page : Nat) (s : State) : ∃ s1, execSealCoding page s = .next s1 := by
  fun_cases execSealCoding page s <;> exact ⟨_, rfl⟩
theorem execPaletteTraining_answers (tenant set : Nat) (s : State) : ∃ s1, execPaletteTraining tenant set s = .next s1 := by
  fun_cases execPaletteTraining tenant set s <;> exact ⟨_, rfl⟩
theorem execSweepRecode_answers (die : Nat) (s : State) : ∃ s1, execSweepRecode die s = .next s1 := by
  fun_cases execSweepRecode die s <;> exact ⟨_, rfl⟩

/-! #### Recipes -/

theorem execRecipeIdFree_answers (tenant id : Nat) (s : State) : ∃ s1, execRecipeIdFree tenant id s = .next s1 := by
  fun_cases execRecipeIdFree tenant id s <;> exact ⟨_, rfl⟩
theorem execUnknownRecipe_answers (p l r : Nat) (s : State) : ∃ s1, execUnknownRecipe p l r s = .next s1 := by
  fun_cases execUnknownRecipe p l r s <;> exact ⟨_, rfl⟩
theorem execTileReceive_answers (q : Nat) (t : Tile) (s : State) : ∃ s1, execTileReceive q t s = .next s1 := by
  fun_cases execTileReceive q t s <;> exact ⟨_, rfl⟩

/-! #### Tiles and completion -/

theorem execCommandComplete_answers (cmd : Nat) (resultWriteOk recordWriteOk : Bool) (s : State) :
    ∃ s1, execCommandComplete cmd resultWriteOk recordWriteOk s = .next s1 := by
  fun_cases execCommandComplete cmd resultWriteOk recordWriteOk s <;> exact ⟨_, rfl⟩

/-! #### Power and clocks -/

theorem execRefclkLoss_answers (clk : Nat) (s : State) : ∃ s1, execRefclkLoss clk s = .next s1 := by
  fun_cases execRefclkLoss clk s <;> exact ⟨_, rfl⟩
theorem execRefclkRestored_answers (clk : Nat) (s : State) : ∃ s1, execRefclkRestored clk s = .next s1 := by
  fun_cases execRefclkRestored clk s <;> exact ⟨_, rfl⟩

/-! #### The fabric map -/

theorem execMapGossipTimer_answers (s : State) : ∃ s1, execMapGossipTimer s = .next s1 := by
  fun_cases execMapGossipTimer s <;> exact ⟨_, rfl⟩
theorem execMapGossip_answers (q : Nat) (m : FMap) (resetting : Option Nat) (s : State) : ∃ s1, execMapGossip q m resetting s = .next s1 := by
  fun_cases execMapGossip q m resetting s <;> exact ⟨_, rfl⟩
theorem execMapLossTimeout_answers (dev : Nat) (s : State) : ∃ s1, execMapLossTimeout dev s = .next s1 := by
  fun_cases execMapLossTimeout dev s <;> exact ⟨_, rfl⟩
theorem execHandoffReceive_answers (src : Nat) (seqs : List SeqImage) (entries : List PrefixImage) (s : State) :
    ∃ s1, execHandoffReceive src seqs entries s = .next s1 := by
  fun_cases execHandoffReceive src seqs entries s <;> exact ⟨_, rfl⟩
theorem execHandoffAck_answers (src : Nat) (s : State) : ∃ s1, execHandoffAck src s = .next s1 := by
  fun_cases execHandoffAck src s <;> exact ⟨_, rfl⟩
theorem execHandoffTimeout_answers (s : State) : ∃ s1, execHandoffTimeout s = .next s1 := by
  fun_cases execHandoffTimeout s <;> exact ⟨_, rfl⟩
theorem execCatchUpComplete_answers (fabTag seqId : Nat) (s : State) : ∃ s1, execCatchUpComplete fabTag seqId s = .next s1 := by
  fun_cases execCatchUpComplete fabTag seqId s <;> exact ⟨_, rfl⟩
theorem execLinkMessage_answers (k : GroupLink) (s : State) : ∃ s1, execLinkMessage k s = .next s1 := by
  fun_cases execLinkMessage k s <;> exact ⟨_, rfl⟩

/-! #### Flex ports -/

theorem execFlexLaneFailure_answers (p width : Nat) (s : State) : ∃ s1, execFlexLaneFailure p width s = .next s1 := by
  fun_cases execFlexLaneFailure p width s <;> exact ⟨_, rfl⟩
theorem execNvmeCommandComplete_answers (p cid : Nat) (ok : Bool) (s : State) : ∃ s1, execNvmeCommandComplete p cid ok s = .next s1 := by
  fun_cases execNvmeCommandComplete p cid ok s <;> exact ⟨_, rfl⟩
theorem execNvmeCommandTimeout_answers (p cid : Nat) (s : State) : ∃ s1, execNvmeCommandTimeout p cid s = .next s1 := by
  fun_cases execNvmeCommandTimeout p cid s <;> exact ⟨_, rfl⟩
theorem execNvmeAbortTimeout_answers (p cid : Nat) (s : State) : ∃ s1, execNvmeAbortTimeout p cid s = .next s1 := by
  fun_cases execNvmeAbortTimeout p cid s <;> exact ⟨_, rfl⟩

/-! #### Reliability -/

theorem execShadowCompare_answers (engine shadow third cmd item : Nat) (thirdAvailable equal : Bool) (s : State) :
    ∃ s1, execShadowCompare engine shadow third cmd item thirdAvailable equal s = .next s1 := by
  fun_cases execShadowCompare engine shadow third cmd item thirdAvailable equal s <;> exact ⟨_, rfl⟩
theorem execShadowVote_answers (cmd item : Nat) (minority : Option Nat) (s : State) : ∃ s1, execShadowVote cmd item minority s = .next s1 := by
  fun_cases execShadowVote cmd item minority s <;> exact ⟨_, rfl⟩
theorem execMemoryError_answers (u : MemUnit) (corrected : Bool) (s : State) : ∃ s1, execMemoryError u corrected s = .next s1 := by
  fun_cases execMemoryError u corrected s <;> exact ⟨_, rfl⟩
theorem execD2dWireFault_answers (dieA dieB member : Nat) (s : State) : ∃ s1, execD2dWireFault dieA dieB member s = .next s1 := by
  fun_cases execD2dWireFault dieA dieB member s <;> exact ⟨_, rfl⟩
theorem execSelftestComplete_answers (failDie : Option Nat) (s : State) : ∃ s1, execSelftestComplete failDie s = .next s1 := by
  fun_cases execSelftestComplete failDie s <;> exact ⟨_, rfl⟩
theorem execAdmitLoaded_answers (spillGroups : List (Nat × Bool)) (s : State) : ∃ s1, execAdmitLoaded spillGroups s = .next s1 := by
  fun_cases execAdmitLoaded spillGroups s <;> exact ⟨_, rfl⟩
theorem execStepBoundary_answers (s : State) : ∃ s1, execStepBoundary s = .next s1 := by
  fun_cases execStepBoundary s <;> exact ⟨_, rfl⟩

/-! #### Peer links -/

theorem execFlitTransmit_answers (q : Nat) (s : State) : ∃ s1, execFlitTransmit q s = .next s1 := by
  fun_cases execFlitTransmit q s <;> exact ⟨_, rfl⟩
theorem execFlitReceive_answers (q : Nat) (f : Flit) (s : State) : ∃ s1, execFlitReceive q f s = .next s1 := by
  fun_cases execFlitReceive q f s <;> exact ⟨_, rfl⟩
theorem execPeerTrainingDone_answers (q lanes : Nat) (presets : Bytes) (s : State) : ∃ s1, execPeerTrainingDone q lanes presets s = .next s1 := by
  fun_cases execPeerTrainingDone q lanes presets s <;> exact ⟨_, rfl⟩
theorem execPeerAuthenticated_answers (q : Nat) (chain : Bytes) (peerIdObj peerSerial : Nat) (s : State) :
    ∃ s1, execPeerAuthenticated q chain peerIdObj peerSerial s = .next s1 := by
  fun_cases execPeerAuthenticated q chain peerIdObj peerSerial s <;> exact ⟨_, rfl⟩
theorem execHandover_answers (via q lastFseq : Nat) (s : State) : ∃ s1, execHandover via q lastFseq s = .next s1 := by
  fun_cases execHandover via q lastFseq s <;> exact ⟨_, rfl⟩
theorem execLinkHoldExpiry_answers (q : Nat) (s : State) : ∃ s1, execLinkHoldExpiry q s = .next s1 := by
  fun_cases execLinkHoldExpiry q s <;> exact ⟨_, rfl⟩
theorem execSyncTimer_answers (s : State) : ∃ s1, execSyncTimer s = .next s1 := by
  fun_cases execSyncTimer s <;> exact ⟨_, rfl⟩
theorem execSyncResp_answers (q t1 t2 t3 t4 root hops sender : Nat) (replayed : Bool) (s : State) :
    ∃ s1, execSyncResp q t1 t2 t3 t4 root hops sender replayed s = .next s1 := by
  fun_cases execSyncResp q t1 t2 t3 t4 root hops sender replayed s <;> exact ⟨_, rfl⟩

/-! #### SPDM -/

theorem execKeyExchange_answers (ch : SpdmCh) (chain : Bytes) (valid : Bool) (s : State) : ∃ s1, execKeyExchange ch chain valid s = .next s1 := by
  fun_cases execKeyExchange ch chain valid s <;> exact ⟨_, rfl⟩
theorem execGetMeasurements_answers (ch : SpdmCh) (idx : Nat) (s : State) : ∃ s1, execGetMeasurements ch idx s = .next s1 := by
  fun_cases execGetMeasurements ch idx s <;> exact ⟨_, rfl⟩
theorem execKeyLifeExpiry_answers (q : Nat) (s : State) : ∃ s1, execKeyLifeExpiry q s = .next s1 := by
  fun_cases execKeyLifeExpiry q s <;> exact ⟨_, rfl⟩

/-! #### The switch cores -/

theorem execCellAdmit_answers (die inPort : Nat) (pkt : Packet) (outPort : Nat) (s0 : State) :
    ∃ s1, execCellAdmit die inPort pkt outPort s0 = .next s1 := by
  fun_cases execCellAdmit die inPort pkt outPort s0 <;> exact ⟨_, rfl⟩
theorem execCutThroughCheckResult_answers (die inPort : Nat) (ok : Bool) (s : State) :
    ∃ s1, execCutThroughCheckResult die inPort ok s = .next s1 := by
  fun_cases execCutThroughCheckResult die inPort ok s <;> exact ⟨_, rfl⟩
theorem execRouteMemberMove_answers (die inPort tc tenant dev : Nat) (s : State) :
    ∃ s1, execRouteMemberMove die inPort tc tenant dev s = .next s1 := by
  fun_cases execRouteMemberMove die inPort tc tenant dev s <;> exact ⟨_, rfl⟩
theorem execQuiesced_answers (at_ : Ingress) (s : State) : ∃ s1, execQuiesced at_ s = .next s1 := by
  fun_cases execQuiesced at_ s <;> exact ⟨_, rfl⟩

/-! #### TDISP and IDE -/

theorem execLockInterfaceRequest_answers (p l : Nat) (s : State) : ∃ s1, execLockInterfaceRequest p l s = .next s1 := by
  fun_cases execLockInterfaceRequest p l s <;> exact ⟨_, rfl⟩
theorem execGetDeviceInterfaceReport_answers (p l : Nat) (s : State) : ∃ s1, execGetDeviceInterfaceReport p l s = .next s1 := by
  fun_cases execGetDeviceInterfaceReport p l s <;> exact ⟨_, rfl⟩
theorem execStartInterfaceRequest_answers (p l : Nat) (s : State) : ∃ s1, execStartInterfaceRequest p l s = .next s1 := by
  fun_cases execStartInterfaceRequest p l s <;> exact ⟨_, rfl⟩
theorem execStopInterfaceRequest_answers (p l : Nat) (s : State) : ∃ s1, execStopInterfaceRequest p l s = .next s1 := by
  fun_cases execStopInterfaceRequest p l s <;> exact ⟨_, rfl⟩

/-! ### What every command does -/

/-- No command faults and none is refused: those that test no condition are one next state, the others answer one on each branch. -/
theorem exec_answers (c : Instr) (s : State) : ∃ t, exec c s = .next t := by
  cases c
  case refclkLoss => exact execRefclkLoss_answers ..
  case flexLaneFailure => exact execFlexLaneFailure_answers ..
  case nvmeCommandComplete => exact execNvmeCommandComplete_answers ..
  case nvmeCommandTimeout => exact execNvmeCommandTimeout_answers ..
  case nvmeAbortTimeout => exact execNvmeAbortTimeout_answers ..
  case flitTransmit => exact execFlitTransmit_answers ..
  case flitReceive => exact execFlitReceive_answers ..
  case handover => exact execHandover_answers ..
  case linkHoldExpiry => exact execLinkHoldExpiry_answers ..
  case peerTrainingDone => exact execPeerTrainingDone_answers ..
  case peerAuthenticated => exact execPeerAuthenticated_answers ..
  case keyExchange => exact execKeyExchange_answers ..
  case getMeasurements => exact execGetMeasurements_answers ..
  case keyLifeExpiry => exact execKeyLifeExpiry_answers ..
  case syncResp => exact execSyncResp_answers ..
  case cellAdmit => exact execCellAdmit_answers ..
  case cutThroughCheckResult => exact execCutThroughCheckResult_answers ..
  case routeMemberMove => exact execRouteMemberMove_answers ..
  case quiesced => exact execQuiesced_answers ..
  case extentAccept => exact execExtentAccept_answers ..
  case offerTimeout => exact execOfferTimeout_answers ..
  case releaseDynamicCapacity => exact execReleaseDynamicCapacity_answers ..
  case drainComplete => exact execDrainComplete_answers ..
  case drainTimeout => exact execDrainTimeout_answers ..
  case quarantineRelease => exact execQuarantineRelease_answers ..
  case scrubComplete => exact execScrubComplete_answers ..
  case leaseGrace => exact execLeaseGrace_answers ..
  case leaseExpired => exact execLeaseExpired_answers ..
  case lentPathLoss => exact execLentPathLoss_answers ..
  case hostRead => exact execHostRead_answers ..
  case hostWrite => exact execHostWrite_answers ..
  case hdmDbWrite => exact execHdmDbWrite_answers ..
  case memWriteApply => exact execMemWriteApply_answers ..
  case atomic => exact execAtomic_answers ..
  case donorReleased => exact execDonorReleased_answers ..
  case backingFailure => exact execBackingFailure_answers ..
  case ctlCopyLoss => exact execCtlCopyLoss_answers ..
  case repairTestComplete => exact execRepairTestComplete_answers ..
  case flagData => exact execFlagData_answers ..
  case flaggedStoreApply => exact execFlaggedStoreApply_answers ..
  case flushComplete => exact execFlushComplete_answers ..
  case upgrade => exact execUpgrade_answers ..
  case wb => exact execWb_answers ..
  case snpInv => exact execSnpInv_answers ..
  case snpData => exact execSnpData_answers ..
  case snoopResponse => exact execSnoopResponse_answers ..
  case wbPending => exact execWbPending_answers ..
  case dataCmp => exact execDataCmp_answers ..
  case wbAck => exact execWbAck_answers ..
  case birsp => exact execBirsp_answers ..
  case biTimeout => exact execBiTimeout_answers ..
  case viewRead => exact execViewRead_answers ..
  case pad => exact execPad_answers ..
  case mirrorAck => exact execMirrorAck_answers ..
  case mirrorTimeout => exact execMirrorTimeout_answers ..
  case seqCloseFinal => exact execSeqCloseFinal_answers ..
  case collResult => exact execCollResult_answers ..
  case collRecordTimeout => exact execCollRecordTimeout_answers ..
  case collRankTimeout => exact execCollRankTimeout_answers ..
  case recipeIdFree => exact execRecipeIdFree_answers ..
  case tileReceive => exact execTileReceive_answers ..
  case commandComplete => exact execCommandComplete_answers ..
  case pageReadFail => exact execPageReadFail_answers ..
  case sealCoding => exact execSealCoding_answers ..
  case paletteTraining => exact execPaletteTraining_answers ..
  case sweepRecode => exact execSweepRecode_answers ..
  case slotFree => exact execSlotFree_answers ..
  case mapGossip => exact execMapGossip_answers ..
  case mapLossTimeout => exact execMapLossTimeout_answers ..
  case handoffReceive => exact execHandoffReceive_answers ..
  case handoffAck => exact execHandoffAck_answers ..
  case catchUpComplete => exact execCatchUpComplete_answers ..
  case linkMessage => exact execLinkMessage_answers ..
  case lockInterfaceRequest => exact execLockInterfaceRequest_answers ..
  case getDeviceInterfaceReport => exact execGetDeviceInterfaceReport_answers ..
  case startInterfaceRequest => exact execStartInterfaceRequest_answers ..
  case stopInterfaceRequest => exact execStopInterfaceRequest_answers ..
  case shadowCompare => exact execShadowCompare_answers ..
  case shadowVote => exact execShadowVote_answers ..
  case memoryError => exact execMemoryError_answers ..
  case d2dWireFault => exact execD2dWireFault_answers ..
  case selftestComplete => exact execSelftestComplete_answers ..
  case admitLoaded => exact execAdmitLoaded_answers ..
  case refclkRestored => exact execRefclkRestored_answers ..
  case unknownRecipe => exact execUnknownRecipe_answers ..
  case syncTimer => exact execSyncTimer_answers ..
  case mapGossipTimer => exact execMapGossipTimer_answers ..
  case handoffTimeout => exact execHandoffTimeout_answers ..
  case stepBoundary => exact execStepBoundary_answers ..
  all_goals exact ⟨_, rfl⟩

/-- No command touches the queue of waiting commands. -/
theorem exec_pending {c : Instr} {s t : State} (h : exec c s = .next t) : t.pending = s.pending := by
  cases c with
  | por => exact execPor_pending h
  | startupPhase => exact execStartupPhase_pending h
  | modrstNPulse => exact execModrstNPulse_pending h
  | overVoltageShutdown => exact execOverVoltageShutdown_pending h
  | underVoltageLockout => exact execUnderVoltageLockout_pending h
  | underVoltageWarning => exact execUnderVoltageWarning_pending h
  | arbiterEpoch => exact execArbiterEpoch_pending h
  | enGrantSpent => exact execEnGrantSpent_pending h
  | swGrantSpent => exact execSwGrantSpent_pending h
  | linkWiden => exact execLinkWiden_pending h
  | thermalDerate => exact execThermalDerate_pending h
  | refclkLoss => exact execRefclkLoss_pending h
  | flexPortEnable => exact execFlexPortEnable_pending h
  | flexPortDisable => exact execFlexPortDisable_pending h
  | flexLinkTrained => exact execFlexLinkTrained_pending h
  | flexLaneFailure => exact execFlexLaneFailure_pending h
  | nvmeCommandComplete => exact execNvmeCommandComplete_pending h
  | nvmeCommandTimeout => exact execNvmeCommandTimeout_pending h
  | nvmeAbortTimeout => exact execNvmeAbortTimeout_pending h
  | flitTransmit => exact execFlitTransmit_pending h
  | flitReceive => exact execFlitReceive_pending h
  | replayTimeout => exact execReplayTimeout_pending h
  | peerLaneFailure => exact execPeerLaneFailure_pending h
  | peerLinkLoss => exact execPeerLinkLoss_pending h
  | handover => exact execHandover_pending h
  | linkHoldExpiry => exact execLinkHoldExpiry_pending h
  | peerPortEnable => exact execPeerPortEnable_pending h
  | presetTimeout => exact execPresetTimeout_pending h
  | peerTrainingDone => exact execPeerTrainingDone_pending h
  | peerAuthenticated => exact execPeerAuthenticated_pending h
  | getVersion => exact execGetVersion_pending h
  | getCapabilities => exact execGetCapabilities_pending h
  | negotiateAlgorithms => exact execNegotiateAlgorithms_pending h
  | getCertificate => exact execGetCertificate_pending h
  | keyExchange => exact execKeyExchange_pending h
  | finish => exact execFinish_pending h
  | getMeasurements => exact execGetMeasurements_pending h
  | keyUpdate => exact execKeyUpdate_pending h
  | keyLifeExpiry => exact execKeyLifeExpiry_pending h
  | syncReq => exact execSyncReq_pending h
  | syncResp => exact execSyncResp_pending h
  | cellAdmit => exact execCellAdmit_pending h
  | cellCross => exact execCellCross_pending h
  | cutThroughCheckResult => exact execCutThroughCheckResult_pending h
  | routeMemberMove => exact execRouteMemberMove_pending h
  | quiesce => exact execQuiesce_pending h
  | quiesced => exact execQuiesced_pending h
  | revoke => exact execRevoke_pending h
  | halt => exact execHalt_pending h
  | alloc => exact execAlloc_pending h
  | extentAccept => exact execExtentAccept_pending h
  | offerTimeout => exact execOfferTimeout_pending h
  | releaseDynamicCapacity => exact execReleaseDynamicCapacity_pending h
  | revokeExtent => exact execRevokeExtent_pending h
  | drainComplete => exact execDrainComplete_pending h
  | drainTimeout => exact execDrainTimeout_pending h
  | quarantineRelease => exact execQuarantineRelease_pending h
  | scrubComplete => exact execScrubComplete_pending h
  | leaseDoorbell => exact execLeaseDoorbell_pending h
  | leaseGrace => exact execLeaseGrace_pending h
  | leaseExpired => exact execLeaseExpired_pending h
  | lentPathLoss => exact execLentPathLoss_pending h
  | hostRead => exact execHostRead_pending h
  | hostWrite => exact execHostWrite_pending h
  | hdmDbWrite => exact execHdmDbWrite_pending h
  | memWriteApply => exact execMemWriteApply_pending h
  | atomic => exact execAtomic_pending h
  | donorOffer => exact execDonorOffer_pending h
  | donorRevoke => exact execDonorRevoke_pending h
  | donorReleased => exact execDonorReleased_pending h
  | donorPortDown => exact execDonorPortDown_pending h
  | publishExtent => exact execPublishExtent_pending h
  | backingFailure => exact execBackingFailure_pending h
  | ctlCopyLoss => exact execCtlCopyLoss_pending h
  | repairBacking => exact execRepairBacking_pending h
  | repairTestComplete => exact execRepairTestComplete_pending h
  | flagData => exact execFlagData_pending h
  | flaggedStoreApply => exact execFlaggedStoreApply_pending h
  | flushCtrl => exact execFlushCtrl_pending h
  | flushComplete => exact execFlushComplete_pending h
  | rdShared => exact execRdShared_pending h
  | rdOwn => exact execRdOwn_pending h
  | upgrade => exact execUpgrade_pending h
  | wb => exact execWb_pending h
  | snpInv => exact execSnpInv_pending h
  | snpData => exact execSnpData_pending h
  | snoopResponse => exact execSnoopResponse_pending h
  | wbPending => exact execWbPending_pending h
  | dataCmp => exact execDataCmp_pending h
  | wbAck => exact execWbAck_pending h
  | birsp => exact execBirsp_pending h
  | biTimeout => exact execBiTimeout_pending h
  | viewRead => exact execViewRead_pending h
  | viewRestore => exact execViewRestore_pending h
  | fence => exact execFence_pending h
  | sqTail => exact execSqTail_pending h
  | sqEnable => exact execSqEnable_pending h
  | sqDisable => exact execSqDisable_pending h
  | sqDrained => exact execSqDrained_pending h
  | cqCfg => exact execCqCfg_pending h
  | cqHead => exact execCqHead_pending h
  | eqHead => exact execEqHead_pending h
  | cqWriteFail => exact execCqWriteFail_pending h
  | pad => exact execPad_pending h
  | attend => exact execAttend_pending h
  | attendBwd => exact execAttendBwd_pending h
  | append => exact execAppend_pending h
  | mirror => exact execMirror_pending h
  | mirrorAck => exact execMirrorAck_pending h
  | mirrorTimeout => exact execMirrorTimeout_pending h
  | lookupPrefix => exact execLookupPrefix_pending h
  | publishPrefix => exact execPublishPrefix_pending h
  | pin => exact execPin_pending h
  | unpin => exact execUnpin_pending h
  | migrate => exact execMigrate_pending h
  | openSeq => exact execOpenSeq_pending h
  | closeSeq => exact execCloseSeq_pending h
  | seqCloseFinal => exact execSeqCloseFinal_pending h
  | allreduce => exact execAllreduce_pending h
  | reduceScatter => exact execReduceScatter_pending h
  | allgather => exact execAllgather_pending h
  | filterTopk => exact execFilterTopk_pending h
  | collContribution => exact execCollContribution_pending h
  | collBlockPartial => exact execCollBlockPartial_pending h
  | collResult => exact execCollResult_pending h
  | collRecordTimeout => exact execCollRecordTimeout_pending h
  | collRankTimeout => exact execCollRankTimeout_pending h
  | gatherRows => exact execGatherRows_pending h
  | loadTensor => exact execLoadTensor_pending h
  | freeTensor => exact execFreeTensor_pending h
  | tensorScrub => exact execTensorScrub_pending h
  | installPalette => exact execInstallPalette_pending h
  | freePalette => exact execFreePalette_pending h
  | describe => exact execDescribe_pending h
  | installRecipe => exact execInstallRecipe_pending h
  | removeRecipe => exact execRemoveRecipe_pending h
  | recipeIdFree => exact execRecipeIdFree_pending h
  | composedRecipe => exact execComposedRecipe_pending h
  | tileReceive => exact execTileReceive_pending h
  | commandComplete => exact execCommandComplete_pending h
  | tierDemotion => exact execTierDemotion_pending h
  | pageMoveComplete => exact execPageMoveComplete_pending h
  | pageReadFail => exact execPageReadFail_pending h
  | sealCoding => exact execSealCoding_pending h
  | paletteTraining => exact execPaletteTraining_pending h
  | sweepRecode => exact execSweepRecode_pending h
  | slotFree => exact execSlotFree_pending h
  | mapGossip => exact execMapGossip_pending h
  | mapLossTimeout => exact execMapLossTimeout_pending h
  | handoffReceive => exact execHandoffReceive_pending h
  | handoffAck => exact execHandoffAck_pending h
  | catchUpComplete => exact execCatchUpComplete_pending h
  | linkMessage => exact execLinkMessage_pending h
  | tenantEnable => exact execTenantEnable_pending h
  | tenantDisable => exact execTenantDisable_pending h
  | tenantRemove => exact execTenantRemove_pending h
  | shapeWrite => exact execShapeWrite_pending h
  | ldEnable => exact execLdEnable_pending h
  | ldDisable => exact execLdDisable_pending h
  | getTdispVersion => exact execGetTdispVersion_pending h
  | getTdispCapabilities => exact execGetTdispCapabilities_pending h
  | lockInterfaceRequest => exact execLockInterfaceRequest_pending h
  | getDeviceInterfaceReport => exact execGetDeviceInterfaceReport_pending h
  | getDeviceInterfaceState => exact execGetDeviceInterfaceState_pending h
  | startInterfaceRequest => exact execStartInterfaceRequest_pending h
  | stopInterfaceRequest => exact execStopInterfaceRequest_pending h
  | tdiError => exact execTdiError_pending h
  | ideKmKeyProg => exact execIdeKmKeyProg_pending h
  | kSetGo => exact execKSetGo_pending h
  | enroll => exact execEnroll_pending h
  | unenroll => exact execUnenroll_pending h
  | quorumK => exact execQuorumK_pending h
  | claimDone => exact execClaimDone_pending h
  | certSlot1 => exact execCertSlot1_pending h
  | fabricAnchor => exact execFabricAnchor_pending h
  | sdKey => exact execSdKey_pending h
  | sdKeyClear => exact execSdKeyClear_pending h
  | lockWrite => exact execLockWrite_pending h
  | debugOpen => exact execDebugOpen_pending h
  | nonceExpiry => exact execNonceExpiry_pending h
  | shadowCompare => exact execShadowCompare_pending h
  | shadowVote => exact execShadowVote_pending h
  | engineHardEvent => exact execEngineHardEvent_pending h
  | engineWatchdog => exact execEngineWatchdog_pending h
  | engineSelftestDone => exact execEngineSelftestDone_pending h
  | engineDrained => exact execEngineDrained_pending h
  | memoryError => exact execMemoryError_pending h
  | hbmChannelMoveDone => exact execHbmChannelMoveDone_pending h
  | d2dWireFault => exact execD2dWireFault_pending h
  | dieLoss => exact execDieLoss_pending h
  | dieReturn => exact execDieReturn_pending h
  | selftest => exact execSelftest_pending h
  | selftestComplete => exact execSelftestComplete_pending h
  | admitDevice => exact execAdmitDevice_pending h
  | admitLoaded => exact execAdmitLoaded_pending h
  | expel => exact execExpel_pending h
  | dtlsHandshake => exact execDtlsHandshake_pending h
  | sessionIdleTimeout => exact execSessionIdleTimeout_pending h
  | get => exact execGet_pending h
  | set => exact execSet_pending h
  | propose => exact execPropose_pending h
  | sign => exact execSign_pending h
  | subscribe => exact execSubscribe_pending h
  | keepalive => exact execKeepalive_pending h
  | dropped => exact execDropped_pending h
  | relayGet => exact execRelayGet_pending h
  | relayTimeout => exact execRelayTimeout_pending h
  | readWord => exact execReadWord_pending h
  | addrDup => exact execAddrDup_pending h
  | mgmtAddrWrite => exact execMgmtAddrWrite_pending h
  | wsqAck => exact execWsqAck_pending h
  | blockSelect => exact execBlockSelect_pending h
  | fwStage => exact execFwStage_pending h
  | fwCommit => exact execFwCommit_pending h
  | snapshotTake => exact execSnapshotTake_pending h
  | snapshotRead => exact execSnapshotRead_pending h
  | snapshotCancel => exact execSnapshotCancel_pending h
  | snapshotEdge => exact execSnapshotEdge_pending h
  | monCtrlClear => exact execMonCtrlClear_pending h
  | monScopeWrite => exact execMonScopeWrite_pending h
  | resetModule => exact execResetModule_pending h
  | resetWarm => exact execResetWarm_pending h
  | resetDie => exact execResetDie_pending h
  | resetPort => exact execResetPort_pending h
  | resetEngine => exact execResetEngine_pending h
  | resetDone => exact execResetDone_pending h
  | powerD0 => exact execPowerD0_pending h
  | powerD1 => exact execPowerD1_pending h
  | powerD2 => exact execPowerD2_pending h
  | powerD3 => exact execPowerD3_pending h
  | refclkRestored => exact execRefclkRestored_pending h
  | peerSignalDetect => exact execPeerSignalDetect_pending h
  | fastRetrainDone => exact execFastRetrainDone_pending h
  | peerPortDisable => exact execPeerPortDisable_pending h
  | flexLinkDown => exact execFlexLinkDown_pending h
  | collChunkAbort => exact execCollChunkAbort_pending h
  | unknownRecipe => exact execUnknownRecipe_pending h
  | modEnFall => exact execModEnFall_pending h
  | modEnRise => exact execModEnRise_pending h
  | thermalTrip => exact execThermalTrip_pending h
  | syncTimer => exact execSyncTimer_pending h
  | mapGossipTimer => exact execMapGossipTimer_pending h
  | handoffTimeout => exact execHandoffTimeout_pending h
  | shaperRefill => exact execShaperRefill_pending h
  | reportWindowEnd => exact execReportWindowEnd_pending h
  | claimWindowExpiry => exact execClaimWindowExpiry_pending h
  | healthWindowEnd => exact execHealthWindowEnd_pending h
  | stepBoundary => exact execStepBoundary_pending h
  | warmHoldExpiry => exact execWarmHoldExpiry_pending h
  | powerTransitionDone => exact execPowerTransitionDone_pending h

/-! ### What a step does -/

theorem step_of_pending_nil {s : State} (h : s.pending = []) : step s = .next s.tick := by
  simp only [step, h]

theorem step_of_pending_cons {s : State} {c : Instr} {rest : List Instr} (h : s.pending = c :: rest) :
    step s = exec c { s with pending := rest } := by
  simp only [step, h]

/-- A step answers a next state whose queue is the rest of the queue; the rest of an empty queue is empty. -/
theorem step_answers (s : State) : ∃ t, step s = .next t ∧ t.pending = s.pending.tail := by
  cases hq : s.pending with
  | nil => exact ⟨s.tick, step_of_pending_nil hq, s.tick_pending.trans hq⟩
  | cons c rest =>
    obtain ⟨t, ht⟩ := exec_answers c { s with pending := rest }
    exact ⟨t, (step_of_pending_cons hq).trans ht, exec_pending ht⟩

/-- Settles O2: a waiting command answers a next state and leaves the queue's rest, and a tick leaves the empty queue. -/
theorem everyStepTakesOneCommand : Obligations.EveryStepTakesOneCommand :=
  ⟨step_answers, fun _ _ _ => exec_pending⟩

/-- Settles O1: the queue's front is the command that `step` matches. -/
theorem stepRunsFrontCommand : Obligations.StepRunsFrontCommand :=
  fun _ _ _ => step_of_pending_cons rfl

end Sys2Proof.Machine
end
